-- ==== Sys2Proof/Syntax.lean ====
section
/-! DEFINITION. The commands of the block: one constructor per row of the table of operations and events. An operand is
what the block's own state does not determine: an address, a key, a measured code, a verdict of an accelerator. -/

namespace Sys2Proof

/-- What BOOT observes outside the state: whether the attached memory answers the read command of each slot (R64), the microcode load (R179: the lowest word that mismatched in the
third load, if it did), the verifier's and the random-number generator's start-up tests (R431), whether `ON_REQ` is
high (R223), and V(`CRES`) in mV where BOOT would commit a mark (R451). -/
structure BootView where
  answers0 : Bool
  answers1 : Bool
  microcode : Option Nat
  mver : BitVec 16
  verifierOk : Bool
  trngOk : Bool
  onReq : Bool
  vcres : Nat
  deriving DecidableEq, Repr

/-- Where an access on the host link or the target port began: with its command in the state that holds, before RUN entry (R72), or while PARKED held
or its wake had not been over for 200 µs (R74, R376). -/
inductive FrameStart where
  | here
  | boot
  | park
  deriving DecidableEq, Repr

/-- The commands. Each constructor is one row of the table; its summary stands before it. -/
inductive Instr where
  /-- VAO has stayed at or above 3.10 V for 1 ms, so VAO good is asserted and the AO domain runs. (R54) -/
  | vaoGood (strap pack : Bool)
  /-- VAO stays below 2.90 V for 10 µs, so VAO good is withdrawn and the device goes to OFF. (R56) -/
  | vaoGoodLoss
  /-- PMID rises above 4.30 V; together with VAO good this gives always-on good, and BOOT and the Opening begin. (R55) -/
  | pmidCoreReady (strap : Bool)
  /-- PMID falls below 4.10 V while VAO good holds; outside HIBERNATE this starts a full reset with cause PMID_LOSS. (R56) -/
  | pmidCoreReadyLoss
  /-- BOOT completes with a verified image applied and the microcode loaded; the Opening ends, power-up program 0 starts, and pending history entries and evidence are committed. (R19) -/
  | runEntry (v : BootView)
  /-- BOOT finds no usable image or sees the strap, the recovery key or an OTP region 0 or 1 alarm, and enters ROM download mode. (R465) -/
  | recoveryEntry (v : BootView)
  /-- 10 ms after RECOVERY entry the device releases HOSTRST_N. (R465) -/
  | recoveryHostrstRelease
  /-- RESET_N is held low for at least 1 µs, so a full reset with cause PIN starts. (R29) -/
  | resetNLow
  /-- The power-down program of reset step 3 has not ended within 250 ms, so all outputs are forced off. (R30) -/
  | powerDownTimeout
  /-- RESET_N rises while the reset waits in step 6, so the device samples the GPIO0 strap and enters BOOT. (R30) -/
  | resetNRelease (strap : Bool)
  /-- A write of key 0xD1CE_0F0F to SYS_RESET starts a full reset to the setup image with cause CMD. (R33) -/
  | sysResetImage
  /-- A write of key 0xD1CE_0EC0 to SYS_RESET starts a full reset into RECOVERY with cause CMD_RCV. (R33) -/
  | sysResetRecovery
  /-- A write of 0x9A4C_0001 to SYS_PWR_REQ places a Park request as one sequencer action. (R95) -/
  | parkRequest
  /-- A write of 0x9A4C_0002 to SYS_PWR_REQ places a hibernate request as one sequencer action. (R95) -/
  | hibernateRequest
  /-- A GPIO with code 0x7 is held high for 1 ms, which places one Park request for that assertion. (R95) -/
  | parkRequestGpio (k : Fin 12)
  /-- Once the queues and the push buffer are empty after program 2 and the residue, the state arbiter enters PARK. (R17) -/
  | parkEntry
  /-- A wake source fires on its edge; it sets its SYS_WAKE_STATUS bit and, where enabled, wakes the device from PARK or HIBERNATE. (R90) -/
  | wakeSource (k : Fin 8) (retOk strap : Bool)
  /-- A write to SYS_GPIO_OUT updates the host-owned general outputs and reports RESOURCE_OWNED for any other bit it would change. (R97) -/
  | sysGpioOutWrite (v : Word)
  /-- A write to a register that has no row of its own applies its fields under the access codes and the reserved-value rule. (R1) -/
  | registerWrite (addr : BitVec 16) (v : Word)
  /-- An active FSYNC edge is timestamped and drives the frame-timing state machine: search, acquire, lock, tracking step or restart. (R102) -/
  | fsyncEdge (wait : Nat) (rising : Bool) (width : Nat)
  /-- The counter passes SYNC_PIP + WIN with no edge in the window; one miss is counted, and the MISS-th consecutive miss enters HOLDOVER. (R484) -/
  | frameMiss
  /-- Holdover has lasted HOLD_MAX frames, so the unit enters FREE. (R102) -/
  | holdoverLimit
  /-- The crystal fails: AO falls back to the RC oscillator, the RTC epoch becomes invalid and holdover goes to FREE. (R440) -/
  | xtalFail
  /-- The pip counter wraps to 0; the frame number advances and a latched burst map applies. (R111) -/
  | frameWrap
  /-- At pip 61,440 a pending burst map is latched for the next frame. (R111) -/
  | bmapLatch
  /-- A write of 0xB1A5_0001 to FRM_BMAP_CTRL copies the next map into the pending slot as persistent. (R110) -/
  | bmapCommitPersistent
  /-- A write of 0xB1A5_0002 to FRM_BMAP_CTRL copies the next map into the pending slot as one-frame. (R110) -/
  | bmapCommitOneFrame
  /-- A write to FRM_CFG that changes EN sends the frame timing unit to IDLE or to SEARCH. (R102) -/
  | frmCfgWrite (v : Word)
  /-- An enabled pip-scheduler slot reaches its pip in a matching frame and fires its action. (R118) -/
  | slotFire (n : Fin 32)
  /-- A scheduler GPIO pulse ends after 2^w pips and the pin goes low. (R121) -/
  | gpioPulseEnd (k : Fin 12)
  /-- At pip 128 a frame-strobe GPIO with code 0xB is driven low. (R122) -/
  | frameStrobeEnd
  /-- A charger probe step deferred out of a transmit or quiet segment fires at the first pip of the next free segment. (R122) -/
  | probeDeferredFire
  /-- The stack comparator calls for a turn, and the home rack gives an on-time to the tile at the pointer, subject to the off-time and valley-limit rules. (R139) -/
  | turn (u : Fin 17) (vpmid : Nat) (held off zero : BitVec 16) (nlim : Bool)
  /-- A tile's turn has been withheld at 64 consecutive opportunities, so TIL_VLIM is emitted and TILE_VLIM is raised. (R159) -/
  | tilVlim (t : Fin 48) (vbat : Nat)
  /-- The slope detector triggers, every ready tile of the stack starts one on-time and a 2 µs lockout begins. (R144) -/
  | fullRoll (n : Fin 16) (vpmid : Nat) (held off : BitVec 16)
  /-- The 2 µs Full Roll lockout ends. (R145) -/
  | fullRollLockoutEnd (n : Fin 16)
  /-- A STK_ROLL record that counts the Full Rolls is emitted, at most once per stack per 1 ms. (R146) -/
  | stkRoll (n : Fin 16)
  /-- The shed dwell reaches SHED_DWELL slots, so a shed becomes due. (R149) -/
  | shedDwellDone (n : Fin 16)
  /-- The add dwell reaches ADD_DWELL slots, so an add becomes due. (R149) -/
  | addDwellDone (n : Fin 16)
  /-- A due shed is made at a slot that meets the conditions, removing the tile at position NACT − 1. (R151) -/
  | tileShed (n : Fin 16)
  /-- A due add is made at a slot that meets the conditions, restoring the tile at position NACT. (R151) -/
  | tileAdd (n : Fin 16)
  /-- A stack's soft-start ramp reaches its target and STKn_STAT.SS clears. (R153) -/
  | softStartEnd (n : Fin 16)
  /-- the magnitude of e ≤ PG_WIN has held for 8 slots after soft-start, so stack power-good asserts and Full Roll and shedding are armed. (R154) -/
  | stackPgAssert (n : Fin 16)
  /-- the magnitude of e > PG_WIN for 2 slots or e saturates, so stack power-good withdraws and PG_LOST is set. (R154) -/
  | stackPgWithdraw (n : Fin 16)
  /-- In PARK a kept stack's output falls below 90% of the held reference for 10 µs, so its power-good withdraws. (R155) -/
  | parkPgLoss (n : Fin 16)
  /-- A disabled stack's output reaches the discharge end level, so its tiles go high-impedance. (R156) -/
  | dischargeEnd (n : Fin 16)
  /-- Discharge has not finished 50 ms after the disable, so the tiles go high-impedance and STACK_DIS_TO is raised. (R156) -/
  | stkDisTimeout (n : Fin 16) (vout : Nat)
  /-- The stack overvoltage comparator trips: all tiles go high-impedance within 200 ns and STACK_OV is raised. (R157) -/
  | stkOvTrip (n : Fin 16)
  /-- A tripped stack is disabled with its output below VOV − 100 mV, so it leaves its trip. (R158) -/
  | ovTripRelease (n : Fin 16)
  /-- A 256 µs measurement window ends, and STKn_MEAS and TILn_IMEAN take the window means. (R483) -/
  | measWindowEnd (imean iout vout : List Int) (vpmid : Nat)
  /-- A stack's 125 ns engine slot runs: mailbox, inputs, four loops, selection, integrators, load line, notch, feed-forward and DAC write. (R161) -/
  | engineSlot (n : Fin 16) (e i : Int) (corr : Nat)
  /-- A write to RW fields of STKn or STKn_ENG registers enters the stack mailbox, waiting for the mailbox credit. (R138) -/
  | stackMailboxWrite (n : Fin 16) (w : List (BitVec 16 × Word))
  /-- The 1 ms after an ENG_LIMIT record ends with takeovers counted, so a new record is made. (R181) -/
  | engLimit (n : Fin 16)
  /-- An uncorrectable microcode error halts the engine and raises ENG_MEM. (R180) -/
  | engHalt (addr : Nat)
  /-- A read of ENG_PROBE0 latches ENG_PROBE1 to ENG_PROBE3 from the same slot. (R182) -/
  | engProbe0Read
  /-- A tracking converter completes one conversion of its AINn, every 250 ns. (R191) -/
  | trackConversion (m : Fin 4) (code : Fin 4096)
  /-- A pulse-tracking GPIO completes a period, which is measured and judged valid or not. (R192) -/
  | pulsePeriodEnd (k : Fin 12) (p h : Nat)
  /-- LOSS consecutive invalid slots put the stack into manual hold, and STACK_SRC_LOSS is raised. (R194) -/
  | manualHold (n : Fin 16)
  /-- With RETURN set, 64 consecutive valid slots end manual hold. (R195) -/
  | sourceReturn (n : Fin 16)
  /-- The L slots of a profile move have passed, so ts equals dest, MOVE clears and STK_PROF is emitted as done. (R198) -/
  | profileDone (n : Fin 4)
  /-- A domain's raw power-good change holds for PG_FILT µs and is accepted as a transition. (R209) -/
  | pgTransition (d : Fin 12)
  /-- A RAMP domain's filtered power-good has been 1 for PG_STABLE, so the domain becomes ON. (R210) -/
  | domainStable (d : Fin 12)
  /-- FAIL_GAP elapses during a failure shutdown, so the next tier of domains is disabled. (R232) -/
  | failTier
  /-- 1 µs after a step ends, the sequencer samples the pending request and starts the next step. (R215) -/
  | nextStep
  /-- Opcode 0x1 enables a domain's outputs and GPIOs, or releases HOSTRST_N. (R217) -/
  | stepEnable (vos : List Nat)
  /-- Opcode 0x2 disables a domain, dependants first, or asserts HOSTRST_N. (R218) -/
  | stepDisable
  /-- Opcode 0x3 starts a wait of a given count and unit. (R216) -/
  | stepWait
  /-- The time of a WAIT step elapses and the step ends. (R215) -/
  | waitEnd
  /-- Opcode 0x4 starts a power-good check of a domain with a window. (R211) -/
  | stepCheck
  /-- A CHECK finds power-good stable with few enough transitions and passes; the domain becomes ON. (R211) -/
  | checkPass
  /-- A CHECK window ends without a pass, so the check fails with cause TIMEOUT. (R211) -/
  | checkTimeout
  /-- An off-CHECK finds power-good 0 and discharge ended for PG_STABLE and passes. (R212) -/
  | offCheckPass
  /-- Opcode 0x5 jumps within its program when its condition holds. (R219) -/
  | stepJump
  /-- Opcode 0x6 queues one satellite transaction, waiting for a credit and, if WAIT is set, for completion. (R238) -/
  | stepSend
  /-- Opcode 0x7 records its tag and may emit SEQ_MARK. (R221) -/
  | stepMark
  /-- Opcode 0x0 ends the program; after program 1 or 2 the residue domains are disabled. (R228) -/
  | stepEnd
  /-- A program has run 256 steps without a WAIT or CHECK and is ended. (R215) -/
  | seqRunaway
  /-- An accepted ON_REQ edge in level mode makes an ON or an OFF request. (R222) -/
  | onReqEdge (rising : Bool)
  /-- A write of 0x5E90_0001 to SEQ_REQ makes an ON request. (R222) -/
  | seqOn
  /-- A write of 0x5E90_0002 to SEQ_REQ makes an OFF request. (R222) -/
  | seqOff
  /-- A write of 0x5E90_0104 to 0x5E90_0107 to SEQ_REQ requests a start of program 4 to 7. (R226) -/
  | seqProgramStart (p : Fin 4)
  /-- A power request leaves the sequencer queue and replaces, or is absorbed by, the pending request. (R224) -/
  | seqRequestTaken
  /-- After every soft-start has ended in REVERSING, program 1 starts at its mirror entry point. (R227) -/
  | reversal
  /-- TOFF_MIN has elapsed since the last power-down, so program 0 starts. (R229) -/
  | offDwellEnd
  /-- A pending general program starts when the phase is UP or DOWN and nothing runs or is pending. (R226) -/
  | programStart
  /-- Writing 1 to a bit of SEQ_DOM_FAIL makes the FAILED domain OFF and ends its lockout. (R233) -/
  | domainFailClear (mask : BitVec 12)
  /-- An LDO's ramp has ended and its output has held at or above 92% for 2 µs, so its power-good asserts. (R245) -/
  | ldoPgAssert (n : Fin 8)
  /-- An LDO's output stays below 88% for 2 µs, so its power-good withdraws. (R245) -/
  | ldoPgWithdraw (n : Fin 8)
  /-- An LDO's current limit holds for 1 ms, so it turns off and OUTPUT_OCP is raised. (R246) -/
  | ldoOcpTrip (n : Fin 8)
  /-- A load switch's ramp has ended and its output holds at or above 90% of LSW_IN for 2 µs, so its power-good asserts. (R249) -/
  | lswPgAssert (n : Fin 6)
  /-- A load switch's current limit holds for OCP_T, so it trips off. (R250) -/
  | lswOcpTrip (n : Fin 6)
  /-- A load switch's output stays 50 mV above LSW_IN for 10 µs, so the switch turns off and REV is set. (R250) -/
  | lswReverse (n : Fin 6)
  /-- A guarded assertion's duration elapses, so the sink is re-applied and OUT_GUARD_OFF is emitted. (R255) -/
  | guardDurationEnd (n : Fin 2)
  /-- A release key written to OUT_G_RELEASE ends the named guarded output's assertion. (R255) -/
  | guardRelease (v : Word)
  /-- A guarded driver detects GATE_LOW, DESAT, STUCK or CP; the assertion ends and GUARD_FAULT is raised. (R256) -/
  | guardFault (n : Fin 2) (bit : Fin 4) (vsrc : Nat)
  /-- A front-end loss condition qualifies: the FETs are pulled off, the front end enters QUAL and the pack takes over PMID. (R261) -/
  | vinLoss (causes : BitVec 3) (vin : Nat)
  /-- VIN_SNS has stayed at or above 6.5 V for treq_eff, so the front end leaves QUAL for START. (R264) -/
  | vinQualified (vin rise : Nat) (retOk strap : Bool)
  /-- PMID comes within 0.5 V of VIN_SNS, so the front end goes from START to ON. (R260) -/
  | feStartDone
  /-- The front end has been in START for 50 ms without reaching ON, so it returns to QUAL with loss cause 0x5. (R260) -/
  | feStartTimeout (vin : Nat)
  /-- PMID reaches 18.5 V, so the front end enters CLAMP. (R260) -/
  | feClamp
  /-- VIN_SNS stays below 18.3 V for 100 µs, so the front end returns from CLAMP to ON. (R260) -/
  | feClampRelease
  /-- The front end has been in CLAMP for 1 s, so it goes to QUAL with loss cause 0x4. (R260) -/
  | feClampTimeout (vin : Nat)
  /-- The front end has stayed out of QUAL for 10 s, so unstable and k return to 0. (R266) -/
  | unstableEnd
  /-- PMID falls below the pack less 20 mV, so the pack-path gate is driven on. (R262) -/
  | idealDiodeOn
  /-- PMID rises above the pack plus 10 mV, so the pack-path gate is pulled off. (R262) -/
  | idealDiodeOff
  /-- The PMID supply source changes between vehicle and pack, which updates the budget and the charger suspend. (R263) -/
  | pmidSourceChange (low : Bool)
  /-- PMID stays below the shutdown level for 1 ms in RUN or PARK, so a PMID shutdown request is made. (R269) -/
  | pmidShutdown (v : Nat)
  /-- PMID stays below 5.30 V for 2 µs, so every tile is cut and the enabled stacks are disabled. (R270) -/
  | pmidUv (v : Nat)
  /-- PMID rises above 5.50 V, so the undervoltage cut ends. (R270) -/
  | pmidUvRelease
  /-- A write to PP_CHG_CFG.EN starts the charger through decision E or ABSENT, or turns it OFF. (R276) -/
  | chgEnableWrite (v : Word) (vbat : Nat)
  /-- A suspend condition arises while the charger is charging, so it enters SUSPEND and its timers pause. (R275) -/
  | chgSuspend (headroom : Bool)
  /-- No suspend condition has held for 100 ms, so the charger re-enters through decision E. (R276) -/
  | chgResume (vbat : Nat)
  /-- VBAT_SNS has stayed at or above 6.10 V for 10 ms, so the charger goes from PRECHARGE to CC. (R276) -/
  | chgPrechargeDone
  /-- VBAT_SNS stays below 5.90 V for 10 ms in CC, so the charger returns to PRECHARGE. (R276) -/
  | chgCcToPrecharge
  /-- The charger has been in voltage control for 10 ms, so it enters CV. (R276) -/
  | chgCcToCv
  /-- The charger has been in current control for 10 ms in CV, so it returns to CC. (R276) -/
  | chgCvToCc
  /-- The current stays below 10 × ITERM for 1 s in CV, so charging terminates into TOPOFF or DONE and the gauge is signalled. (R276) -/
  | chgTermination
  /-- TOPOFF minutes have passed in TOPOFF, so the charger enters DONE. (R276) -/
  | chgTopoffEnd
  /-- VBAT_SNS has stayed below vset − VRECH for 1 s in DONE, so charging restarts. (R276) -/
  | chgRecharge (vbat : Nat)
  /-- 30 min have been counted in PRECHARGE, so fault PRE_TO latches. (R277) -/
  | chgPrechargeTimeout (vbat : Nat)
  /-- SAFETY hours have been counted in charging states, so fault SAFETY latches. (R277) -/
  | chgSafetyTimeout (vbat : Nat)
  /-- The pack overvoltage comparator stays tripped for 10 µs, so the charger tiles are cut and BAT_OV latches. (R273) -/
  | batOv (vbat : Nat)
  /-- Host writes clear every PP_CHG_FAULT bit, so the charger leaves FAULT through decision E. (R276) -/
  | chgFaultClear (v : Word) (vbat : Nat)
  /-- The probe step's duration ends and the current target is restored. (R278) -/
  | probeEnd
  /-- ieff crosses a tile threshold, so T41 is switched in or out at a free segment. (R271) -/
  | chgTileCount
  /-- In FAULT the charger status GPIO changes level every 500 ms. (R279) -/
  | chgStatusToggle
  /-- The presence conditions come to hold, so the charger goes from ABSENT to QUALIFY. (R280) -/
  | packPresent (hold : Bool)
  /-- The presence conditions have held for 2 s, or 10 ms at VAO good, so the pack path is enabled and the ID is measured and compared. (R281) -/
  | packQualified (id : Nat) (vbat : Nat)
  /-- The extra second in QUALIFY after an ID mismatch ends, and the charger proceeds through decision E. (R281) -/
  | packRestEnd (vbat : Nat)
  /-- A removal sign occurs: the charger tiles and the pack path are cut, BAT_ABSENT is raised and the gauge freezes. (R283) -/
  | packRemoval (sign : Fin 5)
  /-- Once per second in PARK both pack biases are applied for 100 µs and the lines are checked. (R284) -/
  | parkPackCheck (ntcOpen idOpen : Bool)
  /-- The gauge converter completes a 30.5 µs window of current and voltage codes and adds them to the sums. (R287) -/
  | gaugeWindow (i : Int) (v : Nat)
  /-- An update interval ends and the engine counts charge, then runs compensation, anchors, disagreement and reporting. (R289) -/
  | gaugeUpdate
  /-- A scheduler action 0x7 latches the next complete window into GG_SNAP. (R291) -/
  | gaugeSnapshot (i : Int) (v : Nat)
  /-- A transmit-run or charger-step trigger on crossing 2 starts an impedance capture. (R294) -/
  | captureTrigger (probe : Bool)
  /-- The post windows of a capture end, and the capture is checked and the band impedance learned or rejected. (R295) -/
  | captureComplete
  /-- JPER minutes have passed since the last stored commit, so a learned-value commit is queued. (R303) -/
  | gaugePeriodicCommit
  /-- At the later of RUN entry and pack qualification the gauge restores or relearns its values and becomes valid. (R305) -/
  | gaugeStart
  /-- A free converter starts the highest-ranked waiting conversion. (R312) -/
  | conversionStart (cv : Fin 4)
  /-- A conversion or Doubles sample ends and writes ADC_RESn; windows and diagnostics evaluate it. (R321) -/
  | conversionEnd (cv : Fin 4) (code : BitVec 12)
  /-- A write of a channel to ADC_URGn requests an urgent conversion on that converter. (R313) -/
  | adcUrg (n : Fin 4) (v : Word)
  /-- A write of a channel to ADC_REQ requests a single conversion. (R315) -/
  | adcReq (v : Word)
  /-- A scan round starts once the previous round has ended and PER has passed, taking pending configuration. (R317) -/
  | scanRoundStart
  /-- A pip-placed request for the Doubles channel starts a 64-sample capture at the next Doubles sample. (R320) -/
  | dblCaptureStart
  /-- A Doubles capture stores its 64th sample, so DONE is set and ADC_DBL_DONE is emitted. (R320) -/
  | adcDblDone
  /-- A write to ADC_DBL_CFG sets the Doubles enable and channel, or is refused with RESOURCE_OWNED. (R320) -/
  | adcDblCfgWrite (v : Word)
  /-- The owner writes ADC_WINn_CFG or ADC_WINn_THR, which resets the window's counts. (R323) -/
  | adcWinConfig (n : Fin 32) (thr : Bool) (v : Word)
  /-- The 100 µs thermal evaluation forms TJ and the thermistor temperatures, the warning and throttle states, and th. (R327) -/
  | thermalEval
  /-- A sensor comparator trips, so all outputs go off and the shutdown latch is set. (R335) -/
  | thermalShutdown (sensor : Fin 10)
  /-- Once per second in HIBERNATE, TS6 is checked and the shutdown latch clears below the release level. (R337) -/
  | hibTs6Check (below : Bool)
  /-- A fault source is raised; its pending bit is set and the reaction of its effective colour applies. (R344) -/
  | faultRaise (src : Fin 41) (detail : BitVec 16)
  /-- Writing 1 to FLT_PEND bits clears them, except for level sources that are still active. (R345) -/
  | fltPendClear (m : Fin 2) (v : Word)
  /-- Every 10 µs each protected memory scrubs one word and writes back a corrected one. (R340) -/
  | memoryScrub (mem : Fin 4) (err : Fin 3) (addr : BitVec 16)
  /-- Every 1 ms a fault-log body refused for low reserve is retried. (R451) -/
  | faultLogRetry
  /-- A write to FLT_INJ with the key arms an injection, or is refused. (R352) -/
  | fltInjArm (v : Word)
  /-- An armed injection has not been flagged within 1 ms, so it is disarmed and INJ_FAIL is raised. (R353) -/
  | injFail
  /-- A write to FLT_LOG_IDX copies the selected fault-log body into FLT_LOG0 to FLT_LOG3. (R350) -/
  | fltLogIdxWrite (v : Word)
  /-- A service word written to WDG_SERVICE serves a seat, or is judged EARLY or DOUBLE. (R358) -/
  | wdgService (v : Word)
  /-- A seat's first period ends unserved, so a MISSED violation occurs and regular periods start. (R357) -/
  | seatFirstPeriodEnd (n : Fin 8) (pc : Word)
  /-- A seat's regular period ends; if it was not served, a MISSED violation occurs. (R357) -/
  | seatPeriodEnd (n : Fin 8) (pc : Word)
  /-- The compatible-mode second period ends, so a full reset with cause HOST_WDG starts. (R360) -/
  | secondPeriodEnd
  /-- The supervisor core serves the core watchdog through its private port. (R363) -/
  | coreWdgService
  /-- No core service arrives within the period, so a full reset with cause CORE_WDG starts. (R363) -/
  | coreWdgExpiry (pc : Word)
  /-- The WDX expiry pulse reaches its OTP length, and WDX follows R45 again. (R364) -/
  | wdxPulseEnd
  /-- Every 100 ms an evidence commit refused for low reserve is retried. (R451) -/
  | evidenceRetry
  /-- A write to WDG_EVID_IDX copies the selected snapshot into the WDG_EVID registers. (R366) -/
  | wdgEvidIdxWrite (v : Word)
  /-- A host-link frame with command 0x52 is admitted or refused, checked and answered with status and data. (R369) -/
  | hlRead (start : FrameStart) (cmd : Byte) (addr : BitVec 16) (n : BitVec 8) (crc : BitVec 16) (retOk : Bool)
  /-- A host-link frame with command 0x57 is admitted or refused, checked and its words applied in address order. (R369) -/
  | hlWrite (start : FrameStart) (addr : BitVec 16) (n : BitVec 8) (data : List Word) (crc : BitVec 16) (retOk : Bool)
  /-- HL_CS_N rises before the end of the request CRC, so the frame is not executed and ABORT is counted. (R373) -/
  | hlFrameAbort (cut : Option Nat) (retOk : Bool)
  /-- A block's record request reaches the event unit, which makes, stamps and buffers the record or loses it. (R381) -/
  | eventRequest
  /-- The oldest buffered record commits once the ring is armed and a credit and a slot are free, and PROD advances. (R385) -/
  | recordCommit
  /-- A push frame's EP_FRM falls, so DONE advances and the credit returns. (R385) -/
  | pushDone
  /-- A write to EVT_CONS returns ring slots or is discarded and sets CONS_BAD. (R386) -/
  | evtConsWrite (v : Word)
  /-- A write of 0x7E5A_0001 to EVT_ARM arms the ring and zeroes its counts. (R387) -/
  | evtArm
  /-- A write of 0x7E5A_0000 to EVT_ARM disarms the ring after its committed records drain. (R387) -/
  | evtDisarm
  /-- A write to EVT_MASK masks blocks and removes their buffered records. (R389) -/
  | evtMaskWrite (v : Word)
  /-- A write to EVT_ACK resamples level sources, making a new record or returning a source to idle. (R390) -/
  | evtAck (v : Word)
  /-- An idle enabled level source becomes active, so an EVT_LEVEL record is made and the source becomes reported. (R390) -/
  | evtLevel (k : Fin 8)
  /-- A write of 0x7E5A_0C01 to EVT_CLR clears EVT_LOST. (R393) -/
  | clearLost
  /-- A write of 0x7E5A_0C02 to EVT_CLR clears EVT_MASKED. (R393) -/
  | clearMasked
  /-- A write of 0x7E5A_0C04 to EVT_CLR clears EVT_HL_CNT. (R393) -/
  | clearHlCnt
  /-- The oldest unconsumed delivered record has waited HOLDOFF × 100 µs, so the RING interrupt cause is set. (R392) -/
  | ringHoldoff
  /-- Two-wire command 0x10 writes registers as a host access at the stop. (R403) -/
  | regWrite (start : FrameStart) (addr : BitVec 16) (data : List Word) (pec : Option Byte) (count : Byte)
  /-- Two-wire command 0x11 reads registers and returns status, words and PEC. (R402) -/
  | regRead (start : FrameStart) (addr : BitVec 16) (n : BitVec 8) (late : Bool)
  /-- Two-wire command 0x12 returns the status word of the last register access on the port. (R403) -/
  | status (start : FrameStart)
  /-- Two-wire command 0x20 in satellite mode resets the miss count and may end a master loss. (R413) -/
  | heartbeat (start : FrameStart) (arg : BitVec 16) (pec : Byte)
  /-- Two-wire command 0x21 in satellite mode makes a sequencer request for a program. (R414) -/
  | progStart (start : FrameStart) (arg : BitVec 16) (pec : Byte)
  /-- SCL is held low for 25 ms, so each port abandons its transaction and releases the lines. (R399) -/
  | twoWireTimeout (target ctl : Bool)
  /-- The target has stretched SCL for 1 ms without a free credit, so it does not acknowledge the next byte. (R404) -/
  | targetCreditTimeout
  /-- The controller starts the next queued transaction, after bus recovery where needed. (R407) -/
  | twcTransaction (stuck : Bool) (pulses : Nat) (freed sclLow : Bool) (arb : Fin 4)
  /-- A controller transaction completes or fails, which updates satellite contact, heartbeat and credit state. (R407) -/
  | twcTransactionEnd (cause : Fin 8) (data : List Byte)
  /-- 250 µs after a NACK failure the controller repeats the transaction. (R407) -/
  | twcRetry (arb : Fin 4)
  /-- A write to TWB_HX_CTRL with START queues a host controller transaction. (R408) -/
  | twbHxStart (v : Word)
  /-- Every 100 ms the controller queues a HEARTBEAT for each READY satellite. (R412) -/
  | heartbeatTimer
  /-- A satellite-mode heartbeat window ends without a HEARTBEAT; the third miss declares the master lost and makes an OFF request. (R413) -/
  | masterWindowEnd
  /-- A filtered falling edge on an alert GPIO sets ALERT and emits TWB_ALERT. (R416) -/
  | twbAlert (k : Fin 12)
  /-- A write to OTP_RD_ADDR starts an array read of one word. (R423) -/
  | otpRead (v : Word)
  /-- An array read ends with the corrected data and status recorded. (R423) -/
  | otpReadDone (err : Fin 3)
  /-- The program key in OTP_PROG_CTRL programs the selected word, or is refused. (R424) -/
  | otpProgram
  /-- A word programming ends, is read back, updates its shadow or reports VERIFY, and emits OTP_PROG. (R426) -/
  | otpProgramDone (ok : Bool)
  /-- The advance key in OTP_PROG_CTRL programs rollback step words up to the image's count. (R428) -/
  | otpAdvance
  /-- The key in SEC_CHAL_REQ issues a nonce into a challenge slot, evicting the oldest if all 4 are taken. (R432) -/
  | challengeRequest
  /-- A nonce expires CHAL_LIFE seconds after issue. (R432) -/
  | nonceExpiry
  /-- The grant key in SEC_SUBMIT starts verification of the buffered grant. (R435) -/
  | grantSubmit
  /-- The anchor key in SEC_SUBMIT starts verification of the buffered time anchor. (R435) -/
  | anchorSubmit
  /-- The verifier finishes its checks and refuses the submission or queues the security record. (R436) -/
  | verifyDone
  /-- The security-record commit completes, so the grant's action passes to OUT or the anchor sets the RTC. (R437) -/
  | submissionCommitDone
  /-- A random-number health test fails, so TRNG_HEALTH becomes active and challenges are refused. (R431) -/
  | trngHealth
  /-- The RTC seconds count advances after 32,768 AO ticks, which may fire the RTC alarm wake. (R440) -/
  | rtcSecond (retOk strap : Bool)
  /-- The journal takes the next queued commit and starts it, or refuses it for low reserve on CRES. (R450) -/
  | journalCommitStart (vcres ce : Nat)
  /-- A journal commit finishes writing its CRC, and the credit and producer are released. (R448) -/
  | journalCommitDone
  /-- A start key in UPD_CTRL commits the slot state and START and begins erasing the named slot. (R459) -/
  | updStart (slot : Fin 2)
  /-- The slot erase completes, or times out, and the download enters RECEIVING. (R461) -/
  | updEraseDone (ok : Bool)
  /-- A write to UPD_BLK checks the offset and starts programming the buffered block. (R460) -/
  | updBlock (v : Word)
  /-- A block's programming and read-back end, passing or entering FAILED. (R461) -/
  | updBlockDone (ok : Bool)
  /-- The verify key starts verification of the written slot. (R462) -/
  | updVerify
  /-- Verification ends with VERIFIED or FAILED committed. (R462) -/
  | updVerifyDone
  /-- The activate key marks the verified slot active and commits ACTIVATED. (R459) -/
  | updActivate
  /-- The abort key ends the download after the current memory command and commits ABORT_HOST. (R459) -/
  | updAbort
  /-- The pip counter leaves a receive-quiet segment, so held event-push records, two-wire controller transactions, attached-memory commands and scan conversions may start again. (R116) -/
  | receiveQuietEnd
  /-- A load switch's output falls below 85% of LSW_IN, so its power-good withdraws. (R249) -/
  | lswPgWithdraw (n : Fin 6)
  /-- An LDO's enable or VSET ramp reaches the set voltage and OUT_LDOn_STAT.SS clears. (R244) -/
  | ldoRampEnd (n : Fin 8)
  /-- A load switch's ramp from 0 V to LSW_IN ends and OUT_LSWn_STAT.SS clears. (R249) -/
  | lswRampEnd (n : Fin 6)
  /-- An LDO enters current limit, which sets ILIM and starts the 1 ms overcurrent count. (R246) -/
  | ldoCurrentLimit (n : Fin 8)
  /-- A load switch enters current limit, which sets ILIM and starts the OCP_T count. (R250) -/
  | lswCurrentLimit (n : Fin 6)
  /-- An enabled LDO's input falls below 0.95 V, so OUT_LDOn_STAT.UVIN is set. (R243) -/
  | ldoUvin (n : Fin 8)
  /-- A GPIO with code 0x5 changes level, changing its domain's raw power-good and starting the PG_FILT filter. (R207) -/
  | externalPgInput (k : Fin 12) (level : Bool)
  /-- The 32.768 kHz crystal runs again, so AO returns to the crystal, SYS_STATE.XTAL_FAIL clears and the XTAL_FAIL source ceases while the RTC stays invalid. (R440) -/
  | crystalReturn
  /-- The condition of a kind-L fault source ends of itself, for example the PLL relocks, VCORE returns to range, CRES rises above JRNL_MIN or the TRNG tests pass, so the source stops being active and its pending bit may be cleared. (R345) -/
  | faultConditionEnd (src : Fin 41)
  /-- A two-wire target transaction ends in an unexpected stop or start, so it is not executed and TWB_TGT_CNT.ABORT increments. (R405) -/
  | targetTransactionAbort
  /-- A write to UPD_HIST_IDX copies the selected update-history entry into UPD_HIST0 to UPD_HIST3 within 20 µs. (R457) -/
  | updHistIdxWrite (v : Word)
  deriving DecidableEq, Repr

end Sys2Proof
end

