-- ==== Sys2Proof/Decode.lean ====
section
/-! DEFINITION. The words of the table. The table of operations and events gives no row any bits: its commands are operations and
events on pins, not words, so no word spells a command. -/

namespace Sys2Proof

/-- The command that the bits of a table row spell: none, because no row has bits. -/
def decodeTableWord (_nbits _w : Nat) : Option Instr := none

end Sys2Proof
end

