-- ==== Sys2Proof/Machine/Table.lean ====
section
/-! DEFINITION. Look-up and update of the sparse tables that hold registers, memories and numbered records. -/

namespace Sys2Proof.Machine

/-- The entry under key `k`; `d` where none is listed. -/
def tget {α : Type} (m : SMap α) (k : Nat) (d : α) : α :=
  match m with
  | [] => d
  | (a, v) :: r => if k < a then d else if a = k then v else tget r k d

/-- The table with `v` under key `k`; writing the value `d` that an unlisted key reads as removes the entry. -/
def tset {α : Type} [DecidableEq α] (m : SMap α) (k : Nat) (d v : α) : SMap α :=
  match m with
  | [] => if v = d then [] else [(k, v)]
  | (a, w) :: r =>
    if k < a then (if v = d then (a, w) :: r else (k, v) :: (a, w) :: r)
    else if a = k then
      (if v = d then r.dropWhile (fun e => decide (e.1 ≤ k)) else (k, v) :: r)
    else (a, w) :: tset r k d v

/-- Canonical form: keys strictly rising and no entry equal to the value `d` of an unlisted key. -/
def tcanon {α : Type} [DecidableEq α] (d : α) : SMap α → Bool
  | [] => true
  | [(_, v)] => decide (v ≠ d)
  | (a, v) :: (b, w) :: r => decide (v ≠ d) && decide (a < b) && tcanon d ((b, w) :: r)

/-- Keys strictly rising. -/
def tsorted {α : Type} : SMap α → Bool
  | [] => true
  | [_] => true
  | (a, _) :: (b, w) :: r => decide (a < b) && tsorted ((b, w) :: r)

end Sys2Proof.Machine
end

