-- ==== Sys2Proof/Machine/Operands.lean ====
section
/-! DEFINITION. The forms in which values travel: bit fields, signed fields, bytes in both orders (R6, R368), saturation and
rounding (R7), and the three cyclic redundancy codes (R378, R446, and the two-wire PEC). -/

namespace Sys2Proof.Machine

/-- Bits `lo` to `lo + w - 1` of `x`. -/
def bits (x lo w : Nat) : Nat := (x / 2 ^ lo) % 2 ^ w

/-- Bit `i` of `x`. -/
def bitOf (x i : Nat) : Bool := decide (bits x i 1 = 1)

/-- `x` with bit `i` set. -/
def setBit (x i : Nat) : Nat := x ||| 2 ^ i

/-- `x` with bit `i` clear. -/
def clrBit (x i : Nat) : Nat := if bitOf x i then x - 2 ^ i else x

/-- `x` with bit `i` equal to `b`. -/
def putBit (x i : Nat) (b : Bool) : Nat := if b then setBit x i else clrBit x i

/-- The bits of `x` that `m` has clear. -/
def andNot (x m : Nat) : Nat := x - (x &&& m)

/-- 1 for true, 0 for false. -/
def b2n (b : Bool) : Nat := if b then 1 else 0

/-- The signed value of the two's complement field `x` of width `w`. -/
def signed (x w : Nat) : Int := if x < 2 ^ (w - 1) then (x : Int) else (x : Int) - 2 ^ w

/-- The two's complement field of width `w` that holds `x`. -/
def unsigned (x : Int) (w : Nat) : Nat := (x % (2 ^ w : Int)).toNat

/-- `x + 1`, saturating at `m`. -/
def incSat (x m : Nat) : Nat := if x < m then x + 1 else x

/-- `x + d`, saturating at `m`. -/
def addSat (x d m : Nat) : Nat := min (x + d) m

/-- `wrap16` of R7. -/
def wrap16 (x : Int) : Nat := (x % 65536).toNat

/-- `sat` of R7. -/
def sat (a lo hi : Int) : Int := if a < lo then lo else if a > hi then hi else a

/-- `sat16` of R7. -/
def sat16 (a : Int) : Int := sat a (-32768) 32767

/-- `sat40` of R7. -/
def sat40 (a : Int) : Int := sat a (-549755813888) 549755813887

/-- `a >> n` of R7: it rounds towards minus infinity. -/
def asr (a : Int) (n : Nat) : Int := a.fdiv (2 ^ n)

/-- `rshr` of R7: it rounds half up. -/
def rshr (a : Int) (n : Nat) : Int := if n = 0 then a else asr (a + 2 ^ (n - 1)) n

/-- `a << n` of R7. -/
def shl (a : Int) (n : Nat) : Int := a * 2 ^ n

/-- `a / b` of R7: it truncates towards zero. -/
def tdiv (a b : Int) : Int := a.tdiv b

/-- The byte of value `x` modulo 256. -/
def byte (x : Nat) : Byte := BitVec.ofNat 8 x

/-- `x` in `n` bytes, least significant first (R6). -/
def leBytes : Nat → Nat → List Byte
  | 0, _ => []
  | n + 1, x => byte x :: leBytes n (x / 256)

/-- `x` in `n` bytes, most significant first (R368). -/
def beBytes (n x : Nat) : List Byte := (leBytes n x).reverse

/-- The value of bytes, least significant first. -/
def ofLe : List Byte → Nat
  | [] => 0
  | b :: r => b.toNat + 256 * ofLe r

/-- `n` bytes of a list from place `i`; zero bytes beyond its end. -/
def slice (l : List Byte) (i n : Nat) : List Byte :=
  let t := (l.drop i).take n
  t ++ List.replicate (n - t.length) 0

/-- The little-endian field of `n` bytes at place `i`. -/
def leField (l : List Byte) (i n : Nat) : Nat := ofLe (slice l i n)

/-- A payload or body of exactly `n` bytes: cut, or filled with zero bytes. -/
def padTo (n : Nat) (l : List Byte) : List Byte := slice l 0 n

/-- One step of a CRC taken most significant bit first, in a register of `w` bits with polynomial `p`. -/
def crcShift (w p : Nat) : Nat → Nat → Nat
  | 0, c => c
  | k + 1, c => crcShift w p k (if bitOf c (w - 1) then ((c * 2) % 2 ^ w) ^^^ p else (c * 2) % 2 ^ w)

/-- CRC-16/CCITT-FALSE (R378). -/
def crc16 (l : List Byte) : Nat :=
  l.foldl (fun c b => crcShift 16 0x1021 8 (c ^^^ (b.toNat * 256))) 0xFFFF

/-- The CRC-8 of polynomial 0x07 and initial value 0: the packet error code of the two-wire ports. -/
def crc8 (l : List Byte) : Nat :=
  l.foldl (fun c b => crcShift 8 0x07 8 (c ^^^ b.toNat)) 0

/-- Eight reflected steps of the CRC-32 of R446. -/
def crc32Step : Nat → Nat → Nat
  | 0, c => c
  | k + 1, c => crc32Step k (if c % 2 = 1 then (c / 2) ^^^ 0xEDB88320 else c / 2)

/-- CRC-32/ISO-HDLC (R446). -/
def crc32 (l : List Byte) : Nat :=
  (l.foldl (fun c b => crc32Step 8 (c ^^^ b.toNat)) 0xFFFFFFFF) ^^^ 0xFFFFFFFF

end Sys2Proof.Machine
end

