-- ==== Sys2Proof/Machine/RegMap.lean ====
section
/-! DEFINITION. The register map: every register of the chapters' register tables, with the place, access code and
Reset value of each field (R1 to R5, R9). A field is named by the register and field names of the manual. -/

namespace Sys2Proof.Machine

/-- The access codes of R1. -/
inductive Acc where
  | rw | ro | w1c | wo | lk
  deriving DecidableEq, Repr

/-- One field of a register: lowest bit, width, access, Reset value, and the least and greatest value that its encoding lists. -/
structure FieldRow where
  lo : Nat
  w : Nat
  acc : Acc
  reset : Nat
  min : Nat
  max : Nat
  deriving DecidableEq, Repr

/-- A register, or a run of `count` alike registers `stride` bytes apart. -/
structure RegRow where
  base : Nat
  stride : Nat
  count : Nat
  fields : List FieldRow
  deriving DecidableEq, Repr

/-- A field of one register: `key` is the register's byte address times 32 plus the field's lowest bit;
`reset` is its Reset column. -/
structure FRef where
  key : Nat
  w : Nat
  reset : Nat
  deriving DecidableEq, Repr

/-- The field of width `w` at bit `lo` of the register at byte address `a`, with Reset value `r`. -/
abbrev fr (a lo w r : Nat) : FRef := ⟨a * 32 + lo, w, r⟩

abbrev F.SYS_ID_PART : FRef := fr 0x0000 16 16 18454
abbrev F.SYS_ID_STEP : FRef := fr 0x0000 8 8 1
abbrev F.SYS_ID_FW : FRef := fr 0x0000 0 8 0
abbrev F.SYS_STATE_XTAL_FAIL : FRef := fr 0x0004 10 1 0
abbrev F.SYS_STATE_RET_VALID : FRef := fr 0x0004 9 1 0
abbrev F.SYS_STATE_SLOT : FRef := fr 0x0004 8 1 0
abbrev F.SYS_STATE_STATE : FRef := fr 0x0004 0 3 2
abbrev F.SYS_RESET_KEY : FRef := fr 0x0008 0 32 0
abbrev F.SYS_RESET_CAUSE_PMID_LOSS : FRef := fr 0x000C 6 1 0
abbrev F.SYS_RESET_CAUSE_CORE_WDG : FRef := fr 0x000C 5 1 0
abbrev F.SYS_RESET_CAUSE_HOST_WDG : FRef := fr 0x000C 4 1 0
abbrev F.SYS_RESET_CAUSE_CMD_RCV : FRef := fr 0x000C 3 1 0
abbrev F.SYS_RESET_CAUSE_CMD : FRef := fr 0x000C 2 1 0
abbrev F.SYS_RESET_CAUSE_PIN : FRef := fr 0x000C 1 1 0
abbrev F.SYS_RESET_CAUSE_POR : FRef := fr 0x000C 0 1 1
abbrev F.SYS_CREDIT0_ADC : FRef := fr 0x0010 24 5 12
abbrev F.SYS_CREDIT0_SEQ : FRef := fr 0x0010 16 5 8
abbrev F.SYS_CREDIT0_MBX : FRef := fr 0x0010 8 5 16
abbrev F.SYS_CREDIT0_HL : FRef := fr 0x0010 0 5 12
abbrev F.SYS_CREDIT1_TOTAL : FRef := fr 0x0014 24 7 64
abbrev F.SYS_CREDIT1_EVP : FRef := fr 0x0014 16 5 4
abbrev F.SYS_CREDIT1_TWC : FRef := fr 0x0014 8 5 8
abbrev F.SYS_CREDIT1_JNL : FRef := fr 0x0014 0 5 4
abbrev F.SYS_CREDIT_WAIT_EVP : FRef := fr 0x0018 6 1 0
abbrev F.SYS_CREDIT_WAIT_JNL : FRef := fr 0x0018 5 1 0
abbrev F.SYS_CREDIT_WAIT_TWC : FRef := fr 0x0018 4 1 0
abbrev F.SYS_CREDIT_WAIT_ADC : FRef := fr 0x0018 3 1 0
abbrev F.SYS_CREDIT_WAIT_MBX : FRef := fr 0x0018 2 1 0
abbrev F.SYS_CREDIT_WAIT_SEQ : FRef := fr 0x0018 1 1 0
abbrev F.SYS_CREDIT_WAIT_HL : FRef := fr 0x0018 0 1 0
abbrev F.SYS_XOVR_FLAGS_OVR : FRef := fr 0x001C 0 14 0
abbrev F.SYS_XOVR_CNT_CNT3 (n : Nat) : FRef := fr (0x0020 + 4 * n) 24 8 0
abbrev F.SYS_XOVR_CNT_CNT2 (n : Nat) : FRef := fr (0x0020 + 4 * n) 16 8 0
abbrev F.SYS_XOVR_CNT_CNT1 (n : Nat) : FRef := fr (0x0020 + 4 * n) 8 8 0
abbrev F.SYS_XOVR_CNT_CNT0 (n : Nat) : FRef := fr (0x0020 + 4 * n) 0 8 0
abbrev F.SYS_BOOT_STATUS_OWNER_OPEN : FRef := fr 0x0100 3 1 0
abbrev F.SYS_BOOT_STATUS_OTP_ALARM : FRef := fr 0x0100 2 1 0
abbrev F.SYS_BOOT_STATUS_FALLBACK : FRef := fr 0x0100 1 1 0
abbrev F.SYS_BOOT_STATUS_STRAP : FRef := fr 0x0100 0 1 0
abbrev F.SYS_BOOT_TIME_US : FRef := fr 0x0104 0 20 0
abbrev F.SYS_SETUP_ID_ID : FRef := fr 0x0108 0 32 0
abbrev F.SYS_LOAD_ERR_CAUSE (n : Nat) : FRef := fr (0x0110 + 4 * n) 16 8 0
abbrev F.SYS_LOAD_ERR_CLASS (n : Nat) : FRef := fr (0x0110 + 4 * n) 8 8 0
abbrev F.SYS_LOAD_ERR_INDEX (n : Nat) : FRef := fr (0x0110 + 4 * n) 0 8 0
abbrev F.SYS_OTP_ALARM_CORR : FRef := fr 0x0118 16 16 0
abbrev F.SYS_OTP_ALARM_REGION : FRef := fr 0x0118 0 7 0
abbrev F.SYS_CLAIM_SEL_CLASS : FRef := fr 0x0120 8 8 0
abbrev F.SYS_CLAIM_SEL_INDEX : FRef := fr 0x0120 0 8 0
abbrev F.SYS_CLAIM_OWNER_CLAIMED : FRef := fr 0x0124 16 1 0
abbrev F.SYS_CLAIM_OWNER_OWNER : FRef := fr 0x0124 8 8 0
abbrev F.SYS_CLAIM_OWNER_QUAL : FRef := fr 0x0124 0 8 0
abbrev F.SYS_WAKE_CFG_FILT : FRef := fr 0x0200 24 2 1
abbrev F.SYS_WAKE_CFG_POL : FRef := fr 0x0200 16 5 0
abbrev F.SYS_WAKE_CFG_HIB_EN : FRef := fr 0x0200 8 7 65
abbrev F.SYS_WAKE_CFG_PARK_EN : FRef := fr 0x0200 0 8 65
abbrev F.SYS_WAKE_STATUS_FIRED : FRef := fr 0x0204 0 8 0
abbrev F.SYS_WAKE_ALARM_SEC : FRef := fr 0x0208 0 32 0
abbrev F.SYS_PWR_REQ_KEY : FRef := fr 0x020C 0 32 0
abbrev F.SYS_GPIO_IN_LEVEL : FRef := fr 0x0300 0 12 0
abbrev F.SYS_GPIO_OUT_OUT : FRef := fr 0x0304 0 12 0
abbrev F.FRM_CFG_WIN : FRef := fr 0x0400 16 12 256
abbrev F.FRM_CFG_LOCK_TOL : FRef := fr 0x0400 8 8 16
abbrev F.FRM_CFG_MISS : FRef := fr 0x0400 4 3 1
abbrev F.FRM_CFG_POL : FRef := fr 0x0400 1 1 0
abbrev F.FRM_CFG_EN : FRef := fr 0x0400 0 1 1
abbrev F.FRM_SYNC_HOLD_MAX : FRef := fr 0x0404 16 16 64
abbrev F.FRM_SYNC_SYNC_PIP : FRef := fr 0x0404 0 16 0
abbrev F.FRM_STATE_HELD : FRef := fr 0x0408 16 16 0
abbrev F.FRM_STATE_STATE : FRef := fr 0x0408 0 3 0
abbrev F.FRM_PIP_FRAME : FRef := fr 0x040C 16 16 0
abbrev F.FRM_PIP_PIP : FRef := fr 0x040C 0 16 0
abbrev F.FRM_FRAME_FRAME : FRef := fr 0x0410 0 32 0
abbrev F.FRM_INC_INC : FRef := fr 0x0414 0 32 0
abbrev F.FRM_ERR_ERR : FRef := fr 0x0418 0 24 0
abbrev F.FRM_PERIOD_N : FRef := fr 0x041C 0 24 0
abbrev F.FRM_STAT_REPLACED : FRef := fr 0x0420 7 1 0
abbrev F.FRM_STAT_DEFER : FRef := fr 0x0420 6 1 0
abbrev F.FRM_STAT_FIRE_LOST : FRef := fr 0x0420 5 1 0
abbrev F.FRM_STAT_RESTART : FRef := fr 0x0420 4 1 0
abbrev F.FRM_STAT_MISSED : FRef := fr 0x0420 3 1 0
abbrev F.FRM_STAT_SPUR : FRef := fr 0x0420 2 1 0
abbrev F.FRM_STAT_PERIOD_CHG : FRef := fr 0x0420 1 1 0
abbrev F.FRM_STAT_LOCK_FAIL : FRef := fr 0x0420 0 1 0
abbrev F.FRM_CNT_SKIP : FRef := fr 0x0424 24 8 0
abbrev F.FRM_CNT_RESTART : FRef := fr 0x0424 16 8 0
abbrev F.FRM_CNT_MISS : FRef := fr 0x0424 8 8 0
abbrev F.FRM_CNT_SPUR : FRef := fr 0x0424 0 8 0
abbrev F.FRM_BMAP_NEXT_LO_SEG : FRef := fr 0x0430 0 32 0
abbrev F.FRM_BMAP_NEXT_HI_SEG : FRef := fr 0x0434 0 32 0
abbrev F.FRM_BMAP_ACT_LO_SEG : FRef := fr 0x0438 0 32 0
abbrev F.FRM_BMAP_ACT_HI_SEG : FRef := fr 0x043C 0 32 0
abbrev F.FRM_BMAP_CTRL_KEY : FRef := fr 0x0440 0 32 0
abbrev F.FRM_BMAP_STAT_ONE_ACT : FRef := fr 0x0444 18 1 0
abbrev F.FRM_BMAP_STAT_PEND_ONE : FRef := fr 0x0444 17 1 0
abbrev F.FRM_BMAP_STAT_PEND : FRef := fr 0x0444 16 1 0
abbrev F.FRM_BMAP_STAT_APPLIED : FRef := fr 0x0444 0 16 0
abbrev F.FRM_QUIET_CFG_GUARD : FRef := fr 0x0448 16 11 64
abbrev F.FRM_QUIET_CFG_ADC_HOLD : FRef := fr 0x0448 3 1 0
abbrev F.FRM_QUIET_CFG_NVM_HOLD : FRef := fr 0x0448 2 1 0
abbrev F.FRM_QUIET_CFG_TWC_HOLD : FRef := fr 0x0448 1 1 0
abbrev F.FRM_QUIET_CFG_EP_HOLD : FRef := fr 0x0448 0 1 0
abbrev F.FRM_SLOT_CFG_EN (n : Nat) : FRef := fr (0x0480 + 4 * n) 31 1 0
abbrev F.FRM_SLOT_CFG_REP (n : Nat) : FRef := fr (0x0480 + 4 * n) 28 2 0
abbrev F.FRM_SLOT_CFG_ACTION (n : Nat) : FRef := fr (0x0480 + 4 * n) 24 4 0
abbrev F.FRM_SLOT_CFG_TARGET (n : Nat) : FRef := fr (0x0480 + 4 * n) 16 8 0
abbrev F.FRM_SLOT_CFG_PIP (n : Nat) : FRef := fr (0x0480 + 4 * n) 0 16 0
abbrev F.FRM_SLOT_FIRED_FIRED : FRef := fr 0x0500 0 32 0
abbrev F.TIL_STAT_USE (n : Nat) : FRef := fr (0x0800 + 16 * n) 16 5 31
abbrev F.TIL_STAT_POS (n : Nat) : FRef := fr (0x0800 + 16 * n) 8 4 0
abbrev F.TIL_STAT_ACTIVE (n : Nat) : FRef := fr (0x0800 + 16 * n) 7 1 0
abbrev F.TIL_STAT_HIZ (n : Nat) : FRef := fr (0x0800 + 16 * n) 6 1 1
abbrev F.TIL_STAT_VLIM (n : Nat) : FRef := fr (0x0800 + 16 * n) 3 1 0
abbrev F.TIL_STAT_NLIM (n : Nat) : FRef := fr (0x0800 + 16 * n) 2 1 0
abbrev F.TIL_STAT_TON_MIN (n : Nat) : FRef := fr (0x0800 + 16 * n) 1 1 0
abbrev F.TIL_STAT_TOFF_MIN (n : Nat) : FRef := fr (0x0800 + 16 * n) 0 1 0
abbrev F.TIL_IMEAN_I (n : Nat) : FRef := fr (0x0804 + 16 * n) 0 16 0
abbrev F.TIL_CNT_VLIM (n : Nat) : FRef := fr (0x0808 + 16 * n) 16 16 0
abbrev F.TIL_CNT_TURNS (n : Nat) : FRef := fr (0x0808 + 16 * n) 0 16 0
abbrev F.TIL_RACK_STAT_HOME (n : Nat) : FRef := fr (0x0B00 + 4 * n) 16 16 0
abbrev F.TIL_RACK_STAT_LINK_UP (n : Nat) : FRef := fr (0x0B00 + 4 * n) 9 1 0
abbrev F.TIL_RACK_STAT_LINK_DN (n : Nat) : FRef := fr (0x0B00 + 4 * n) 8 1 0
abbrev F.TIL_RACK_STAT_WIRED (n : Nat) : FRef := fr (0x0B00 + 4 * n) 0 8 0
abbrev F.STK_VSET_VSET (n : Nat) : FRef := fr (0x0C00 + 64 * n) 0 15 2000
abbrev F.STK_LL_LL (n : Nat) : FRef := fr (0x0C04 + 64 * n) 0 11 0
abbrev F.STK_CFG_FSW (n : Nat) : FRef := fr (0x0C08 + 64 * n) 16 6 20
abbrev F.STK_CFG_RINJ (n : Nat) : FRef := fr (0x0C08 + 64 * n) 8 3 3
abbrev F.STK_CFG_DEM (n : Nat) : FRef := fr (0x0C08 + 64 * n) 4 1 0
abbrev F.STK_CFG_VALLEY (n : Nat) : FRef := fr (0x0C08 + 64 * n) 0 4 8
abbrev F.STK_SHED_ADD_TH (n : Nat) : FRef := fr (0x0C0C + 64 * n) 16 12 750
abbrev F.STK_SHED_SHED_TH (n : Nat) : FRef := fr (0x0C0C + 64 * n) 0 12 0
abbrev F.STK_SHED_TIME_EN (n : Nat) : FRef := fr (0x0C10 + 64 * n) 31 1 0
abbrev F.STK_SHED_TIME_MIN_TILES (n : Nat) : FRef := fr (0x0C10 + 64 * n) 24 5 1
abbrev F.STK_SHED_TIME_ADD_DWELL (n : Nat) : FRef := fr (0x0C10 + 64 * n) 16 8 2
abbrev F.STK_SHED_TIME_SHED_DWELL (n : Nat) : FRef := fr (0x0C10 + 64 * n) 0 16 250
abbrev F.STK_ROLL_ROLL_TH (n : Nat) : FRef := fr (0x0C14 + 64 * n) 0 8 0
abbrev F.STK_PROT_OV_LIM (n : Nat) : FRef := fr (0x0C18 + 64 * n) 16 10 560
abbrev F.STK_PROT_PG_WIN (n : Nat) : FRef := fr (0x0C18 + 64 * n) 8 6 4
abbrev F.STK_PROT_DIS (n : Nat) : FRef := fr (0x0C18 + 64 * n) 4 2 0
abbrev F.STK_PROT_SS (n : Nat) : FRef := fr (0x0C18 + 64 * n) 0 3 3
abbrev F.STK_STAT_NACT (n : Nat) : FRef := fr (0x0C1C + 64 * n) 24 5 0
abbrev F.STK_STAT_PTR (n : Nat) : FRef := fr (0x0C1C + 64 * n) 16 4 0
abbrev F.STK_STAT_EN (n : Nat) : FRef := fr (0x0C1C + 64 * n) 15 1 0
abbrev F.STK_STAT_PG (n : Nat) : FRef := fr (0x0C1C + 64 * n) 14 1 0
abbrev F.STK_STAT_SS (n : Nat) : FRef := fr (0x0C1C + 64 * n) 13 1 0
abbrev F.STK_STAT_DIS (n : Nat) : FRef := fr (0x0C1C + 64 * n) 12 1 0
abbrev F.STK_STAT_HOLD (n : Nat) : FRef := fr (0x0C1C + 64 * n) 11 1 0
abbrev F.STK_STAT_LOCK (n : Nat) : FRef := fr (0x0C1C + 64 * n) 10 1 0
abbrev F.STK_STAT_OV_TRIP (n : Nat) : FRef := fr (0x0C1C + 64 * n) 7 1 0
abbrev F.STK_STAT_ROLL (n : Nat) : FRef := fr (0x0C1C + 64 * n) 6 1 0
abbrev F.STK_STAT_VLIM (n : Nat) : FRef := fr (0x0C1C + 64 * n) 5 1 0
abbrev F.STK_STAT_ESAT (n : Nat) : FRef := fr (0x0C1C + 64 * n) 4 1 0
abbrev F.STK_STAT_ISAT (n : Nat) : FRef := fr (0x0C1C + 64 * n) 3 1 0
abbrev F.STK_STAT_DIS_TO (n : Nat) : FRef := fr (0x0C1C + 64 * n) 2 1 0
abbrev F.STK_STAT_DEFER (n : Nat) : FRef := fr (0x0C1C + 64 * n) 1 1 0
abbrev F.STK_STAT_PG_LOST (n : Nat) : FRef := fr (0x0C1C + 64 * n) 0 1 0
abbrev F.STK_MEAS_IOUT (n : Nat) : FRef := fr (0x0C20 + 64 * n) 16 16 0
abbrev F.STK_MEAS_VOUT (n : Nat) : FRef := fr (0x0C20 + 64 * n) 0 16 0
abbrev F.STK_CNT_ROLL (n : Nat) : FRef := fr (0x0C24 + 64 * n) 16 16 0
abbrev F.STK_CNT_SHED (n : Nat) : FRef := fr (0x0C24 + 64 * n) 8 8 0
abbrev F.STK_CNT_ADD (n : Nat) : FRef := fr (0x0C24 + 64 * n) 0 8 0
abbrev F.STK_CEIL_OTP (n : Nat) : FRef := fr (0x0C28 + 64 * n) 16 10 0
abbrev F.STK_CEIL_TRIP (n : Nat) : FRef := fr (0x0C28 + 64 * n) 0 10 0
abbrev F.STK_SRC_RETURN (n : Nat) : FRef := fr (0x0C2C + 64 * n) 31 1 0
abbrev F.STK_SRC_TFF (n : Nat) : FRef := fr (0x0C2C + 64 * n) 30 1 0
abbrev F.STK_SRC_LOSS (n : Nat) : FRef := fr (0x0C2C + 64 * n) 16 8 8
abbrev F.STK_SRC_STAGE (n : Nat) : FRef := fr (0x0C2C + 64 * n) 15 1 0
abbrev F.STK_SRC_FLT (n : Nat) : FRef := fr (0x0C2C + 64 * n) 12 3 0
abbrev F.STK_SRC_PIN (n : Nat) : FRef := fr (0x0C2C + 64 * n) 8 4 0
abbrev F.STK_SRC_AIN (n : Nat) : FRef := fr (0x0C2C + 64 * n) 4 2 0
abbrev F.STK_SRC_SRC (n : Nat) : FRef := fr (0x0C2C + 64 * n) 0 3 0
abbrev F.STK_TRK_GAIN (n : Nat) : FRef := fr (0x0C30 + 64 * n) 16 16 10240
abbrev F.STK_TRK_OFS (n : Nat) : FRef := fr (0x0C30 + 64 * n) 0 16 0
abbrev F.STK_PROF_VEL (n : Nat) : FRef := fr (0x0C34 + 64 * n) 22 10 10
abbrev F.STK_PROF_NA (n : Nat) : FRef := fr (0x0C34 + 64 * n) 16 6 0
abbrev F.STK_PROF_NJ (n : Nat) : FRef := fr (0x0C34 + 64 * n) 10 6 0
abbrev F.STK_PROF_DUR (n : Nat) : FRef := fr (0x0C34 + 64 * n) 0 10 0
abbrev F.STK_ANT_PRELOAD (n : Nat) : FRef := fr (0x0C38 + 64 * n) 24 8 0
abbrev F.STK_ANT_AOFF (n : Nat) : FRef := fr (0x0C38 + 64 * n) 16 8 0
abbrev F.STK_ANT_TILES (n : Nat) : FRef := fr (0x0C38 + 64 * n) 9 5 0
abbrev F.STK_ANT_LEAD (n : Nat) : FRef := fr (0x0C38 + 64 * n) 0 9 0
abbrev F.STK_SRC_STAT_T (n : Nat) : FRef := fr (0x0C3C + 64 * n) 16 15 0
abbrev F.STK_SRC_STAT_ANT (n : Nat) : FRef := fr (0x0C3C + 64 * n) 15 1 0
abbrev F.STK_SRC_STAT_MOVE (n : Nat) : FRef := fr (0x0C3C + 64 * n) 14 1 0
abbrev F.STK_SRC_STAT_HOLD (n : Nat) : FRef := fr (0x0C3C + 64 * n) 13 1 0
abbrev F.STK_SRC_STAT_ACT (n : Nat) : FRef := fr (0x0C3C + 64 * n) 10 3 0
abbrev F.STK_SRC_STAT_RCAUSE (n : Nat) : FRef := fr (0x0C3C + 64 * n) 8 2 0
abbrev F.STK_SRC_STAT_LCAUSE (n : Nat) : FRef := fr (0x0C3C + 64 * n) 5 2 0
abbrev F.STK_SRC_STAT_PDONE (n : Nat) : FRef := fr (0x0C3C + 64 * n) 4 1 0
abbrev F.STK_SRC_STAT_REJECT (n : Nat) : FRef := fr (0x0C3C + 64 * n) 3 1 0
abbrev F.STK_SRC_STAT_LOST (n : Nat) : FRef := fr (0x0C3C + 64 * n) 2 1 0
abbrev F.STK_SRC_STAT_ANT_MISS (n : Nat) : FRef := fr (0x0C3C + 64 * n) 1 1 0
abbrev F.STK_SRC_STAT_RETURNED (n : Nat) : FRef := fr (0x0C3C + 64 * n) 0 1 0
abbrev F.ENG_ID_MVER : FRef := fr 0x1000 16 16 0
abbrev F.ENG_ID_LOADED : FRef := fr 0x1000 0 1 0
abbrev F.ENG_STAT_CORR : FRef := fr 0x1004 24 8 0
abbrev F.ENG_STAT_HALT : FRef := fr 0x1004 16 1 0
abbrev F.ENG_STAT_ACTIVE : FRef := fr 0x1004 0 16 0
abbrev F.ENG_FLAGSUM_ANY : FRef := fr 0x1008 0 16 0
abbrev F.ENG_PROBE_SEL_STACK : FRef := fr 0x100C 0 4 0
abbrev F.ENG_PROBE0_RC : FRef := fr 0x1010 16 16 0
abbrev F.ENG_PROBE0_RV : FRef := fr 0x1010 0 16 0
abbrev F.ENG_PROBE1_RP : FRef := fr 0x1014 16 16 0
abbrev F.ENG_PROBE1_RT : FRef := fr 0x1014 0 16 0
abbrev F.ENG_PROBE2_FF : FRef := fr 0x1018 16 16 0
abbrev F.ENG_PROBE2_DROP : FRef := fr 0x1018 0 16 0
abbrev F.ENG_PROBE3_PB : FRef := fr 0x101C 16 16 0
abbrev F.ENG_PROBE3_TH : FRef := fr 0x101C 0 16 0
abbrev F.STK_ENG_CTRL_MAN (n : Nat) : FRef := fr (0x1040 + 48 * n) 16 15 0
abbrev F.STK_ENG_CTRL_HDRM (n : Nat) : FRef := fr (0x1040 + 48 * n) 8 8 32
abbrev F.STK_ENG_CTRL_NOTCH_EN (n : Nat) : FRef := fr (0x1040 + 48 * n) 6 1 0
abbrev F.STK_ENG_CTRL_FF_EN (n : Nat) : FRef := fr (0x1040 + 48 * n) 5 1 0
abbrev F.STK_ENG_CTRL_PLOOP (n : Nat) : FRef := fr (0x1040 + 48 * n) 4 1 1
abbrev F.STK_ENG_CTRL_TLOOP (n : Nat) : FRef := fr (0x1040 + 48 * n) 3 1 1
abbrev F.STK_ENG_CTRL_CLOOP (n : Nat) : FRef := fr (0x1040 + 48 * n) 2 1 1
abbrev F.STK_ENG_CTRL_MAN_TRK (n : Nat) : FRef := fr (0x1040 + 48 * n) 1 1 1
abbrev F.STK_ENG_CTRL_MODE (n : Nat) : FRef := fr (0x1040 + 48 * n) 0 1 0
abbrev F.STK_ENG_GV_KI (n : Nat) : FRef := fr (0x1044 + 48 * n) 16 16 1638
abbrev F.STK_ENG_GV_KP (n : Nat) : FRef := fr (0x1044 + 48 * n) 0 16 16384
abbrev F.STK_ENG_GC_KI (n : Nat) : FRef := fr (0x1048 + 48 * n) 16 16 328
abbrev F.STK_ENG_GC_KP (n : Nat) : FRef := fr (0x1048 + 48 * n) 0 16 3277
abbrev F.STK_ENG_GT_KI (n : Nat) : FRef := fr (0x104C + 48 * n) 16 16 328
abbrev F.STK_ENG_GT_KP (n : Nat) : FRef := fr (0x104C + 48 * n) 0 16 3277
abbrev F.STK_ENG_GP_KI (n : Nat) : FRef := fr (0x1050 + 48 * n) 16 16 328
abbrev F.STK_ENG_GP_KP (n : Nat) : FRef := fr (0x1050 + 48 * n) 0 16 1024
abbrev F.STK_ENG_SHIFT_NSH (n : Nat) : FRef := fr (0x1054 + 48 * n) 28 3 1
abbrev F.STK_ENG_SHIFT_SFF (n : Nat) : FRef := fr (0x1054 + 48 * n) 24 3 0
abbrev F.STK_ENG_SHIFT_SI_P (n : Nat) : FRef := fr (0x1054 + 48 * n) 21 3 0
abbrev F.STK_ENG_SHIFT_SP_P (n : Nat) : FRef := fr (0x1054 + 48 * n) 18 3 0
abbrev F.STK_ENG_SHIFT_SI_T (n : Nat) : FRef := fr (0x1054 + 48 * n) 15 3 0
abbrev F.STK_ENG_SHIFT_SP_T (n : Nat) : FRef := fr (0x1054 + 48 * n) 12 3 0
abbrev F.STK_ENG_SHIFT_SI_C (n : Nat) : FRef := fr (0x1054 + 48 * n) 9 3 0
abbrev F.STK_ENG_SHIFT_SP_C (n : Nat) : FRef := fr (0x1054 + 48 * n) 6 3 0
abbrev F.STK_ENG_SHIFT_SI_V (n : Nat) : FRef := fr (0x1054 + 48 * n) 3 3 0
abbrev F.STK_ENG_SHIFT_SP_V (n : Nat) : FRef := fr (0x1054 + 48 * n) 0 3 2
abbrev F.STK_ENG_LIM_ITH (n : Nat) : FRef := fr (0x1058 + 48 * n) 16 16 32767
abbrev F.STK_ENG_LIM_ILIM (n : Nat) : FRef := fr (0x1058 + 48 * n) 0 16 32767
abbrev F.STK_ENG_N0_B1 (n : Nat) : FRef := fr (0x105C + 48 * n) 16 16 0
abbrev F.STK_ENG_N0_B0 (n : Nat) : FRef := fr (0x105C + 48 * n) 0 16 16384
abbrev F.STK_ENG_N1_A1 (n : Nat) : FRef := fr (0x1060 + 48 * n) 16 16 0
abbrev F.STK_ENG_N1_B2 (n : Nat) : FRef := fr (0x1060 + 48 * n) 0 16 0
abbrev F.STK_ENG_N2_KFF (n : Nat) : FRef := fr (0x1064 + 48 * n) 16 16 0
abbrev F.STK_ENG_N2_A2 (n : Nat) : FRef := fr (0x1064 + 48 * n) 0 16 0
abbrev F.STK_ENG_STAT_WIN (n : Nat) : FRef := fr (0x1068 + 48 * n) 30 2 0
abbrev F.STK_ENG_STAT_DAC (n : Nat) : FRef := fr (0x1068 + 48 * n) 15 15 0
abbrev F.STK_ENG_STAT_VCMP (n : Nat) : FRef := fr (0x1068 + 48 * n) 0 15 0
abbrev F.STK_ENG_FLAGS_PRESET (n : Nat) : FRef := fr (0x106C + 48 * n) 12 1 0
abbrev F.STK_ENG_FLAGS_WON_P (n : Nat) : FRef := fr (0x106C + 48 * n) 11 1 0
abbrev F.STK_ENG_FLAGS_WON_T (n : Nat) : FRef := fr (0x106C + 48 * n) 10 1 0
abbrev F.STK_ENG_FLAGS_WON_C (n : Nat) : FRef := fr (0x106C + 48 * n) 9 1 0
abbrev F.STK_ENG_FLAGS_WON_V (n : Nat) : FRef := fr (0x106C + 48 * n) 8 1 0
abbrev F.STK_ENG_FLAGS_LSAT (n : Nat) : FRef := fr (0x106C + 48 * n) 7 1 0
abbrev F.STK_ENG_FLAGS_DSAT (n : Nat) : FRef := fr (0x106C + 48 * n) 6 1 0
abbrev F.STK_ENG_FLAGS_FSAT (n : Nat) : FRef := fr (0x106C + 48 * n) 5 1 0
abbrev F.STK_ENG_FLAGS_NSAT (n : Nat) : FRef := fr (0x106C + 48 * n) 4 1 0
abbrev F.STK_ENG_FLAGS_PSAT (n : Nat) : FRef := fr (0x106C + 48 * n) 3 1 0
abbrev F.STK_ENG_FLAGS_TSAT (n : Nat) : FRef := fr (0x106C + 48 * n) 2 1 0
abbrev F.STK_ENG_FLAGS_CSAT (n : Nat) : FRef := fr (0x106C + 48 * n) 1 1 0
abbrev F.STK_ENG_FLAGS_VSAT (n : Nat) : FRef := fr (0x106C + 48 * n) 0 1 0
abbrev F.SEQ_CFG_TOFF_MIN : FRef := fr 0x1400 16 9 20
abbrev F.SEQ_CFG_FAIL_GAP : FRef := fr 0x1400 8 8 10
abbrev F.SEQ_CFG_EXIT_UP : FRef := fr 0x1400 3 1 0
abbrev F.SEQ_CFG_SAT_MODE : FRef := fr 0x1400 2 1 0
abbrev F.SEQ_CFG_ON_MODE : FRef := fr 0x1400 1 1 0
abbrev F.SEQ_REQ_KEY : FRef := fr 0x1404 0 32 0
abbrev F.SEQ_STAT_PHASE : FRef := fr 0x1408 28 4 9
abbrev F.SEQ_STAT_RUN : FRef := fr 0x1408 27 1 0
abbrev F.SEQ_STAT_PROG : FRef := fr 0x1408 24 3 0
abbrev F.SEQ_STAT_PEND : FRef := fr 0x1408 20 3 0
abbrev F.SEQ_STAT_START : FRef := fr 0x1408 16 4 0
abbrev F.SEQ_STAT_TAG : FRef := fr 0x1408 8 8 0
abbrev F.SEQ_PC_WORD : FRef := fr 0x140C 0 9 0
abbrev F.SEQ_DOM_STATE_PG : FRef := fr 0x1410 16 12 0
abbrev F.SEQ_DOM_STATE_EN : FRef := fr 0x1410 0 12 0
abbrev F.SEQ_DOM_FAIL_FAILED : FRef := fr 0x1414 0 12 0
abbrev F.SEQ_LAST_FAIL_DOM : FRef := fr 0x1418 28 4 0
abbrev F.SEQ_LAST_FAIL_CAUSE : FRef := fr 0x1418 24 4 0
abbrev F.SEQ_LAST_FAIL_INPROG : FRef := fr 0x1418 23 1 0
abbrev F.SEQ_LAST_FAIL_PROG : FRef := fr 0x1418 20 3 0
abbrev F.SEQ_LAST_FAIL_CHAT : FRef := fr 0x1418 16 4 0
abbrev F.SEQ_LAST_FAIL_WORD : FRef := fr 0x1418 0 9 0
abbrev F.SEQ_FLAGS_RUNAWAY : FRef := fr 0x141C 4 1 0
abbrev F.SEQ_FLAGS_ABANDON : FRef := fr 0x141C 3 1 0
abbrev F.SEQ_FLAGS_RESIDUE : FRef := fr 0x141C 2 1 0
abbrev F.SEQ_FLAGS_CASCADE : FRef := fr 0x141C 1 1 0
abbrev F.SEQ_FLAGS_SKIP : FRef := fr 0x141C 0 1 0
abbrev F.SEQ_CNT_FAILS : FRef := fr 0x1420 24 8 0
abbrev F.SEQ_CNT_DROP : FRef := fr 0x1420 16 8 0
abbrev F.SEQ_CNT_REVERSE : FRef := fr 0x1420 8 8 0
abbrev F.SEQ_GPIO_MAP0_DOM0 : FRef := fr 0x1424 0 4 15
abbrev F.SEQ_GPIO_MAP0_DOM1 : FRef := fr 0x1424 4 4 15
abbrev F.SEQ_GPIO_MAP0_DOM2 : FRef := fr 0x1424 8 4 15
abbrev F.SEQ_GPIO_MAP0_DOM3 : FRef := fr 0x1424 12 4 15
abbrev F.SEQ_GPIO_MAP0_DOM4 : FRef := fr 0x1424 16 4 15
abbrev F.SEQ_GPIO_MAP0_DOM5 : FRef := fr 0x1424 20 4 15
abbrev F.SEQ_GPIO_MAP0_DOM6 : FRef := fr 0x1424 24 4 15
abbrev F.SEQ_GPIO_MAP0_DOM7 : FRef := fr 0x1424 28 4 15
abbrev F.SEQ_GPIO_MAP1_DOM0 : FRef := fr 0x1428 0 4 15
abbrev F.SEQ_GPIO_MAP1_DOM1 : FRef := fr 0x1428 4 4 15
abbrev F.SEQ_GPIO_MAP1_DOM2 : FRef := fr 0x1428 8 4 15
abbrev F.SEQ_GPIO_MAP1_DOM3 : FRef := fr 0x1428 12 4 15
abbrev F.SEQ_DOM_CFG_PARK_KEEP (n : Nat) : FRef := fr (0x1440 + 4 * n) 12 1 0
abbrev F.SEQ_DOM_CFG_DEP (n : Nat) : FRef := fr (0x1440 + 4 * n) 0 12 0
abbrev F.SEQ_DOM_PG_CHATTER_MAX (n : Nat) : FRef := fr (0x1480 + 4 * n) 24 4 3
abbrev F.SEQ_DOM_PG_PG_FILT (n : Nat) : FRef := fr (0x1480 + 4 * n) 16 8 10
abbrev F.SEQ_DOM_PG_PG_STABLE (n : Nat) : FRef := fr (0x1480 + 4 * n) 0 8 10
abbrev F.SEQ_DOM_STAT_CHAT (n : Nat) : FRef := fr (0x14C0 + 4 * n) 16 4 0
abbrev F.SEQ_DOM_STAT_CAUSE (n : Nat) : FRef := fr (0x14C0 + 4 * n) 12 4 0
abbrev F.SEQ_DOM_STAT_PG (n : Nat) : FRef := fr (0x14C0 + 4 * n) 4 1 0
abbrev F.SEQ_DOM_STAT_RAW (n : Nat) : FRef := fr (0x14C0 + 4 * n) 3 1 0
abbrev F.SEQ_DOM_STAT_STATE (n : Nat) : FRef := fr (0x14C0 + 4 * n) 0 3 0
abbrev F.SEQ_DOM_MEMB_LSW (n : Nat) : FRef := fr (0x1500 + 4 * n) 24 6 0
abbrev F.SEQ_DOM_MEMB_LDO (n : Nat) : FRef := fr (0x1500 + 4 * n) 16 8 0
abbrev F.SEQ_DOM_MEMB_STK (n : Nat) : FRef := fr (0x1500 + 4 * n) 0 16 0
abbrev F.SEQ_PROG_FIRST (n : Nat) : FRef := fr (0x1540 + 4 * n) 16 9 0
abbrev F.SEQ_PROG_LEN (n : Nat) : FRef := fr (0x1540 + 4 * n) 0 10 0
abbrev F.SEQ_STORE_IDX_WORD : FRef := fr 0x1560 0 9 0
abbrev F.SEQ_STORE_DATA_STEP : FRef := fr 0x1564 0 32 0
abbrev F.OUT_LDO_CFG_DIS (n : Nat) : FRef := fr (0x1800 + 4 * n) 13 1 1
abbrev F.OUT_LDO_CFG_SS (n : Nat) : FRef := fr (0x1800 + 4 * n) 10 2 1
abbrev F.OUT_LDO_CFG_VSET (n : Nat) : FRef := fr (0x1800 + 4 * n) 0 9 120
abbrev F.OUT_LDO_STAT_EN (n : Nat) : FRef := fr (0x1820 + 4 * n) 7 1 0
abbrev F.OUT_LDO_STAT_PG (n : Nat) : FRef := fr (0x1820 + 4 * n) 6 1 0
abbrev F.OUT_LDO_STAT_SS (n : Nat) : FRef := fr (0x1820 + 4 * n) 5 1 0
abbrev F.OUT_LDO_STAT_UVIN (n : Nat) : FRef := fr (0x1820 + 4 * n) 2 1 0
abbrev F.OUT_LDO_STAT_OCP (n : Nat) : FRef := fr (0x1820 + 4 * n) 1 1 0
abbrev F.OUT_LDO_STAT_ILIM (n : Nat) : FRef := fr (0x1820 + 4 * n) 0 1 0
abbrev F.OUT_LSW_CFG_DIS (n : Nat) : FRef := fr (0x1840 + 4 * n) 13 1 1
abbrev F.OUT_LSW_CFG_OCP_T (n : Nat) : FRef := fr (0x1840 + 4 * n) 8 2 2
abbrev F.OUT_LSW_CFG_SS (n : Nat) : FRef := fr (0x1840 + 4 * n) 0 2 1
abbrev F.OUT_LSW_STAT_EN (n : Nat) : FRef := fr (0x1860 + 4 * n) 7 1 0
abbrev F.OUT_LSW_STAT_PG (n : Nat) : FRef := fr (0x1860 + 4 * n) 6 1 0
abbrev F.OUT_LSW_STAT_SS (n : Nat) : FRef := fr (0x1860 + 4 * n) 5 1 0
abbrev F.OUT_LSW_STAT_REV (n : Nat) : FRef := fr (0x1860 + 4 * n) 2 1 0
abbrev F.OUT_LSW_STAT_OCP (n : Nat) : FRef := fr (0x1860 + 4 * n) 1 1 0
abbrev F.OUT_LSW_STAT_ILIM (n : Nat) : FRef := fr (0x1860 + 4 * n) 0 1 0
abbrev F.OUT_G_CFG_DESAT (n : Nat) : FRef := fr (0x1880 + 4 * n) 0 4 3
abbrev F.OUT_G_STAT_END (n : Nat) : FRef := fr (0x1888 + 4 * n) 8 3 0
abbrev F.OUT_G_STAT_ON (n : Nat) : FRef := fr (0x1888 + 4 * n) 7 1 0
abbrev F.OUT_G_STAT_MODE (n : Nat) : FRef := fr (0x1888 + 4 * n) 6 1 0
abbrev F.OUT_G_STAT_CP (n : Nat) : FRef := fr (0x1888 + 4 * n) 3 1 0
abbrev F.OUT_G_STAT_STUCK (n : Nat) : FRef := fr (0x1888 + 4 * n) 2 1 0
abbrev F.OUT_G_STAT_DESAT (n : Nat) : FRef := fr (0x1888 + 4 * n) 1 1 0
abbrev F.OUT_G_STAT_GATE_LOW (n : Nat) : FRef := fr (0x1888 + 4 * n) 0 1 0
abbrev F.OUT_G_REMAIN_MS (n : Nat) : FRef := fr (0x1890 + 4 * n) 0 27 0
abbrev F.OUT_G_RELEASE_KEY : FRef := fr 0x1898 0 32 0
abbrev F.PP_FE_CFG_DVDT : FRef := fr 0x1C00 8 2 2
abbrev F.PP_FE_CFG_TREQUAL : FRef := fr 0x1C00 0 8 20
abbrev F.PP_FE_STAT_LOSSES : FRef := fr 0x1C04 16 5 0
abbrev F.PP_FE_STAT_TREQ_EFF : FRef := fr 0x1C04 5 11 20
abbrev F.PP_FE_STAT_UNSTABLE : FRef := fr 0x1C04 4 1 0
abbrev F.PP_FE_STAT_SRC : FRef := fr 0x1C04 3 1 1
abbrev F.PP_FE_STAT_STATE : FRef := fr 0x1C04 0 3 0
abbrev F.PP_FE_FLAGS_UNSTABLE : FRef := fr 0x1C08 6 1 0
abbrev F.PP_FE_FLAGS_START : FRef := fr 0x1C08 5 1 0
abbrev F.PP_FE_FLAGS_CLAMP_TO : FRef := fr 0x1C08 4 1 0
abbrev F.PP_FE_FLAGS_OV : FRef := fr 0x1C08 3 1 0
abbrev F.PP_FE_FLAGS_REV : FRef := fr 0x1C08 2 1 0
abbrev F.PP_FE_FLAGS_UV : FRef := fr 0x1C08 1 1 0
abbrev F.PP_FE_FLAGS_CLAMPED : FRef := fr 0x1C08 0 1 0
abbrev F.PP_FE_CNT_LOSS : FRef := fr 0x1C0C 16 16 0
abbrev F.PP_FE_CNT_CAUSE : FRef := fr 0x1C0C 0 4 0
abbrev F.PP_PMID_V : FRef := fr 0x1C10 16 16 0
abbrev F.PP_PMID_SHDN : FRef := fr 0x1C10 0 5 4
abbrev F.PP_BUDGET_EN : FRef := fr 0x1C14 31 1 0
abbrev F.PP_BUDGET_PMAX : FRef := fr 0x1C14 0 15 32767
abbrev F.PP_SHARE_SHARE0 (n : Nat) : FRef := fr (0x1C18 + 4 * n) 0 8 0
abbrev F.PP_SHARE_SHARE1 (n : Nat) : FRef := fr (0x1C18 + 4 * n) 8 8 0
abbrev F.PP_SHARE_SHARE2 (n : Nat) : FRef := fr (0x1C18 + 4 * n) 16 8 0
abbrev F.PP_SHARE_SHARE3 (n : Nat) : FRef := fr (0x1C18 + 4 * n) 24 8 0
abbrev F.PP_CHG_CFG_EN : FRef := fr 0x1C40 31 1 0
abbrev F.PP_CHG_CFG_ICHG : FRef := fr 0x1C40 16 7 20
abbrev F.PP_CHG_CFG_VCHG : FRef := fr 0x1C40 0 6 20
abbrev F.PP_CHG_TERM_SAFETY : FRef := fr 0x1C44 28 4 8
abbrev F.PP_CHG_TERM_TOPOFF : FRef := fr 0x1C44 22 6 0
abbrev F.PP_CHG_TERM_VRECH : FRef := fr 0x1C44 16 6 20
abbrev F.PP_CHG_TERM_ITERM : FRef := fr 0x1C44 0 6 10
abbrev F.PP_CHG_JEITA_T4 : FRef := fr 0x1C48 24 8 60
abbrev F.PP_CHG_JEITA_T3 : FRef := fr 0x1C48 16 8 45
abbrev F.PP_CHG_JEITA_T2 : FRef := fr 0x1C48 8 8 10
abbrev F.PP_CHG_JEITA_T1 : FRef := fr 0x1C48 0 8 0
abbrev F.PP_CHG_ZONE_COOL_I : FRef := fr 0x1C4C 8 2 1
abbrev F.PP_CHG_ZONE_WARM_DV : FRef := fr 0x1C4C 0 3 4
abbrev F.PP_CHG_TILE_FSW : FRef := fr 0x1C50 16 6 20
abbrev F.PP_CHG_TILE_VALLEY : FRef := fr 0x1C50 0 4 8
abbrev F.PP_CHG_PROBE_EN : FRef := fr 0x1C54 31 1 0
abbrev F.PP_CHG_PROBE_LEN : FRef := fr 0x1C54 8 8 20
abbrev F.PP_CHG_PROBE_DI : FRef := fr 0x1C54 0 6 10
abbrev F.PP_CHG_STAT_IEFF : FRef := fr 0x1C58 16 16 0
abbrev F.PP_CHG_STAT_STATE : FRef := fr 0x1C58 12 4 0
abbrev F.PP_CHG_STAT_ZONE : FRef := fr 0x1C58 9 3 2
abbrev F.PP_CHG_STAT_TILES : FRef := fr 0x1C58 7 2 0
abbrev F.PP_CHG_STAT_CEIL : FRef := fr 0x1C58 6 1 0
abbrev F.PP_CHG_STAT_PROBE : FRef := fr 0x1C58 5 1 0
abbrev F.PP_CHG_STAT_SUSP : FRef := fr 0x1C58 2 3 0
abbrev F.PP_CHG_STAT_PROBE_IGN : FRef := fr 0x1C58 0 1 0
abbrev F.PP_CHG_FAULT_TILE : FRef := fr 0x1C5C 3 1 0
abbrev F.PP_CHG_FAULT_BAT_OV : FRef := fr 0x1C5C 2 1 0
abbrev F.PP_CHG_FAULT_SAFETY : FRef := fr 0x1C5C 1 1 0
abbrev F.PP_CHG_FAULT_PRE_TO : FRef := fr 0x1C5C 0 1 0
abbrev F.PP_PACK_STAT_ID : FRef := fr 0x1C60 16 10 0
abbrev F.PP_PACK_STAT_SIGN : FRef := fr 0x1C60 8 4 0
abbrev F.PP_PACK_STAT_ID_MATCH : FRef := fr 0x1C60 3 1 0
abbrev F.PP_PACK_STAT_QUAL : FRef := fr 0x1C60 2 1 0
abbrev F.PP_PACK_STAT_PRESENT : FRef := fr 0x1C60 1 1 0
abbrev F.PP_PACK_STAT_BAT_ABSENT : FRef := fr 0x1C60 0 1 0
abbrev F.PP_CHG_CEIL_ALARM : FRef := fr 0x1C64 31 1 0
abbrev F.PP_CHG_CEIL_IMAX : FRef := fr 0x1C64 16 7 0
abbrev F.PP_CHG_CEIL_VMAX : FRef := fr 0x1C64 0 6 0
abbrev F.GG_CFG_JPER : FRef := fr 0x2000 24 8 30
abbrev F.GG_CFG_PARK_PER : FRef := fr 0x2000 16 8 64
abbrev F.GG_CFG_CONV : FRef := fr 0x2000 8 8 1
abbrev F.GG_CFG_MODE : FRef := fr 0x2000 0 1 0
abbrev F.GG_SHUNT_RSH : FRef := fr 0x2004 0 16 5000
abbrev F.GG_PACK_DCAP : FRef := fr 0x2008 16 16 2000
abbrev F.GG_PACK_VEMPTY : FRef := fr 0x2008 0 16 6000
abbrev F.GG_IMP_CFG_KT : FRef := fr 0x200C 24 8 10
abbrev F.GG_IMP_CFG_RLRN : FRef := fr 0x200C 20 3 2
abbrev F.GG_IMP_CFG_CAP_DLY : FRef := fr 0x200C 16 4 4
abbrev F.GG_IMP_CFG_CAP_MIN_DI : FRef := fr 0x200C 0 16 500
abbrev F.GG_RDEF_RDEF : FRef := fr 0x2010 0 16 8000
abbrev F.GG_OCV0_OCV_HI : FRef := fr 0x2018 16 16 6620
abbrev F.GG_OCV0_OCV_LO : FRef := fr 0x2018 0 16 6000
abbrev F.GG_OCV1_OCV_HI : FRef := fr 0x201C 16 16 7020
abbrev F.GG_OCV1_OCV_LO : FRef := fr 0x201C 0 16 6880
abbrev F.GG_OCV2_OCV_HI : FRef := fr 0x2020 16 16 7200
abbrev F.GG_OCV2_OCV_LO : FRef := fr 0x2020 0 16 7120
abbrev F.GG_OCV3_OCV_HI : FRef := fr 0x2024 16 16 7320
abbrev F.GG_OCV3_OCV_LO : FRef := fr 0x2024 0 16 7260
abbrev F.GG_OCV4_OCV_HI : FRef := fr 0x2028 16 16 7480
abbrev F.GG_OCV4_OCV_LO : FRef := fr 0x2028 0 16 7400
abbrev F.GG_OCV5_OCV_HI : FRef := fr 0x202C 16 16 7680
abbrev F.GG_OCV5_OCV_LO : FRef := fr 0x202C 0 16 7580
abbrev F.GG_OCV6_OCV_HI : FRef := fr 0x2030 16 16 7900
abbrev F.GG_OCV6_OCV_LO : FRef := fr 0x2030 0 16 7790
abbrev F.GG_OCV7_OCV_HI : FRef := fr 0x2034 16 16 8160
abbrev F.GG_OCV7_OCV_LO : FRef := fr 0x2034 0 16 8020
abbrev F.GG_OCV8_OCV_LO : FRef := fr 0x2038 0 16 8340
abbrev F.GG_SOC_SOC_C : FRef := fr 0x2040 16 16 0
abbrev F.GG_SOC_SOC_R : FRef := fr 0x2040 0 16 0
abbrev F.GG_VC_VC : FRef := fr 0x2044 16 16 0
abbrev F.GG_VC_SOC_V : FRef := fr 0x2044 0 16 0
abbrev F.GG_CAPY_FCC : FRef := fr 0x2048 16 16 0
abbrev F.GG_CAPY_RM : FRef := fr 0x2048 0 16 0
abbrev F.GG_MEAS_I : FRef := fr 0x204C 16 16 0
abbrev F.GG_MEAS_V : FRef := fr 0x204C 0 16 0
abbrev F.GG_IAVG_IAVG : FRef := fr 0x2050 0 16 0
abbrev F.GG_STAT_VALID : FRef := fr 0x2054 15 1 0
abbrev F.GG_STAT_FROZEN : FRef := fr 0x2054 14 1 0
abbrev F.GG_STAT_RELEARN : FRef := fr 0x2054 13 1 0
abbrev F.GG_STAT_DISAGREE : FRef := fr 0x2054 12 1 0
abbrev F.GG_STAT_VEMPTY : FRef := fr 0x2054 11 1 0
abbrev F.GG_STAT_FLOOR : FRef := fr 0x2054 10 1 0
abbrev F.GG_STAT_AVALID : FRef := fr 0x2054 9 1 0
abbrev F.GG_STAT_LEARN : FRef := fr 0x2054 4 1 0
abbrev F.GG_STAT_SNAP : FRef := fr 0x2054 3 1 0
abbrev F.GG_STAT_DEFER : FRef := fr 0x2054 2 1 0
abbrev F.GG_STAT_ISAT : FRef := fr 0x2054 1 1 0
abbrev F.GG_RELAX_SEC : FRef := fr 0x2058 0 16 0
abbrev F.GG_LEARN_CYCLES : FRef := fr 0x2060 16 16 0
abbrev F.GG_LEARN_LMASK : FRef := fr 0x2060 0 16 0
abbrev F.GG_R_R_HI (n : Nat) : FRef := fr (0x2064 + 4 * n) 16 16 0
abbrev F.GG_R_R_LO (n : Nat) : FRef := fr (0x2064 + 4 * n) 0 16 0
abbrev F.GG_CAP_LAST_RMEAS : FRef := fr 0x2084 16 16 0
abbrev F.GG_CAP_LAST_BAND : FRef := fr 0x2084 12 4 0
abbrev F.GG_CAP_LAST_SRC : FRef := fr 0x2084 8 1 0
abbrev F.GG_CAP_LAST_CAUSE : FRef := fr 0x2084 0 4 0
abbrev F.GG_CAP_CNT_ACC : FRef := fr 0x2088 16 16 0
abbrev F.GG_CAP_CNT_REJ : FRef := fr 0x2088 0 16 0
abbrev F.GG_JNL_DEFER : FRef := fr 0x208C 16 8 0
abbrev F.GG_JNL_REASON : FRef := fr 0x208C 8 4 0
abbrev F.GG_JNL_MIN : FRef := fr 0x208C 0 8 0
abbrev F.GG_SNAP_I : FRef := fr 0x2090 16 16 0
abbrev F.GG_SNAP_V : FRef := fr 0x2090 0 16 0
abbrev F.GG_SNAP_AT_FRAME : FRef := fr 0x2094 16 16 0
abbrev F.GG_SNAP_AT_PIP : FRef := fr 0x2094 0 16 0
abbrev F.ADC_CFG_PER : FRef := fr 0x2400 16 10 0
abbrev F.ADC_CFG_SCAN : FRef := fr 0x2400 0 1 1
abbrev F.ADC_STAT_ROUNDS : FRef := fr 0x2404 16 16 0
abbrev F.ADC_STAT_DBL_ACT : FRef := fr 0x2404 5 1 0
abbrev F.ADC_STAT_REJ : FRef := fr 0x2404 4 1 0
abbrev F.ADC_STAT_PIP_LATE : FRef := fr 0x2404 3 1 0
abbrev F.ADC_STAT_HELD : FRef := fr 0x2404 2 1 0
abbrev F.ADC_STAT_LATE : FRef := fr 0x2404 1 1 0
abbrev F.ADC_DIAG_FAIL : FRef := fr 0x2408 16 9 0
abbrev F.ADC_DIAG_CV : FRef := fr 0x2408 8 3 0
abbrev F.ADC_DIAG_CH : FRef := fr 0x2408 0 7 0
abbrev F.ADC_SCAN_STATUS_STRETCH : FRef := fr 0x240C 31 1 0
abbrev F.ADC_SCAN_STATUS_NE : FRef := fr 0x240C 24 7 18
abbrev F.ADC_SCAN_STATUS_NP : FRef := fr 0x240C 16 3 4
abbrev F.ADC_SCAN_STATUS_PERIOD : FRef := fr 0x240C 0 16 5
abbrev F.ADC_SCAN_EN0_EN : FRef := fr 0x2410 0 32 0
abbrev F.ADC_SCAN_EN1_EN : FRef := fr 0x2414 0 32 0
abbrev F.ADC_SCAN_EN2_EN : FRef := fr 0x2418 0 32 4026548215
abbrev F.ADC_SCAN_EN3_EN : FRef := fr 0x241C 0 8 1
abbrev F.ADC_REQ_CH : FRef := fr 0x2420 0 7 0
abbrev F.ADC_URG_CH (n : Nat) : FRef := fr (0x2430 + 4 * n) 0 7 0
abbrev F.ADC_DBL_CFG_EN : FRef := fr 0x2440 31 1 0
abbrev F.ADC_DBL_CFG_PAIR : FRef := fr 0x2440 16 1 0
abbrev F.ADC_DBL_CFG_CLAIMED : FRef := fr 0x2440 15 1 0
abbrev F.ADC_DBL_CFG_CH : FRef := fr 0x2440 0 7 0
abbrev F.ADC_DBL_STAT_DONE : FRef := fr 0x2444 31 1 0
abbrev F.ADC_DBL_STAT_BUSY : FRef := fr 0x2444 30 1 0
abbrev F.ADC_DBL_STAT_LAST : FRef := fr 0x2444 16 12 0
abbrev F.ADC_DBL_STAT_PIP : FRef := fr 0x2444 0 16 0
abbrev F.ADC_WIN_STATE_ALARM : FRef := fr 0x2450 0 32 0
abbrev F.ADC_WIN_FLAG_ENTERED : FRef := fr 0x2454 0 32 0
abbrev F.ADC_DBL_BUF_ODD (n : Nat) : FRef := fr (0x2480 + 4 * n) 16 12 0
abbrev F.ADC_DBL_BUF_EVEN (n : Nat) : FRef := fr (0x2480 + 4 * n) 0 12 0
abbrev F.ADC_WIN_CFG_EN (n : Nat) : FRef := fr (0x2500 + 8 * n) 31 1 0
abbrev F.ADC_WIN_CFG_MODE (n : Nat) : FRef := fr (0x2500 + 8 * n) 29 2 0
abbrev F.ADC_WIN_CFG_FILT (n : Nat) : FRef := fr (0x2500 + 8 * n) 24 4 1
abbrev F.ADC_WIN_CFG_HYST (n : Nat) : FRef := fr (0x2500 + 8 * n) 16 8 0
abbrev F.ADC_WIN_CFG_CH (n : Nat) : FRef := fr (0x2500 + 8 * n) 0 7 0
abbrev F.ADC_WIN_THR_HI (n : Nat) : FRef := fr (0x2504 + 8 * n) 16 12 4095
abbrev F.ADC_WIN_THR_LO (n : Nat) : FRef := fr (0x2504 + 8 * n) 0 12 0
abbrev F.ADC_RES_CNT (n : Nat) : FRef := fr (0x2600 + 4 * n) 24 8 0
abbrev F.ADC_RES_KIND (n : Nat) : FRef := fr (0x2600 + 4 * n) 20 3 0
abbrev F.ADC_RES_CV (n : Nat) : FRef := fr (0x2600 + 4 * n) 16 3 0
abbrev F.ADC_RES_VALID (n : Nat) : FRef := fr (0x2600 + 4 * n) 15 1 0
abbrev F.ADC_RES_CODE (n : Nat) : FRef := fr (0x2600 + 4 * n) 0 12 0
abbrev F.THM_CFG_BRD_EN : FRef := fr 0x2800 31 1 0
abbrev F.THM_CFG_BRD_AIN : FRef := fr 0x2800 28 2 0
abbrev F.THM_CFG_SPAN : FRef := fr 0x2800 8 6 25
abbrev F.THM_CFG_HYST : FRef := fr 0x2800 0 5 10
abbrev F.THM_THR_SD : FRef := fr 0x2804 16 8 150
abbrev F.THM_THR_THR : FRef := fr 0x2804 8 8 125
abbrev F.THM_THR_WARN : FRef := fr 0x2804 0 8 115
abbrev F.THM_BRD_THR_BTHR : FRef := fr 0x2808 8 8 90
abbrev F.THM_BRD_THR_BWARN : FRef := fr 0x2808 0 8 85
abbrev F.THM_PACK_NTC_B : FRef := fr 0x280C 16 16 3435
abbrev F.THM_PACK_NTC_R25 : FRef := fr 0x280C 0 16 1000
abbrev F.THM_BRD_NTC_B : FRef := fr 0x2810 16 16 3435
abbrev F.THM_BRD_NTC_R25 : FRef := fr 0x2810 0 16 1000
abbrev F.THM_BRD_RB_RB : FRef := fr 0x2814 0 16 1000
abbrev F.THM_TJ_SENS : FRef := fr 0x2818 24 4 0
abbrev F.THM_TJ_TJ : FRef := fr 0x2818 0 16 0
abbrev F.THM_NTC_T_TBRD : FRef := fr 0x281C 16 16 0
abbrev F.THM_NTC_T_TPACK : FRef := fr 0x281C 0 16 0
abbrev F.THM_TH_SRC : FRef := fr 0x2820 16 1 0
abbrev F.THM_TH_TH : FRef := fr 0x2820 0 16 0
abbrev F.THM_STAT_LATCH : FRef := fr 0x2824 10 1 0
abbrev F.THM_STAT_THROT : FRef := fr 0x2824 9 1 0
abbrev F.THM_STAT_WARN : FRef := fr 0x2824 8 1 0
abbrev F.THM_STAT_BRD_INV : FRef := fr 0x2824 4 1 0
abbrev F.THM_STAT_SD : FRef := fr 0x2824 3 1 0
abbrev F.THM_STAT_THROT_SEEN : FRef := fr 0x2824 2 1 0
abbrev F.THM_STAT_WARN_SEEN : FRef := fr 0x2824 1 1 0
abbrev F.THM_STAT_NTC_FAULT : FRef := fr 0x2824 0 1 0
abbrev F.THM_CEIL_ALARM : FRef := fr 0x2828 31 1 0
abbrev F.THM_CEIL_SD_MAX : FRef := fr 0x2828 16 8 0
abbrev F.THM_CEIL_THR_MAX : FRef := fr 0x2828 8 8 0
abbrev F.THM_CEIL_WARN_MAX : FRef := fr 0x2828 0 8 0
abbrev F.FLT_CFG_INJ_EN : FRef := fr 0x2C00 1 1 0
abbrev F.FLT_CFG_RED_GUARD : FRef := fr 0x2C00 0 1 1
abbrev F.FLT_STAT_ANY : FRef := fr 0x2C04 26 1 0
abbrev F.FLT_STAT_MAXCOL : FRef := fr 0x2C04 24 2 0
abbrev F.FLT_STAT_LAST : FRef := fr 0x2C04 16 8 255
abbrev F.FLT_STAT_BLACK_SRC : FRef := fr 0x2C04 8 8 255
abbrev F.FLT_STAT_LOG_LOST : FRef := fr 0x2C04 0 8 0
abbrev F.FLT_PEND0_PEND : FRef := fr 0x2C08 0 32 0
abbrev F.FLT_PEND1_PEND : FRef := fr 0x2C0C 0 9 0
abbrev F.FLT_ACT0_ACT : FRef := fr 0x2C10 0 32 0
abbrev F.FLT_ACT1_ACT : FRef := fr 0x2C14 0 9 0
abbrev F.FLT_COL0_EFF0 : FRef := fr 0x2C20 2 2 0
abbrev F.FLT_COL0_CFG0 : FRef := fr 0x2C20 0 2 0
abbrev F.FLT_COL0_EFF1 : FRef := fr 0x2C20 6 2 3
abbrev F.FLT_COL0_CFG1 : FRef := fr 0x2C20 4 2 3
abbrev F.FLT_COL0_EFF2 : FRef := fr 0x2C20 10 2 3
abbrev F.FLT_COL0_CFG2 : FRef := fr 0x2C20 8 2 3
abbrev F.FLT_COL0_EFF3 : FRef := fr 0x2C20 14 2 0
abbrev F.FLT_COL0_CFG3 : FRef := fr 0x2C20 12 2 0
abbrev F.FLT_COL0_EFF4 : FRef := fr 0x2C20 18 2 2
abbrev F.FLT_COL0_CFG4 : FRef := fr 0x2C20 16 2 2
abbrev F.FLT_COL0_EFF5 : FRef := fr 0x2C20 22 2 2
abbrev F.FLT_COL0_CFG5 : FRef := fr 0x2C20 20 2 2
abbrev F.FLT_COL0_EFF6 : FRef := fr 0x2C20 26 2 3
abbrev F.FLT_COL0_CFG6 : FRef := fr 0x2C20 24 2 3
abbrev F.FLT_COL0_EFF7 : FRef := fr 0x2C20 30 2 2
abbrev F.FLT_COL0_CFG7 : FRef := fr 0x2C20 28 2 2
abbrev F.FLT_COL1_EFF0 : FRef := fr 0x2C24 2 2 3
abbrev F.FLT_COL1_CFG0 : FRef := fr 0x2C24 0 2 3
abbrev F.FLT_COL1_EFF1 : FRef := fr 0x2C24 6 2 3
abbrev F.FLT_COL1_CFG1 : FRef := fr 0x2C24 4 2 3
abbrev F.FLT_COL1_EFF2 : FRef := fr 0x2C24 10 2 1
abbrev F.FLT_COL1_CFG2 : FRef := fr 0x2C24 8 2 1
abbrev F.FLT_COL1_EFF3 : FRef := fr 0x2C24 14 2 3
abbrev F.FLT_COL1_CFG3 : FRef := fr 0x2C24 12 2 3
abbrev F.FLT_COL1_EFF4 : FRef := fr 0x2C24 18 2 1
abbrev F.FLT_COL1_CFG4 : FRef := fr 0x2C24 16 2 1
abbrev F.FLT_COL1_EFF5 : FRef := fr 0x2C24 22 2 1
abbrev F.FLT_COL1_CFG5 : FRef := fr 0x2C24 20 2 1
abbrev F.FLT_COL1_EFF6 : FRef := fr 0x2C24 26 2 2
abbrev F.FLT_COL1_CFG6 : FRef := fr 0x2C24 24 2 2
abbrev F.FLT_COL1_EFF7 : FRef := fr 0x2C24 30 2 1
abbrev F.FLT_COL1_CFG7 : FRef := fr 0x2C24 28 2 1
abbrev F.FLT_COL2_EFF0 : FRef := fr 0x2C28 2 2 1
abbrev F.FLT_COL2_CFG0 : FRef := fr 0x2C28 0 2 1
abbrev F.FLT_COL2_EFF1 : FRef := fr 0x2C28 6 2 2
abbrev F.FLT_COL2_CFG1 : FRef := fr 0x2C28 4 2 2
abbrev F.FLT_COL2_EFF2 : FRef := fr 0x2C28 10 2 1
abbrev F.FLT_COL2_CFG2 : FRef := fr 0x2C28 8 2 1
abbrev F.FLT_COL2_EFF3 : FRef := fr 0x2C28 14 2 1
abbrev F.FLT_COL2_CFG3 : FRef := fr 0x2C28 12 2 1
abbrev F.FLT_COL2_EFF4 : FRef := fr 0x2C28 18 2 2
abbrev F.FLT_COL2_CFG4 : FRef := fr 0x2C28 16 2 2
abbrev F.FLT_COL2_EFF5 : FRef := fr 0x2C28 22 2 1
abbrev F.FLT_COL2_CFG5 : FRef := fr 0x2C28 20 2 1
abbrev F.FLT_COL2_EFF6 : FRef := fr 0x2C28 26 2 2
abbrev F.FLT_COL2_CFG6 : FRef := fr 0x2C28 24 2 2
abbrev F.FLT_COL2_EFF7 : FRef := fr 0x2C28 30 2 1
abbrev F.FLT_COL2_CFG7 : FRef := fr 0x2C28 28 2 1
abbrev F.FLT_COL3_EFF0 : FRef := fr 0x2C2C 2 2 2
abbrev F.FLT_COL3_CFG0 : FRef := fr 0x2C2C 0 2 2
abbrev F.FLT_COL3_EFF1 : FRef := fr 0x2C2C 6 2 1
abbrev F.FLT_COL3_CFG1 : FRef := fr 0x2C2C 4 2 1
abbrev F.FLT_COL3_EFF2 : FRef := fr 0x2C2C 10 2 2
abbrev F.FLT_COL3_CFG2 : FRef := fr 0x2C2C 8 2 2
abbrev F.FLT_COL3_EFF3 : FRef := fr 0x2C2C 14 2 1
abbrev F.FLT_COL3_CFG3 : FRef := fr 0x2C2C 12 2 1
abbrev F.FLT_COL3_EFF4 : FRef := fr 0x2C2C 18 2 1
abbrev F.FLT_COL3_CFG4 : FRef := fr 0x2C2C 16 2 1
abbrev F.FLT_COL3_EFF5 : FRef := fr 0x2C2C 22 2 0
abbrev F.FLT_COL3_CFG5 : FRef := fr 0x2C2C 20 2 0
abbrev F.FLT_COL3_EFF6 : FRef := fr 0x2C2C 26 2 0
abbrev F.FLT_COL3_CFG6 : FRef := fr 0x2C2C 24 2 0
abbrev F.FLT_COL3_EFF7 : FRef := fr 0x2C2C 30 2 1
abbrev F.FLT_COL3_CFG7 : FRef := fr 0x2C2C 28 2 1
abbrev F.FLT_COL4_EFF0 : FRef := fr 0x2C30 2 2 2
abbrev F.FLT_COL4_CFG0 : FRef := fr 0x2C30 0 2 2
abbrev F.FLT_COL4_EFF1 : FRef := fr 0x2C30 6 2 1
abbrev F.FLT_COL4_CFG1 : FRef := fr 0x2C30 4 2 1
abbrev F.FLT_COL4_EFF2 : FRef := fr 0x2C30 10 2 2
abbrev F.FLT_COL4_CFG2 : FRef := fr 0x2C30 8 2 2
abbrev F.FLT_COL4_EFF3 : FRef := fr 0x2C30 14 2 0
abbrev F.FLT_COL4_CFG3 : FRef := fr 0x2C30 12 2 0
abbrev F.FLT_COL4_EFF4 : FRef := fr 0x2C30 18 2 0
abbrev F.FLT_COL4_CFG4 : FRef := fr 0x2C30 16 2 0
abbrev F.FLT_COL4_EFF5 : FRef := fr 0x2C30 22 2 2
abbrev F.FLT_COL4_CFG5 : FRef := fr 0x2C30 20 2 2
abbrev F.FLT_COL4_EFF6 : FRef := fr 0x2C30 26 2 2
abbrev F.FLT_COL4_CFG6 : FRef := fr 0x2C30 24 2 2
abbrev F.FLT_COL4_EFF7 : FRef := fr 0x2C30 30 2 0
abbrev F.FLT_COL4_CFG7 : FRef := fr 0x2C30 28 2 0
abbrev F.FLT_COL5_EFF0 : FRef := fr 0x2C34 2 2 2
abbrev F.FLT_COL5_CFG0 : FRef := fr 0x2C34 0 2 2
abbrev F.FLT_FLOOR0_FLOOR0 : FRef := fr 0x2C40 0 2 0
abbrev F.FLT_FLOOR0_FLOOR1 : FRef := fr 0x2C40 2 2 0
abbrev F.FLT_FLOOR0_FLOOR2 : FRef := fr 0x2C40 4 2 0
abbrev F.FLT_FLOOR0_FLOOR3 : FRef := fr 0x2C40 6 2 0
abbrev F.FLT_FLOOR0_FLOOR4 : FRef := fr 0x2C40 8 2 0
abbrev F.FLT_FLOOR0_FLOOR5 : FRef := fr 0x2C40 10 2 0
abbrev F.FLT_FLOOR0_FLOOR6 : FRef := fr 0x2C40 12 2 0
abbrev F.FLT_FLOOR0_FLOOR7 : FRef := fr 0x2C40 14 2 0
abbrev F.FLT_FLOOR0_FLOOR8 : FRef := fr 0x2C40 16 2 0
abbrev F.FLT_FLOOR0_FLOOR9 : FRef := fr 0x2C40 18 2 0
abbrev F.FLT_FLOOR0_FLOOR10 : FRef := fr 0x2C40 20 2 0
abbrev F.FLT_FLOOR0_FLOOR11 : FRef := fr 0x2C40 22 2 0
abbrev F.FLT_FLOOR0_FLOOR12 : FRef := fr 0x2C40 24 2 0
abbrev F.FLT_FLOOR0_FLOOR13 : FRef := fr 0x2C40 26 2 0
abbrev F.FLT_FLOOR0_FLOOR14 : FRef := fr 0x2C40 28 2 0
abbrev F.FLT_FLOOR0_FLOOR15 : FRef := fr 0x2C40 30 2 0
abbrev F.FLT_FLOOR1_FLOOR0 : FRef := fr 0x2C44 0 2 0
abbrev F.FLT_FLOOR1_FLOOR1 : FRef := fr 0x2C44 2 2 0
abbrev F.FLT_FLOOR1_FLOOR2 : FRef := fr 0x2C44 4 2 0
abbrev F.FLT_FLOOR1_FLOOR3 : FRef := fr 0x2C44 6 2 0
abbrev F.FLT_FLOOR1_FLOOR4 : FRef := fr 0x2C44 8 2 0
abbrev F.FLT_FLOOR1_FLOOR5 : FRef := fr 0x2C44 10 2 0
abbrev F.FLT_FLOOR1_FLOOR6 : FRef := fr 0x2C44 12 2 0
abbrev F.FLT_FLOOR1_FLOOR7 : FRef := fr 0x2C44 14 2 0
abbrev F.FLT_FLOOR1_FLOOR8 : FRef := fr 0x2C44 16 2 0
abbrev F.FLT_FLOOR1_FLOOR9 : FRef := fr 0x2C44 18 2 0
abbrev F.FLT_FLOOR1_FLOOR10 : FRef := fr 0x2C44 20 2 0
abbrev F.FLT_FLOOR1_FLOOR11 : FRef := fr 0x2C44 22 2 0
abbrev F.FLT_FLOOR1_FLOOR12 : FRef := fr 0x2C44 24 2 0
abbrev F.FLT_FLOOR1_FLOOR13 : FRef := fr 0x2C44 26 2 0
abbrev F.FLT_FLOOR1_FLOOR14 : FRef := fr 0x2C44 28 2 0
abbrev F.FLT_FLOOR1_FLOOR15 : FRef := fr 0x2C44 30 2 0
abbrev F.FLT_FLOOR2_FLOOR0 : FRef := fr 0x2C48 0 2 0
abbrev F.FLT_FLOOR2_FLOOR1 : FRef := fr 0x2C48 2 2 0
abbrev F.FLT_FLOOR2_FLOOR2 : FRef := fr 0x2C48 4 2 0
abbrev F.FLT_FLOOR2_FLOOR3 : FRef := fr 0x2C48 6 2 0
abbrev F.FLT_FLOOR2_FLOOR4 : FRef := fr 0x2C48 8 2 0
abbrev F.FLT_FLOOR2_FLOOR5 : FRef := fr 0x2C48 10 2 0
abbrev F.FLT_FLOOR2_FLOOR6 : FRef := fr 0x2C48 12 2 0
abbrev F.FLT_FLOOR2_FLOOR7 : FRef := fr 0x2C48 14 2 0
abbrev F.FLT_FLOOR2_FLOOR8 : FRef := fr 0x2C48 16 2 0
abbrev F.FLT_SRC_SEL_SRC : FRef := fr 0x2C50 0 8 0
abbrev F.FLT_SRC_INFO_CNT : FRef := fr 0x2C54 16 16 0
abbrev F.FLT_SRC_INFO_DETAIL : FRef := fr 0x2C54 0 16 0
abbrev F.FLT_GPIO_THR0 : FRef := fr 0x2C58 0 2 2
abbrev F.FLT_GPIO_THR1 : FRef := fr 0x2C58 2 2 2
abbrev F.FLT_GPIO_THR2 : FRef := fr 0x2C58 4 2 2
abbrev F.FLT_GPIO_THR3 : FRef := fr 0x2C58 6 2 2
abbrev F.FLT_GPIO_THR4 : FRef := fr 0x2C58 8 2 2
abbrev F.FLT_GPIO_THR5 : FRef := fr 0x2C58 10 2 2
abbrev F.FLT_GPIO_THR6 : FRef := fr 0x2C58 12 2 2
abbrev F.FLT_GPIO_THR7 : FRef := fr 0x2C58 14 2 2
abbrev F.FLT_GPIO_THR8 : FRef := fr 0x2C58 16 2 2
abbrev F.FLT_GPIO_THR9 : FRef := fr 0x2C58 18 2 2
abbrev F.FLT_GPIO_THR10 : FRef := fr 0x2C58 20 2 2
abbrev F.FLT_GPIO_THR11 : FRef := fr 0x2C58 22 2 2
abbrev F.FLT_INJ_KEY : FRef := fr 0x2C60 16 16 0
abbrev F.FLT_INJ_SRC : FRef := fr 0x2C60 0 8 0
abbrev F.FLT_INJ_STAT_ARMED : FRef := fr 0x2C64 10 1 0
abbrev F.FLT_INJ_STAT_DONE : FRef := fr 0x2C64 9 1 0
abbrev F.FLT_INJ_STAT_REFUSED : FRef := fr 0x2C64 8 1 0
abbrev F.FLT_INJ_STAT_SRC : FRef := fr 0x2C64 0 8 0
abbrev F.FLT_LOG_IDX_BUSY : FRef := fr 0x2C68 31 1 0
abbrev F.FLT_LOG_IDX_HELD : FRef := fr 0x2C68 16 9 0
abbrev F.FLT_LOG_IDX_K : FRef := fr 0x2C68 0 8 0
abbrev F.FLT_LOG_BYTES (n : Nat) : FRef := fr (0x2C70 + 4 * n) 0 32 0
abbrev F.WDG_CFG_COMPAT : FRef := fr 0x3000 0 1 0
abbrev F.WDG_SERVICE_WORD : FRef := fr 0x3004 0 32 0
abbrev F.WDG_STAT_BADKEY : FRef := fr 0x3008 24 8 0
abbrev F.WDG_STAT_SEAT : FRef := fr 0x3008 16 4 15
abbrev F.WDG_STAT_CAUSE : FRef := fr 0x3008 8 4 0
abbrev F.WDG_STAT_WDX : FRef := fr 0x3008 3 1 0
abbrev F.WDG_STAT_STAGE2 : FRef := fr 0x3008 2 1 0
abbrev F.WDG_STAT_PAUSED : FRef := fr 0x3008 1 1 0
abbrev F.WDG_STAT_RUN : FRef := fr 0x3008 0 1 0
abbrev F.WDG_FUSE_ALARM : FRef := fr 0x300C 31 1 0
abbrev F.WDG_FUSE_WDX_LEN : FRef := fr 0x300C 24 2 0
abbrev F.WDG_FUSE_WIN0 : FRef := fr 0x300C 0 3 0
abbrev F.WDG_FUSE_WIN1 : FRef := fr 0x300C 3 3 0
abbrev F.WDG_FUSE_WIN2 : FRef := fr 0x300C 6 3 0
abbrev F.WDG_FUSE_WIN3 : FRef := fr 0x300C 9 3 0
abbrev F.WDG_FUSE_WIN4 : FRef := fr 0x300C 12 3 0
abbrev F.WDG_FUSE_WIN5 : FRef := fr 0x300C 15 3 0
abbrev F.WDG_FUSE_WIN6 : FRef := fr 0x300C 18 3 0
abbrev F.WDG_FUSE_WIN7 : FRef := fr 0x300C 21 3 0
abbrev F.WDG_CORE_CFG_PER : FRef := fr 0x3010 0 10 100
abbrev F.WDG_CORE_STAT_LAST : FRef := fr 0x3014 16 16 0
abbrev F.WDG_SEAT_CFG_EN (n : Nat) : FRef := fr (0x3040 + 8 * n) 31 1 0
abbrev F.WDG_SEAT_CFG_FIRST (n : Nat) : FRef := fr (0x3040 + 8 * n) 16 8 0
abbrev F.WDG_SEAT_CFG_PERIOD (n : Nat) : FRef := fr (0x3040 + 8 * n) 0 16 1000
abbrev F.WDG_SEAT_STAT_TAG (n : Nat) : FRef := fr (0x3044 + 8 * n) 24 8 0
abbrev F.WDG_SEAT_STAT_FIRSTP (n : Nat) : FRef := fr (0x3044 + 8 * n) 22 1 0
abbrev F.WDG_SEAT_STAT_OPEN (n : Nat) : FRef := fr (0x3044 + 8 * n) 21 1 0
abbrev F.WDG_SEAT_STAT_SERVED (n : Nat) : FRef := fr (0x3044 + 8 * n) 20 1 0
abbrev F.WDG_SEAT_STAT_MS (n : Nat) : FRef := fr (0x3044 + 8 * n) 0 16 0
abbrev F.WDG_EVID_IDX_BUSY : FRef := fr 0x3080 31 1 0
abbrev F.WDG_EVID_IDX_HELD : FRef := fr 0x3080 16 5 0
abbrev F.WDG_EVID_IDX_K : FRef := fr 0x3080 0 4 0
abbrev F.WDG_EVID_BYTES (n : Nat) : FRef := fr (0x3090 + 4 * n) 0 32 0
abbrev F.EVT_RING_CFG_LOG2N : FRef := fr 0x3400 0 4 4
abbrev F.EVT_EP_CFG_DIV : FRef := fr 0x3404 0 2 0
abbrev F.EVT_ARM_KEY : FRef := fr 0x3408 0 32 0
abbrev F.EVT_STAT_ARMED : FRef := fr 0x340C 31 1 0
abbrev F.EVT_STAT_DRAIN : FRef := fr 0x340C 30 1 0
abbrev F.EVT_STAT_BUF : FRef := fr 0x340C 16 6 0
abbrev F.EVT_STAT_HEAD : FRef := fr 0x340C 8 5 0
abbrev F.EVT_STAT_PB : FRef := fr 0x340C 0 3 0
abbrev F.EVT_PROD_DONE : FRef := fr 0x3410 16 16 0
abbrev F.EVT_PROD_PROD : FRef := fr 0x3410 0 16 0
abbrev F.EVT_CONS_CONS : FRef := fr 0x3414 0 16 0
abbrev F.EVT_MASK_MASK : FRef := fr 0x3418 0 19 0
abbrev F.EVT_LVL_EN_EN : FRef := fr 0x341C 0 8 0
abbrev F.EVT_LVL_ACTIVE : FRef := fr 0x3420 8 8 0
abbrev F.EVT_LVL_REPORTED : FRef := fr 0x3420 0 8 0
abbrev F.EVT_ACK_ACK : FRef := fr 0x3424 0 8 0
abbrev F.EVT_LOST_RB : FRef := fr 0x3428 24 8 0
abbrev F.EVT_LOST_AMBER : FRef := fr 0x3428 8 8 0
abbrev F.EVT_LOST_GREEN : FRef := fr 0x3428 0 8 0
abbrev F.EVT_MASKED_CNT : FRef := fr 0x342C 0 16 0
abbrev F.EVT_CLR_KEY : FRef := fr 0x3430 0 32 0
abbrev F.EVT_IRQ_CFG_FCOL : FRef := fr 0x3434 30 2 2
abbrev F.EVT_IRQ_CFG_EN : FRef := fr 0x3434 24 5 31
abbrev F.EVT_IRQ_CFG_HOLDOFF : FRef := fr 0x3434 16 8 10
abbrev F.EVT_IRQ_CFG_THRESH : FRef := fr 0x3434 0 13 1
abbrev F.EVT_IRQ_STAT_CONS_BAD : FRef := fr 0x3438 4 1 0
abbrev F.EVT_IRQ_STAT_BUF : FRef := fr 0x3438 3 1 0
abbrev F.EVT_IRQ_STAT_FAULT : FRef := fr 0x3438 2 1 0
abbrev F.EVT_IRQ_STAT_LOST : FRef := fr 0x3438 1 1 0
abbrev F.EVT_IRQ_STAT_RING : FRef := fr 0x3438 0 1 0
abbrev F.EVT_HL_CNT_LATE : FRef := fr 0x343C 24 8 0
abbrev F.EVT_HL_CNT_ABORT : FRef := fr 0x343C 16 8 0
abbrev F.EVT_HL_CNT_BUSY : FRef := fr 0x343C 8 8 0
abbrev F.EVT_HL_CNT_CRC : FRef := fr 0x343C 0 8 0
abbrev F.EVT_HL_LAST_STATUS : FRef := fr 0x3440 0 32 0
abbrev F.EVT_BUF_BYTES (n : Nat) : FRef := fr (0x3600 + 4 * n) 0 32 0
abbrev F.TWB_TGT_CFG_PEC_REQ : FRef := fr 0x3800 8 1 0
abbrev F.TWB_TGT_CFG_ADDR : FRef := fr 0x3800 0 7 44
abbrev F.TWB_TGT_CNT_TOUT : FRef := fr 0x3804 24 8 0
abbrev F.TWB_TGT_CNT_NOCRED : FRef := fr 0x3804 16 8 0
abbrev F.TWB_TGT_CNT_PEC : FRef := fr 0x3804 8 8 0
abbrev F.TWB_TGT_CNT_ABORT : FRef := fr 0x3804 0 8 0
abbrev F.TWB_CTL_CFG_RETRY : FRef := fr 0x3810 0 2 2
abbrev F.TWB_CTL_SCL_HIGH : FRef := fr 0x3814 16 10 352
abbrev F.TWB_CTL_SCL_LOW : FRef := fr 0x3814 0 10 448
abbrev F.TWB_CTL_SDA_STA : FRef := fr 0x3818 16 10 380
abbrev F.TWB_CTL_SDA_HOLD : FRef := fr 0x3818 0 8 24
abbrev F.TWB_CTL_STAT_ARB : FRef := fr 0x381C 24 8 0
abbrev F.TWB_CTL_STAT_RETRIES : FRef := fr 0x381C 16 8 0
abbrev F.TWB_CTL_STAT_CAUSE : FRef := fr 0x381C 8 4 0
abbrev F.TWB_CTL_STAT_ALERT : FRef := fr 0x381C 3 1 0
abbrev F.TWB_CTL_STAT_HUNG : FRef := fr 0x381C 2 1 0
abbrev F.TWB_CTL_STAT_BUSY : FRef := fr 0x381C 1 1 0
abbrev F.TWB_CTL_STAT_HB : FRef := fr 0x381C 0 1 0
abbrev F.TWB_SAT_STAT_ADDR (n : Nat) : FRef := fr (0x3840 + 4 * n) 24 7 0
abbrev F.TWB_SAT_STAT_ITEMS (n : Nat) : FRef := fr (0x3840 + 4 * n) 16 8 0
abbrev F.TWB_SAT_STAT_CAUSE (n : Nat) : FRef := fr (0x3840 + 4 * n) 12 4 0
abbrev F.TWB_SAT_STAT_MISS (n : Nat) : FRef := fr (0x3840 + 4 * n) 8 2 0
abbrev F.TWB_SAT_STAT_STATE (n : Nat) : FRef := fr (0x3840 + 4 * n) 0 3 0
abbrev F.TWB_HX_CTRL_START : FRef := fr 0x3880 31 1 0
abbrev F.TWB_HX_CTRL_BUSY : FRef := fr 0x3880 30 1 0
abbrev F.TWB_HX_CTRL_DONE : FRef := fr 0x3880 29 1 0
abbrev F.TWB_HX_CTRL_PEC : FRef := fr 0x3880 28 1 0
abbrev F.TWB_HX_CTRL_CAUSE : FRef := fr 0x3880 24 4 0
abbrev F.TWB_HX_CTRL_RLEN : FRef := fr 0x3880 16 6 0
abbrev F.TWB_HX_CTRL_WLEN : FRef := fr 0x3880 8 6 0
abbrev F.TWB_HX_CTRL_ADDR : FRef := fr 0x3880 0 7 0
abbrev F.TWB_HX_DATA_BYTES (n : Nat) : FRef := fr (0x3890 + 4 * n) 0 32 0
abbrev F.TWB_SLV_STAT_LAST : FRef := fr 0x38C0 24 8 0
abbrev F.TWB_SLV_STAT_DROP : FRef := fr 0x38C0 16 8 0
abbrev F.TWB_SLV_STAT_MISS : FRef := fr 0x38C0 8 2 0
abbrev F.TWB_SLV_STAT_LOST_SEEN : FRef := fr 0x38C0 2 1 0
abbrev F.TWB_SLV_STAT_LOST : FRef := fr 0x38C0 1 1 0
abbrev F.TWB_SLV_STAT_SEEN : FRef := fr 0x38C0 0 1 0
abbrev F.SEC_CFG_CHAL_LIFE : FRef := fr 0x3C00 0 8 60
abbrev F.SEC_STAT_EPOCH_VALID : FRef := fr 0x3C04 3 1 0
abbrev F.SEC_STAT_MARK_VALID : FRef := fr 0x3C04 2 1 0
abbrev F.SEC_STAT_TFAIL : FRef := fr 0x3C04 1 1 0
abbrev F.SEC_STAT_VFAIL : FRef := fr 0x3C04 0 1 0
abbrev F.SEC_CHAL_REQ_KEY : FRef := fr 0x3C08 0 32 0
abbrev F.SEC_CHAL_STAT_EVICT : FRef := fr 0x3C0C 16 16 0
abbrev F.SEC_CHAL_STAT_OUT : FRef := fr 0x3C0C 8 3 0
abbrev F.SEC_CHAL_STAT_REFUSED : FRef := fr 0x3C0C 5 1 0
abbrev F.SEC_CHAL_STAT_READY : FRef := fr 0x3C0C 4 1 0
abbrev F.SEC_CHAL_STAT_SLOT : FRef := fr 0x3C0C 0 2 0
abbrev F.SEC_CHAL_W_BYTES (n : Nat) : FRef := fr (0x3C10 + 4 * n) 0 32 0
abbrev F.SEC_SUBMIT_KEY : FRef := fr 0x3C20 0 32 0
abbrev F.SEC_RESULT_BUSY : FRef := fr 0x3C24 31 1 0
abbrev F.SEC_RESULT_KIND : FRef := fr 0x3C24 16 1 0
abbrev F.SEC_RESULT_CODE : FRef := fr 0x3C24 0 8 0
abbrev F.SEC_MARK_MARK : FRef := fr 0x3C28 0 32 0
abbrev F.SEC_RTC_SEC : FRef := fr 0x3C2C 0 32 0
abbrev F.SEC_CNT_REFUSED : FRef := fr 0x3C30 16 16 0
abbrev F.SEC_CNT_ACCEPTED : FRef := fr 0x3C30 8 8 0
abbrev F.SEC_CNT_BUSYW : FRef := fr 0x3C30 0 8 0
abbrev F.SEC_BUF_BYTES (n : Nat) : FRef := fr (0x3C40 + 4 * n) 0 32 0
abbrev F.OTP_SHD_IDX_WORD : FRef := fr 0x4000 0 9 0
abbrev F.OTP_SHD_DATA_DATA : FRef := fr 0x4004 0 32 0
abbrev F.OTP_RD_ADDR_WORD : FRef := fr 0x4008 0 9 0
abbrev F.OTP_RD_STAT_BUSY : FRef := fr 0x400C 31 1 0
abbrev F.OTP_RD_STAT_SLOT : FRef := fr 0x400C 3 3 0
abbrev F.OTP_RD_STAT_UE : FRef := fr 0x400C 1 1 0
abbrev F.OTP_RD_STAT_CE : FRef := fr 0x400C 0 1 0
abbrev F.OTP_RD_DATA_DATA : FRef := fr 0x4010 0 32 0
abbrev F.OTP_PROG_ADDR_WORD : FRef := fr 0x4018 0 9 0
abbrev F.OTP_PROG_DATA_DATA : FRef := fr 0x401C 0 32 0
abbrev F.OTP_PROG_CTRL_KEY : FRef := fr 0x4020 0 32 0
abbrev F.OTP_PROG_STAT_BUSY : FRef := fr 0x4024 31 1 0
abbrev F.OTP_PROG_STAT_REFUSED : FRef := fr 0x4024 4 1 0
abbrev F.OTP_PROG_STAT_CAUSE : FRef := fr 0x4024 0 4 0
abbrev F.OTP_STATE_OWNER_OPEN : FRef := fr 0x4028 16 1 0
abbrev F.OTP_STATE_OTP_CNT : FRef := fr 0x4028 2 7 0
abbrev F.OTP_STATE_OWNER_LOCK : FRef := fr 0x4028 1 1 0
abbrev F.OTP_STATE_VENDOR_LOCK : FRef := fr 0x4028 0 1 1
abbrev F.JNL_CFG_CRES_UF : FRef := fr 0x4400 0 7 22
abbrev F.JNL_STAT_VCRES : FRef := fr 0x4404 16 16 0
abbrev F.JNL_STAT_JMIN : FRef := fr 0x4404 4 12 3300
abbrev F.JNL_STAT_REFUSED_SEEN : FRef := fr 0x4404 3 1 0
abbrev F.JNL_STAT_LOW : FRef := fr 0x4404 2 1 0
abbrev F.JNL_STAT_QUEUED : FRef := fr 0x4404 1 1 0
abbrev F.JNL_STAT_BUSY : FRef := fr 0x4404 0 1 0
abbrev F.JNL_CNT_COMMITS : FRef := fr 0x4408 16 16 0
abbrev F.JNL_CNT_REFUSED : FRef := fr 0x4408 8 8 0
abbrev F.JNL_CNT_DROP : FRef := fr 0x4408 4 4 0
abbrev F.JNL_CNT_CE : FRef := fr 0x4408 0 4 0
abbrev F.JNL_RD_IDX_WORD : FRef := fr 0x440C 0 14 0
abbrev F.JNL_RD_DATA_DATA : FRef := fr 0x4410 0 32 0
abbrev F.UPD_CFG_ERASE : FRef := fr 0x4800 0 1 1
abbrev F.UPD_CTRL_KEY : FRef := fr 0x4804 0 32 0
abbrev F.UPD_STAT_BUSY : FRef := fr 0x4808 31 1 0
abbrev F.UPD_STAT_PHASE : FRef := fr 0x4808 28 3 0
abbrev F.UPD_STAT_SLOT : FRef := fr 0x4808 24 1 0
abbrev F.UPD_STAT_CAUSE : FRef := fr 0x4808 16 8 0
abbrev F.UPD_STAT_DISC : FRef := fr 0x4808 12 4 0
abbrev F.UPD_STAT_BLOCKS : FRef := fr 0x4808 0 12 0
abbrev F.UPD_LEN_L : FRef := fr 0x480C 0 20 0
abbrev F.UPD_SLOT_ACTIVE (n : Nat) : FRef := fr (0x4810 + 4 * n) 31 1 0
abbrev F.UPD_SLOT_INVALID (n : Nat) : FRef := fr (0x4810 + 4 * n) 30 1 0
abbrev F.UPD_SLOT_WIP (n : Nat) : FRef := fr (0x4810 + 4 * n) 29 1 0
abbrev F.UPD_SLOT_ROLLBACK (n : Nat) : FRef := fr (0x4810 + 4 * n) 8 8 0
abbrev F.UPD_SLOT_FW (n : Nat) : FRef := fr (0x4810 + 4 * n) 0 8 0
abbrev F.UPD_HIST_IDX_BUSY : FRef := fr 0x4820 31 1 0
abbrev F.UPD_HIST_IDX_HELD : FRef := fr 0x4820 16 7 0
abbrev F.UPD_HIST_IDX_K : FRef := fr 0x4820 0 6 0
abbrev F.UPD_HIST_BYTES (n : Nat) : FRef := fr (0x4830 + 4 * n) 0 32 0
abbrev F.UPD_BUF_BYTES (n : Nat) : FRef := fr (0x4900 + 4 * n) 0 32 0
abbrev F.UPD_BLK_OFS : FRef := fr 0x4A00 0 19 0

/-- The registers of the block at 0x0000. -/
def blockRows0 : List RegRow := [
  ⟨0x0000, 4, 1, [⟨16, 16, .ro, 18454, 0, 65535⟩, ⟨8, 8, .ro, 1, 0, 255⟩, ⟨0, 8, .ro, 0, 0, 255⟩]⟩,
  ⟨0x0004, 4, 1, [⟨10, 1, .ro, 0, 0, 1⟩, ⟨9, 1, .ro, 0, 0, 1⟩, ⟨8, 1, .ro, 0, 0, 1⟩, ⟨0, 3, .ro, 2, 0, 7⟩]⟩,
  ⟨0x0008, 4, 1, [⟨0, 32, .wo, 0, 0, 4294967295⟩]⟩,
  ⟨0x000C, 4, 1, [⟨6, 1, .w1c, 0, 0, 1⟩, ⟨5, 1, .w1c, 0, 0, 1⟩, ⟨4, 1, .w1c, 0, 0, 1⟩, ⟨3, 1, .w1c, 0, 0, 1⟩, ⟨2, 1, .w1c, 0, 0, 1⟩, ⟨1, 1, .w1c, 0, 0, 1⟩, ⟨0, 1, .w1c, 1, 0, 1⟩]⟩,
  ⟨0x0010, 4, 1, [⟨24, 5, .ro, 12, 0, 31⟩, ⟨16, 5, .ro, 8, 0, 31⟩, ⟨8, 5, .ro, 16, 0, 31⟩, ⟨0, 5, .ro, 12, 0, 31⟩]⟩,
  ⟨0x0014, 4, 1, [⟨24, 7, .ro, 64, 0, 127⟩, ⟨16, 5, .ro, 4, 0, 31⟩, ⟨8, 5, .ro, 8, 0, 31⟩, ⟨0, 5, .ro, 4, 0, 31⟩]⟩,
  ⟨0x0018, 4, 1, [⟨6, 1, .w1c, 0, 0, 1⟩, ⟨5, 1, .w1c, 0, 0, 1⟩, ⟨4, 1, .w1c, 0, 0, 1⟩, ⟨3, 1, .w1c, 0, 0, 1⟩, ⟨2, 1, .w1c, 0, 0, 1⟩, ⟨1, 1, .w1c, 0, 0, 1⟩, ⟨0, 1, .w1c, 0, 0, 1⟩]⟩,
  ⟨0x001C, 4, 1, [⟨0, 14, .w1c, 0, 0, 16383⟩]⟩,
  ⟨0x0020, 4, 4, [⟨24, 8, .ro, 0, 0, 255⟩, ⟨16, 8, .ro, 0, 0, 255⟩, ⟨8, 8, .ro, 0, 0, 255⟩, ⟨0, 8, .ro, 0, 0, 255⟩]⟩,
  ⟨0x0100, 4, 1, [⟨3, 1, .ro, 0, 0, 1⟩, ⟨2, 1, .ro, 0, 0, 1⟩, ⟨1, 1, .ro, 0, 0, 1⟩, ⟨0, 1, .ro, 0, 0, 1⟩]⟩,
  ⟨0x0104, 4, 1, [⟨0, 20, .ro, 0, 0, 1048575⟩]⟩,
  ⟨0x0108, 4, 1, [⟨0, 32, .ro, 0, 0, 4294967295⟩]⟩,
  ⟨0x0110, 4, 2, [⟨16, 8, .ro, 0, 0, 255⟩, ⟨8, 8, .ro, 0, 0, 255⟩, ⟨0, 8, .ro, 0, 0, 255⟩]⟩,
  ⟨0x0118, 4, 1, [⟨16, 16, .ro, 0, 0, 65535⟩, ⟨0, 7, .ro, 0, 0, 127⟩]⟩,
  ⟨0x0120, 4, 1, [⟨8, 8, .rw, 0, 0, 8⟩, ⟨0, 8, .rw, 0, 0, 255⟩]⟩,
  ⟨0x0124, 4, 1, [⟨16, 1, .ro, 0, 0, 1⟩, ⟨8, 8, .ro, 0, 0, 255⟩, ⟨0, 8, .ro, 0, 0, 255⟩]⟩,
  ⟨0x0200, 4, 1, [⟨24, 2, .rw, 1, 0, 3⟩, ⟨16, 5, .rw, 0, 0, 31⟩, ⟨8, 7, .rw, 65, 0, 127⟩, ⟨0, 8, .rw, 65, 0, 255⟩]⟩,
  ⟨0x0204, 4, 1, [⟨0, 8, .w1c, 0, 0, 255⟩]⟩,
  ⟨0x0208, 4, 1, [⟨0, 32, .rw, 0, 0, 4294967295⟩]⟩,
  ⟨0x020C, 4, 1, [⟨0, 32, .wo, 0, 0, 4294967295⟩]⟩,
  ⟨0x0300, 4, 1, [⟨0, 12, .ro, 0, 0, 4095⟩]⟩,
  ⟨0x0304, 4, 1, [⟨0, 12, .rw, 0, 0, 4095⟩]⟩]

/-- The registers of the block at 0x0400. -/
def blockRows1 : List RegRow := [
  ⟨0x0400, 4, 1, [⟨16, 12, .rw, 256, 16, 2048⟩, ⟨8, 8, .rw, 16, 1, 255⟩, ⟨4, 3, .rw, 1, 0, 7⟩, ⟨1, 1, .rw, 0, 0, 1⟩, ⟨0, 1, .rw, 1, 0, 1⟩]⟩,
  ⟨0x0404, 4, 1, [⟨16, 16, .rw, 64, 0, 65535⟩, ⟨0, 16, .rw, 0, 0, 65535⟩]⟩,
  ⟨0x0408, 4, 1, [⟨16, 16, .ro, 0, 0, 65535⟩, ⟨0, 3, .ro, 0, 0, 7⟩]⟩,
  ⟨0x040C, 4, 1, [⟨16, 16, .ro, 0, 0, 65535⟩, ⟨0, 16, .ro, 0, 0, 65535⟩]⟩,
  ⟨0x0410, 4, 1, [⟨0, 32, .ro, 0, 0, 4294967295⟩]⟩,
  ⟨0x0414, 4, 1, [⟨0, 32, .ro, 0, 0, 4294967295⟩]⟩,
  ⟨0x0418, 4, 1, [⟨0, 24, .ro, 0, 0, 16777215⟩]⟩,
  ⟨0x041C, 4, 1, [⟨0, 24, .ro, 0, 0, 16777215⟩]⟩,
  ⟨0x0420, 4, 1, [⟨7, 1, .w1c, 0, 0, 1⟩, ⟨6, 1, .w1c, 0, 0, 1⟩, ⟨5, 1, .w1c, 0, 0, 1⟩, ⟨4, 1, .w1c, 0, 0, 1⟩, ⟨3, 1, .w1c, 0, 0, 1⟩, ⟨2, 1, .w1c, 0, 0, 1⟩, ⟨1, 1, .w1c, 0, 0, 1⟩, ⟨0, 1, .w1c, 0, 0, 1⟩]⟩,
  ⟨0x0424, 4, 1, [⟨24, 8, .ro, 0, 0, 255⟩, ⟨16, 8, .ro, 0, 0, 255⟩, ⟨8, 8, .ro, 0, 0, 255⟩, ⟨0, 8, .ro, 0, 0, 255⟩]⟩,
  ⟨0x0430, 4, 1, [⟨0, 32, .rw, 0, 0, 4294967295⟩]⟩,
  ⟨0x0434, 4, 1, [⟨0, 32, .rw, 0, 0, 4294967295⟩]⟩,
  ⟨0x0438, 4, 1, [⟨0, 32, .ro, 0, 0, 4294967295⟩]⟩,
  ⟨0x043C, 4, 1, [⟨0, 32, .ro, 0, 0, 4294967295⟩]⟩,
  ⟨0x0440, 4, 1, [⟨0, 32, .wo, 0, 0, 4294967295⟩]⟩,
  ⟨0x0444, 4, 1, [⟨18, 1, .ro, 0, 0, 1⟩, ⟨17, 1, .ro, 0, 0, 1⟩, ⟨16, 1, .ro, 0, 0, 1⟩, ⟨0, 16, .ro, 0, 0, 65535⟩]⟩,
  ⟨0x0448, 4, 1, [⟨16, 11, .rw, 64, 0, 2047⟩, ⟨3, 1, .rw, 0, 0, 1⟩, ⟨2, 1, .rw, 0, 0, 1⟩, ⟨1, 1, .rw, 0, 0, 1⟩, ⟨0, 1, .rw, 0, 0, 1⟩]⟩,
  ⟨0x0480, 4, 32, [⟨31, 1, .rw, 0, 0, 1⟩, ⟨28, 2, .rw, 0, 0, 3⟩, ⟨24, 4, .rw, 0, 0, 15⟩, ⟨16, 8, .rw, 0, 0, 255⟩, ⟨0, 16, .rw, 0, 0, 65535⟩]⟩,
  ⟨0x0500, 4, 1, [⟨0, 32, .w1c, 0, 0, 4294967295⟩]⟩]

/-- The registers of the block at 0x0800. -/
def blockRows2 : List RegRow := [
  ⟨0x0800, 16, 48, [⟨16, 5, .ro, 31, 0, 31⟩, ⟨8, 4, .ro, 0, 0, 15⟩, ⟨7, 1, .ro, 0, 0, 1⟩, ⟨6, 1, .ro, 1, 0, 1⟩, ⟨3, 1, .w1c, 0, 0, 1⟩, ⟨2, 1, .w1c, 0, 0, 1⟩, ⟨1, 1, .w1c, 0, 0, 1⟩, ⟨0, 1, .w1c, 0, 0, 1⟩]⟩,
  ⟨0x0804, 16, 48, [⟨0, 16, .ro, 0, 0, 65535⟩]⟩,
  ⟨0x0808, 16, 48, [⟨16, 16, .ro, 0, 0, 65535⟩, ⟨0, 16, .ro, 0, 0, 65535⟩]⟩,
  ⟨0x0B00, 4, 6, [⟨16, 16, .ro, 0, 0, 65535⟩, ⟨9, 1, .ro, 0, 0, 1⟩, ⟨8, 1, .ro, 0, 0, 1⟩, ⟨0, 8, .ro, 0, 0, 255⟩]⟩]

/-- The registers of the block at 0x0C00. -/
def blockRows3 : List RegRow := [
  ⟨0x0C00, 64, 16, [⟨0, 15, .rw, 2000, 2000, 26000⟩]⟩,
  ⟨0x0C04, 64, 16, [⟨0, 11, .rw, 0, 0, 2000⟩]⟩,
  ⟨0x0C08, 64, 16, [⟨16, 6, .lk, 20, 12, 60⟩, ⟨8, 3, .lk, 3, 0, 7⟩, ⟨4, 1, .rw, 0, 0, 1⟩, ⟨0, 4, .lk, 8, 0, 14⟩]⟩,
  ⟨0x0C0C, 64, 16, [⟨16, 12, .rw, 750, 1, 1500⟩, ⟨0, 12, .rw, 0, 0, 1499⟩]⟩,
  ⟨0x0C10, 64, 16, [⟨31, 1, .rw, 0, 0, 1⟩, ⟨24, 5, .rw, 1, 1, 16⟩, ⟨16, 8, .rw, 2, 0, 255⟩, ⟨0, 16, .rw, 250, 0, 65535⟩]⟩,
  ⟨0x0C14, 64, 16, [⟨0, 8, .rw, 0, 0, 255⟩]⟩,
  ⟨0x0C18, 64, 16, [⟨16, 10, .lk, 560, 50, 560⟩, ⟨8, 6, .rw, 4, 2, 63⟩, ⟨4, 2, .rw, 0, 0, 2⟩, ⟨0, 3, .rw, 3, 0, 7⟩]⟩,
  ⟨0x0C1C, 64, 16, [⟨24, 5, .ro, 0, 0, 31⟩, ⟨16, 4, .ro, 0, 0, 15⟩, ⟨15, 1, .ro, 0, 0, 1⟩, ⟨14, 1, .ro, 0, 0, 1⟩, ⟨13, 1, .ro, 0, 0, 1⟩, ⟨12, 1, .ro, 0, 0, 1⟩, ⟨11, 1, .ro, 0, 0, 1⟩, ⟨10, 1, .ro, 0, 0, 1⟩, ⟨7, 1, .w1c, 0, 0, 1⟩, ⟨6, 1, .w1c, 0, 0, 1⟩, ⟨5, 1, .w1c, 0, 0, 1⟩, ⟨4, 1, .w1c, 0, 0, 1⟩, ⟨3, 1, .w1c, 0, 0, 1⟩, ⟨2, 1, .w1c, 0, 0, 1⟩, ⟨1, 1, .w1c, 0, 0, 1⟩, ⟨0, 1, .w1c, 0, 0, 1⟩]⟩,
  ⟨0x0C20, 64, 16, [⟨16, 16, .ro, 0, 0, 65535⟩, ⟨0, 16, .ro, 0, 0, 65535⟩]⟩,
  ⟨0x0C24, 64, 16, [⟨16, 16, .ro, 0, 0, 65535⟩, ⟨8, 8, .ro, 0, 0, 255⟩, ⟨0, 8, .ro, 0, 0, 255⟩]⟩,
  ⟨0x0C28, 64, 16, [⟨16, 10, .ro, 0, 0, 1023⟩, ⟨0, 10, .ro, 0, 0, 1023⟩]⟩,
  ⟨0x0C2C, 64, 16, [⟨31, 1, .rw, 0, 0, 1⟩, ⟨30, 1, .rw, 0, 0, 1⟩, ⟨16, 8, .rw, 8, 1, 255⟩, ⟨15, 1, .rw, 0, 0, 1⟩, ⟨12, 3, .rw, 0, 0, 7⟩, ⟨8, 4, .rw, 0, 0, 11⟩, ⟨4, 2, .rw, 0, 0, 3⟩, ⟨0, 3, .rw, 0, 0, 3⟩]⟩,
  ⟨0x0C30, 64, 16, [⟨16, 16, .rw, 10240, 0, 65535⟩, ⟨0, 16, .rw, 0, 0, 65535⟩]⟩,
  ⟨0x0C34, 64, 4, [⟨22, 10, .rw, 10, 1, 1023⟩, ⟨16, 6, .rw, 0, 0, 63⟩, ⟨10, 6, .rw, 0, 0, 63⟩, ⟨0, 10, .rw, 0, 0, 1023⟩]⟩,
  ⟨0x0C38, 64, 16, [⟨24, 8, .rw, 0, 0, 255⟩, ⟨16, 8, .rw, 0, 0, 255⟩, ⟨9, 5, .rw, 0, 0, 16⟩, ⟨0, 9, .rw, 0, 0, 256⟩]⟩,
  ⟨0x0C3C, 64, 16, [⟨16, 15, .ro, 0, 0, 32767⟩, ⟨15, 1, .ro, 0, 0, 1⟩, ⟨14, 1, .ro, 0, 0, 1⟩, ⟨13, 1, .ro, 0, 0, 1⟩, ⟨10, 3, .ro, 0, 0, 7⟩, ⟨8, 2, .ro, 0, 0, 3⟩, ⟨5, 2, .ro, 0, 0, 3⟩, ⟨4, 1, .w1c, 0, 0, 1⟩, ⟨3, 1, .w1c, 0, 0, 1⟩, ⟨2, 1, .w1c, 0, 0, 1⟩, ⟨1, 1, .w1c, 0, 0, 1⟩, ⟨0, 1, .w1c, 0, 0, 1⟩]⟩]

/-- The registers of the block at 0x1000. -/
def blockRows4 : List RegRow := [
  ⟨0x1000, 4, 1, [⟨16, 16, .ro, 0, 0, 65535⟩, ⟨0, 1, .ro, 0, 0, 1⟩]⟩,
  ⟨0x1004, 4, 1, [⟨24, 8, .ro, 0, 0, 255⟩, ⟨16, 1, .ro, 0, 0, 1⟩, ⟨0, 16, .ro, 0, 0, 65535⟩]⟩,
  ⟨0x1008, 4, 1, [⟨0, 16, .ro, 0, 0, 65535⟩]⟩,
  ⟨0x100C, 4, 1, [⟨0, 4, .rw, 0, 0, 15⟩]⟩,
  ⟨0x1010, 4, 1, [⟨16, 16, .ro, 0, 0, 65535⟩, ⟨0, 16, .ro, 0, 0, 65535⟩]⟩,
  ⟨0x1014, 4, 1, [⟨16, 16, .ro, 0, 0, 65535⟩, ⟨0, 16, .ro, 0, 0, 65535⟩]⟩,
  ⟨0x1018, 4, 1, [⟨16, 16, .ro, 0, 0, 65535⟩, ⟨0, 16, .ro, 0, 0, 65535⟩]⟩,
  ⟨0x101C, 4, 1, [⟨16, 16, .ro, 0, 0, 65535⟩, ⟨0, 16, .ro, 0, 0, 65535⟩]⟩,
  ⟨0x1040, 48, 16, [⟨16, 15, .rw, 0, 0, 26000⟩, ⟨8, 8, .rw, 32, 0, 255⟩, ⟨6, 1, .rw, 0, 0, 1⟩, ⟨5, 1, .rw, 0, 0, 1⟩, ⟨4, 1, .rw, 1, 0, 1⟩, ⟨3, 1, .rw, 1, 0, 1⟩, ⟨2, 1, .rw, 1, 0, 1⟩, ⟨1, 1, .rw, 1, 0, 1⟩, ⟨0, 1, .rw, 0, 0, 1⟩]⟩,
  ⟨0x1044, 48, 16, [⟨16, 16, .rw, 1638, 0, 32767⟩, ⟨0, 16, .rw, 16384, 0, 32767⟩]⟩,
  ⟨0x1048, 48, 16, [⟨16, 16, .rw, 328, 0, 32767⟩, ⟨0, 16, .rw, 3277, 0, 32767⟩]⟩,
  ⟨0x104C, 48, 16, [⟨16, 16, .rw, 328, 0, 32767⟩, ⟨0, 16, .rw, 3277, 0, 32767⟩]⟩,
  ⟨0x1050, 48, 16, [⟨16, 16, .rw, 328, 0, 32767⟩, ⟨0, 16, .rw, 1024, 0, 32767⟩]⟩,
  ⟨0x1054, 48, 16, [⟨28, 3, .rw, 1, 0, 7⟩, ⟨24, 3, .rw, 0, 0, 7⟩, ⟨21, 3, .rw, 0, 0, 7⟩, ⟨18, 3, .rw, 0, 0, 7⟩, ⟨15, 3, .rw, 0, 0, 7⟩, ⟨12, 3, .rw, 0, 0, 7⟩, ⟨9, 3, .rw, 0, 0, 7⟩, ⟨6, 3, .rw, 0, 0, 7⟩, ⟨3, 3, .rw, 0, 0, 7⟩, ⟨0, 3, .rw, 2, 0, 7⟩]⟩,
  ⟨0x1058, 48, 16, [⟨16, 16, .rw, 32767, 0, 32767⟩, ⟨0, 16, .rw, 32767, 0, 32767⟩]⟩,
  ⟨0x105C, 48, 16, [⟨16, 16, .rw, 0, 0, 65535⟩, ⟨0, 16, .rw, 16384, 0, 65535⟩]⟩,
  ⟨0x1060, 48, 16, [⟨16, 16, .rw, 0, 0, 65535⟩, ⟨0, 16, .rw, 0, 0, 65535⟩]⟩,
  ⟨0x1064, 48, 16, [⟨16, 16, .rw, 0, 0, 32767⟩, ⟨0, 16, .rw, 0, 0, 65535⟩]⟩,
  ⟨0x1068, 48, 16, [⟨30, 2, .ro, 0, 0, 3⟩, ⟨15, 15, .ro, 0, 0, 32767⟩, ⟨0, 15, .ro, 0, 0, 32767⟩]⟩,
  ⟨0x106C, 48, 16, [⟨12, 1, .w1c, 0, 0, 1⟩, ⟨11, 1, .w1c, 0, 0, 1⟩, ⟨10, 1, .w1c, 0, 0, 1⟩, ⟨9, 1, .w1c, 0, 0, 1⟩, ⟨8, 1, .w1c, 0, 0, 1⟩, ⟨7, 1, .w1c, 0, 0, 1⟩, ⟨6, 1, .w1c, 0, 0, 1⟩, ⟨5, 1, .w1c, 0, 0, 1⟩, ⟨4, 1, .w1c, 0, 0, 1⟩, ⟨3, 1, .w1c, 0, 0, 1⟩, ⟨2, 1, .w1c, 0, 0, 1⟩, ⟨1, 1, .w1c, 0, 0, 1⟩, ⟨0, 1, .w1c, 0, 0, 1⟩]⟩]

/-- The registers of the block at 0x1400. -/
def blockRows5 : List RegRow := [
  ⟨0x1400, 4, 1, [⟨16, 9, .rw, 20, 1, 500⟩, ⟨8, 8, .rw, 10, 0, 255⟩, ⟨3, 1, .rw, 0, 0, 1⟩, ⟨2, 1, .lk, 0, 0, 1⟩, ⟨1, 1, .rw, 0, 0, 1⟩]⟩,
  ⟨0x1404, 4, 1, [⟨0, 32, .wo, 0, 0, 4294967295⟩]⟩,
  ⟨0x1408, 4, 1, [⟨28, 4, .ro, 9, 0, 15⟩, ⟨27, 1, .ro, 0, 0, 1⟩, ⟨24, 3, .ro, 0, 0, 7⟩, ⟨20, 3, .ro, 0, 0, 7⟩, ⟨16, 4, .ro, 0, 0, 15⟩, ⟨8, 8, .ro, 0, 0, 255⟩]⟩,
  ⟨0x140C, 4, 1, [⟨0, 9, .ro, 0, 0, 511⟩]⟩,
  ⟨0x1410, 4, 1, [⟨16, 12, .ro, 0, 0, 4095⟩, ⟨0, 12, .ro, 0, 0, 4095⟩]⟩,
  ⟨0x1414, 4, 1, [⟨0, 12, .w1c, 0, 0, 4095⟩]⟩,
  ⟨0x1418, 4, 1, [⟨28, 4, .ro, 0, 0, 15⟩, ⟨24, 4, .ro, 0, 0, 15⟩, ⟨23, 1, .ro, 0, 0, 1⟩, ⟨20, 3, .ro, 0, 0, 7⟩, ⟨16, 4, .ro, 0, 0, 15⟩, ⟨0, 9, .ro, 0, 0, 511⟩]⟩,
  ⟨0x141C, 4, 1, [⟨4, 1, .w1c, 0, 0, 1⟩, ⟨3, 1, .w1c, 0, 0, 1⟩, ⟨2, 1, .w1c, 0, 0, 1⟩, ⟨1, 1, .w1c, 0, 0, 1⟩, ⟨0, 1, .w1c, 0, 0, 1⟩]⟩,
  ⟨0x1420, 4, 1, [⟨24, 8, .ro, 0, 0, 255⟩, ⟨16, 8, .ro, 0, 0, 255⟩, ⟨8, 8, .ro, 0, 0, 255⟩]⟩,
  ⟨0x1424, 4, 1, [⟨0, 4, .lk, 15, 0, 15⟩, ⟨4, 4, .lk, 15, 0, 15⟩, ⟨8, 4, .lk, 15, 0, 15⟩, ⟨12, 4, .lk, 15, 0, 15⟩, ⟨16, 4, .lk, 15, 0, 15⟩, ⟨20, 4, .lk, 15, 0, 15⟩, ⟨24, 4, .lk, 15, 0, 15⟩, ⟨28, 4, .lk, 15, 0, 15⟩]⟩,
  ⟨0x1428, 4, 1, [⟨0, 4, .lk, 15, 0, 15⟩, ⟨4, 4, .lk, 15, 0, 15⟩, ⟨8, 4, .lk, 15, 0, 15⟩, ⟨12, 4, .lk, 15, 0, 15⟩]⟩,
  ⟨0x1440, 4, 12, [⟨12, 1, .lk, 0, 0, 1⟩, ⟨0, 12, .lk, 0, 0, 4095⟩]⟩,
  ⟨0x1480, 4, 12, [⟨24, 4, .rw, 3, 0, 15⟩, ⟨16, 8, .rw, 10, 1, 255⟩, ⟨0, 8, .rw, 10, 1, 255⟩]⟩,
  ⟨0x14C0, 4, 12, [⟨16, 4, .ro, 0, 0, 15⟩, ⟨12, 4, .ro, 0, 0, 15⟩, ⟨4, 1, .ro, 0, 0, 1⟩, ⟨3, 1, .ro, 0, 0, 1⟩, ⟨0, 3, .ro, 0, 0, 7⟩]⟩,
  ⟨0x1500, 4, 12, [⟨24, 6, .ro, 0, 0, 63⟩, ⟨16, 8, .ro, 0, 0, 255⟩, ⟨0, 16, .ro, 0, 0, 65535⟩]⟩,
  ⟨0x1540, 4, 8, [⟨16, 9, .ro, 0, 0, 511⟩, ⟨0, 10, .ro, 0, 0, 1023⟩]⟩,
  ⟨0x1560, 4, 1, [⟨0, 9, .rw, 0, 0, 511⟩]⟩,
  ⟨0x1564, 4, 1, [⟨0, 32, .ro, 0, 0, 4294967295⟩]⟩]

/-- The registers of the block at 0x1800. -/
def blockRows6 : List RegRow := [
  ⟨0x1800, 4, 8, [⟨13, 1, .rw, 1, 0, 1⟩, ⟨10, 2, .rw, 1, 0, 3⟩, ⟨0, 9, .rw, 120, 0, 300⟩]⟩,
  ⟨0x1820, 4, 8, [⟨7, 1, .ro, 0, 0, 1⟩, ⟨6, 1, .ro, 0, 0, 1⟩, ⟨5, 1, .ro, 0, 0, 1⟩, ⟨2, 1, .w1c, 0, 0, 1⟩, ⟨1, 1, .w1c, 0, 0, 1⟩, ⟨0, 1, .w1c, 0, 0, 1⟩]⟩,
  ⟨0x1840, 4, 6, [⟨13, 1, .rw, 1, 0, 1⟩, ⟨8, 2, .rw, 2, 0, 3⟩, ⟨0, 2, .rw, 1, 0, 3⟩]⟩,
  ⟨0x1860, 4, 6, [⟨7, 1, .ro, 0, 0, 1⟩, ⟨6, 1, .ro, 0, 0, 1⟩, ⟨5, 1, .ro, 0, 0, 1⟩, ⟨2, 1, .w1c, 0, 0, 1⟩, ⟨1, 1, .w1c, 0, 0, 1⟩, ⟨0, 1, .w1c, 0, 0, 1⟩]⟩,
  ⟨0x1880, 4, 2, [⟨0, 4, .lk, 3, 0, 15⟩]⟩,
  ⟨0x1888, 4, 2, [⟨8, 3, .ro, 0, 0, 7⟩, ⟨7, 1, .ro, 0, 0, 1⟩, ⟨6, 1, .ro, 0, 0, 1⟩, ⟨3, 1, .w1c, 0, 0, 1⟩, ⟨2, 1, .w1c, 0, 0, 1⟩, ⟨1, 1, .w1c, 0, 0, 1⟩, ⟨0, 1, .w1c, 0, 0, 1⟩]⟩,
  ⟨0x1890, 4, 2, [⟨0, 27, .ro, 0, 0, 134217727⟩]⟩,
  ⟨0x1898, 4, 1, [⟨0, 32, .wo, 0, 0, 4294967295⟩]⟩]

/-- The registers of the block at 0x1C00. -/
def blockRows7 : List RegRow := [
  ⟨0x1C00, 4, 1, [⟨8, 2, .rw, 2, 0, 3⟩, ⟨0, 8, .rw, 20, 5, 200⟩]⟩,
  ⟨0x1C04, 4, 1, [⟨16, 5, .ro, 0, 0, 31⟩, ⟨5, 11, .ro, 20, 0, 2047⟩, ⟨4, 1, .ro, 0, 0, 1⟩, ⟨3, 1, .ro, 1, 0, 1⟩, ⟨0, 3, .ro, 0, 0, 7⟩]⟩,
  ⟨0x1C08, 4, 1, [⟨6, 1, .w1c, 0, 0, 1⟩, ⟨5, 1, .w1c, 0, 0, 1⟩, ⟨4, 1, .w1c, 0, 0, 1⟩, ⟨3, 1, .w1c, 0, 0, 1⟩, ⟨2, 1, .w1c, 0, 0, 1⟩, ⟨1, 1, .w1c, 0, 0, 1⟩, ⟨0, 1, .w1c, 0, 0, 1⟩]⟩,
  ⟨0x1C0C, 4, 1, [⟨16, 16, .ro, 0, 0, 65535⟩, ⟨0, 4, .ro, 0, 0, 15⟩]⟩,
  ⟨0x1C10, 4, 1, [⟨16, 16, .ro, 0, 0, 65535⟩, ⟨0, 5, .rw, 4, 0, 14⟩]⟩,
  ⟨0x1C14, 4, 1, [⟨31, 1, .rw, 0, 0, 1⟩, ⟨0, 15, .rw, 32767, 0, 32767⟩]⟩,
  ⟨0x1C18, 4, 4, [⟨0, 8, .rw, 0, 0, 255⟩, ⟨8, 8, .rw, 0, 0, 255⟩, ⟨16, 8, .rw, 0, 0, 255⟩, ⟨24, 8, .rw, 0, 0, 255⟩]⟩,
  ⟨0x1C40, 4, 1, [⟨31, 1, .rw, 0, 0, 1⟩, ⟨16, 7, .rw, 20, 2, 120⟩, ⟨0, 6, .rw, 20, 0, 40⟩]⟩,
  ⟨0x1C44, 4, 1, [⟨28, 4, .rw, 8, 1, 15⟩, ⟨22, 6, .rw, 0, 0, 60⟩, ⟨16, 6, .rw, 20, 10, 40⟩, ⟨0, 6, .rw, 10, 5, 50⟩]⟩,
  ⟨0x1C48, 4, 1, [⟨24, 8, .rw, 60, 0, 255⟩, ⟨16, 8, .rw, 45, 0, 255⟩, ⟨8, 8, .rw, 10, 0, 255⟩, ⟨0, 8, .rw, 0, 0, 255⟩]⟩,
  ⟨0x1C4C, 4, 1, [⟨8, 2, .rw, 1, 0, 2⟩, ⟨0, 3, .rw, 4, 0, 6⟩]⟩,
  ⟨0x1C50, 4, 1, [⟨16, 6, .lk, 20, 12, 60⟩, ⟨0, 4, .lk, 8, 0, 14⟩]⟩,
  ⟨0x1C54, 4, 1, [⟨31, 1, .rw, 0, 0, 1⟩, ⟨8, 8, .rw, 20, 1, 255⟩, ⟨0, 6, .rw, 10, 1, 60⟩]⟩,
  ⟨0x1C58, 4, 1, [⟨16, 16, .ro, 0, 0, 65535⟩, ⟨12, 4, .ro, 0, 0, 15⟩, ⟨9, 3, .ro, 2, 0, 7⟩, ⟨7, 2, .ro, 0, 0, 3⟩, ⟨6, 1, .ro, 0, 0, 1⟩, ⟨5, 1, .ro, 0, 0, 1⟩, ⟨2, 3, .ro, 0, 0, 7⟩, ⟨0, 1, .w1c, 0, 0, 1⟩]⟩,
  ⟨0x1C5C, 4, 1, [⟨3, 1, .w1c, 0, 0, 1⟩, ⟨2, 1, .w1c, 0, 0, 1⟩, ⟨1, 1, .w1c, 0, 0, 1⟩, ⟨0, 1, .w1c, 0, 0, 1⟩]⟩,
  ⟨0x1C60, 4, 1, [⟨16, 10, .ro, 0, 0, 1023⟩, ⟨8, 4, .ro, 0, 0, 15⟩, ⟨3, 1, .ro, 0, 0, 1⟩, ⟨2, 1, .ro, 0, 0, 1⟩, ⟨1, 1, .ro, 0, 0, 1⟩, ⟨0, 1, .w1c, 0, 0, 1⟩]⟩,
  ⟨0x1C64, 4, 1, [⟨31, 1, .ro, 0, 0, 1⟩, ⟨16, 7, .ro, 0, 0, 127⟩, ⟨0, 6, .ro, 0, 0, 63⟩]⟩]

/-- The registers of the block at 0x2000. -/
def blockRows8 : List RegRow := [
  ⟨0x2000, 4, 1, [⟨24, 8, .rw, 30, 1, 240⟩, ⟨16, 8, .rw, 64, 1, 255⟩, ⟨8, 8, .rw, 1, 1, 255⟩, ⟨0, 1, .rw, 0, 0, 1⟩]⟩,
  ⟨0x2004, 4, 1, [⟨0, 16, .lk, 5000, 500, 50000⟩]⟩,
  ⟨0x2008, 4, 1, [⟨16, 16, .lk, 2000, 100, 65535⟩, ⟨0, 16, .lk, 6000, 5000, 7000⟩]⟩,
  ⟨0x200C, 4, 1, [⟨24, 8, .rw, 10, 0, 255⟩, ⟨20, 3, .rw, 2, 0, 7⟩, ⟨16, 4, .rw, 4, 0, 15⟩, ⟨0, 16, .rw, 500, 50, 5000⟩]⟩,
  ⟨0x2010, 4, 1, [⟨0, 16, .lk, 8000, 1, 50000⟩]⟩,
  ⟨0x2018, 4, 1, [⟨16, 16, .lk, 6620, 0, 65535⟩, ⟨0, 16, .lk, 6000, 0, 65535⟩]⟩,
  ⟨0x201C, 4, 1, [⟨16, 16, .lk, 7020, 0, 65535⟩, ⟨0, 16, .lk, 6880, 0, 65535⟩]⟩,
  ⟨0x2020, 4, 1, [⟨16, 16, .lk, 7200, 0, 65535⟩, ⟨0, 16, .lk, 7120, 0, 65535⟩]⟩,
  ⟨0x2024, 4, 1, [⟨16, 16, .lk, 7320, 0, 65535⟩, ⟨0, 16, .lk, 7260, 0, 65535⟩]⟩,
  ⟨0x2028, 4, 1, [⟨16, 16, .lk, 7480, 0, 65535⟩, ⟨0, 16, .lk, 7400, 0, 65535⟩]⟩,
  ⟨0x202C, 4, 1, [⟨16, 16, .lk, 7680, 0, 65535⟩, ⟨0, 16, .lk, 7580, 0, 65535⟩]⟩,
  ⟨0x2030, 4, 1, [⟨16, 16, .lk, 7900, 0, 65535⟩, ⟨0, 16, .lk, 7790, 0, 65535⟩]⟩,
  ⟨0x2034, 4, 1, [⟨16, 16, .lk, 8160, 0, 65535⟩, ⟨0, 16, .lk, 8020, 0, 65535⟩]⟩,
  ⟨0x2038, 4, 1, [⟨0, 16, .lk, 8340, 0, 65535⟩]⟩,
  ⟨0x2040, 4, 1, [⟨16, 16, .ro, 0, 0, 65535⟩, ⟨0, 16, .ro, 0, 0, 65535⟩]⟩,
  ⟨0x2044, 4, 1, [⟨16, 16, .ro, 0, 0, 65535⟩, ⟨0, 16, .ro, 0, 0, 65535⟩]⟩,
  ⟨0x2048, 4, 1, [⟨16, 16, .ro, 0, 0, 65535⟩, ⟨0, 16, .ro, 0, 0, 65535⟩]⟩,
  ⟨0x204C, 4, 1, [⟨16, 16, .ro, 0, 0, 65535⟩, ⟨0, 16, .ro, 0, 0, 65535⟩]⟩,
  ⟨0x2050, 4, 1, [⟨0, 16, .ro, 0, 0, 65535⟩]⟩,
  ⟨0x2054, 4, 1, [⟨15, 1, .ro, 0, 0, 1⟩, ⟨14, 1, .ro, 0, 0, 1⟩, ⟨13, 1, .ro, 0, 0, 1⟩, ⟨12, 1, .ro, 0, 0, 1⟩, ⟨11, 1, .ro, 0, 0, 1⟩, ⟨10, 1, .ro, 0, 0, 1⟩, ⟨9, 1, .ro, 0, 0, 1⟩, ⟨4, 1, .w1c, 0, 0, 1⟩, ⟨3, 1, .w1c, 0, 0, 1⟩, ⟨2, 1, .w1c, 0, 0, 1⟩, ⟨1, 1, .w1c, 0, 0, 1⟩]⟩,
  ⟨0x2058, 4, 1, [⟨0, 16, .ro, 0, 0, 65535⟩]⟩,
  ⟨0x2060, 4, 1, [⟨16, 16, .ro, 0, 0, 65535⟩, ⟨0, 16, .ro, 0, 0, 65535⟩]⟩,
  ⟨0x2064, 4, 8, [⟨16, 16, .ro, 0, 0, 65535⟩, ⟨0, 16, .ro, 0, 0, 65535⟩]⟩,
  ⟨0x2084, 4, 1, [⟨16, 16, .ro, 0, 0, 65535⟩, ⟨12, 4, .ro, 0, 0, 15⟩, ⟨8, 1, .ro, 0, 0, 1⟩, ⟨0, 4, .ro, 0, 0, 15⟩]⟩,
  ⟨0x2088, 4, 1, [⟨16, 16, .ro, 0, 0, 65535⟩, ⟨0, 16, .ro, 0, 0, 65535⟩]⟩,
  ⟨0x208C, 4, 1, [⟨16, 8, .ro, 0, 0, 255⟩, ⟨8, 4, .ro, 0, 0, 15⟩, ⟨0, 8, .ro, 0, 0, 255⟩]⟩,
  ⟨0x2090, 4, 1, [⟨16, 16, .ro, 0, 0, 65535⟩, ⟨0, 16, .ro, 0, 0, 65535⟩]⟩,
  ⟨0x2094, 4, 1, [⟨16, 16, .ro, 0, 0, 65535⟩, ⟨0, 16, .ro, 0, 0, 65535⟩]⟩]

/-- The registers of the block at 0x2400. -/
def blockRows9 : List RegRow := [
  ⟨0x2400, 4, 1, [⟨16, 10, .rw, 0, 0, 1000⟩, ⟨0, 1, .rw, 1, 0, 1⟩]⟩,
  ⟨0x2404, 4, 1, [⟨16, 16, .ro, 0, 0, 65535⟩, ⟨5, 1, .ro, 0, 0, 1⟩, ⟨4, 1, .w1c, 0, 0, 1⟩, ⟨3, 1, .w1c, 0, 0, 1⟩, ⟨2, 1, .w1c, 0, 0, 1⟩, ⟨1, 1, .w1c, 0, 0, 1⟩]⟩,
  ⟨0x2408, 4, 1, [⟨16, 9, .w1c, 0, 0, 511⟩, ⟨8, 3, .ro, 0, 0, 7⟩, ⟨0, 7, .ro, 0, 0, 127⟩]⟩,
  ⟨0x240C, 4, 1, [⟨31, 1, .ro, 0, 0, 1⟩, ⟨24, 7, .ro, 18, 0, 127⟩, ⟨16, 3, .ro, 4, 0, 7⟩, ⟨0, 16, .ro, 5, 0, 65535⟩]⟩,
  ⟨0x2410, 4, 1, [⟨0, 32, .rw, 0, 0, 4294967295⟩]⟩,
  ⟨0x2414, 4, 1, [⟨0, 32, .rw, 0, 0, 4294967295⟩]⟩,
  ⟨0x2418, 4, 1, [⟨0, 32, .rw, 4026548215, 0, 4294967295⟩]⟩,
  ⟨0x241C, 4, 1, [⟨0, 8, .rw, 1, 0, 255⟩]⟩,
  ⟨0x2420, 4, 1, [⟨0, 7, .wo, 0, 0, 103⟩]⟩,
  ⟨0x2430, 4, 4, [⟨0, 7, .wo, 0, 0, 103⟩]⟩,
  ⟨0x2440, 4, 1, [⟨31, 1, .rw, 0, 0, 1⟩, ⟨16, 1, .ro, 0, 0, 1⟩, ⟨15, 1, .ro, 0, 0, 1⟩, ⟨0, 7, .rw, 0, 0, 103⟩]⟩,
  ⟨0x2444, 4, 1, [⟨31, 1, .w1c, 0, 0, 1⟩, ⟨30, 1, .ro, 0, 0, 1⟩, ⟨16, 12, .ro, 0, 0, 4095⟩, ⟨0, 16, .ro, 0, 0, 65535⟩]⟩,
  ⟨0x2450, 4, 1, [⟨0, 32, .ro, 0, 0, 4294967295⟩]⟩,
  ⟨0x2454, 4, 1, [⟨0, 32, .w1c, 0, 0, 4294967295⟩]⟩,
  ⟨0x2480, 4, 32, [⟨16, 12, .ro, 0, 0, 4095⟩, ⟨0, 12, .ro, 0, 0, 4095⟩]⟩,
  ⟨0x2500, 8, 32, [⟨31, 1, .rw, 0, 0, 1⟩, ⟨29, 2, .rw, 0, 0, 3⟩, ⟨24, 4, .rw, 1, 1, 15⟩, ⟨16, 8, .rw, 0, 0, 255⟩, ⟨0, 7, .rw, 0, 0, 103⟩]⟩,
  ⟨0x2504, 8, 32, [⟨16, 12, .rw, 4095, 0, 4095⟩, ⟨0, 12, .rw, 0, 0, 4095⟩]⟩,
  ⟨0x2600, 4, 104, [⟨24, 8, .ro, 0, 0, 255⟩, ⟨20, 3, .ro, 0, 0, 7⟩, ⟨16, 3, .ro, 0, 0, 7⟩, ⟨15, 1, .ro, 0, 0, 1⟩, ⟨0, 12, .ro, 0, 0, 4095⟩]⟩]

/-- The registers of the block at 0x2800. -/
def blockRows10 : List RegRow := [
  ⟨0x2800, 4, 1, [⟨31, 1, .rw, 0, 0, 1⟩, ⟨28, 2, .rw, 0, 0, 3⟩, ⟨8, 6, .rw, 25, 1, 63⟩, ⟨0, 5, .rw, 10, 2, 20⟩]⟩,
  ⟨0x2804, 4, 1, [⟨16, 8, .rw, 150, 0, 255⟩, ⟨8, 8, .rw, 125, 0, 255⟩, ⟨0, 8, .rw, 115, 0, 255⟩]⟩,
  ⟨0x2808, 4, 1, [⟨8, 8, .rw, 90, 0, 255⟩, ⟨0, 8, .rw, 85, 0, 255⟩]⟩,
  ⟨0x280C, 4, 1, [⟨16, 16, .rw, 3435, 1000, 10000⟩, ⟨0, 16, .rw, 1000, 10, 65535⟩]⟩,
  ⟨0x2810, 4, 1, [⟨16, 16, .rw, 3435, 1000, 10000⟩, ⟨0, 16, .rw, 1000, 10, 65535⟩]⟩,
  ⟨0x2814, 4, 1, [⟨0, 16, .rw, 1000, 10, 65535⟩]⟩,
  ⟨0x2818, 4, 1, [⟨24, 4, .ro, 0, 0, 15⟩, ⟨0, 16, .ro, 0, 0, 65535⟩]⟩,
  ⟨0x281C, 4, 1, [⟨16, 16, .ro, 0, 0, 65535⟩, ⟨0, 16, .ro, 0, 0, 65535⟩]⟩,
  ⟨0x2820, 4, 1, [⟨16, 1, .ro, 0, 0, 1⟩, ⟨0, 16, .ro, 0, 0, 65535⟩]⟩,
  ⟨0x2824, 4, 1, [⟨10, 1, .ro, 0, 0, 1⟩, ⟨9, 1, .ro, 0, 0, 1⟩, ⟨8, 1, .ro, 0, 0, 1⟩, ⟨4, 1, .ro, 0, 0, 1⟩, ⟨3, 1, .w1c, 0, 0, 1⟩, ⟨2, 1, .w1c, 0, 0, 1⟩, ⟨1, 1, .w1c, 0, 0, 1⟩, ⟨0, 1, .w1c, 0, 0, 1⟩]⟩,
  ⟨0x2828, 4, 1, [⟨31, 1, .ro, 0, 0, 1⟩, ⟨16, 8, .ro, 0, 0, 255⟩, ⟨8, 8, .ro, 0, 0, 255⟩, ⟨0, 8, .ro, 0, 0, 255⟩]⟩]

/-- The registers of the block at 0x2C00. -/
def blockRows11 : List RegRow := [
  ⟨0x2C00, 4, 1, [⟨1, 1, .lk, 0, 0, 1⟩, ⟨0, 1, .lk, 1, 0, 1⟩]⟩,
  ⟨0x2C04, 4, 1, [⟨26, 1, .ro, 0, 0, 1⟩, ⟨24, 2, .ro, 0, 0, 3⟩, ⟨16, 8, .ro, 255, 0, 255⟩, ⟨8, 8, .ro, 255, 0, 255⟩, ⟨0, 8, .ro, 0, 0, 255⟩]⟩,
  ⟨0x2C08, 4, 1, [⟨0, 32, .w1c, 0, 0, 4294967295⟩]⟩,
  ⟨0x2C0C, 4, 1, [⟨0, 9, .w1c, 0, 0, 511⟩]⟩,
  ⟨0x2C10, 4, 1, [⟨0, 32, .ro, 0, 0, 4294967295⟩]⟩,
  ⟨0x2C14, 4, 1, [⟨0, 9, .ro, 0, 0, 511⟩]⟩,
  ⟨0x2C20, 4, 1, [⟨2, 2, .ro, 0, 0, 3⟩, ⟨0, 2, .lk, 0, 0, 3⟩, ⟨6, 2, .ro, 3, 0, 3⟩, ⟨4, 2, .lk, 3, 0, 3⟩, ⟨10, 2, .ro, 3, 0, 3⟩, ⟨8, 2, .lk, 3, 0, 3⟩, ⟨14, 2, .ro, 0, 0, 3⟩, ⟨12, 2, .lk, 0, 0, 3⟩, ⟨18, 2, .ro, 2, 0, 3⟩, ⟨16, 2, .lk, 2, 0, 3⟩, ⟨22, 2, .ro, 2, 0, 3⟩, ⟨20, 2, .lk, 2, 0, 3⟩, ⟨26, 2, .ro, 3, 0, 3⟩, ⟨24, 2, .lk, 3, 0, 3⟩, ⟨30, 2, .ro, 2, 0, 3⟩, ⟨28, 2, .lk, 2, 0, 3⟩]⟩,
  ⟨0x2C24, 4, 1, [⟨2, 2, .ro, 3, 0, 3⟩, ⟨0, 2, .lk, 3, 0, 3⟩, ⟨6, 2, .ro, 3, 0, 3⟩, ⟨4, 2, .lk, 3, 0, 3⟩, ⟨10, 2, .ro, 1, 0, 3⟩, ⟨8, 2, .lk, 1, 0, 3⟩, ⟨14, 2, .ro, 3, 0, 3⟩, ⟨12, 2, .lk, 3, 0, 3⟩, ⟨18, 2, .ro, 1, 0, 3⟩, ⟨16, 2, .lk, 1, 0, 3⟩, ⟨22, 2, .ro, 1, 0, 3⟩, ⟨20, 2, .lk, 1, 0, 3⟩, ⟨26, 2, .ro, 2, 0, 3⟩, ⟨24, 2, .lk, 2, 0, 3⟩, ⟨30, 2, .ro, 1, 0, 3⟩, ⟨28, 2, .lk, 1, 0, 3⟩]⟩,
  ⟨0x2C28, 4, 1, [⟨2, 2, .ro, 1, 0, 3⟩, ⟨0, 2, .lk, 1, 0, 3⟩, ⟨6, 2, .ro, 2, 0, 3⟩, ⟨4, 2, .lk, 2, 0, 3⟩, ⟨10, 2, .ro, 1, 0, 3⟩, ⟨8, 2, .lk, 1, 0, 3⟩, ⟨14, 2, .ro, 1, 0, 3⟩, ⟨12, 2, .lk, 1, 0, 3⟩, ⟨18, 2, .ro, 2, 0, 3⟩, ⟨16, 2, .lk, 2, 0, 3⟩, ⟨22, 2, .ro, 1, 0, 3⟩, ⟨20, 2, .lk, 1, 0, 3⟩, ⟨26, 2, .ro, 2, 0, 3⟩, ⟨24, 2, .lk, 2, 0, 3⟩, ⟨30, 2, .ro, 1, 0, 3⟩, ⟨28, 2, .lk, 1, 0, 3⟩]⟩,
  ⟨0x2C2C, 4, 1, [⟨2, 2, .ro, 2, 0, 3⟩, ⟨0, 2, .lk, 2, 0, 3⟩, ⟨6, 2, .ro, 1, 0, 3⟩, ⟨4, 2, .lk, 1, 0, 3⟩, ⟨10, 2, .ro, 2, 0, 3⟩, ⟨8, 2, .lk, 2, 0, 3⟩, ⟨14, 2, .ro, 1, 0, 3⟩, ⟨12, 2, .lk, 1, 0, 3⟩, ⟨18, 2, .ro, 1, 0, 3⟩, ⟨16, 2, .lk, 1, 0, 3⟩, ⟨22, 2, .ro, 0, 0, 3⟩, ⟨20, 2, .lk, 0, 0, 3⟩, ⟨26, 2, .ro, 0, 0, 3⟩, ⟨24, 2, .lk, 0, 0, 3⟩, ⟨30, 2, .ro, 1, 0, 3⟩, ⟨28, 2, .lk, 1, 0, 3⟩]⟩,
  ⟨0x2C30, 4, 1, [⟨2, 2, .ro, 2, 0, 3⟩, ⟨0, 2, .lk, 2, 0, 3⟩, ⟨6, 2, .ro, 1, 0, 3⟩, ⟨4, 2, .lk, 1, 0, 3⟩, ⟨10, 2, .ro, 2, 0, 3⟩, ⟨8, 2, .lk, 2, 0, 3⟩, ⟨14, 2, .ro, 0, 0, 3⟩, ⟨12, 2, .lk, 0, 0, 3⟩, ⟨18, 2, .ro, 0, 0, 3⟩, ⟨16, 2, .lk, 0, 0, 3⟩, ⟨22, 2, .ro, 2, 0, 3⟩, ⟨20, 2, .lk, 2, 0, 3⟩, ⟨26, 2, .ro, 2, 0, 3⟩, ⟨24, 2, .lk, 2, 0, 3⟩, ⟨30, 2, .ro, 0, 0, 3⟩, ⟨28, 2, .lk, 0, 0, 3⟩]⟩,
  ⟨0x2C34, 4, 1, [⟨2, 2, .ro, 2, 0, 3⟩, ⟨0, 2, .lk, 2, 0, 3⟩]⟩,
  ⟨0x2C40, 4, 1, [⟨0, 2, .ro, 0, 0, 3⟩, ⟨2, 2, .ro, 0, 0, 3⟩, ⟨4, 2, .ro, 0, 0, 3⟩, ⟨6, 2, .ro, 0, 0, 3⟩, ⟨8, 2, .ro, 0, 0, 3⟩, ⟨10, 2, .ro, 0, 0, 3⟩, ⟨12, 2, .ro, 0, 0, 3⟩, ⟨14, 2, .ro, 0, 0, 3⟩, ⟨16, 2, .ro, 0, 0, 3⟩, ⟨18, 2, .ro, 0, 0, 3⟩, ⟨20, 2, .ro, 0, 0, 3⟩, ⟨22, 2, .ro, 0, 0, 3⟩, ⟨24, 2, .ro, 0, 0, 3⟩, ⟨26, 2, .ro, 0, 0, 3⟩, ⟨28, 2, .ro, 0, 0, 3⟩, ⟨30, 2, .ro, 0, 0, 3⟩]⟩,
  ⟨0x2C44, 4, 1, [⟨0, 2, .ro, 0, 0, 3⟩, ⟨2, 2, .ro, 0, 0, 3⟩, ⟨4, 2, .ro, 0, 0, 3⟩, ⟨6, 2, .ro, 0, 0, 3⟩, ⟨8, 2, .ro, 0, 0, 3⟩, ⟨10, 2, .ro, 0, 0, 3⟩, ⟨12, 2, .ro, 0, 0, 3⟩, ⟨14, 2, .ro, 0, 0, 3⟩, ⟨16, 2, .ro, 0, 0, 3⟩, ⟨18, 2, .ro, 0, 0, 3⟩, ⟨20, 2, .ro, 0, 0, 3⟩, ⟨22, 2, .ro, 0, 0, 3⟩, ⟨24, 2, .ro, 0, 0, 3⟩, ⟨26, 2, .ro, 0, 0, 3⟩, ⟨28, 2, .ro, 0, 0, 3⟩, ⟨30, 2, .ro, 0, 0, 3⟩]⟩,
  ⟨0x2C48, 4, 1, [⟨0, 2, .ro, 0, 0, 3⟩, ⟨2, 2, .ro, 0, 0, 3⟩, ⟨4, 2, .ro, 0, 0, 3⟩, ⟨6, 2, .ro, 0, 0, 3⟩, ⟨8, 2, .ro, 0, 0, 3⟩, ⟨10, 2, .ro, 0, 0, 3⟩, ⟨12, 2, .ro, 0, 0, 3⟩, ⟨14, 2, .ro, 0, 0, 3⟩, ⟨16, 2, .ro, 0, 0, 3⟩]⟩,
  ⟨0x2C50, 4, 1, [⟨0, 8, .rw, 0, 0, 40⟩]⟩,
  ⟨0x2C54, 4, 1, [⟨16, 16, .ro, 0, 0, 65535⟩, ⟨0, 16, .ro, 0, 0, 65535⟩]⟩,
  ⟨0x2C58, 4, 1, [⟨0, 2, .lk, 2, 0, 3⟩, ⟨2, 2, .lk, 2, 0, 3⟩, ⟨4, 2, .lk, 2, 0, 3⟩, ⟨6, 2, .lk, 2, 0, 3⟩, ⟨8, 2, .lk, 2, 0, 3⟩, ⟨10, 2, .lk, 2, 0, 3⟩, ⟨12, 2, .lk, 2, 0, 3⟩, ⟨14, 2, .lk, 2, 0, 3⟩, ⟨16, 2, .lk, 2, 0, 3⟩, ⟨18, 2, .lk, 2, 0, 3⟩, ⟨20, 2, .lk, 2, 0, 3⟩, ⟨22, 2, .lk, 2, 0, 3⟩]⟩,
  ⟨0x2C60, 4, 1, [⟨16, 16, .wo, 0, 0, 65535⟩, ⟨0, 8, .wo, 0, 0, 255⟩]⟩,
  ⟨0x2C64, 4, 1, [⟨10, 1, .ro, 0, 0, 1⟩, ⟨9, 1, .w1c, 0, 0, 1⟩, ⟨8, 1, .w1c, 0, 0, 1⟩, ⟨0, 8, .ro, 0, 0, 255⟩]⟩,
  ⟨0x2C68, 4, 1, [⟨31, 1, .ro, 0, 0, 1⟩, ⟨16, 9, .ro, 0, 0, 511⟩, ⟨0, 8, .rw, 0, 0, 255⟩]⟩,
  ⟨0x2C70, 4, 4, [⟨0, 32, .ro, 0, 0, 4294967295⟩]⟩]

/-- The registers of the block at 0x3000. -/
def blockRows12 : List RegRow := [
  ⟨0x3000, 4, 1, [⟨0, 1, .lk, 0, 0, 1⟩]⟩,
  ⟨0x3004, 4, 1, [⟨0, 32, .wo, 0, 0, 4294967295⟩]⟩,
  ⟨0x3008, 4, 1, [⟨24, 8, .ro, 0, 0, 255⟩, ⟨16, 4, .ro, 15, 0, 15⟩, ⟨8, 4, .ro, 0, 0, 15⟩, ⟨3, 1, .ro, 0, 0, 1⟩, ⟨2, 1, .ro, 0, 0, 1⟩, ⟨1, 1, .ro, 0, 0, 1⟩, ⟨0, 1, .ro, 0, 0, 1⟩]⟩,
  ⟨0x300C, 4, 1, [⟨31, 1, .ro, 0, 0, 1⟩, ⟨24, 2, .ro, 0, 0, 3⟩, ⟨0, 3, .ro, 0, 0, 7⟩, ⟨3, 3, .ro, 0, 0, 7⟩, ⟨6, 3, .ro, 0, 0, 7⟩, ⟨9, 3, .ro, 0, 0, 7⟩, ⟨12, 3, .ro, 0, 0, 7⟩, ⟨15, 3, .ro, 0, 0, 7⟩, ⟨18, 3, .ro, 0, 0, 7⟩, ⟨21, 3, .ro, 0, 0, 7⟩]⟩,
  ⟨0x3010, 4, 1, [⟨0, 10, .lk, 100, 10, 1000⟩]⟩,
  ⟨0x3014, 4, 1, [⟨16, 16, .ro, 0, 0, 65535⟩]⟩,
  ⟨0x3040, 8, 8, [⟨31, 1, .lk, 0, 0, 1⟩, ⟨16, 8, .lk, 0, 0, 255⟩, ⟨0, 16, .lk, 1000, 1, 65000⟩]⟩,
  ⟨0x3044, 8, 8, [⟨24, 8, .ro, 0, 0, 255⟩, ⟨22, 1, .ro, 0, 0, 1⟩, ⟨21, 1, .ro, 0, 0, 1⟩, ⟨20, 1, .ro, 0, 0, 1⟩, ⟨0, 16, .ro, 0, 0, 65535⟩]⟩,
  ⟨0x3080, 4, 1, [⟨31, 1, .ro, 0, 0, 1⟩, ⟨16, 5, .ro, 0, 0, 31⟩, ⟨0, 4, .rw, 0, 0, 15⟩]⟩,
  ⟨0x3090, 4, 16, [⟨0, 32, .ro, 0, 0, 4294967295⟩]⟩]

/-- The registers of the block at 0x3400. -/
def blockRows13 : List RegRow := [
  ⟨0x3400, 4, 1, [⟨0, 4, .rw, 4, 4, 12⟩]⟩,
  ⟨0x3404, 4, 1, [⟨0, 2, .lk, 0, 0, 3⟩]⟩,
  ⟨0x3408, 4, 1, [⟨0, 32, .wo, 0, 0, 4294967295⟩]⟩,
  ⟨0x340C, 4, 1, [⟨31, 1, .ro, 0, 0, 1⟩, ⟨30, 1, .ro, 0, 0, 1⟩, ⟨16, 6, .ro, 0, 0, 63⟩, ⟨8, 5, .ro, 0, 0, 31⟩, ⟨0, 3, .ro, 0, 0, 7⟩]⟩,
  ⟨0x3410, 4, 1, [⟨16, 16, .ro, 0, 0, 65535⟩, ⟨0, 16, .ro, 0, 0, 65535⟩]⟩,
  ⟨0x3414, 4, 1, [⟨0, 16, .rw, 0, 0, 65535⟩]⟩,
  ⟨0x3418, 4, 1, [⟨0, 19, .rw, 0, 0, 524287⟩]⟩,
  ⟨0x341C, 4, 1, [⟨0, 8, .rw, 0, 0, 255⟩]⟩,
  ⟨0x3420, 4, 1, [⟨8, 8, .ro, 0, 0, 255⟩, ⟨0, 8, .ro, 0, 0, 255⟩]⟩,
  ⟨0x3424, 4, 1, [⟨0, 8, .wo, 0, 0, 255⟩]⟩,
  ⟨0x3428, 4, 1, [⟨24, 8, .ro, 0, 0, 255⟩, ⟨8, 8, .ro, 0, 0, 255⟩, ⟨0, 8, .ro, 0, 0, 255⟩]⟩,
  ⟨0x342C, 4, 1, [⟨0, 16, .ro, 0, 0, 65535⟩]⟩,
  ⟨0x3430, 4, 1, [⟨0, 32, .wo, 0, 0, 4294967295⟩]⟩,
  ⟨0x3434, 4, 1, [⟨30, 2, .rw, 2, 0, 3⟩, ⟨24, 5, .rw, 31, 0, 31⟩, ⟨16, 8, .rw, 10, 0, 255⟩, ⟨0, 13, .rw, 1, 1, 4096⟩]⟩,
  ⟨0x3438, 4, 1, [⟨4, 1, .w1c, 0, 0, 1⟩, ⟨3, 1, .ro, 0, 0, 1⟩, ⟨2, 1, .ro, 0, 0, 1⟩, ⟨1, 1, .w1c, 0, 0, 1⟩, ⟨0, 1, .ro, 0, 0, 1⟩]⟩,
  ⟨0x343C, 4, 1, [⟨24, 8, .ro, 0, 0, 255⟩, ⟨16, 8, .ro, 0, 0, 255⟩, ⟨8, 8, .ro, 0, 0, 255⟩, ⟨0, 8, .ro, 0, 0, 255⟩]⟩,
  ⟨0x3440, 4, 1, [⟨0, 32, .ro, 0, 0, 4294967295⟩]⟩,
  ⟨0x3600, 4, 128, [⟨0, 32, .ro, 0, 0, 4294967295⟩]⟩]

/-- The registers of the block at 0x3800. -/
def blockRows14 : List RegRow := [
  ⟨0x3800, 4, 1, [⟨8, 1, .lk, 0, 0, 1⟩, ⟨0, 7, .lk, 44, 8, 119⟩]⟩,
  ⟨0x3804, 4, 1, [⟨24, 8, .ro, 0, 0, 255⟩, ⟨16, 8, .ro, 0, 0, 255⟩, ⟨8, 8, .ro, 0, 0, 255⟩, ⟨0, 8, .ro, 0, 0, 255⟩]⟩,
  ⟨0x3810, 4, 1, [⟨0, 2, .rw, 2, 0, 3⟩]⟩,
  ⟨0x3814, 4, 1, [⟨16, 10, .rw, 352, 16, 1023⟩, ⟨0, 10, .rw, 448, 40, 1023⟩]⟩,
  ⟨0x3818, 4, 1, [⟨16, 10, .rw, 380, 16, 1023⟩, ⟨0, 8, .rw, 24, 4, 255⟩]⟩,
  ⟨0x381C, 4, 1, [⟨24, 8, .ro, 0, 0, 255⟩, ⟨16, 8, .ro, 0, 0, 255⟩, ⟨8, 4, .ro, 0, 0, 15⟩, ⟨3, 1, .w1c, 0, 0, 1⟩, ⟨2, 1, .w1c, 0, 0, 1⟩, ⟨1, 1, .ro, 0, 0, 1⟩, ⟨0, 1, .ro, 0, 0, 1⟩]⟩,
  ⟨0x3840, 4, 8, [⟨24, 7, .ro, 0, 0, 127⟩, ⟨16, 8, .ro, 0, 0, 255⟩, ⟨12, 4, .ro, 0, 0, 15⟩, ⟨8, 2, .ro, 0, 0, 3⟩, ⟨0, 3, .ro, 0, 0, 7⟩]⟩,
  ⟨0x3880, 4, 1, [⟨31, 1, .wo, 0, 0, 1⟩, ⟨30, 1, .ro, 0, 0, 1⟩, ⟨29, 1, .w1c, 0, 0, 1⟩, ⟨28, 1, .rw, 0, 0, 1⟩, ⟨24, 4, .ro, 0, 0, 15⟩, ⟨16, 6, .rw, 0, 0, 32⟩, ⟨8, 6, .rw, 0, 0, 32⟩, ⟨0, 7, .rw, 0, 0, 127⟩]⟩,
  ⟨0x3890, 4, 8, [⟨0, 32, .rw, 0, 0, 4294967295⟩]⟩,
  ⟨0x38C0, 4, 1, [⟨24, 8, .ro, 0, 0, 255⟩, ⟨16, 8, .ro, 0, 0, 255⟩, ⟨8, 2, .ro, 0, 0, 3⟩, ⟨2, 1, .w1c, 0, 0, 1⟩, ⟨1, 1, .ro, 0, 0, 1⟩, ⟨0, 1, .ro, 0, 0, 1⟩]⟩]

/-- The registers of the block at 0x3C00. -/
def blockRows15 : List RegRow := [
  ⟨0x3C00, 4, 1, [⟨0, 8, .lk, 60, 1, 255⟩]⟩,
  ⟨0x3C04, 4, 1, [⟨3, 1, .ro, 0, 0, 1⟩, ⟨2, 1, .ro, 0, 0, 1⟩, ⟨1, 1, .ro, 0, 0, 1⟩, ⟨0, 1, .ro, 0, 0, 1⟩]⟩,
  ⟨0x3C08, 4, 1, [⟨0, 32, .wo, 0, 0, 4294967295⟩]⟩,
  ⟨0x3C0C, 4, 1, [⟨16, 16, .ro, 0, 0, 65535⟩, ⟨8, 3, .ro, 0, 0, 7⟩, ⟨5, 1, .w1c, 0, 0, 1⟩, ⟨4, 1, .ro, 0, 0, 1⟩, ⟨0, 2, .ro, 0, 0, 3⟩]⟩,
  ⟨0x3C10, 4, 4, [⟨0, 32, .ro, 0, 0, 4294967295⟩]⟩,
  ⟨0x3C20, 4, 1, [⟨0, 32, .wo, 0, 0, 4294967295⟩]⟩,
  ⟨0x3C24, 4, 1, [⟨31, 1, .ro, 0, 0, 1⟩, ⟨16, 1, .ro, 0, 0, 1⟩, ⟨0, 8, .ro, 0, 0, 255⟩]⟩,
  ⟨0x3C28, 4, 1, [⟨0, 32, .ro, 0, 0, 4294967295⟩]⟩,
  ⟨0x3C2C, 4, 1, [⟨0, 32, .ro, 0, 0, 4294967295⟩]⟩,
  ⟨0x3C30, 4, 1, [⟨16, 16, .ro, 0, 0, 65535⟩, ⟨8, 8, .ro, 0, 0, 255⟩, ⟨0, 8, .ro, 0, 0, 255⟩]⟩,
  ⟨0x3C40, 4, 32, [⟨0, 32, .rw, 0, 0, 4294967295⟩]⟩]

/-- The registers of the block at 0x4000. -/
def blockRows16 : List RegRow := [
  ⟨0x4000, 4, 1, [⟨0, 9, .rw, 0, 0, 511⟩]⟩,
  ⟨0x4004, 4, 1, [⟨0, 32, .ro, 0, 0, 4294967295⟩]⟩,
  ⟨0x4008, 4, 1, [⟨0, 9, .wo, 0, 0, 511⟩]⟩,
  ⟨0x400C, 4, 1, [⟨31, 1, .ro, 0, 0, 1⟩, ⟨3, 3, .ro, 0, 0, 7⟩, ⟨1, 1, .ro, 0, 0, 1⟩, ⟨0, 1, .ro, 0, 0, 1⟩]⟩,
  ⟨0x4010, 4, 1, [⟨0, 32, .ro, 0, 0, 4294967295⟩]⟩,
  ⟨0x4018, 4, 1, [⟨0, 9, .rw, 0, 0, 511⟩]⟩,
  ⟨0x401C, 4, 1, [⟨0, 32, .rw, 0, 0, 4294967295⟩]⟩,
  ⟨0x4020, 4, 1, [⟨0, 32, .wo, 0, 0, 4294967295⟩]⟩,
  ⟨0x4024, 4, 1, [⟨31, 1, .ro, 0, 0, 1⟩, ⟨4, 1, .w1c, 0, 0, 1⟩, ⟨0, 4, .ro, 0, 0, 15⟩]⟩,
  ⟨0x4028, 4, 1, [⟨16, 1, .ro, 0, 0, 1⟩, ⟨2, 7, .ro, 0, 0, 127⟩, ⟨1, 1, .ro, 0, 0, 1⟩, ⟨0, 1, .ro, 1, 0, 1⟩]⟩]

/-- The registers of the block at 0x4400. -/
def blockRows17 : List RegRow := [
  ⟨0x4400, 4, 1, [⟨0, 7, .lk, 22, 22, 100⟩]⟩,
  ⟨0x4404, 4, 1, [⟨16, 16, .ro, 0, 0, 65535⟩, ⟨4, 12, .ro, 3300, 0, 4095⟩, ⟨3, 1, .w1c, 0, 0, 1⟩, ⟨2, 1, .ro, 0, 0, 1⟩, ⟨1, 1, .ro, 0, 0, 1⟩, ⟨0, 1, .ro, 0, 0, 1⟩]⟩,
  ⟨0x4408, 4, 1, [⟨16, 16, .ro, 0, 0, 65535⟩, ⟨8, 8, .ro, 0, 0, 255⟩, ⟨4, 4, .ro, 0, 0, 15⟩, ⟨0, 4, .ro, 0, 0, 15⟩]⟩,
  ⟨0x440C, 4, 1, [⟨0, 14, .rw, 0, 0, 16383⟩]⟩,
  ⟨0x4410, 4, 1, [⟨0, 32, .ro, 0, 0, 4294967295⟩]⟩]

/-- The registers of the block at 0x4800. -/
def blockRows18 : List RegRow := [
  ⟨0x4800, 4, 1, [⟨0, 1, .lk, 1, 0, 1⟩]⟩,
  ⟨0x4804, 4, 1, [⟨0, 32, .wo, 0, 0, 4294967295⟩]⟩,
  ⟨0x4808, 4, 1, [⟨31, 1, .ro, 0, 0, 1⟩, ⟨28, 3, .ro, 0, 0, 7⟩, ⟨24, 1, .ro, 0, 0, 1⟩, ⟨16, 8, .ro, 0, 0, 255⟩, ⟨12, 4, .ro, 0, 0, 15⟩, ⟨0, 12, .ro, 0, 0, 4095⟩]⟩,
  ⟨0x480C, 4, 1, [⟨0, 20, .ro, 0, 0, 1048575⟩]⟩,
  ⟨0x4810, 4, 2, [⟨31, 1, .ro, 0, 0, 1⟩, ⟨30, 1, .ro, 0, 0, 1⟩, ⟨29, 1, .ro, 0, 0, 1⟩, ⟨8, 8, .ro, 0, 0, 255⟩, ⟨0, 8, .ro, 0, 0, 255⟩]⟩,
  ⟨0x4820, 4, 1, [⟨31, 1, .ro, 0, 0, 1⟩, ⟨16, 7, .ro, 0, 0, 127⟩, ⟨0, 6, .rw, 0, 0, 63⟩]⟩,
  ⟨0x4830, 4, 4, [⟨0, 32, .ro, 0, 0, 4294967295⟩]⟩,
  ⟨0x4900, 4, 64, [⟨0, 32, .rw, 0, 0, 4294967295⟩]⟩,
  ⟨0x4A00, 4, 1, [⟨0, 19, .wo, 0, 0, 524287⟩]⟩]

/-- The registers of block `b`, 0 (SYS) to 18 (UPD) (R9); none beyond. -/
def blockRows (b : Nat) : List RegRow :=
  match b with
  | 0 => blockRows0
  | 1 => blockRows1
  | 2 => blockRows2
  | 3 => blockRows3
  | 4 => blockRows4
  | 5 => blockRows5
  | 6 => blockRows6
  | 7 => blockRows7
  | 8 => blockRows8
  | 9 => blockRows9
  | 10 => blockRows10
  | 11 => blockRows11
  | 12 => blockRows12
  | 13 => blockRows13
  | 14 => blockRows14
  | 15 => blockRows15
  | 16 => blockRows16
  | 17 => blockRows17
  | 18 => blockRows18
  | _ => []

end Sys2Proof.Machine
end

