-- ==== Sys2Proof/Config.lean ====
section
/-! DEFINITION. What the manual leaves open: every constant here is a free value, with no body, so that no proof can
see a value of it. Each is applied to the plain counter `State.draws`, or to the crossing and the time of a round trip, so that every draw is a value of its own. -/

namespace Sys2Proof

/-- A word that the manual gives no value for, at draw `k`. -/
opaque Config.freeWord (k : Nat) : BitVec 32

/-- How long a round trip that begins at ENG period `t` on crossing `x` takes; the manual gives an upper bound only (R25). -/
opaque Config.tripLength (x t : Nat) : Nat

end Sys2Proof
end

