-- ==== Sys2Proof/Machine/State.lean ====
section
/-! DEFINITION. The state of the block as plain data, and the state right after reset. Register fields stand in one sparse
table (`State.regs`, keyed as `FRef` keys them); everything the manual gives the machine that no register shows
stands in the named records below. -/

namespace Sys2Proof.Machine

/-- No command of this model ends in a fault: the manual gives every command an effect, and turns wrong uses into answers,
flags or discards. -/
inductive Fault where
  deriving DecidableEq, Repr

/-- The reasons for which a step gives no meaning. -/
inductive Refusal where
  /-- Raised by the dispatch for a command that has no meaning in the model yet. Safe: the run stops. -/
  | notModelled (mnemonic : String)
  deriving DecidableEq, Repr

/-- The outcome of a command. -/
abbrev Out (σ : Type) := Host.Outcome σ Fault Refusal

/-- The device states of R15. -/
inductive Mode where
  | off | hibernate | boot | run | park | black | recovery
  deriving DecidableEq, Repr

/-- Where a full reset in progress stands (R30). -/
inductive ResetStage where
  /-- No full reset in progress. -/
  | none
  /-- Step 2: a journal commit in progress completes before step 3. -/
  | commit
  /-- Step 3: the power-down program runs. -/
  | powerDown
  /-- Step 6: waiting for `RESET_N` to rise or for always-on good. -/
  | waiting
  deriving DecidableEq, Repr

/-- The state arbiter, the resets, the supplies and the pins that the device drives (R15 to R35, R41 to R46, R54 to R57). -/
structure Dev where
  mode : Mode
  vaoGood : Bool
  pmidGood : Bool
  stage : ResetStage
  /-- When step 3 of the full reset began. -/
  resetAt : Nat
  /-- The reset in progress, or the one that began this BOOT, has cause `CMD_RCV` (R63). -/
  toRecovery : Bool
  resetNLow : Bool
  /-- A wake source that arrived during PARK entry or a hibernate power-down (R22), by number plus one. -/
  wakeLatch : Nat
  bootStart : Nat
  /-- When the OTP shadowing of this BOOT ends and the event unit starts (R61, R381). -/
  shadowAt : Nat
  /-- When the always-on good came that last began BOOT (R452). -/
  aoAt : Nat
  /-- The time of the last RUN entry, if there was one. -/
  runEntry : Option Nat
  /-- The time of the last RUN entry after the last full reset (R366). -/
  runSinceReset : Bool
  /-- BLACK was entered from BOOT (R18, R348). -/
  blackFromBoot : Bool
  hostRstReleased : Bool
  /-- The `WDX` expiry pulse is in progress (R364). -/
  wdxPulse : Bool
  /-- When it reaches its length. -/
  wdxAt : Nat
  /-- The GPIO Park request of this assertion of pin k has been taken (R95), a bit per pin. -/
  parkPinTaken : Nat
  /-- The output levels that blocks drive on GPIOs: scheduler pulses, strobes, domain enables and charger status, a bit per pin. -/
  gpioDrive : Nat
  recoveryEntry : Nat
  /-- The levels of the GPIO pins, a bit per pin (`SYS_GPIO_IN`). -/
  gpioIn : Nat
  /-- `GPIO0` was high at a sample of this BOOT's: the last one, or one at always-on good while the full reset still waited (R46). -/
  strapSeen : Bool
  /-- The crystal has failed: the condition behind `SYS_STATE.XTAL_FAIL` (R440). -/
  xtalFailed : Bool
  /-- The outputs that the image of the last RUN did not claim, as HIBERNATE holds them (R252): bits 0 to 7 regulators, 8 to 13 switches. -/
  unclaimed : Nat
  deriving DecidableEq, Repr

/-- What BOOT loaded from the image (R76 to R89, R453 to R455). -/
structure Image where
  /-- Claims by class times 256 plus index: owner code and qualifier (R83). -/
  claims : SMap (Option (Nat × Nat))
  /-- Inductance of each wired tile in nH (R81). -/
  tileL : SMap Nat
  /-- The step store (R213). -/
  store : SMap Nat
  /-- Staged satellite payloads, target address and supply domain by satellite (R89). -/
  sats : SMap (Option (Nat × Nat × List Byte))
  rollback : Nat
  fwVersion : Nat
  setupId : Nat
  /-- The charger tile mask of the DEVICE record (R79). -/
  chgTiles : Nat
  /-- The memories of the supervisor's firmware and of the gauge's microcode: what the running image loaded (R455). -/
  firmware : List Byte
  gaugeCode : List Byte
  /-- Slots that this BOOT marked invalid, a bit per slot (R67, R458). -/
  marked : Nat
  deriving DecidableEq, Repr

/-- A request for an event record, made by a block and not yet at the event unit (R381). -/
structure Req where
  block : Nat
  code : Nat
  colour : Nat
  payload : List Byte
  /-- The monitored crossing and the source that carry the event, where it crosses (R28). -/
  via : Option (Nat × Nat)
  /-- CORE clock of the request. -/
  clk : Nat
  deriving DecidableEq, Repr

/-- An event record: its 16 bytes (R379). -/
structure Rec where
  bytes : List Byte
  deriving DecidableEq, Repr

/-- The event unit, the push port and the interrupt line (R379 to R393). -/
structure Evt where
  /-- Record requests on their way to the unit, oldest first. -/
  reqs : List Req
  /-- The internal buffer, oldest first (R382). -/
  buf : List Rec
  /-- Slot of the oldest record. -/
  head : Nat
  /-- Records lost since the last EVT_OVERFLOW, by colour: Green, Amber, Red and Black (R383). -/
  lostG : Nat
  lostA : Nat
  lostR : Nat
  armed : Bool
  /-- An arm key waits for the end of a drain (R387). -/
  armWaiting : Bool
  /-- Committed records not yet delivered, oldest first (R385). -/
  pb : List Rec
  /-- When each delivered record that is not consumed was delivered, oldest first (R392). -/
  delivered : List Nat
  /-- CORE clock in which the last EVT_OVERFLOW was made (R383). -/
  ovfAt : Option Nat
  /-- The bytes of the last push frame (R384). -/
  lastPush : List Byte
  /-- No record commits from the END of program 2 until PARK exit (R388). -/
  pushHeld : Bool
  /-- When the push frame in progress began, and the earliest start of the next one (R384). -/
  pushAt : Option Nat
  pushFree : Nat
  deriving DecidableEq, Repr

/-- A valid PARK image in the retention registers (R391). What they save (buffer, counts, masks, levels, causes) stays in the
event unit's own fields, which nothing changes in PARK but records made there; the level of `IRQ_N` is held here. -/
structure Retention where
  irqLow : Bool
  deriving DecidableEq, Repr

/-- The parts of the fault collector that no register shows (R344 to R353). -/
structure Flt where
  /-- Count and detail of the raisings of each source (`FLT_SRC_INFO`). -/
  info : SMap (Nat × Nat)
  /-- Fault-log bodies that wait for the journal, oldest first (R351). -/
  bodies : List (List Byte)
  /-- When the injection in progress was armed (R353). -/
  armedAt : Nat
  /-- When each protected memory was last scrubbed (R340). -/
  scrubAt : SMap Nat
  /-- When the refused fault-log bodies are tried again (R451). -/
  retryAt : Nat
  deriving DecidableEq, Repr

/-- One seat of the host watchdog (R357). -/
structure Seat where
  first : Bool
  served : Bool
  /-- AO tick at which the period in progress began. -/
  start : Nat
  /-- AO tick of the last good service. -/
  lastGood : Option Nat
  deriving DecidableEq, Repr

/-- The watchdogs (R355 to R367). -/
structure Wdg where
  seats : SMap Seat
  /-- AO tick at which the second period began, and its length in ticks (R360). -/
  stage2 : Option (Nat × Nat)
  /-- Services discarded and other seats' violations in the second period. -/
  s2Services : Nat
  s2Violations : Nat
  /-- AO tick at which the core watchdog's period began, and the core's last service since the time base (R363, R366). -/
  coreServed : Nat
  coreLast : Option Nat
  /-- The evidence latch: the snapshot's 64 bytes (R366). -/
  latch : Option (List Byte)
  /-- AO tick of the violation that started the host watchdog's action (R359). -/
  vioTick : Option Nat
  /-- When a refused evidence commit is tried again (R451). -/
  retryAt : Option Nat
  deriving DecidableEq, Repr

/-- The producers of journal commits (R10, R451). -/
inductive Producer where
  | gauge | security | fault | evidence | update | satellite | mark
  deriving DecidableEq, Repr

/-- What an update request does once its commits are made (R459, R463). -/
inductive UpdAct where
  | none
  | started (slot : Nat)
  | verified
  | failed
  | activated
  deriving DecidableEq, Repr

/-- One commit operation of the journal queue (R450). -/
structure Commit where
  producer : Producer
  /-- Area kind (R444). -/
  kind : Nat
  /-- The record body; the fault log and the evidence take theirs when the commit starts. -/
  body : List Byte
  /-- For an update commit: what follows when it completes. -/
  act : UpdAct
  deriving DecidableEq, Repr

/-- The journal controller (R444 to R452). -/
structure Jnl where
  /-- Operations that hold a credit, the oldest first; at most 4. -/
  queue : List Commit
  /-- The oldest operation has started. -/
  busy : Bool
  /-- Operations whose producer waits for a credit. -/
  waiting : List Commit
  /-- The last commit was the first of a request's two, and its reserve decision covers the second (R450, R463). -/
  covered : Bool
  deriving DecidableEq, Repr

/-- A download in progress (R459 to R464). -/
structure Upd where
  /-- The offsets of the blocks written in this download. -/
  seen : List Nat
  /-- The block being programmed: its offset. -/
  block : Option Nat
  /-- An abort, PARK entry or start of program 1 waits for the memory command in progress: the history code to commit. -/
  ending : Option Nat
  /-- The memory command or verification that the abort key waited for has ended; its entry waits for the journal (R459, R463). -/
  ended : Bool
  /-- The memory command waits for the end of a receive-quiet segment (R116). -/
  held : Bool
  /-- The access whose block waits to be programmed: it keeps its credit (R462). -/
  frame : Option Nat
  /-- Header bytes of the download: rollback count, firmware version and setup identifier (R457). -/
  rollback : Nat
  fw : Nat
  setupId : Nat
  deriving DecidableEq, Repr

/-- One word of the one-time-programmable array (R418). -/
structure OtpWord where
  /-- Its 32 data cells. -/
  data : Nat
  /-- The check bits of its used slots, oldest first; at most 4. -/
  checks : List Nat
  /-- Check cells of the next slot that a torn programming has set. -/
  spare : Nat
  deriving DecidableEq, Repr

/-- The memories that keep their contents without power (R418, R444, R453). -/
structure NonVol where
  otp : SMap OtpWord
  /-- The journal's bytes; 0x00 where unlisted (R444). -/
  journal : List Host.Cell
  /-- Journal positions whose read finds an uncorrectable error: byte addresses (R449). -/
  journalBad : List Nat
  /-- The attached memory's bytes; 0xFF where unlisted. -/
  flash : List Host.Cell
  deriving DecidableEq, Repr

/-- The status codes of R375. -/
inductive Status where
  | ok | booting | busy | owned | crcError | badFrame | parked | refused | late
  deriving DecidableEq, Repr

/-- One admitted host access that still holds its credit (R371). -/
structure Frame where
  id : Nat
  write : Bool
  /-- The blocks that it addresses, a bit per block. -/
  blocks : Nat
  /-- Operations in target blocks that have not completed. -/
  left : Nat
  /-- Its conversion requests that are not yet in the ADC queue, and the answer that waits for them (R316). -/
  enters : Nat
  owed : Option Status
  deriving DecidableEq, Repr

/-- The host link (R368 to R377). -/
structure HostLink where
  frames : List Frame
  nextId : Nat
  fseq : Nat
  disc : Bool
  /-- The bytes of the last response. -/
  response : List Byte
  deriving DecidableEq, Repr

/-- Writes that wait for or hold a stack mailbox: register address and word (R138, R164). -/
structure MbxOp where
  stack : Nat
  writes : List (Nat × Nat)
  frame : Option Nat
  deriving DecidableEq, Repr

/-- What the engine, the set-point source and the shedding logic keep for a stack beside its registers. -/
structure Stack where
  /-- The stack is tripped (R158). -/
  tripped : Bool
  /-- The phase-count change that is due: 0 none, 1 shed, 2 add (R149). -/
  due : Nat
  shedDwell : Nat
  addDwell : Nat
  /-- Full Rolls since the last STK_ROLL record, and when that record was made (R146). -/
  rolls : Nat
  rollAt : Option Nat
  /-- When the Full Roll lockout in force began (R145). -/
  lockAt : Nat
  /-- The first wait of the change that is due has set `DEFER` (R150). -/
  deferred : Bool
  /-- When the stack's last slot started, and whether it did in a free segment with a free run of 2 µs (R115, R150). -/
  slotAt : Nat
  slotFree : Bool
  /-- The tiles have been high-impedance since the enable, which found the stack tripped or the engine halted (R158, R180). -/
  barred : Bool
  /-- Slots for which |e| has been within, and beyond, `PG_WIN` (R154). -/
  pgIn : Nat
  pgOut : Nat
  /-- A ramp-down discharge is in progress (R156). -/
  rampDown : Bool
  /-- When the last disable was, and when the last discharge ended (R156, R212). -/
  disAt : Nat
  disEnd : Nat
  /-- Start value, target and slot count of a soft-start (R153). -/
  ssFrom : Int
  ssTo : Int
  ssSlot : Nat
  /-- Last computing slot's values (R167, R170, R172). -/
  xV : Int
  xC : Int
  xT : Int
  xP : Int
  nx1 : Int
  nx2 : Int
  ny1 : Int
  ny2 : Int
  iLast : Int
  vcmpLast : Int
  /-- What the comparison DAC holds (R202). -/
  vcmpDac : Int
  dLast : Int
  /-- The winner of the previous computing slot, if there was one (R181). -/
  lastWin : Option Nat
  /-- The last current sample (R137). -/
  iNow : Int
  /-- Presets due at the next slot: enable, PARK exit, source change, to manual with tracking, to automatic (R175). -/
  preEnable : Bool
  prePark : Bool
  preSource : Bool
  preManual : Bool
  preAuto : Bool
  /-- ENG_LIMIT: the 1 ms is running, and since when; takeovers counted; first loop; first reference (R181). -/
  limOpen : Bool
  limAt : Nat
  limCount : Nat
  limLoop : Nat
  limRef : Int
  /-- Probe values of the last computing slot (R182). -/
  rV : Int
  rC : Int
  rT : Int
  rP : Int
  ffLast : Int
  dropLast : Int
  pbLast : Int
  thLast : Int
  /-- Target of the last computing slot (R187). -/
  tLast : Int
  /-- Staged set-point and a fire that waits for the slot (R190). -/
  staged : Option Nat
  fired : Bool
  /-- Tracking source: filter state, held target, fresh start, runs of invalid and valid slots (R193 to R195). -/
  cf : Int
  tsHold : Int
  fresh : Bool
  badRun : Nat
  goodRun : Nat
  /-- The return of R195 or a selected source change waits for the slot. -/
  srcDue : Bool
  /-- Last complete pulse period: its code, whether it was valid, and when it ended (R192). -/
  pulseCode : Nat
  pulseValid : Bool
  pulseEnd : Nat
  /-- Profile generator (R196): destination, rate-limited value, the two averages, slots left of the move. -/
  dest : Int
  pr : Int
  ha : List Int
  ka : Nat
  sa : Int
  hj : List Int
  kj : Nat
  sj : Int
  moveLeft : Nat
  moveLen : Nat
  profInit : Bool
  /-- Anticipation (R200): active, pre-add settled, inside its run, first pip of the run. -/
  ant : Bool
  antAdded : Bool
  antRun : Bool
  antPip : Nat
  /-- The lead phase of the anticipation: its first run has not begun (R200). -/
  antLead : Bool
  /-- The pins of the source in force (R185). -/
  ain : Nat
  pin : Nat
  deriving DecidableEq, Repr

/-- The control engine beside the stacks (R160, R179, R483). -/
structure Eng where
  /-- When the frame counter last restarted at 0, and the slots that have passed since, sixteen a frame. -/
  frameAt : Nat
  slots : Nat
  /-- When the 256 µs window in progress began (R483). -/
  measAt : Nat
  /-- The microcode memory: its 4096 words, none before a load. -/
  ucode : List Nat
  deriving DecidableEq, Repr

/-- What a rack keeps for a tile beside its registers (R139, R159, R483). -/
structure Tile where
  /-- Consecutive withheld opportunities. -/
  held : Nat
  /-- TIL_VLIM has been emitted since `TILn_STAT.VLIM` was last cleared. -/
  sent : Bool
  deriving DecidableEq, Repr

/-- Domain states (R208). -/
inductive DomState where
  | off | ramp | on | failed | stopping
  deriving DecidableEq, Repr

/-- What the sequencer keeps for a domain beside its registers (R208 to R212). -/
structure Dom where
  st : DomState
  /-- Filtered power-good. -/
  pg : Bool
  /-- Last accepted transition. -/
  lastChange : Nat
  /-- The last change of the raw power-good. -/
  rawSince : Nat
  raw : Bool
  /-- A skipped ENABLE left the domain OFF (R218). -/
  skipped : Bool
  deriving DecidableEq, Repr

/-- The stages of the step that runs (R215). -/
inductive StepStage where
  | idle
  /-- The step ended, or the program starts: the next sample point is due. -/
  | ended
  /-- A step word is fetched and waits for its command. -/
  | fetched
  | waiting
  | checking
  /-- A SEND that waits for its transaction, or for a credit. -/
  | sending
  deriving DecidableEq, Repr

/-- Why a shutdown runs in tiers (R218, R228, R232, R234). -/
inductive TierJob where
  /-- A failure of a domain, with its cause. -/
  | failure (dom cause : Nat)
  /-- A DISABLE step's cascade. -/
  | cascade (dom : Nat)
  /-- The residue of program 1 or 2. -/
  | residue (prog : Nat)
  deriving DecidableEq, Repr

/-- A shutdown in progress: what it is for, the domains it started with and those still to disable. -/
structure Shutdown where
  job : TierJob
  mask : Nat
  left : Nat
  /-- When the last tier was disabled. -/
  at_ : Nat
  deriving DecidableEq, Repr

/-- The sequencer (R213 to R236). -/
structure Seq where
  stage : StepStage
  /-- Offset of the fetched or running step in its program. -/
  pc : Nat
  word : Nat
  /-- Consecutive steps with no WAIT or CHECK (R215). -/
  steps : Nat
  /-- Request code that the running program answers (R241). -/
  reason : Nat
  tagged : Bool
  /-- When the running WAIT or CHECK started, or when the next step is due. -/
  since : Nat
  chat : Nat
  /-- Requests in the queue, oldest first: code and the frame that waits (R10, R224). -/
  queue : List (Nat × Option Nat)
  qwait : List (Nat × Option Nat)
  /-- The failure action of a CHECK waits for the end of the failure shutdown (R220). -/
  failAct : Bool
  shut : Option Shutdown
  /-- Failures that wait for the shutdown in progress: domain and cause (R233). -/
  failQueue : List (Nat × Nat)
  /-- Time of the last completed power-down, in AO ticks (R229). -/
  downAt : Option Nat
  /-- A PMID or thermal shutdown waits for its sample point (R225). -/
  pmidShut : Bool
  /-- The pending request followed an ON (R230). -/
  afterOn : Bool
  /-- The pending OFF is that of a lost master, which no later request replaces (R240). -/
  masterOff : Bool
  /-- SEQ_FAIL and DOMAIN_FAIL that wait for PARK exit (R235). -/
  parkFails : List (Nat × Nat × Nat)
  /-- What follows program 1's completion: 0 nothing, 1 HIBERNATE, 2 a full reset. -/
  after : Nat
  /-- The domains that the run of program 1 in progress has disabled by its own steps: their off-CHECKs are not skipped (R228). -/
  downMask : Nat
  /-- The domains whose power-good the thermal latch has ended (R336). -/
  latchMask : Nat
  deriving DecidableEq, Repr

/-- A guarded gate driver's assertion (R253 to R255). -/
structure Guard where
  /-- Start and duration in ms of the action in force. -/
  since : Nat
  dur : Nat
  /-- When the driver was last asserted, or its assertion ended: an action that replaces the one in force does not change it. -/
  turned : Nat
  /-- CORE clock of the last release write (R255). -/
  released : Option Nat
  deriving DecidableEq, Repr

/-- What an LDO or load switch keeps beside its registers (R244, R246, R249, R250). -/
structure Rail where
  /-- Off by a trip until its domain is disabled. -/
  tripped : Bool
  /-- When the current limit in progress began. -/
  limAt : Option Nat
  /-- The ramp in progress or last: when it began, and the output there in 10 mV. While the output is off, the level at which it went off. -/
  rampAt : Nat
  level : Nat
  deriving DecidableEq, Repr

/-- The frame timing unit (R98 to R123). -/
structure Frm where
  /-- The 48-bit frame phase; the pip is its bits [47:32]. -/
  phase : Nat
  /-- The one-frame phase correction and the time at which it returns to 0 (R104). -/
  incP : Int
  incPEnd : Nat
  /-- Time of the last edge that counts towards a period, if any. -/
  lastEdge : Option Nat
  /-- Edges since entry to ACQUIRE (R102). -/
  acqEdges : Nat
  /-- Consecutive frames with no edge (R484). -/
  misses : Nat
  /-- When the last edge was taken in a window, or a window's miss was counted (R484). -/
  lastWin : Nat
  /-- The period before the last one, in ENG periods, in ACQUIRE (R102). -/
  prevN : Nat
  /-- Pending and latched maps: one-frame or not, and the 64-bit map (R110, R111). -/
  pendMap : Option (Bool × Nat)
  latchMap : Option (Bool × Nat)
  persistent : Nat
  oneFrame : Option Nat
  /-- The latch of pip 61,440 of this frame has been made. -/
  latched : Bool
  /-- The first pip 0 since LOCKED was entered from ACQUIRE or FREE is still to come (R113). -/
  firstLock : Bool
  /-- Charger probe steps that wait for the next free segment (R122). -/
  probeDefer : Nat
  /-- The pip, plus one, at which a slot has fired in this frame (R119). -/
  fired : SMap Nat
  /-- A fire that waits behind lower slots while its slot's register has changed or its frame has ended: whether it comes from the frame before, the
  last pip at which it may come, and the register's word at the start of its pip (R119, R120). -/
  late : SMap (Option (Bool × Nat × Nat))
  /-- The pip, plus one, of the last write to a slot's register in this frame (R120). -/
  wrote : SMap Nat
  /-- The first pip of this frame that the counter reaches while the scheduler fires (R118). -/
  firstPip : Nat
  /-- When the level that the last `FSYNC` edge started ends (R98). -/
  levelEnd : Nat
  /-- The pip count at which each GPIO's pulse ends: frame number times 65,536 plus pip (R121). -/
  pulses : SMap Nat
  deriving DecidableEq, Repr

/-- A nonce that is outstanding: its slot, its four words and the AO tick of its issue (R432). -/
structure Nonce where
  slot : Nat
  words : List Nat
  at_ : Nat
  deriving DecidableEq, Repr

/-- A submission between its write and its result (R435 to R439): an anchor or a grant, its 128 bytes, and how far it is: 0 at the
verifier, 1 its record waits for the journal or is being stored, 2 its record is stored; 3 it waits for the verifier, which an update's verification
uses, and its access keeps its credit (R435, R462). -/
structure Submission where
  anchor : Bool
  bytes : List Byte
  stage : Nat
  frame : Option Nat
  deriving DecidableEq, Repr

/-- The verifier (R429 to R442). -/
structure Sec where
  nonces : List Nonce
  sub : Option Submission
  /-- The owner key of the running image, from RUN entry on (R429). -/
  ownerKey : List Byte
  /-- Fields of the security record that no register shows (R442). -/
  lastSeq : Nat
  lastOut : Nat
  lastMode : Nat
  lastEpoch : Nat
  granted : Nat
  anchored : Nat
  deriving DecidableEq, Repr

/-- The OTP controller (R423 to R428): the word being read; the word being programmed with its data, the frame that waits and
whether an advance goes on; and the shadow registers where they differ from the array's corrected data. -/
structure OtpCtl where
  reading : Option Nat
  prog : Option (Nat × Nat)
  advancing : Bool
  frame : Option Nat
  /-- Shadow registers (R61, R423). -/
  shadow : SMap Nat
  /-- Copies that the blocks act on (R422): hardware type, unit ID, slew codes and key hashes. -/
  hwType : Nat
  unitId : Nat
  slew : SMap Nat
  vendorHash : List Byte
  ownerHash : List Byte
  /-- The result of a programming that ended while the CORE clock stood still: cause, slot and word of its record (R426, R427). -/
  result : Option (Nat × Nat × Nat)
  deriving DecidableEq, Repr

/-- What the charger keeps beside its registers (R271 to R279). -/
structure Chg where
  /-- Entry to the state in progress, and the time counted for the precharge and safety timers before it, in ENG periods. -/
  since : Nat
  pre : Nat
  safe : Nat
  /-- Since when no suspend condition has held, while none holds (row 10 of R276). -/
  clearAt : Option Nat
  /-- The headroom condition holds (R275). -/
  headroom : Bool
  /-- Charger tiles that run while it charges: 1, or 2 (R271). -/
  count : Nat
  /-- When the probe step in progress began. -/
  probeAt : Nat
  /-- When the status pin last changed in FAULT (R279). -/
  toggled : Nat
  deriving DecidableEq, Repr

/-- What the power path keeps beside its registers (R258 to R284). -/
structure Pp where
  /-- The cut of R270 holds. -/
  cut : Bool
  /-- `PMID` has been above 5.50 V since always-on good or since the last PMID_UV. -/
  uvArmed : Bool
  /-- Times of the losses of the last second, newest first (R265), and the doublings in force. -/
  losses : List Nat
  doublings : Nat
  /-- The pack path is enabled; `BF_GATE` is driven (R262). -/
  packPath : Bool
  /-- The ideal diode of the pack path conducts (R262). -/
  diode : Bool
  /-- The pack has been present without interruption since VAO good (R281). -/
  firstQual : Bool
  /-- A new or unmatched pack rests for 1 s more in QUALIFY (R281). -/
  resting : Bool
  /-- A removal sign found in PARK, whose other effects wait for PARK exit (R284). -/
  parkSign : Nat
  /-- `PACK_NTC` was found open by sign 1 of R282, and the presence conditions have not held since (R330). -/
  ntcOpen : Bool
  /-- When the last hand-over completed, or VAO good came (R264), and the values of `TREQUAL` since then with the times from which they stand (R266). -/
  handAt : Nat
  treqs : List (Nat × Nat)
  /-- TREQUAL as the count in progress, or the last one, has taken it (R266). -/
  treq : Nat
  /-- When the source of `PMID` last changed (R268). -/
  srcAt : Nat
  /-- When a removal sign last occurred (R273), and when the next check of the lines in PARK is due (R284). -/
  signAt : Option Nat
  parkChk : Nat
  /-- When the front end left QUAL, and when it entered CLAMP. -/
  feOut : Nat
  clampAt : Nat
  /-- V(`VIN_SNS`) is at most V(`VBAT_SNS`) + 200 mV, filtered (R263). -/
  vinLow : Bool
  /-- When the presence conditions came to hold, and when qualification passed (R281). -/
  presAt : Nat
  qualAt : Nat
  chg : Chg
  deriving DecidableEq, Repr

/-- What a controller transaction is for (R408, R410 to R412): an item of a contact (`last` marks its final HEARTBEAT), a heartbeat,
a SEND step, or a host transaction. -/
inductive TxKind where
  | contact (sat : Nat) (last : Bool)
  | heartbeat (sat : Nat)
  | send (sat : Nat) (wait : Bool)
  /-- An item on the bus of a contact that a disable has ended (R410). -/
  | cut (sat : Nat)
  | host
  deriving DecidableEq, Repr

/-- One two-wire controller transaction: target address, bytes written, whether a PEC goes with them, bytes to read, and the
host access that waits for it. -/
structure Tx where
  kind : TxKind
  addr : Nat
  wr : List Byte
  pec : Bool
  rlen : Nat
  frame : Option Nat
  deriving DecidableEq, Repr

/-- The two-wire controller (R397 to R412): transactions that hold a credit, the oldest first, at most 8; those whose producer waits
for one; the repeats made of the transaction in progress; a repeat that waits and its time; a recovery that is due; the
HEARTBEAT count of each satellite; and the time of the last round of heartbeats. -/
structure Twc where
  queue : List Tx
  waiting : List Tx
  repeats : Nat
  retryWait : Bool
  retryAt : Nat
  recover : Bool
  beats : SMap Nat
  beatAt : Nat
  /-- The bytes that the controller puts on the bus for the transaction in progress, or the last one, its PEC among them (R396). -/
  wire : List Byte
  deriving DecidableEq, Repr

/-- What waits on the target port for a credit, with SCL held low (R404, R414): a register write with its PEC byte and its count, a register read, or
a request of the sequencer. -/
inductive TgtOp where
  | write (addr : Nat) (data : List Nat) (pec : Option Byte) (count : Nat)
  | read (addr n : Nat) (late : Bool)
  | prog (request : Nat)
  deriving DecidableEq, Repr

/-- The target port (R401 to R414): the status word of the last register access, if there was one; the bytes of the last answer;
the end of the window of satellite mode in progress; and what waits for a credit, with the time from which SCL is held. -/
structure Twt where
  word : Option Nat
  response : List Byte
  winEnd : Nat
  wait : Option (TgtOp × Nat)
  deriving DecidableEq, Repr

/-- An impedance capture in progress (R294, R295). -/
structure Capture where
  probe : Bool
  /-- Sums of the pre windows. -/
  preI : Int
  preV : Int
  /-- Windows still to discard, and post windows still to come. -/
  skip : Nat
  left : Nat
  postI : Int
  postV : Int
  /-- The probe step has ended (cause 5), and a hand-over or tile-count change came (cause 6). -/
  ended : Bool
  changed : Bool
  deriving DecidableEq, Repr

/-- The gauge's accumulators and engine values that no register shows (R287 to R306). -/
structure Gauge where
  /-- Sums and windows of the interval in progress (R288), and of the second in progress (R290). -/
  sumI : Int
  sumV : Int
  wins : Nat
  secI : Int
  secWins : Nat
  carry : Int
  qc : Int
  aqc : Int
  asoc : Nat
  fcc : Nat
  socR : Int
  tPrev : Int
  /-- Consecutive updates with vc at or below `VEMPTY` (R297). -/
  emptyRun : Nat
  disRun : Nat
  okRun : Nat
  /-- The charger has signalled termination since the last update. -/
  term : Bool
  capture : Option Capture
  /-- A capture has been accepted in this update interval. -/
  accepted : Bool
  /-- The last four windows, newest first: current and voltage codes. -/
  recent : List (Int × Nat)
  /-- A snapshot waits for its window: frame and pip of the fire. -/
  snap : Option (Nat × Nat)
  /-- Discharge counted since `CYCLES` last advanced, in µC. -/
  used : Int
  /-- A commit that fell due while another was queued: its reason (R303). -/
  commitDue : Option Nat
  /-- The anchor of the start or pack decision waits for the first update: its cause, and whether avalid is then cleared (R305). -/
  startAnchor : Option (Nat × Bool)
  /-- RUN has been entered, and the pack's qualification has passed, since BOOT or since the removal (R305, R306). -/
  ran : Bool
  qualified : Bool
  idMatch : Bool
  /-- The start or pack decision is due. -/
  startDue : Bool
  /-- RTC seconds count of the removal commit, if the gauge is frozen and the epoch was valid (R306). -/
  removedAt : Option Nat
  /-- When the last record was stored, or the counting of `JPER` began (R303). -/
  storedAt : Nat
  /-- The filtered discharge current iavg in mA (R289). -/
  iavg : Int
  /-- Sums and whole seconds of an interval that ended with PARK, at the gauge engine (R288). -/
  handed : Option (Int × Int × Nat)
  /-- Windows since the last hand-over or change of the charger's running tiles, to 5 (R295). -/
  sinceChange : Nat
  /-- The charger has raised its trigger on crossing 2, which has not reached the gauge yet (R278, R294). -/
  trig : Bool
  deriving DecidableEq, Repr

/-- A conversion request that holds an ADC credit, or waits for one (R312 to R316): kind 1 single, 2 pip-placed or 3 urgent, its channel,
the converter of an urgent one, the pip of a fire, whether it is late (R314), and the frame that waits. -/
structure AdcReq where
  kind : Nat
  ch : Nat
  cv : Nat
  pip : Nat
  late : Bool
  frame : Option Nat
  deriving DecidableEq, Repr

/-- A conversion in progress: its kind (0 scan), channel and start, and the frame whose credit it holds (R309, R316). -/
structure Conv where
  kind : Nat
  ch : Nat
  start : Nat
  frame : Option Nat
  deriving DecidableEq, Repr

/-- The housekeeping converters (R309 to R325). -/
structure Adc where
  queue : List AdcReq
  wait : List AdcReq
  /-- The conversion in progress on each converter. -/
  cvs : SMap (Option Conv)
  /-- What is left of the scan round: channels with their converters (R317). -/
  scan : List (Nat × Nat)
  roundAt : Option Nat
  /-- `PER` as the round in progress or last took it (R317). -/
  per : Nat
  /-- The active Doubles channel; whether the pair's second member gives the next sample, and when that sample is due (R320). -/
  dblCh : Nat
  dblOdd : Bool
  dblAt : Nat
  /-- PARK entry waits for the pair's conversions in progress, and the pair begins none (R309). -/
  dblHeld : Bool
  /-- Since when channel 66 reads above 2.90 V (R280, R330). -/
  ntcAt : Option Nat
  /-- The capture in progress: the pip of its fire and its samples, newest first. -/
  capture : Option (Nat × List Nat)
  /-- Consecutive alarm and clear results of each window (R323). -/
  win : SMap (Nat × Nat)
  /-- Consecutive failures of each diagnostic check, by check times 128 plus channel (R325). -/
  diag : SMap Nat
  /-- Channel 92's code in the round in progress. -/
  refA : Option Nat
  /-- When each channel's result was written, plus one. -/
  times : SMap Nat
  deriving DecidableEq, Repr

/-- Warning and throttle states of the junction and of the board thermistor (R332), and the course of the evaluations (R327, R333). -/
structure Thm where
  jWarn : Bool
  jThr : Bool
  bWarn : Bool
  bThr : Bool
  /-- When the next evaluation is due. -/
  next : Nat
  /-- Channels whose urgent conversions the evaluation in progress waits for. -/
  waits : List Nat
  /-- The throttle proportion of the evaluation before the last one, and when the last one was made. -/
  thOld : Nat
  thAt : Nat
  deriving DecidableEq, Repr

/-- The machine. -/
structure State where
  /-- The commands that wait, first in, first out. -/
  pending : List Instr
  /-- Time in ENG periods of 6.25 ns. -/
  now : Nat
  /-- Draws of free values so far: the model's own counter. -/
  draws : Nat
  /-- The pending masks of the monitored crossings (R26, R28): under crossing times 32 plus source, the ENG period at which the
  acknowledge of that source's request returns. -/
  xpend : SMap Nat
  /-- The round trips of each crossing: when the one in progress ends, and when the next one will that carries what has come since (R26). -/
  xtrip : SMap (Nat × Nat)
  /-- Register fields, keyed as `FRef.key`; an unlisted field holds its Reset value. -/
  regs : SMap Nat
  nv : NonVol
  dev : Dev
  image : Image
  rtcSec : Nat
  rtcValid : Bool
  /-- AO tick of the last advance of the seconds count. -/
  rtcAt : Nat
  evt : Evt
  ret : Option Retention
  flt : Flt
  wdg : Wdg
  jnl : Jnl
  upd : Upd
  hl : HostLink
  frm : Frm
  /-- Stack mailboxes that hold an operation, and operations that wait for theirs, oldest first (R10, R12). -/
  mbx : List MbxOp
  mbxWait : List MbxOp
  eng : Eng
  stackTab : SMap Stack
  tiles : SMap Tile
  /-- Turn-order pointer of the charger's tiles (R135). -/
  chgPtr : Nat
  /-- Latest codes of each tracking converter, newest first (R191). -/
  track : SMap (List Nat)
  seq : Seq
  doms : SMap Dom
  ldo : SMap Rail
  lsw : SMap Rail
  guards : SMap Guard
  sec : Sec
  otp : OtpCtl
  pp : Pp
  twc : Twc
  twt : Twt
  gg : Gauge
  adc : Adc
  thm : Thm
  deriving DecidableEq, Repr

def Twc.init : Twc where
  queue := []
  waiting := []
  repeats := 0
  retryWait := false
  retryAt := 0
  recover := false
  beats := []
  beatAt := 0
  wire := []

def Adc.init : Adc where
  queue := []
  wait := []
  cvs := []
  scan := []
  roundAt := none
  per := 0
  dblCh := 0
  dblOdd := false
  dblAt := 0
  dblHeld := false
  ntcAt := none
  capture := none
  win := []
  diag := []
  refA := none
  times := []

def Thm.init : Thm where
  jWarn := false
  jThr := false
  bWarn := false
  bThr := false
  next := 0
  waits := []
  thOld := 0
  thAt := 0

def Twt.init : Twt where
  word := none
  response := []
  winEnd := 0
  wait := none

def Gauge.init : Gauge where
  sumI := 0
  sumV := 0
  wins := 0
  secI := 0
  secWins := 0
  carry := 0
  qc := 0
  aqc := 0
  asoc := 0
  fcc := 0
  socR := 0
  tPrev := 0
  emptyRun := 0
  disRun := 0
  okRun := 0
  term := false
  capture := none
  accepted := false
  recent := []
  snap := none
  used := 0
  commitDue := none
  startAnchor := none
  ran := false
  qualified := false
  idMatch := false
  startDue := false
  removedAt := none
  storedAt := 0
  iavg := 0
  handed := none
  sinceChange := 5
  trig := false

def Chg.init : Chg where
  since := 0
  pre := 0
  safe := 0
  clearAt := none
  headroom := false
  count := 1
  probeAt := 0
  toggled := 0

def Pp.init : Pp where
  cut := false
  uvArmed := false
  losses := []
  doublings := 0
  packPath := false
  diode := false
  firstQual := false
  resting := false
  parkSign := 0
  ntcOpen := false
  handAt := 0
  treqs := [(0, 20)]
  treq := 20
  srcAt := 0
  signAt := none
  parkChk := 0
  feOut := 0
  clampAt := 0
  vinLow := false
  presAt := 0
  qualAt := 0
  chg := Chg.init

def Stack.init : Stack where
  tripped := false
  due := 0
  shedDwell := 0
  addDwell := 0
  rolls := 0
  rollAt := none
  lockAt := 0
  deferred := false
  slotAt := 0
  slotFree := false
  barred := false
  pgIn := 0
  pgOut := 0
  rampDown := false
  disAt := 0
  disEnd := 0
  ssFrom := 0
  ssTo := 0
  ssSlot := 0
  xV := 0
  xC := 0
  xT := 0
  xP := 0
  nx1 := 0
  nx2 := 0
  ny1 := 0
  ny2 := 0
  iLast := 0
  vcmpLast := 0
  vcmpDac := 0
  dLast := 0
  lastWin := none
  iNow := 0
  preEnable := false
  prePark := false
  preSource := false
  preManual := false
  preAuto := false
  limOpen := false
  limAt := 0
  limCount := 0
  limLoop := 0
  limRef := 0
  rV := 0
  rC := 0
  rT := 0
  rP := 0
  ffLast := 0
  dropLast := 0
  pbLast := 0
  thLast := 0
  tLast := 0
  staged := none
  fired := false
  cf := 0
  tsHold := 0
  fresh := true
  badRun := 0
  goodRun := 0
  srcDue := false
  pulseCode := 0
  pulseValid := false
  pulseEnd := 0
  dest := 0
  pr := 0
  ha := []
  ka := 0
  sa := 0
  hj := []
  kj := 0
  sj := 0
  moveLeft := 0
  moveLen := 0
  profInit := false
  ant := false
  antAdded := false
  antRun := false
  antPip := 0
  antLead := false
  ain := 0
  pin := 0

def Eng.init : Eng where
  frameAt := 0
  slots := 0
  measAt := 0
  ucode := []

def Tile.init : Tile where
  held := 0
  sent := false

def Dom.init : Dom where
  st := .off
  pg := false
  lastChange := 0
  rawSince := 0
  raw := false
  skipped := false

def Seat.init : Seat where
  first := false
  served := false
  start := 0
  lastGood := none

def Rail.init : Rail where
  tripped := false
  limAt := none
  rampAt := 0
  level := 0

def Guard.init : Guard where
  since := 0
  dur := 0
  turned := 0
  released := none

def OtpWord.init : OtpWord where
  data := 0
  checks := []
  spare := 0

def Seq.init : Seq where
  stage := .idle
  pc := 0
  word := 0
  steps := 0
  reason := 0
  tagged := false
  since := 0
  chat := 0
  queue := []
  qwait := []
  failAct := false
  shut := none
  failQueue := []
  downAt := none
  pmidShut := false
  afterOn := false
  masterOff := false
  parkFails := []
  after := 0
  downMask := 0
  latchMask := 0

def Evt.init : Evt where
  reqs := []
  buf := []
  head := 0
  lostG := 0
  lostA := 0
  lostR := 0
  armed := false
  armWaiting := false
  pb := []
  delivered := []
  ovfAt := none
  lastPush := []
  pushHeld := false
  pushAt := none
  pushFree := 0

def Frm.init : Frm where
  phase := 0
  incP := 0
  incPEnd := 0
  lastEdge := none
  acqEdges := 0
  misses := 0
  lastWin := 0
  prevN := 0
  pendMap := none
  latchMap := none
  persistent := 0
  oneFrame := none
  latched := false
  firstLock := false
  probeDefer := 0
  fired := []
  late := []
  wrote := []
  firstPip := 0
  levelEnd := 0
  pulses := []

def Image.init : Image where
  claims := []
  tileL := []
  store := []
  sats := []
  rollback := 0
  fwVersion := 0
  setupId := 0
  chgTiles := 0
  firmware := []
  gaugeCode := []
  marked := 0

def Wdg.init : Wdg where
  seats := []
  stage2 := none
  s2Services := 0
  s2Violations := 0
  coreServed := 0
  coreLast := none
  latch := none
  vioTick := none
  retryAt := none

def HostLink.init : HostLink where
  frames := []
  nextId := 0
  fseq := 0
  disc := false
  response := []

def Upd.init : Upd where
  seen := []
  block := none
  ending := none
  ended := false
  held := false
  frame := none
  rollback := 0
  fw := 0
  setupId := 0

def Sec.init : Sec where
  nonces := []
  sub := none
  ownerKey := []
  lastSeq := 0
  lastOut := 0
  lastMode := 0
  lastEpoch := 0
  granted := 0
  anchored := 0

def OtpCtl.init : OtpCtl where
  reading := none
  prog := none
  advancing := false
  frame := none
  shadow := []
  hwType := 0
  unitId := 0
  slew := []
  vendorHash := []
  ownerHash := []
  result := none

def Dev.init : Dev where
  mode := .off
  vaoGood := false
  pmidGood := false
  stage := .none
  resetAt := 0
  toRecovery := false
  resetNLow := false
  wakeLatch := 0
  bootStart := 0
  shadowAt := 0
  aoAt := 0
  runEntry := none
  runSinceReset := false
  blackFromBoot := false
  hostRstReleased := false
  wdxPulse := false
  wdxAt := 0
  parkPinTaken := 0
  gpioDrive := 0
  recoveryEntry := 0
  gpioIn := 0
  strapSeen := false
  xtalFailed := false
  unclaimed := 0

/-- The OTP as the device is shipped (R343, R419): `VENDOR_LOCK` at 1, the vendor key hash and the floors of R339 programmed. The manual gives no value
of the hash, the unit ID and the trim: the hash is that of the P-256 key of RFC 6979, and the others read 0 (DESIGN CHOICE, log entry 3). -/
def shippedOtp : SMap OtpWord := [
  (0x003, ⟨1, [131], 0⟩), (0x010, ⟨221789454, [147], 0⟩), (0x011, ⟨3038440981, [4], 0⟩), (0x012, ⟨3492568846, [37], 0⟩),
  (0x013, ⟨1968629918, [150], 0⟩), (0x014, ⟨4170845768, [51], 0⟩), (0x015, ⟨3594043409, [141], 0⟩), (0x016, ⟨31775327, [149], 0⟩),
  (0x017, ⟨125689852, [33], 0⟩), (0x094, ⟨281699880, [167], 0⟩), (0x095, ⟨1184008, [21], 0⟩), (0x096, ⟨140306, [7], 0⟩)]

/-- Every block at rest, every register at its Reset value, memories as shipped. -/
def State.blank : State where
  pending := []
  now := 0
  draws := 0
  xpend := []
  xtrip := []
  regs := []
  nv := ⟨shippedOtp, [], [], []⟩
  dev := Dev.init
  image := Image.init
  rtcSec := 0
  rtcValid := false
  rtcAt := 0
  evt := Evt.init
  ret := none
  flt := ⟨[], [], 0, [], 0⟩
  wdg := Wdg.init
  jnl := ⟨[], false, [], false⟩
  upd := Upd.init
  hl := HostLink.init
  frm := Frm.init
  mbx := []
  mbxWait := []
  eng := Eng.init
  stackTab := []
  tiles := []
  chgPtr := 0
  track := []
  seq := Seq.init
  doms := []
  ldo := []
  lsw := []
  guards := []
  sec := Sec.init
  otp := OtpCtl.init
  pp := Pp.init
  twc := Twc.init
  twt := Twt.init
  gg := Gauge.init
  adc := Adc.init
  thm := Thm.init

/-- The register fields that OTP shadowing has set by the time the machine is right after reset (R421, R422): floors, ceilings
and the owner hash's unprogrammed mark. -/
def shadowedRegs : SMap Nat := [
  (99600, 560), (101648, 560), (103696, 560), (105744, 560), (107792, 560), (109840, 560), (111888, 560), (113936, 560),
  (115984, 560), (118032, 560), (120080, 560), (122128, 560), (124176, 560), (126224, 560), (128272, 560), (130320, 560),
  (232576, 40), (232592, 120), (328960, 135), (328968, 140), (328976, 155), (362498, 2), (362500, 2), (362504, 2),
  (362506, 1), (362508, 2), (362510, 1), (362512, 2), (362514, 2), (362518, 3), (362524, 1), (362626, 2),
  (362632, 1), (362636, 1), (362640, 2), (362644, 1), (362752, 2), (362756, 1), (362762, 1), (362764, 2),
  (362768, 2), (525584, 1)]

/-- The machine right after a power-on reset: always-on good has come, BOOT has begun and the OTP is shadowed (R55, R61). -/
def State.reset : State :=
  { State.blank with
    regs := shadowedRegs
    dev := { Dev.init with mode := .boot, vaoGood := true, pmidGood := true }
    otp := { OtpCtl.init with
      shadow := [(0x003, 1), (0x010, 221789454), (0x011, 3038440981), (0x012, 3492568846), (0x013, 1968629918), (0x014, 4170845768),
        (0x015, 3594043409), (0x016, 31775327), (0x017, 125689852), (0x094, 281699880), (0x095, 1184008), (0x096, 140306)]
      vendorHash := [14, 61, 56, 13, 21, 238, 26, 181, 14, 95, 44, 208, 158, 232, 86, 117, 72, 14, 154, 248, 17, 192, 56, 214, 95, 218, 228, 1, 252, 223, 125, 7]
      ownerHash := List.replicate 32 0 } }

end Sys2Proof.Machine
end

