-- ==== Sys2Proof/Machine/Ops.lean ====
section
/-! DEFINITION. The named operations over the state that every block uses: reading and writing a register field, time,
claims, event requests and the fault bits. -/

namespace Sys2Proof.Machine

/-- The value of a register field. -/
def State.get (s : State) (f : FRef) : Nat := tget s.regs f.key f.reset

/-- The state with `v`, cut to the field's width, in a register field. -/
def State.set (s : State) (f : FRef) (v : Nat) : State :=
  { s with regs := tset s.regs f.key f.reset (v % 2 ^ f.w) }

/-- A one-bit field as a truth value. -/
def State.flag (s : State) (f : FRef) : Bool := decide (s.get f = 1)

/-- The state with a one-bit field at `b`. -/
def State.put (s : State) (f : FRef) (b : Bool) : State := s.set f (b2n b)

/-- The greatest value of a field. -/
def FRef.top (f : FRef) : Nat := 2 ^ f.w - 1

/-- A counter field one higher, saturating at the field's greatest value. -/
def State.incSatF (s : State) (f : FRef) : State := s.set f (incSat (s.get f) f.top)

/-- A counter field `d` higher, saturating. -/
def State.addSatF (s : State) (f : FRef) (d : Nat) : State := s.set f (addSat (s.get f) d f.top)

/-- A counter field one higher, wrapping. -/
def State.incWrapF (s : State) (f : FRef) : State := s.set f (s.get f + 1)

/-- Bit `i` of a field. -/
def State.bitF (s : State) (f : FRef) (i : Nat) : Bool := bitOf (s.get f) i

/-- The state with bit `i` of a field at `b`. -/
def State.putBitF (s : State) (f : FRef) (i : Nat) (b : Bool) : State := s.set f (putBit (s.get f) i b)

/-- A field read as two's complement. -/
def State.getS (s : State) (f : FRef) : Int := signed (s.get f) f.w

/-- A field written as two's complement. -/
def State.setS (s : State) (f : FRef) (x : Int) : State := s.set f (unsigned x f.w)

/-- AO ticks since power-on: 32,768 Hz against the ENG period of 6.25 ns (R23). -/
def State.aoTicks (s : State) : Nat := s.now * 16 / 78125

/-- ENG periods in a microsecond and in a millisecond. -/
def engPerUs : Nat := 160
def engPerMs : Nat := 160000

/-- The CORE clock: one of its periods is two ENG periods (R23). -/
def State.coreClk (s : State) : Nat := s.now / 2

/-- The pip counter runs (R101). -/
def State.counting (s : State) : Bool := decide (2 ≤ s.get F.FRM_STATE_STATE)

/-- Phase units by which the counter advances in `k` ENG periods (R104). -/
def State.advance (s : State) (k : Nat) : Nat :=
  (s.get F.FRM_INC_INC * k + s.frm.incP * min k (s.frm.incPEnd - s.now)).toNat

/-- The clock and the counter move on by `k` ENG periods. The counter does not pass the end of its frame by itself: FRAME_WRAP takes it over
(DESIGN CHOICE, log entry 2). -/
def State.clockOn (s : State) (k : Nat) : State :=
  if s.counting then { s with now := s.now + k, frm := { s.frm with phase := min (s.frm.phase + s.advance k) (2 ^ 48 - 1) } }
  else { s with now := s.now + k }

/-- The pip of the counter (R108): 0 in IDLE and SEARCH, where the phase is 0. -/
def State.pip (s : State) : Nat := s.frm.phase / 2 ^ 32

/-- The bytes of a record made now (R379). -/
def State.record (s : State) (kind colour block code : Nat) (p : List Byte) : Rec :=
  ⟨[byte (16 * kind + colour), byte block] ++ leBytes 2 code ++ leBytes 2 (s.get F.FRM_FRAME_FRAME) ++ leBytes 2 s.pip ++ padTo 8 p⟩

/-- Records have been lost since the last EVT_OVERFLOW, and a place for a Green or Amber record is free (R383). -/
def State.overflowOwed (s : State) : Bool :=
  decide ((s.evt.lostG ≠ 0 ∨ s.evt.lostA ≠ 0 ∨ s.evt.lostR ≠ 0) ∧ s.evt.buf.length < 28)

/-- After a loss, EVT_OVERFLOW takes the first place that is free for a Green or Amber record (R383, R393); one CORE clock makes one. -/
def State.fillOverflow (s : State) : State :=
  if s.overflowOwed ∧ s.evt.ovfAt ≠ some s.coreClk then
    let r := s.record 2 (if s.evt.lostA ≠ 0 then 1 else 0) 0xD 1
      (leBytes 2 s.evt.lostG ++ leBytes 2 s.evt.lostA ++ leBytes 2 s.evt.lostR)
    { s with evt := { s.evt with buf := s.evt.buf ++ [r], lostG := 0, lostA := 0, lostR := 0, ovfAt := some s.coreClk } }
  else s

/-- `k` ENG periods pass. An EVT_OVERFLOW that had to wait, because the last one was made in the same CORE clock, is made and stamped in the next
clock (R383). -/
def State.pass (s : State) (k : Nat) : State :=
  let j := 2 * (s.coreClk + 1) - s.now
  if s.overflowOwed ∧ s.evt.ovfAt = some s.coreClk ∧ j ≤ k then (s.clockOn j).fillOverflow.clockOn (k - j) else s.clockOn k

/-- A timer's event comes no sooner than the timer runs out: the clock stands at least at `t` when it comes. -/
def State.due (s : State) (t : Nat) : State := s.pass (t - s.now)

/-- The ENG period in which AO tick `k` falls. -/
def ofTicks (k : Nat) : Nat := (k * 78125 + 15) / 16

/-- A free value, and the state in which it has been drawn. -/
def State.draw (s : State) : Nat × State := ((Config.freeWord s.draws).toNat, { s with draws := s.draws + 1 })

/-- The records of one stack, tile, domain, seat. -/
def State.stk (s : State) (n : Nat) : Stack := tget s.stackTab n Stack.init
def State.setStk (s : State) (n : Nat) (x : Stack) : State := { s with stackTab := tset s.stackTab n Stack.init x }
def State.tile (s : State) (n : Nat) : Tile := tget s.tiles n Tile.init
def State.setTile (s : State) (n : Nat) (x : Tile) : State := { s with tiles := tset s.tiles n Tile.init x }
def State.dom (s : State) (n : Nat) : Dom := tget s.doms n Dom.init
def State.setDom (s : State) (n : Nat) (x : Dom) : State := { s with doms := tset s.doms n Dom.init x }
def State.seat (s : State) (n : Nat) : Seat := tget s.wdg.seats n Seat.init
def State.setSeat (s : State) (n : Nat) (x : Seat) : State :=
  { s with wdg := { s.wdg with seats := tset s.wdg.seats n Seat.init x } }

/-- The device state code of R15. -/
def Mode.code : Mode → Nat
  | .off => 0 | .hibernate => 1 | .boot => 2 | .run => 3 | .park => 4 | .black => 5 | .recovery => 6

/-- The state with another device state. -/
def State.setMode (s : State) (m : Mode) : State := { s with dev := { s.dev with mode := m } }

/-- The device is in state `m`. -/
def State.inMode (s : State) (m : Mode) : Bool := decide (s.dev.mode = m)

/-- The collector, the event unit and the journal work in these states (R15, R381); while a full reset waits in step 6 the CORE domain is
held in reset (R30). -/
def State.coreRuns (s : State) : Bool :=
  match s.dev.mode with
  | .off => false
  | .hibernate => false
  | _ => decide (s.dev.stage ≠ .waiting)

/-- Owner and qualifier of a claimed resource (R83). -/
def State.claim (s : State) (cls idx : Nat) : Option (Nat × Nat) := tget s.image.claims (cls * 256 + idx) none

/-- The resource is claimed by `owner`. -/
def State.ownedBy (s : State) (cls idx owner : Nat) : Bool :=
  match s.claim cls idx with
  | some (o, _) => decide (o = owner)
  | none => false

/-- The function code of a GPIO (R47); 0 where unclaimed. -/
def State.gpioCode (s : State) (k : Nat) : Nat :=
  match s.claim 2 k with
  | some (_, q) => q
  | none => 0

/-- The least GPIO below `n` that carries code `c` (R47). -/
def State.hasGpio (s : State) (c : Nat) : Bool := (List.range 12).any fun k => decide (s.gpioCode k = c)

/-- Owner code of the host (R83). -/
def hostOwner : Nat := 0x1F

/-- The tiles with use byte `u`. -/
def State.tilesOf (s : State) (u : Nat) : List Nat := (List.range 48).filter fun t => decide (s.get (F.TIL_STAT_USE t) = u)

/-- The number of tiles of a stack (N of R147). -/
def State.tileCount (s : State) (u : Nat) : Nat := (s.tilesOf u).length

/-- The tile of use `u` at turn-order position `p`. -/
def State.tileAt (s : State) (u p : Nat) : Option Nat := (s.tilesOf u).find? fun t => decide (s.get (F.TIL_STAT_POS t) = p)

/-- Apply `f` to the state for every number of a list, in order. -/
def forEach (l : List Nat) (f : Nat → State → State) (s : State) : State := l.foldl (fun t n => f n t) s

/-- Milliseconds since the last RUN entry, saturating at 2³² − 1; a free value where there has been none. -/
def State.msSinceRun (s : State) : Nat × State :=
  match s.dev.runEntry with
  | some t => (min ((s.now - t) / engPerMs) 0xFFFFFFFF, s)
  | none => s.draw

/-- The RTC seconds count for a record: 0 while the epoch is invalid (R350). -/
def State.rtcStamp (s : State) : Nat := if s.rtcValid then s.rtcSec else 0

/-- A record's payload from values and their widths in bytes. -/
def payload (l : List (Nat × Nat)) : List Byte := padTo 8 (l.flatMap fun p => leBytes p.2 p.1)

/-- Requests in the order in which the unit takes them: by CORE clock, those of one clock in ascending block, then code (R381). -/
def insReq (r : Req) : List Req → List Req
  | [] => [r]
  | q :: l =>
    if r.clk < q.clk ∨ (q.clk = r.clk ∧ (r.block < q.block ∨ (r.block = q.block ∧ r.code < q.code))) then r :: q :: l
    else q :: insReq r l

/-- The CORE clock in which a request of now reaches the event unit: in BOOT not before the unit starts, at the end of OTP shadowing (R381). -/
def State.reqClk (s : State) : Nat := if s.inMode .boot then max s.coreClk (s.dev.shadowAt / 2) else s.coreClk

/-- A block makes a record request (R381). -/
def State.emitC (s : State) (block code colour : Nat) (p : List (Nat × Nat)) : State :=
  if s.coreRuns then
    { s with evt := { s.evt with reqs := insReq ⟨block, code, colour, payload p, none, s.reqClk⟩ s.evt.reqs } }
  else s

/-- A Green record request. -/
def State.emit (s : State) (block code : Nat) (p : List (Nat × Nat)) : State := s.emitC block code 0 p

/-- An event merges into one that its crossing still carries: overrun flag and count (R28). -/
def State.overrun (s : State) (x : Nat) : State :=
  let f := fr (0x20 + 4 * (x / 4)) (8 * (x % 4)) 8 0
  (s.putBitF F.SYS_XOVR_FLAGS_OVR x true).incSatF f

/-- The longest round trip of a crossing in ENG periods, rounded up (R25): 3 source and 3 destination clock periods of AO (11), EP at its divider (9),
GAU (2, at most 3 µs by R294), CORE, ADC and ENG. -/
def State.tripMax (s : State) (x : Nat) : Nat :=
  if x = 9 then 6 + (96 * 2 ^ s.get F.EVT_EP_CFG_DIV + 4) / 5
  else if x = 11 then 14655 else if x = 2 then 461 else if x = 0 ∨ x = 1 then 9 else 12

/-- The end of a round trip of crossing `x` that begins at `t`: a free value within the bound of R25. -/
def State.tripEnd (s : State) (x t : Nat) : Nat := t + 1 + Config.tripLength x t % s.tripMax x

/-- The round trips of crossing `x` with an event that comes now: it starts one, or is carried by the one that follows the trip in progress (R26). -/
def State.tripNext (s : State) (x : Nat) : Nat × Nat :=
  let (e, f) := tget s.xtrip x (0, 0)
  if s.now < e then (e, if e < f then f else s.tripEnd x e)
  else if s.now < f then (f, s.tripEnd x f)
  else (0, s.tripEnd x s.now)

/-- An event of source `src` on crossing `x` (R26, R28): whether it merges into one that the crossing still carries. Its pending bit stays set
until the acknowledge of the round trip that carries it returns. -/
def State.crossing (s : State) (x src : Nat) : Bool × State :=
  let k := x * 32 + src
  if s.now < tget s.xpend k 0 then (true, s.overrun x)
  else
    let p := s.tripNext x
    (false, { s with xpend := tset s.xpend k 0 p.2, xtrip := tset s.xtrip x (0, 0) p })

/-- An event on crossing `x` whose destination acts once on events that merge there (R28). -/
def State.fireOn (s : State) (x n : Nat) (f : State → State) : State :=
  if (s.crossing x n).1 then (s.crossing x n).2 else f (s.crossing x n).2

/-- An event whose effect merging does not change. -/
def State.cross (s : State) (x src : Nat) : State := (s.crossing x src).2

/-- A record request that crosses on a monitored crossing `x` from source `src` (R26, R28). Events that a source raises in
one CORE clock travel together; one that comes while an earlier one is still on its way merges into it. -/
def State.emitX (s : State) (x src block code colour : Nat) (p : List (Nat × Nat)) : State :=
  if s.coreRuns then
    if s.evt.reqs.any (fun r => decide (r.via = some (x, src) ∧ r.clk ≠ s.reqClk)) then s.overrun x
    else { s with evt := { s.evt with reqs := insReq ⟨block, code, colour, payload p, some (x, src), s.reqClk⟩ s.evt.reqs } }
  else s

/-- The fields of the register at byte address `a`, if a register stands there (R3). -/
def regFields (a : Nat) : Option (List FieldRow) :=
  ((blockRows (a / 0x400)).find? fun r => decide (r.base ≤ a ∧ (a - r.base) % r.stride = 0 ∧ (a - r.base) / r.stride < r.count)).map RegRow.fields

/-- The addresses that RECOVERY lets a host write: the registers that R466 names. -/
def recoveryWrite (a : Nat) : Bool :=
  [0x0008, 0x000C, 0x2C68, 0x3080, 0x4000, 0x4008, 0x440C].contains a || (decide (0x4800 ≤ a ∧ a < 0x4C00) && (regFields a).isSome)

/-- The addresses that RECOVERY lets a host read: the range of the system block, and the registers that R466 names. -/
def recoveryRead (a : Nat) : Bool :=
  decide (a < 0x400) || [0x2C04, 0x2C08, 0x2C0C, 0x2C68].contains a ||
  (decide ((0x4000 ≤ a ∧ a < 0x4C00) ∨ (0x2C70 ≤ a ∧ a < 0x2C80) ∨ (0x3080 ≤ a ∧ a < 0x30D0)) && (regFields a).isSome)

/-- The device state lets a write to address `a` take effect (R15, R71, R375, R466). -/
def State.writeOk (s : State) (a : Nat) : Bool :=
  match s.dev.mode with
  | .run => true
  | .black => decide (a = 0x0008)
  | .recovery => recoveryWrite a
  | _ => false

/-- A write has been discarded: `DISC` of the next status word (R374). -/
def State.setDisc (s : State) : State := { s with hl := { s.hl with disc := true } }

/-- One operation of a host access has completed in its block; with the last one the access returns its credit (R11). -/
def State.frameDone (s : State) (f : Option Nat) : State :=
  match f with
  | none => s
  | some i =>
    { s with hl := { s.hl with
        frames := (s.hl.frames.map fun x => if x.id = i then { x with left := x.left - 1 } else x).filter fun x => decide (0 < x.left) } }

/-- Access `f` holds its host-link credit for one operation more (R11). -/
def State.frameHold (s : State) (f : Option Nat) : State :=
  match f with
  | none => s
  | some i => { s with hl := { s.hl with frames := s.hl.frames.map fun x => if x.id = i then { x with left := x.left + 1 } else x } }

end Sys2Proof.Machine
end

