-- ==== Sys2Proof/Machine/Outputs.lean ====
section
/-! DEFINITION. The operations that turn outputs off, shared by the fault reactions, the resets, the power path and the
sequencer: tiles, stacks, linear regulators, load switches, guarded drivers, `HOSTRST_N` and the ring. -/

namespace Sys2Proof.Machine

/-- Domain `d` is enabled (R206). -/
def State.domEnabled (s : State) (d : Nat) : Bool := s.bitF F.SEQ_DOM_STATE_EN d

/-- The levels of the member GPIOs with code 0x5 of domain `d` are all high (R207). -/
def State.domPins (s : State) (d : Nat) : List Bool :=
  (List.range 12).filterMap fun k =>
    let f := if k < 8 then fr 0x1424 (4 * k) 4 15 else fr 0x1428 (4 * (k - 8)) 4 15
    if s.get f = d ∧ s.gpioCode k = 5 then some (bitOf s.dev.gpioIn k) else none

/-- The power-good terms of domain `d` (R207). -/
def State.domTerms (s : State) (d : Nat) : List Bool :=
  ((List.range 16).filterMap fun n => if s.bitF (F.SEQ_DOM_MEMB_STK d) n then some (s.flag (F.STK_STAT_PG n)) else none) ++
  ((List.range 8).filterMap fun n => if s.bitF (F.SEQ_DOM_MEMB_LDO d) n then some (s.flag (F.OUT_LDO_STAT_PG n)) else none) ++
  ((List.range 6).filterMap fun n => if s.bitF (F.SEQ_DOM_MEMB_LSW d) n then some (s.flag (F.OUT_LSW_STAT_PG n)) else none) ++
  s.domPins d

/-- Raw power-good of domain `d` (R207). -/
def State.domRaw (s : State) (d : Nat) : Bool := s.domEnabled d && (s.domTerms d).all id

/-- Domain `d` sees its raw power-good again; a change starts the filter (R209). -/
def State.refreshDom (s : State) (d : Nat) : State :=
  let r := s.domRaw d
  let x := s.dom d
  if x.raw = r then s
  else (s.setDom d { x with raw := r, rawSince := s.now }).put (F.SEQ_DOM_STAT_RAW d) r

/-- Every domain sees its raw power-good again. -/
def State.refreshRaw (s : State) : State := forEach (List.range 12) (fun d t => t.refreshDom d) s

/-- The ring is disarmed; records already committed are still transferred (R387). -/
def State.disarm (s : State) : State := { s with evt := { s.evt with armed := false } }

/-- `HOSTRST_N` is asserted, which disarms the ring (R387); an arm key that waits for a drain comes to nothing (DESIGN CHOICE, log entry 47). -/
def State.assertHostRst (s : State) : State :=
  { s.disarm with dev := { s.dev with hostRstReleased := false }, evt := { s.disarm.evt with armWaiting := false } }

/-- A guarded driver's assertion ends with reason `r`: the sink is re-applied and OUT_GUARD_OFF is emitted (R255). -/
def State.guardEnd (s : State) (g r colour : Nat) : State :=
  if s.flag (F.OUT_G_STAT_ON g) then
    let x := tget s.guards g Guard.init
    let s1 := { s with guards := tset s.guards g Guard.init { x with turned := s.now } }
    ((s1.set (F.OUT_G_STAT_ON g) 0).set (F.OUT_G_STAT_END g) r).emitC 6 3 colour [(g, 1), (r, 1), (s.now / engPerMs - x.turned / engPerMs, 4)]
  else s

/-- Every guarded assertion ends with reason `r`. -/
def State.guardsEnd (s : State) (r colour : Nat) : State := (s.guardEnd 0 r colour).guardEnd 1 r colour

/-- Tile `t` switches in its stack's turn order. -/
def State.tileOn (s : State) (t : Nat) : State := (s.set (F.TIL_STAT_ACTIVE t) 1).set (F.TIL_STAT_HIZ t) 0

/-- Tile `t` is high-impedance and out of the turn order (R131). -/
def State.tileOff (s : State) (t : Nat) : State := (s.set (F.TIL_STAT_ACTIVE t) 0).set (F.TIL_STAT_HIZ t) 1

/-- Every tile of use `u` is high-impedance. -/
def State.tilesOff (s : State) (u : Nat) : State := forEach (s.tilesOf u) (fun t x => x.tileOff t) s

/-- Anticipation of a stack ends (R200). -/
def State.antEnd (s : State) (n : Nat) : State :=
  (s.set (F.STK_SRC_STAT_ANT n) 0).setStk n { s.stk n with ant := false, antAdded := false, antRun := false, antLead := false }

/-- Power-good of a stack withdraws; `lost` says that no disable caused it (R154). -/
def State.stackPgOff (s : State) (n : Nat) (lost : Bool) : State :=
  if s.flag (F.STK_STAT_PG n) then
    let s1 := (s.set (F.STK_STAT_PG n) 0).antEnd n
    (if lost then s1.set (F.STK_STAT_PG_LOST n) 1 else s1).refreshRaw
  else s

/-- Shedding state of a stack returns to rest: no change due, dwells at 0 (R149). -/
def State.shedRest (s : State) (n : Nat) : State :=
  (s.set (F.STK_STAT_HOLD n) 0).setStk n { s.stk n with due := 0, shedDwell := 0, addDwell := 0, deferred := false }

/-- A stack is off at once: disabled, its tiles high-impedance, nothing in progress (R131, R156). -/
def State.stackKill (s : State) (n : Nat) : State :=
  let s1 := ((((s.stackPgOff n false).set (F.STK_STAT_EN n) 0).set (F.STK_STAT_SS n) 0).set (F.STK_STAT_DIS n) 0).set (F.STK_STAT_LOCK n) 0
  let s2 := (((s1.set (F.STK_STAT_NACT n) 0).set (F.STK_STAT_PTR n) 0).set (F.STK_SRC_STAT_MOVE n) 0).shedRest n
  ((s2.setStk n { s2.stk n with moveLeft := 0, pgIn := 0, pgOut := 0 }).antEnd n).tilesOff n

/-- The set voltage of a linear regulator in 10 mV (R243). -/
def State.ldoTarget (s : State) (n : Nat) : Nat := 60 + s.get (F.OUT_LDO_CFG_VSET n)

/-- The time in ENG periods in which a regulator ramps from 0 V to its set voltage (R244). -/
def State.ldoSs (s : State) (n : Nat) : Nat := ([100, 200, 500, 1000].getD (s.get (F.OUT_LDO_CFG_SS n)) 200) * engPerUs

/-- The time in ENG periods in which a load switch raises its output from 0 V to `LSW_IN` (R249). -/
def State.lswSs (s : State) (n : Nat) : Nat := ([100, 500, 1000, 4000].getD (s.get (F.OUT_LSW_CFG_SS n)) 500) * engPerUs

/-- The output of an enabled regulator that its input supplies, in 10 mV: on its ramp, or at the set voltage (R243, R244). -/
def State.ldoOut (s : State) (n : Nat) : Nat :=
  let x := tget s.ldo n Rail.init
  let d := (s.now - x.rampAt) * s.ldoTarget n / s.ldoSs n
  if x.level ≤ s.ldoTarget n then min (x.level + d) (s.ldoTarget n) else max (x.level - d) (s.ldoTarget n)

/-- When the ramp in progress reaches the set voltage (R244). -/
def State.ldoRampEnd (s : State) (n : Nat) : Nat :=
  let x := tget s.ldo n Rail.init
  x.rampAt + ((x.level - s.ldoTarget n) + (s.ldoTarget n - x.level)) * s.ldoSs n / s.ldoTarget n

/-- A linear regulator is off (R251). -/
def State.ldoOff (s : State) (n : Nat) : State :=
  let x := tget s.ldo n Rail.init
  let v := if s.flag (F.OUT_LDO_STAT_EN n) ∧ ¬ x.tripped then s.ldoOut n else x.level
  (({ s with ldo := tset s.ldo n Rail.init { x with level := v, limAt := none } }.set (F.OUT_LDO_STAT_EN n) 0).set (F.OUT_LDO_STAT_PG n) 0).set
    (F.OUT_LDO_STAT_SS n) 0

/-- A disabled regulator's trip is over (R246). -/
def State.ldoClear (s : State) (n : Nat) : State :=
  { s with ldo := tset s.ldo n Rail.init { tget s.ldo n Rail.init with tripped := false } }

/-- The device state holds every discharge on: BOOT, steps 4 to 7 of a full reset, BLACK and RECOVERY (R251). -/
def State.dischargeForced (s : State) : Bool := s.inMode .boot || s.inMode .black || s.inMode .recovery

/-- The outputs that the setup image does not claim for the sequencer: bits 0 to 7 regulators, 8 to 13 switches (R252). -/
def State.unclaimed (s : State) : Nat :=
  (List.range 14).foldl (fun m k => if (s.claim 8 (16 + k)).isNone then setBit m k else m) 0

/-- The 100 Ω discharge of a linear regulator is on (R251): while it is disabled, in RUN and PARK only where `DIS` is 1. Where the setup image
does not claim it, it stays on in RUN and PARK, and in the HIBERNATE that follows (R252). -/
def State.ldoDischarge (s : State) (n : Nat) : Bool :=
  !s.flag (F.OUT_LDO_STAT_EN n) && (s.dischargeForced || (s.inMode .hibernate && bitOf s.dev.unclaimed n) ||
    ((s.inMode .run || s.inMode .park) && (s.flag (F.OUT_LDO_CFG_DIS n) || bitOf s.unclaimed n)))

/-- The same of a load switch. -/
def State.lswDischarge (s : State) (n : Nat) : Bool :=
  !s.flag (F.OUT_LSW_STAT_EN n) && (s.dischargeForced || (s.inMode .hibernate && bitOf s.dev.unclaimed (8 + n)) ||
    ((s.inMode .run || s.inMode .park) && (s.flag (F.OUT_LSW_CFG_DIS n) || bitOf s.unclaimed (8 + n))))

/-- A load switch is off (R251). -/
def State.lswOff (s : State) (n : Nat) : State :=
  ((s.set (F.OUT_LSW_STAT_EN n) 0).set (F.OUT_LSW_STAT_PG n) 0).set (F.OUT_LSW_STAT_SS n) 0

/-- A disabled switch's trip is over (R250). -/
def State.lswClear (s : State) (n : Nat) : State := { s with lsw := tset s.lsw n Rail.init Rail.init }

/-- The state code of a domain (R208). -/
def DomState.code : DomState → Nat
  | .off => 0 | .ramp => 1 | .on => 2 | .failed => 3 | .stopping => 4

/-- Domain `d` moves to another state (R208). -/
def State.setDomState (s : State) (d : Nat) (x : DomState) : State :=
  (s.setDom d { s.dom d with st := x }).set (F.SEQ_DOM_STAT_STATE d) x.code

/-- The enable GPIOs (code 0x6) of domain `d` are driven to `b` (R206). -/
def State.driveEnables (s : State) (d : Nat) (b : Bool) : State :=
  forEach (List.range 12) (fun k t =>
    let f := if k < 8 then fr 0x1424 (4 * k) 4 15 else fr 0x1428 (4 * (k - 8)) 4 15
    if t.get f = d ∧ t.gpioCode k = 6 then { t with dev := { t.dev with gpioDrive := putBit t.dev.gpioDrive k b } } else t) s

/-- Domain `d` is off with all its outputs, at once; a FAILED domain stays FAILED (R347, R30 step 4). -/
def State.domKill (s : State) (d : Nat) : State :=
  let s1 := (s.putBitF F.SEQ_DOM_STATE_EN d false).driveEnables d false
  if (s1.dom d).st = .failed then s1 else s1.setDomState d .off

/-- Every output is off: all tiles high-impedance, regulators and switches off with their discharge on, guarded drivers held
off with reason `r` (R30 step 4, R347). -/
def State.outputsOff (s : State) (r colour : Nat) : State :=
  let s1 := forEach (List.range 16) (fun n t => t.stackKill n) s
  let s2 := forEach (List.range 48) (fun n t => t.tileOff n) s1
  let s3 := forEach (List.range 8) (fun n t => (t.ldoOff n).ldoClear n) s2
  let s4 := forEach (List.range 6) (fun n t => (t.lswOff n).lswClear n) s3
  (((forEach (List.range 12) (fun d t => t.domKill d) s4).guardsEnd r colour).refreshRaw)

/-- `WDX` is high: in RUN, while the host watchdog runs, with no expiry pulse in progress (R45). -/
def State.wdxHigh (s : State) : Bool :=
  s.inMode .run && s.flag F.WDG_STAT_RUN && !s.dev.wdxPulse && decide (s.dev.stage = .none)

end Sys2Proof.Machine
end

