-- ==== Sys2Proof/Machine/Charger.lean ====
section
/-! DEFINITION. The charger's states and tiles (R271, R272, R275, R276), which the fault reactions of the collector also reach. -/

namespace Sys2Proof.Machine

/-- The gauge's record edited. -/
def State.setGg (s : State) (g : Gauge) : State := { s with gg := g }

/-- A hand-over or a change of the charger's running tiles falls within the windows of a capture in progress, or may fall within those of one to come
(R295). -/
def State.captureChanged (s : State) : State :=
  s.setGg { s.gg with
    sinceChange := 0,
    capture := s.gg.capture.map fun c => if c.skip ≠ 0 ∨ c.left ≠ 0 then { c with changed := true } else c }

def State.setPp (s : State) (p : Pp) : State := { s with pp := p }
def State.setChg (s : State) (c : Chg) : State := { s with pp := { s.pp with chg := c } }

/-- Charger state code (R276). -/
def State.chgState (s : State) : Nat := s.get F.PP_CHG_STAT_STATE

/-- PRECHARGE, CC, CV and TOPOFF: the charger tiles switch (R276). -/
def chgCharging (st : Nat) : Bool := decide (4 ≤ st ∧ st ≤ 7)

/-- The zone codes of `PP_CHG_STAT.ZONE` (R274). -/
def State.zone (s : State) : Nat := s.get F.PP_CHG_STAT_ZONE

/-- ieff in mA before the precharge step (R272). -/
def State.chgIeff0 (s : State) : Nat :=
  let i := 50 * min (s.get F.PP_CHG_CFG_ICHG) (s.get F.PP_CHG_CEIL_IMAX)
  let j := if s.zone = 1 then i / 2 ^ s.get F.PP_CHG_ZONE_COOL_I else i
  j * (32768 - s.get F.THM_TH_TH) / 32768

/-- ieff in mA in charger state `st` (R272). The charger forms no target while it is OFF. -/
def State.chgIeff (s : State) (st : Nat) : Nat :=
  if st = 0 then 0 else if st = 4 then max 100 (s.chgIeff0 / 10) else s.chgIeff0

/-- The first suspend condition that holds (R275); none reads in OFF. -/
def State.suspend (s : State) : Nat :=
  if s.flag F.PP_FE_STAT_SRC then 1
  else if s.pp.chg.headroom then 2
  else if s.zone = 0 ∨ s.zone = 4 then 3
  else if s.chgIeff0 < 100 then 4
  else if ¬ s.inMode .run then 5
  else 0
def State.chgSusp (s : State) : Nat := if s.chgState = 0 then 0 else s.suspend

/-- The GPIOs with function code `c` are driven to `b`. -/
def State.driveCode (s : State) (c : Nat) (b : Bool) : State :=
  { s with dev := { s.dev with
      gpioDrive := (List.range 12).foldl (fun m k => if s.gpioCode k = c then putBit m k b else m) s.dev.gpioDrive } }

/-- The charger tiles follow its state and count; they stay high-impedance outside RUN, during the cut of R270, with the thermal latch and outside
the charging states (R41, R131, R271, R276). -/
def State.chgTiles (s : State) : State :=
  let on := chgCharging s.chgState && s.inMode .run && !s.pp.cut && !s.flag F.THM_STAT_LATCH
  let l := s.tilesOf 16
  let k := if on then min s.pp.chg.count l.length else 0
  let s1 := forEach l (fun t x => if s.get (F.TIL_STAT_POS t) < k then x.tileOn t else x.tileOff t) s
  if k = s.get F.PP_CHG_STAT_TILES then s1
  else (({ s1 with chgPtr := 0 } : State).set F.PP_CHG_STAT_TILES k).captureChanged

/-- The status pin of R279: high while charging, low at rest; FAULT changes it by itself. -/
def State.chgPin (s : State) : State :=
  if s.chgState = 9 then s else s.driveCode 9 (chgCharging s.chgState)

/-- The timers' counts with the time in the state in progress (R277). -/
def State.chgPre (s : State) : Nat := s.pp.chg.pre + (if s.chgState = 4 then s.now - s.pp.chg.since else 0)
def State.chgSafe (s : State) : Nat :=
  s.pp.chg.safe + (if s.chgState = 4 ∨ s.chgState = 5 ∨ s.chgState = 6 then s.now - s.pp.chg.since else 0)

/-- The charger enters state `new`, with a PP_CHG_STATE record (R276, R285). Its tile count is formed where it starts charging; a later change waits for
CHG_TILE_COUNT (R115, R271). -/
def State.chgTo (s : State) (new : Nat) : State :=
  let old := s.chgState
  if old = new then s
  else
    let c := { s.pp.chg with
      since := s.now, pre := s.chgPre, safe := s.chgSafe, toggled := s.now, clearAt := if new = 3 then none else s.pp.chg.clearAt,
      count := if chgCharging old then s.pp.chg.count else if s.chgIeff new < 1200 then 1 else if 1500 ≤ s.chgIeff new then 2 else s.pp.chg.count }
    let s1 := ((s.setChg c).set F.PP_CHG_STAT_STATE new).chgTiles.chgPin
    s1.emit 7 6 [(new, 1), (old, 1), (s1.zone, 1), (s1.chgSusp, 1), (s1.chgIeff new, 2)]

/-- The suspend conditions may have changed: the time without one starts or stops (row 10 of R276), and a charging charger for which one holds enters
SUSPEND (row 9). -/
def State.chgCheck (s : State) : State :=
  let c := s.pp.chg
  let s1 := s.setChg { c with clearAt := if s.suspend = 0 then (match c.clearAt with
    | some t => some t
    | none => some s.now) else none }
  if chgCharging s1.chgState ∧ s1.suspend ≠ 0 then s1.chgTo 3 else s1

/-- A row of R276 after row 9, from state `st`: it comes where row 9 does not match. -/
def State.chgRow (s : State) (st : Nat) (f : State → State) : State := if s.chgCheck.chgState = st then f s.chgCheck else s.chgCheck

end Sys2Proof.Machine
end

