-- ==== Sys2Proof/Machine/Journal.lean ====
section
/-! DEFINITION. Reading and writing the journal's records and the attached memory's bytes (R444 to R449, R453). -/

namespace Sys2Proof.Machine

/-- `n` bytes from address `a` of a memory whose unlisted bytes read as `d`. -/
def readMem (d : Byte) (m : SMap Byte) (a : Nat) : Nat → List Byte
  | 0 => []
  | n + 1 =>
    let m1 := m.dropWhile fun e => decide (e.1 < a)
    match m1 with
    | [] => d :: readMem d [] (a + 1) n
    | (k, v) :: _ => (if k = a then v else d) :: readMem d m1 (a + 1) n

/-- A memory with the bytes `l` from address `a`. -/
def writeMem (d : Byte) (m : SMap Byte) (a : Nat) : List Byte → SMap Byte
  | [] => m
  | b :: r => writeMem d (tset m a d b) (a + 1) r

/-- What a journal byte reads as where nothing has been written: units are shipped with every byte at 0x00 (R444). -/
def journalBlank : Byte := 0

/-- What an attached-memory byte reads as where nothing has been written: the erased state (DESIGN CHOICE, log entry 7). -/
def flashBlank : Byte := 0xFF

/-- The canonical form of the two memories (journal and attached memory). -/
abbrev Memory.wf (v : NonVol) : Prop := tcanon journalBlank v.journal = true ∧ tcanon flashBlank v.flash = true

/-- One area of the journal (R444). -/
structure Area where
  kind : Nat
  base : Nat
  count : Nat
  size : Nat
  body : Nat
  deriving DecidableEq, Repr

/-- The journal areas by kind (R444). -/
def area (kind : Nat) : Area :=
  match kind with
  | 1 => ⟨1, 0x0100, 16, 80, 64⟩
  | 2 => ⟨2, 0x0600, 16, 48, 32⟩
  | 3 => ⟨3, 0x0900, 16, 96, 80⟩
  | 4 => ⟨4, 0x0F00, 64, 32, 16⟩
  | 5 => ⟨5, 0x1700, 16, 80, 64⟩
  | 6 => ⟨6, 0x1C00, 32, 32, 16⟩
  | _ => ⟨7, 0x2000, 256, 32, 16⟩

/-- The bytes of position `p` of an area. -/
def State.posBytes (s : State) (a : Area) (p : Nat) : List Byte := readMem journalBlank s.nv.journal (a.base + p * a.size) a.size

/-- Position `p` of an area is valid (R447). -/
def State.posValid (s : State) (a : Area) (p : Nat) : Bool :=
  let l := s.posBytes a p
  decide (leField l 0 1 = a.kind) && decide (leField l 1 1 = a.body / 4) && decide (leField l 2 2 = 0x4C4A) &&
  decide (leField l (8 + a.body) 4 = crc32 (l.take (8 + a.body))) &&
  !(s.nv.journalBad.any fun x => decide (a.base + p * a.size ≤ x ∧ x < a.base + (p + 1) * a.size))

/-- The sequence number of position `p`. -/
def State.posSeq (s : State) (a : Area) (p : Nat) : Nat := leField (s.posBytes a p) 4 4

/-- Sequence number `x` is newer than `y` (R447). -/
def newer (x y : Nat) : Bool := let d := (x + 2 ^ 32 - y) % 2 ^ 32; decide (1 ≤ d ∧ d < 2 ^ 31)

/-- The valid position of an area with the newest sequence number, if there is one (R447). -/
def State.newest (s : State) (a : Area) : Option Nat :=
  (List.range a.count).foldl (fun b p =>
    if s.posValid a p then
      match b with
      | none => some p
      | some q => if newer (s.posSeq a p) (s.posSeq a q) then some p else some q
    else b) none

/-- The body of position `p`. -/
def State.posBody (s : State) (a : Area) (p : Nat) : List Byte := slice (s.posBytes a p) 8 a.body

/-- The body of the newest record of an area, if there is one. -/
def State.newestBody (s : State) (kind : Nat) : Option (List Byte) := (s.newest (area kind)).map fun p => s.posBody (area kind) p

/-- The number of valid positions of an area. -/
def State.heldCount (s : State) (kind : Nat) : Nat :=
  ((List.range (area kind).count).filter fun p => s.posValid (area kind) p).length

/-- The body of the k-th newest record of an area, 0 the newest: positions are filled in rotation (R448), so age runs
backwards from the newest position. All zero beyond the records held. -/
def State.bodyBack (s : State) (kind k : Nat) : List Byte :=
  let a := area kind
  match s.newest a with
  | none => List.replicate a.body 0
  | some p =>
    let back := ((List.range a.count).map fun i => (p + a.count - i) % a.count).filter fun q => s.posValid a q
    match back[k]? with
    | some q => s.posBody a q
    | none => List.replicate a.body 0

/-- The bytes of a record (R445): header, body, CRC, and zero bytes to the end of the position. -/
def recordBytes (a : Area) (seq : Nat) (body : List Byte) : List Byte :=
  let h := [byte a.kind, byte (a.body / 4), 0x4A, 0x4C] ++ leBytes 4 seq ++ padTo a.body body
  padTo a.size (h ++ leBytes 4 (crc32 h))

/-- A commit writes the position after the newest record with the next sequence number (R448). -/
def State.commitBytes (s : State) (kind : Nat) (body : List Byte) : State :=
  let a := area kind
  let (p, q) := match s.newest a with
    | none => (0, 1)
    | some p => ((p + 1) % a.count, (s.posSeq a p + 1) % 2 ^ 32)
  let at_ := a.base + p * a.size
  let m := writeMem journalBlank s.nv.journal at_ (recordBytes a q body)
  let bad := s.nv.journalBad.filter fun x => !(decide (at_ ≤ x ∧ x < at_ + a.size))
  { s with nv := { s.nv with journal := m, journalBad := bad } }

/-- The bytes of a slot of the attached memory (R453). -/
def State.slotBytes (s : State) (slot ofs n : Nat) : List Byte := readMem flashBlank s.nv.flash (slot * 0x80000 + ofs) n

end Sys2Proof.Machine
end

