-- ==== Sys2Proof/Machine/OtpWord.lean ====
section
/-! DEFINITION. One word of the one-time-programmable array: its check bits and what a read makes of its cells (R418). -/

namespace Sys2Proof.Machine

/-- The columns of the 32 data bits in the code of R418. The manual names an extended Hamming code and does not give its columns: here they are the
numbers from 3 that are no power of two (DESIGN CHOICE, log entry 22). -/
def otpColumns : List Nat :=
  [3, 5, 6, 7, 9, 10, 11, 12, 13, 14, 15, 17, 18, 19, 20, 21] ++ [22, 23, 24, 25, 26, 27, 28, 29, 30, 31, 33, 34, 35, 36, 37, 38]

/-- Whether a number of `n` bits has an odd number of ones. -/
def oddOnes : Nat → Nat → Bool
  | 0, _ => false
  | n + 1, x => decide (x % 2 = 1) != oddOnes n (x / 2)

/-- The joined columns of the data bits that are 1. -/
def hamming : List Nat → Nat → Nat
  | [], _ => 0
  | c :: r, x => (if x % 2 = 1 then c else 0) ^^^ hamming r (x / 2)

/-- The 8 check bits of 32 data bits: seven of the Hamming code, and the parity of data and check bits in bit 7 (R418). -/
def otpCode (d : Nat) : Nat :=
  let h := hamming otpColumns d
  h + 128 * b2n (oddOnes 32 d != oddOnes 7 h)

/-- What a read finds of a word: its data after correction, whether it corrected an error, and whether it found one that it cannot correct; then
the data are the raw cells (R418, R423). -/
def OtpWord.read (x : OtpWord) : Nat × Bool × Bool :=
  match x.checks.getLast? with
  | none => (x.data, false, decide (x.data ≠ 0))
  | some c =>
    let syn := hamming otpColumns x.data ^^^ (c % 128)
    let odd := oddOnes 32 x.data != oddOnes 8 c
    if syn = 0 then (x.data, odd, false)
    else if !odd then (x.data, false, true)
    else if [1, 2, 4, 8, 16, 32, 64].contains syn then (x.data, true, false)
    else match otpColumns.idxOf? syn with
      | some i => (x.data ^^^ 2 ^ i, true, false)
      | none => (x.data, false, true)

/-- The data that a read returns. -/
def OtpWord.value (x : OtpWord) : Nat := x.read.1

/-- A read corrects a single-bit error. -/
def OtpWord.ce (x : OtpWord) : Bool := x.read.2.1

/-- A read finds an error that it cannot correct. -/
def OtpWord.bad (x : OtpWord) : Bool := x.read.2.2

/-- A word whose cell `i` has changed: a data cell below 32, else one of the check bits in force (R418). -/
def OtpWord.flip (x : OtpWord) (i : Nat) : OtpWord :=
  if i < 32 then { x with data := x.data ^^^ 2 ^ i }
  else { x with checks := x.checks.dropLast ++ [x.checks.getLastD 0 ^^^ 2 ^ (i - 32)] }

/-- The number of cells that a read of a word looks at. -/
def OtpWord.cells (x : OtpWord) : Nat := if x.checks = [] then 32 else 40

/-- The new data of a programming with bits `d`: the old data or the written data (R424). -/
def OtpWord.next (x : OtpWord) (d : Nat) : Nat := x.value ||| d

/-- A word after a programming with bits `d` of which the cells under the masks `m` of the data and `k` of the check bits were set, and whose slot
counts as used or not (R418, R427). -/
def OtpWord.burnt (x : OtpWord) (d m k : Nat) (used : Bool) : OtpWord :=
  let n := x.next d
  let c := x.spare ||| (otpCode n &&& k)
  if used then { data := x.data ||| (n &&& m), checks := x.checks ++ [c], spare := 0 }
  else { x with data := x.data ||| (n &&& m), spare := c }

end Sys2Proof.Machine
end

