-- ==== Sys2Proof/Machine/Reset.lean ====
section
/-! DEFINITION. OTP shadowing (R61, R62, R422), entry to BOOT (R55) and steps 4 to 7 of a full reset (R30, R31). -/

namespace Sys2Proof.Machine

def State.otpWord (s : State) (w : Nat) : OtpWord := tget s.nv.otp w OtpWord.init
def State.setOtpWord (s : State) (w : Nat) (x : OtpWord) : State :=
  { s with nv := { s.nv with otp := tset s.nv.otp w OtpWord.init x } }

/-- A programming of word `w` with bits `d` that did not end well: which cells were set and whether the check slot counts as used are free
values; the code then says what the word reads as (R426, R427). -/
def State.otpTorn (s : State) (w d : Nat) : State :=
  let (v, s1) := s.draw
  let (f, s2) := s1.draw
  s2.setOtpWord w ((s2.otpWord w).burnt d (v % 2 ^ 32) (f / 2 % 256) (decide (f % 2 = 1)))

/-- The region of an OTP word (R419). -/
def otpRegion (w : Nat) : Nat :=
  if w < 0x10 then 0 else if w < 0x20 then 1 else if w < 0x80 then 2 else if w < 0x90 then 3
  else if w < 0x94 then 4 else if w < 0x98 then 5 else 6

/-- Mask of the regions with an uncorrectable error (R62). -/
def State.otpAlarms (s : State) : Nat :=
  s.nv.otp.foldl (fun m e => if e.1 < 512 ∧ e.2.bad then setBit m (otpRegion e.1) else m) 0

/-- Words whose single-bit error shadowing corrects (R61). -/
def State.otpCorrected (s : State) : Nat :=
  (s.nv.otp.filter fun e => decide (e.1 < 512) && e.2.ce).length

/-- The image rollback counter (R420). -/
def State.otpCounter (s : State) : Nat :=
  (List.range 65).foldl (fun m k =>
    let x := s.otpWord (0x1F + k)
    if 1 ≤ k ∧ (if x.bad then x.data ≠ 0 else x.value = 0xFFFFFFFF) then k else m) 0

/-- The eight words from `w` as 32 bytes: a key hash (R419). -/
def State.otpHash (s : State) (w : Nat) : List Byte := (List.range 8).flatMap fun k => leBytes 4 (s.otpWord (w + k)).value

/-- The owner key hash that the blocks act on is unprogrammed (R422, R429). -/
def State.ownerOpen (s : State) : Bool := s.otp.ownerHash.all fun b => decide (b = 0)

/-- The stack's overvoltage ceiling in 10 mV (R421, R62). -/
def State.otpCeiling (s : State) (n : Nat) : Nat :=
  let x := s.otpWord (0x80 + n / 2)
  if x.bad then 40 else max (560 - bits x.value (16 * (n % 2)) 10) 40

/-- The stack's slew code (R201). -/
def State.otpSlew (s : State) (n : Nat) : Nat :=
  let x := s.otpWord (0x88 + n / 4)
  let c := bits x.value (8 * (n % 4)) 8
  if x.bad then 1 else if c = 0 then 255 else c

/-- The floor of a source as shadowed (R343, R62). -/
def State.otpFloor (s : State) (src : Nat) : Nat :=
  let x := s.otpWord (0x94 + src / 16)
  if x.bad then 2 else bits x.value (2 * (src % 16)) 2

/-- The register fields that hold the OTP's copies (R422). -/
def otpCopyKeys : List Nat :=
  [F.SYS_OTP_ALARM_REGION.key, F.PP_CHG_CEIL_VMAX.key, F.PP_CHG_CEIL_IMAX.key, F.PP_CHG_CEIL_ALARM.key, F.THM_CEIL_WARN_MAX.key,
    F.THM_CEIL_THR_MAX.key, F.THM_CEIL_SD_MAX.key, F.THM_CEIL_ALARM.key, F.WDG_FUSE_WDX_LEN.key, F.WDG_FUSE_ALARM.key] ++
  (List.range 16).map (fun n => (F.STK_CEIL_OTP n).key) ++ (List.range 8).map (fun k => 0x300C * 32 + 3 * k) ++
  (List.range 41).map (fun k => (0x2C40 + 4 * (k / 16)) * 32 + 2 * (k % 16))

/-- The thermal limits do not stand above their ceilings (R331). -/
def State.thmLimit (s : State) : State :=
  ((s.set F.THM_THR_WARN (min (s.get F.THM_THR_WARN) (s.get F.THM_CEIL_WARN_MAX))).set F.THM_THR_THR
    (min (s.get F.THM_THR_THR) (s.get F.THM_CEIL_THR_MAX))).set F.THM_THR_SD (min (s.get F.THM_THR_SD) (s.get F.THM_CEIL_SD_MAX))

/-- OTP shadowing: the shadow registers and the copies that the blocks act on (R61, R62, R422). -/
def State.otpShadow (s : State) : State :=
  let s1 := { s with otp := { s.otp with
      shadow := s.nv.otp.filterMap (fun (e : Nat × OtpWord) => if e.2.value = 0 then none else some (e.1, e.2.value)),
      hwType := (s.otpWord 0).value, unitId := (s.otpWord 1).value + 2 ^ 32 * (s.otpWord 2).value,
      vendorHash := s.otpHash 0x10, ownerHash := s.otpHash 0x18,
      slew := (List.range 16).filterMap (fun n => if s.otpSlew n = 255 then none else some (n, s.otpSlew n)) } }
  let al := s.otpAlarms
  let s2 := ((s1.set F.SYS_OTP_ALARM_REGION al).set F.SYS_OTP_ALARM_CORR (min s.otpCorrected 65535)).put F.SYS_BOOT_STATUS_OTP_ALARM (decide (al ≠ 0))
  let s3 := forEach (List.range 16) (fun n t => t.set (F.STK_CEIL_OTP n) (s.otpCeiling n)) s2
  let c := s.otpWord 0x8C
  let s4 := ((s3.set F.PP_CHG_CEIL_VMAX (40 - bits c.value 0 6)).set F.PP_CHG_CEIL_IMAX (max (120 - bits c.value 16 7) 2)).put F.PP_CHG_CEIL_ALARM c.bad
  let t := s.otpWord 0x8D
  let wm := if t.bad then 100 else max (135 - bits t.value 0 8) 40
  let tm := if t.bad then 110 else max (140 - bits t.value 8 8) 41
  let sm := if t.bad then 135 else max (155 - bits t.value 16 8) 100
  let s5 := (((s4.set F.THM_CEIL_WARN_MAX wm).set F.THM_CEIL_THR_MAX tm).set F.THM_CEIL_SD_MAX sm).put F.THM_CEIL_ALARM t.bad
  let s6 := s5.thmLimit
  let w := s.otpWord 0x90
  let s7 := forEach (List.range 8) (fun k x => x.set (fr 0x300C (3 * k) 3 0) (if w.bad then 0 else bits w.value (3 * k) 3)) s6
  let s8 := (s7.set F.WDG_FUSE_WDX_LEN (bits w.value 24 2)).put F.WDG_FUSE_ALARM w.bad
  let s9 := forEach (List.range 41) (fun k x => x.set (fr (0x2C40 + 4 * (k / 16)) (2 * (k % 16)) 2 0) (s.otpFloor k)) s8
  (((s9.set F.OTP_STATE_OTP_CNT s.otpCounter).put F.OTP_STATE_OWNER_OPEN s9.ownerOpen).put F.OTP_STATE_OWNER_LOCK (bitOf (s.otpWord 3).value 1)).put F.OTP_STATE_VENDOR_LOCK (bitOf (s.otpWord 3).value 0)

/-- The register fields that a full reset leaves as they are (R31, R34). -/
def keptKeys : List Nat :=
  (List.range 7).map (fun b => 0x0C * 32 + b) ++ [F.THM_STAT_LATCH.key]

/-- The record of a programming that ended while the CORE clock stood still is requested once it runs again (R426, R427). -/
def State.otpOwed (s : State) : State :=
  match s.otp.result with
  | some (c, k, w) => ({ s with otp := { s.otp with result := none } } : State).emit 0x10 1 [(c, 1), (k, 1), (w, 2)]
  | none => s

/-- BOOT and the Opening begin: the strap is sampled, the core watchdog starts and the OTP is shadowed, which ends 4.141 ms later (R46, R55, R61,
R70). `STRAP` is the last sample; a high level at an earlier sample of the same reset chooses RECOVERY too (R46, R96). -/
def State.enterBoot (s : State) : State :=
  let s1 := { s with dev := { s.dev with mode := .boot, stage := .none, bootStart := s.now, shadowAt := s.now + 4141 * engPerUs,
                                         blackFromBoot := false, wakeLatch := 0, strapSeen := s.dev.strapSeen || bitOf s.dev.gpioIn 0 },
                     wdg := { s.wdg with coreServed := s.aoTicks } }
  (s1.put F.SYS_BOOT_STATUS_STRAP (bitOf s.dev.gpioIn 0)).otpShadow.otpOwed

/-- Always-on good: VAO good and PMID core-ready together (R55). -/
def State.aoGood (s : State) : Bool := s.dev.vaoGood && s.dev.pmidGood

/-- The journal commit in progress completes, powered from `CRES` (R30 step 2, R56, R452). -/
def State.jnlFlush (s : State) : State :=
  match s.jnl.busy, s.jnl.queue with
  | true, c :: r =>
    { s.commitBytes c.kind c.body with jnl := { s.jnl with queue := r, busy := false } }
  | _, _ => s

/-- The first `k` bytes of the block in the update buffer, in the attached memory at offset `ofs` of the download's slot (R461). -/
def State.updWrite (s : State) (ofs k : Nat) : State :=
  let b := ((List.range 64).flatMap fun j => leBytes 4 (s.get (F.UPD_BUF_BYTES j))).take k
  { s with nv := { s.nv with flash := writeMem flashBlank s.nv.flash (s.get F.UPD_STAT_SLOT * 0x80000 + ofs) b } }

/-- The first `k` of the slot's 8 erase blocks are erased (R461). -/
def State.updErase (s : State) (k : Nat) : State :=
  let a := s.get F.UPD_STAT_SLOT * 0x80000
  { s with nv := { s.nv with flash := s.nv.flash.filter fun e => !decide (a ≤ e.1 ∧ e.1 < a + k * 0x10000) } }

/-- A memory command does not come to its end (R461, R464): how far it came is a free value. -/
def State.updTear (s : State) : State :=
  if s.flag F.UPD_STAT_BUSY ∧ ¬ s.upd.held then
    let (v, s1) := s.draw
    if s.get F.UPD_STAT_PHASE = 1 then s1.updErase (v % 9)
    else match s.upd.block with
      | some o => s1.updWrite o (min (v % 257) (s.get F.UPD_LEN_L - o))
      | none => s1
  else s

/-- What the second period counted goes into the snapshot (R360, R366). -/
def State.latchCounts (s : State) : State :=
  match s.wdg.stage2, s.wdg.latch with
  | some _, some l => { s with wdg := { s.wdg with latch := some (l.take 52 ++ [byte s.wdg.s2Services, byte s.wdg.s2Violations] ++ l.drop 54) } }
  | _, _ => s

/-- Everything but what R31 names returns to its Reset value. -/
def State.resetDomains (s : State) : State :=
  { State.blank with
    pending := s.pending, now := s.now, draws := s.draws, nv := s.nv,
    regs := s.regs.filter (fun e => keptKeys.contains e.1),
    rtcSec := s.rtcSec, rtcValid := s.rtcValid, rtcAt := s.rtcAt,
    dev := { s.dev with hostRstReleased := false, runSinceReset := false, parkPinTaken := 0, gpioDrive := 0,
                        wakeLatch := 0, blackFromBoot := false, strapSeen := false },
    wdg := { Wdg.init with latch := s.wdg.latch, coreServed := s.aoTicks },
    seq := { Seq.init with downAt := some s.aoTicks },
    otp := { OtpCtl.init with prog := s.otp.prog, result := s.otp.result },
    pp := { Pp.init with cut := s.pp.cut, uvArmed := s.pp.uvArmed, handAt := s.now, srcAt := s.pp.srcAt } }

/-- The registers that the AO domain holds across HIBERNATE (R94, R267, R337). -/
def hibRegs : List Nat := [0x0200, 0x0204, 0x0208, 0x1C04, 0x1C08, 0x1C0C, 0x1C60]

/-- The fields that hold outside RUN, HIBERNATE included: the throttle proportion, the thermal states and the pack temperature (R330, R334). -/
def hibKeys : List Nat := [F.THM_TH_TH.key, F.THM_TH_SRC.key, F.THM_STAT_WARN.key, F.THM_STAT_THROT.key, F.THM_NTC_T_TPACK.key]

/-- The latched wake, where its source is enabled for HIBERNATE (R94). -/
def State.hibWake (s : State) : Nat :=
  if s.dev.wakeLatch ≠ 0 ∧ s.bitF F.SYS_WAKE_CFG_HIB_EN ((s.dev.wakeLatch - 1) % 8) then s.dev.wakeLatch else 0

/-- Entry to HIBERNATE: only the AO domain keeps its state (R15, R94, R229, R267), the evidence latch with what a second period has counted (R366). -/
def State.enterHibernate (s : State) : State :=
  let s1 := ((((s.outputsOff 4 0).assertHostRst).jnlFlush).updTear).latchCounts
  let s2 := s1.resetDomains
  { s2 with
    regs := s1.regs.filter (fun e => keptKeys.contains e.1 || hibRegs.contains (e.1 / 32) || hibKeys.contains e.1),
    seq := { Seq.init with downAt := s.seq.downAt },
    pp := { s.pp with treqs := (s.now, 20) :: s.pp.treqs },
    thm := { s.thm with waits := [] },
    dev := { s2.dev with mode := .hibernate, stage := .none, wakeLatch := s.hibWake, unclaimed := s.unclaimed, runEntry := s.dev.runEntry,
                          runSinceReset := s.dev.runSinceReset } }

/-- The power-down time is recorded (R229). -/
def State.markDown (s : State) : State := { s with seq := { s.seq with downAt := some s.aoTicks } }

/-- Steps 4 to 7 of a full reset: outputs off, domains reset, and BOOT unless `RESET_N` or the always-on supply holds it (R30). A commit in
progress completes first (step 2, R452). The manual does not say which device state holds in steps 4 to 6: the model shows BOOT from step 4 on,
also while it waits in step 6 (DESIGN CHOICE, log entry 40). -/
def State.resetFinish (s : State) : State :=
  let s1 := (((s.jnlFlush).outputsOff 4 0).assertHostRst).updTear.resetDomains
  if s1.dev.resetNLow || !s1.aoGood then { s1 with dev := { s1.dev with mode := .boot, stage := .waiting } }
  else s1.enterBoot

end Sys2Proof.Machine
end

