-- ==== Sys2Proof/Machine/Flags.lean ====
section
/-! DEFINITION. The fault collector's operations (R339 to R351): colours, pending bits, the raising of a source with the
reaction of its colour, and the waiting fault-log bodies; and the journal's queue, into which they go (R10, R450). -/

namespace Sys2Proof.Machine

/-- The sources of kind L (R339). -/
def levelSource (src : Nat) : Bool :=
  [9, 10, 11, 13, 15, 17, 24, 25, 27, 28, 29, 30, 31, 33, 37].contains src

/-- Default colours, source by source (R339). -/
def defaultColour (src : Nat) : Nat :=
  ([0, 3, 3, 0, 2, 2, 3, 2, 3, 3, 1, 3, 1, 1, 2, 1, 1, 2, 1, 1, 2, 1, 2, 1, 2, 1, 2, 1, 1, 0, 0, 1, 2, 1, 2, 0, 0, 2, 2, 0, 2][src]?).getD 0

/-- Floors that the OTP holds as the device is shipped (R339, R343). -/
def shippedFloor (src : Nat) : Nat :=
  ([0, 2, 2, 0, 2, 1, 2, 1, 2, 2, 0, 3, 0, 0, 1, 0, 0, 2, 0, 0, 1, 0, 1, 0, 2, 0, 1, 0, 0, 0, 0, 0, 2, 0, 1, 0, 0, 1, 2, 0, 2][src]?).getD 0

/-- The field `CFGk` of a source (R341). -/
def cfgColourField (src : Nat) : FRef := fr (0x2C20 + 4 * (src / 8)) (4 * (src % 8)) 2 (defaultColour src)

/-- The field `FLOORk` of a source (R341). -/
def floorField (src : Nat) : FRef := fr (0x2C40 + 4 * (src / 16)) (2 * (src % 16)) 2 0

/-- The colour that the integrity alarm gives OTP_INTEGRITY (R62). -/
def State.alarmColour (s : State) : Nat :=
  let r := s.get F.SYS_OTP_ALARM_REGION
  if bits r 2 3 ≠ 0 then 2 else if bits r 5 2 ≠ 0 then 1 else 0

/-- The effective colour of a source (R341). -/
def State.effColour (s : State) (src : Nat) : Nat :=
  max (max (s.get (cfgColourField src)) (s.get (floorField src))) (if src = 0 then s.alarmColour else 0)

/-- The configured colour lies below the effective one because of the floor (R341). -/
def State.floorRaised (s : State) (src : Nat) : Bool := decide (s.get (cfgColourField src) < s.get (floorField src))

/-- The register field and bit that hold a source's pending bit. -/
def pendField (src : Nat) : FRef := if src < 32 then F.FLT_PEND0_PEND else F.FLT_PEND1_PEND
/-- The register field that holds a source's active bit. -/
def actField (src : Nat) : FRef := if src < 32 then F.FLT_ACT0_ACT else F.FLT_ACT1_ACT

def State.pended (s : State) (src : Nat) : Bool := s.bitF (pendField src) (src % 32)
def State.active (s : State) (src : Nat) : Bool := s.bitF (actField src) (src % 32)
def State.setActive (s : State) (src : Nat) (b : Bool) : State := s.putBitF (actField src) (src % 32) b

/-- `FLT_STAT.ANY`: a source is pending. -/
def State.anyPending (s : State) : Bool := decide (s.get F.FLT_PEND0_PEND ≠ 0 ∨ s.get F.FLT_PEND1_PEND ≠ 0)

/-- `FLT_STAT.MAXCOL`: the highest effective colour among pending sources. -/
def State.maxColour (s : State) : Nat :=
  (List.range 41).foldl (fun m k => if s.pended k then max m (s.effColour k) else m) 0

/-- A pending source has effective colour `c` or higher. -/
def State.pendingAt (s : State) (c : Nat) : Bool := (List.range 41).any fun k => s.pended k && decide (c ≤ s.effColour k)

/-- Guarded actions are refused by the colour reaction (R346). -/
def State.redBlocked (s : State) : Bool := s.flag F.FLT_CFG_RED_GUARD && s.pendingAt 2

/-- Journal credits in use (R10). -/
def State.jnlUsed (s : State) : Nat := s.jnl.queue.length

/-- A producer queues a commit: it takes a credit, or waits for one (R11, R12). -/
def State.jnlPush (s : State) (c : Commit) : State :=
  if s.jnl.queue.length < 4 ∧ s.jnl.waiting = [] then { s with jnl := { s.jnl with queue := s.jnl.queue ++ [c] } }
  else (({ s with jnl := { s.jnl with waiting := s.jnl.waiting ++ [c] } } : State)).set F.SYS_CREDIT_WAIT_JNL 1

/-- Waiting producers take the journal credits that are free, in their order (R12). -/
def State.jnlPump (s : State) : State :=
  let k := 4 - s.jnl.queue.length
  { s with jnl := { s.jnl with queue := s.jnl.queue ++ s.jnl.waiting.take k, waiting := s.jnl.waiting.drop k } }

/-- Fault-log commits that are queued or wait for a credit. -/
def State.logTokens (s : State) : Nat :=
  ((s.jnl.queue ++ s.jnl.waiting).filter fun c => decide (c.producer = .fault)).length

/-- One fault-log commit is queued. The journal takes the oldest waiting body when it starts (R351). -/
def State.logToken (s : State) : State := s.jnlPush ⟨.fault, 7, [], .none⟩

/-- Fault-log commits are queued until every waiting body has one (R351, R451). -/
def State.logTokensFill (s : State) : State :=
  forEach (List.range (s.flt.bodies.length - s.logTokens)) (fun _ t => t.logToken) s

/-- The 16-byte body of a fault-log record (R350). -/
def State.faultBody (s : State) (src colour detail : Nat) (inj floor : Bool) (ms : Nat) : List Byte :=
  [byte src, byte (colour + 4 * b2n inj + 8 * b2n floor + 16 * s.dev.mode.code)] ++ leBytes 2 (s.get F.FRM_FRAME_FRAME) ++
  leBytes 2 s.pip ++ leBytes 2 detail ++ leBytes 4 s.rtcStamp ++ leBytes 4 ms

/-- A body joins the 8 that may wait, or is counted as lost (R351). In BOOT it waits without a commit (R60). -/
def State.logFault (s : State) (src colour detail : Nat) (inj floor : Bool) : State :=
  let (ms, s1) := s.msSinceRun
  if s1.flt.bodies.length < 8 then
    let s2 := { s1 with flt := { s1.flt with bodies := s1.flt.bodies ++ [s1.faultBody src colour detail inj floor ms] } }
    if s2.inMode .boot then s2 else s2.logToken
  else s1.incSatF F.FLT_STAT_LOG_LOST

/-- The nonces are discarded (R432). -/
def State.dropNonces (s : State) : State :=
  ({ s with sec := { s.sec with nonces := [] } } : State).set F.SEC_CHAL_STAT_OUT 0

/-- The frame timing unit stops (R102). A map that is latched stays latched for the next pip 0, and deferred probe steps are dropped with no count (DESIGN
CHOICE, log entry 44: R111 and R122 do not say). -/
def State.frmIdle (s : State) : State :=
  let f := { s.frm with
    phase := 0, incP := 0, incPEnd := 0, lastEdge := none, acqEdges := 0, misses := 0, lastWin := 0,
    prevN := 0, oneFrame := none, latched := false, firstLock := false, probeDefer := 0, fired := [], late := [], wrote := [], firstPip := 0,
    pulses := [] }
  (({ s with frm := f } : State).set F.FRM_STATE_STATE 0).set F.FRM_STATE_HELD 0

/-- An update's verification is in progress (R462). -/
def State.updVerifying (s : State) : Bool :=
  decide (s.get F.UPD_STAT_PHASE = 3) && s.flag F.UPD_STAT_BUSY && !s.upd.held

/-- A submission that waits for the verifier starts once no update uses it; its access returns its credit (R435, R462). -/
def State.secTry (s : State) : State :=
  match s.sec.sub with
  | some x =>
    if x.stage = 3 ∧ ¬ s.updVerifying then
      ({ s with sec := { s.sec with sub := some { x with stage := 0, frame := none } } } : State).frameDone x.frame
    else s
  | none => s

/-- A download in progress is abandoned (R464). -/
def State.updAbandon (s : State) : State :=
  let p := s.get F.UPD_STAT_PHASE
  if p = 1 ∨ p = 2 ∨ p = 3 then
    (({ ((s.updTear.set F.UPD_STAT_PHASE 0).set F.UPD_STAT_BUSY 0) with
      upd := { s.upd with block := none, ending := none, ended := false, held := false, frame := none } } : State).frameDone s.upd.frame).secTry
  else s

/-- The sequencer halts (R231). -/
def State.seqHalt (s : State) : State :=
  { ((s.set F.SEQ_STAT_PHASE 9).set F.SEQ_STAT_RUN 0) with
    seq := { s.seq with stage := .idle, shut := none, failQueue := [], failAct := false, pmidShut := false, after := 0 } }

/-- Every enabled seat starts a first period (R357). -/
def State.seatsStart (s : State) : State :=
  let s1 := (s.set F.WDG_STAT_RUN 1).set F.WDG_STAT_PAUSED 0
  forEach (List.range 8) (fun n t =>
    if t.flag (F.WDG_SEAT_CFG_EN n) then
      let x := t.seat n
      ((t.setSeat n { x with first := true, served := false, start := t.aoTicks }).set (F.WDG_SEAT_STAT_FIRSTP n) 1).set (F.WDG_SEAT_STAT_SERVED n) 0
    else t) s1

/-- The core watchdog's period restarts (R363). -/
def State.coreWdgRestart (s : State) : State := { s with wdg := { s.wdg with coreServed := s.aoTicks } }

/-- An evidence commit that has not started is queued. -/
def State.evidenceQueued (s : State) : Bool := (s.jnl.queue ++ s.jnl.waiting).any fun c => decide (c.producer = .evidence ∧ c.body = [])

/-- A snapshot in the evidence latch is queued for the journal (R366), once. -/
def State.evidencePush (s : State) : State :=
  if s.wdg.latch.isSome ∧ ¬ s.evidenceQueued then
    ({ s with wdg := { s.wdg with retryAt := none } } : State).jnlPush ⟨.evidence, 5, [], .none⟩
  else s

/-- The gauge's interval in progress ends with PARK, as at PARK exit; the sums wait for the gauge engine (R288). -/
def State.gaugeHand (s : State) : State :=
  s.setGg { s.gg with handed := some (s.gg.sumI, s.gg.sumV, s.gg.wins / 32768), sumI := 0, sumV := 0, wins := 0 }

/-- The device enters BLACK for source `src` (R347); the two-wire controller releases its lines (R406), a push frame in progress stops (R385) and the
charger suspends (R276). -/
def State.enterBlack (s : State) (src : Nat) : State :=
  let fromMode := s.dev.mode
  let s1 := ((s.outputsOff 4 3).assertHostRst).frmIdle.dropNonces.updAbandon.seqHalt
  let s2 := { s1 with dev := { s1.dev with mode := .black, blackFromBoot := decide (fromMode = Mode.boot),
                                            wakeLatch := 0, gpioDrive := 0 },
                      evt := { s1.evt with pushHeld := false, pushAt := none } }
  let s3 := (((s2.set F.FLT_STAT_BLACK_SRC src).set F.ENG_STAT_ACTIVE 0).set F.TWB_CTL_STAT_BUSY 0).coreWdgRestart.chgCheck
  let s4 := if fromMode = Mode.park then s3.seatsStart.gaugeHand
    else if fromMode = Mode.boot then s3.setGg { s3.gg with storedAt := s3.now } else s3
  s4.logTokensFill.evidencePush

/-- The reaction of a colour (R346 to R349): Black above Red. None in RECOVERY. -/
def State.react (s : State) (src colour : Nat) : State :=
  match s.dev.mode with
  | .recovery => s
  | .black => if 2 ≤ colour ∧ s.flag F.FLT_CFG_RED_GUARD then s.guardsEnd 5 colour else s
  | _ =>
    if colour = 3 then
      if s.inMode .boot ∨ s.inMode .run ∨ s.inMode .park then s.enterBlack src
      else s
    else if colour = 2 ∧ s.flag F.FLT_CFG_RED_GUARD then s.guardsEnd 5 colour
    else s

/-- An injection into source `src` is armed (R352). -/
def State.injects (s : State) (src : Nat) : Bool := s.flag F.FLT_INJ_STAT_ARMED && decide (s.get F.FLT_INJ_STAT_SRC = src)

/-- The armed injection has been flagged (R353). -/
def State.injDone (s : State) : State := (s.set F.FLT_INJ_STAT_DONE 1).set F.FLT_INJ_STAT_ARMED 0

/-- A source is raised (R344). A Black raising before step 4 of a full reset ends the power-down phase, which BLACK does not interrupt
(R20, R21). In step 6 the collector is in reset and nothing is raised. -/
def State.raiseOne (s : State) (src detail : Nat) (inj : Bool) : State :=
  if (s.dev.stage = .powerDown ∨ s.dev.stage = .commit) ∧ s.effColour src = 3 then s.resetFinish
  else if s.coreRuns then
    let c := s.effColour src
    let i := tget s.flt.info src (0, 0)
    let s1 := { s with flt := { s.flt with info := tset s.flt.info src (0, 0) (incSat i.1 65535, detail % 65536) } }
    let s2 := if levelSource src then s1.setActive src true else s1
    if s.pended src then
      if 2 ≤ c then s2.react src c else s2
    else
      let s3 := (s2.putBitF (pendField src) (src % 32) true).set F.FLT_STAT_LAST src
      let s4 := s3.react src c
      let s5 := s4.emitC 0xB 1 c [(src, 1), (c, 1), (b2n inj + 2 * b2n (s.floorRaised src), 1), (0, 1), (detail, 2)]
      if 1 ≤ c then s5.logFault src c detail inj (s.floorRaised src) else s5
  else s

/-- A source is raised. Where that queues a commit, it uses the counter of the journal's credits, which an armed injection finds in error (R353). -/
def State.raiseI (s : State) (src detail : Nat) (inj : Bool) : State :=
  let t := s.raiseOne src detail inj
  if t.injects 8 ∧ src ≠ 8 ∧ (s.jnl.queue ++ s.jnl.waiting).length < (t.jnl.queue ++ t.jnl.waiting).length then (t.raiseOne 8 0 true).injDone else t

/-- A source is raised by its checker, with no injection. -/
def State.raise (s : State) (src detail : Nat) : State := s.raiseI src detail false

/-- A raising in its place by source. -/
def insRaise (r : Nat × Nat) : List (Nat × Nat) → List (Nat × Nat)
  | [] => [r]
  | q :: l => if r.1 < q.1 then r :: q :: l else q :: insRaise r l

/-- Sources raised with their details in one CORE clock (R345): the reaction of the highest colour among them comes first, then each is taken in
ascending index. A Black one of a power-down ends it, and nothing is left to take the others (R21). -/
def State.raiseAll (s : State) (l : List (Nat × Nat)) : State :=
  let o := l.foldl (fun b r => insRaise r b) []
  let c := o.foldl (fun m r => max m (s.effColour r.1)) 0
  let s1 := match o.find? fun r => decide (s.effColour r.1 = c) with
    | some r => if 2 ≤ c ∧ s.coreRuns ∧ s.dev.stage = .none then s.react r.1 c else s
    | none => s
  o.foldl (fun t r => if t.dev.stage = s.dev.stage then t.raise r.1 r.2 else t) s1

/-- The condition of a level source ends (R345). -/
def State.unraise (s : State) (src : Nat) : State := s.setActive src false

/-- A checker raises a source; an armed injection of that source makes the raising an injected one (R353). Where the raising ends a
power-down, the collector's registers have been reset (R21). -/
def State.checkerRaise (s : State) (src detail : Nat) : State :=
  if s.injects src then
    let t := s.raiseI src detail true
    if t.injects src then t.injDone else t
  else s.raise src detail

/-- A checker with an armed injection flags its next check, made at word `a` (R353); other checks pass. -/
def State.injCheck (s : State) (src a : Nat) : State := if s.injects src then s.checkerRaise src a else s

/-- The register bus carries a word, which its checker checks (R353). The word is delivered as it is; `f` is what it does. -/
def State.onBus (s : State) (f : State → State) : State :=
  let t := s.injCheck 4 0
  if t.dev.stage = s.dev.stage then f t else t

/-- A write to the register at `a`, where the device state lets it take effect. -/
def State.bus (s : State) (a : Nat) (f : State → State) : State := if s.writeOk a then s.onBus f else s

/-- A producer queues a commit, with the check of the journal's credit counter (R353). -/
def State.jnlTake (s : State) (c : Commit) : State := (s.jnlPush c).injCheck 8 0

end Sys2Proof.Machine
end

