-- ==== Sys2Proof/Machine/FrameOps.lean ====
section
/-! DEFINITION. What other blocks read of the frame timing unit: its state, the map in force, the look-ahead and the free run
(R101, R109 to R116). -/

namespace Sys2Proof.Machine

/-- The state code of R101. -/
def State.frmState (s : State) : Nat := s.get F.FRM_STATE_STATE

/-- LOCKED or HOLDOVER: the maps are in force (R113). -/
def State.mapsLive (s : State) : Bool := decide (s.frmState = 3 ∨ s.frmState = 4)

/-- The scheduler fires: LOCKED, HOLDOVER or FREE (R118). -/
def State.firing (s : State) : Bool := decide (3 ≤ s.frmState)

/-- The map in force, two bits for each segment; all free outside LOCKED and HOLDOVER (R111, R113). -/
def State.actMap (s : State) : Nat :=
  if s.mapsLive then (match s.frm.oneFrame with
    | some m => m
    | none => s.frm.persistent) else 0

/-- The map that the next pip 0 applies. The first pip 0 in LOCKED uses the persistent map (R113): a latched one-frame map does not apply there, and its
frame passes (DEDUCED, log entry 44). -/
def State.latchedMap (s : State) : Option (Bool × Nat) :=
  if s.frm.firstLock ∧ s.frmState = 3 then s.frm.latchMap.filter fun m => !m.1 else s.frm.latchMap

/-- The map of the next frame as it stands now (R111, R114). -/
def State.nextMap (s : State) : Nat :=
  match s.latchedMap with
  | some (_, m) => m
  | none => s.frm.persistent

/-- Type of segment `k`, counted from the start of the frame in progress: 0 free, 1 transmit, 2 receive-quiet (R109, R113). -/
def State.segAt (s : State) (k : Nat) : Nat :=
  if s.mapsLive then (if k < 32 then bits s.actMap (2 * k) 2 else bits s.nextMap (2 * (k - 32)) 2) else 0

/-- The segment of the counter. -/
def State.seg (s : State) : Nat := s.pip / 2048

/-- The counter stands in a free segment and the free run goes on for at least 2 µs (R115). -/
def State.freeRun (s : State) : Bool :=
  decide (s.segAt s.seg = 0) && decide (s.segAt ((s.frm.phase + s.advance 320 - 1) / 2 ^ 43) = 0)

/-- Pips to the first pip of the next transmit run, within the 4096 pips of R114, where the counter is not in one. -/
def State.nextTransmit (s : State) : Option Nat :=
  if s.segAt s.seg = 1 then none
  else ([1, 2, 3].find? fun j => decide (s.segAt (s.seg + j) = 1)).map fun j => 2048 * (s.seg + j) - s.pip

/-- A transfer of the kind that `f` selects may not start `k` ENG periods from now (R116). -/
def State.quietIn (s : State) (f : FRef) (k : Nat) : Bool :=
  let ph := if s.counting then s.frm.phase + s.advance k else s.frm.phase
  let g := ph / 2 ^ 43
  s.flag f && (decide (s.segAt g = 2) ||
    (decide (s.segAt (g + 1) = 2) && decide (2048 * (g + 1) - ph / 2 ^ 32 < s.get F.FRM_QUIET_CFG_GUARD)))

/-- A transfer of the kind that `f` selects may not start now (R116). -/
def State.quietHolds (s : State) (f : FRef) : Bool := s.quietIn f 0

/-- The next push frame starts, where a committed record waits, none is in progress and no receive-quiet segment holds it then: no earlier than two
periods of `EP_CLK` after the end of the last one (R116, R384). -/
def State.pushTry (s : State) : State :=
  if s.evt.pb ≠ [] ∧ s.evt.pushAt = none ∧ ¬ s.quietIn F.FRM_QUIET_CFG_EP_HOLD (s.evt.pushFree - s.now) then
    { s with evt := { s.evt with pushAt := some (max s.now s.evt.pushFree) } }
  else s

/-- A memory command starts, or waits for a receive-quiet segment to end (R116). -/
def State.nvmTry (s : State) : State := { s with upd := { s.upd with held := s.quietHolds F.FRM_QUIET_CFG_NVM_HOLD } }

/-- The access that keeps its credit for a block returns it (R462). -/
def State.nvmFree (s : State) : State := ({ s with upd := { s.upd with frame := none } } : State).frameDone s.upd.frame

/-- The memory command that waits, if there is one, starts when R116 lets it. -/
def State.nvmRetry (s : State) : State :=
  if s.upd.held then
    let t := s.nvmTry
    if t.upd.held then t else t.nvmFree
  else s

end Sys2Proof.Machine
end

