-- ==== Sys2Proof/Machine/Events.lean ====
section
/-! DEFINITION. The event unit, the push port and the interrupt line: the commands of the event block (R379 to R393). -/

namespace Sys2Proof.Machine

/-- The mask removes records of this block and code (R389): bit 13 masks only EVT_LEVEL; EVT_OVERFLOW is never masked. -/
def State.masked (s : State) (block code : Nat) : Bool :=
  s.bitF F.EVT_MASK_MASK block && (decide (block ≠ 0xD) || decide (code = 2))

/-- A record is lost: counts, the sticky cause and the figures of the next EVT_OVERFLOW (R382, R392). -/
def State.loseRecord (s : State) (colour : Nat) : State :=
  let s1 := s.set F.EVT_IRQ_STAT_LOST 1
  if colour = 0 then { s1.incSatF F.EVT_LOST_GREEN with evt := { s1.evt with lostG := incSat s.evt.lostG 65535 } }
  else if colour = 1 then { s1.incSatF F.EVT_LOST_AMBER with evt := { s1.evt with lostA := incSat s.evt.lostA 65535 } }
  else { s1.incSatF F.EVT_LOST_RB with evt := { s1.evt with lostR := incSat s.evt.lostR 65535 } }

/-- A record that is made is buffered, or lost (R382); a Green or Amber one is lost in the CORE clock of an EVT_OVERFLOW, which is made before any
later one (R383). -/
def State.takeIn (s0 : State) (colour : Nat) (r : Rec) : State :=
  let s := s0.fillOverflow
  if colour < 2 ∧ s.evt.ovfAt = some s.coreClk then s.loseRecord colour
  else if s.evt.buf.length < 28 ∨ (2 ≤ colour ∧ s.evt.buf.length < 32) then { s with evt := { s.evt with buf := s.evt.buf ++ [r] } }
  else s.loseRecord colour

/-- EVENT_REQUEST: the oldest request reaches the unit, which makes, stamps and buffers the record, or loses it (R381, R382, R389). A request that was
held in BOOT reaches it when the unit starts, at the end of OTP shadowing, which waits for a programming in progress (R381, R427). -/
def execEventRequest (s0 : State) : Out State :=
  match s0.evt.reqs with
  | [] => .next s0
  | q :: l =>
    let s := s0.due (2 * q.clk)
    let s1 := { s with evt := { s.evt with reqs := l } }
    if s0.coreRuns ∧ ¬ (s0.inMode .boot ∧ s0.otp.prog.isSome) then
      if s.masked q.block q.code then .next (s1.incSatF F.EVT_MASKED_CNT)
      else .next (s1.takeIn q.colour (s1.record 1 q.colour q.block q.code q.payload))
    else .next s0

/-- Free ring slots (R386). -/
def State.ringFree (s : State) : Int :=
  (2 : Int) ^ s.get F.EVT_RING_CFG_LOG2N - wrap16 ((s.get F.EVT_PROD_PROD : Int) - s.get F.EVT_CONS_CONS)

/-- RECORD_COMMIT: the oldest buffered record takes a credit and a slot (R385, R388). -/
def execRecordCommit (s : State) : Out State :=
  match s.evt.buf with
  | [] => .next s
  | r :: l =>
    if s.inMode .run ∧ s.evt.armed ∧ ¬ s.evt.pushHeld ∧ 0 < s.ringFree then
      if s.evt.pb.length < 4 then
        let s1 := { s with evt := { s.evt with buf := l, head := (s.evt.head + 1) % 32, pb := s.evt.pb ++ [r] } }
        .next ((s1.cross 9 0).incWrapF F.EVT_PROD_PROD).fillOverflow.pushTry
      else .next (s.set F.SYS_CREDIT_WAIT_EVP 1)
    else .next s

/-- The ring is armed and its counts are zero (R387). -/
def State.arm (s : State) : State :=
  (((({ s with evt := { s.evt with armed := true, armWaiting := false, delivered := [] } } : State).set F.EVT_PROD_PROD 0).set F.EVT_PROD_DONE 0).set F.EVT_CONS_CONS 0)

/-- ENG periods of one period of `EP_CLK`, in fifths: the PLL's 800 MHz over 32 to 256 (R384). -/
def State.epPeriod5 (s : State) : Nat := 32 * 2 ^ s.get F.EVT_EP_CFG_DIV

/-- The push frame in progress, begun at `t`, ends: 162 periods of `EP_CLK` after its start. The record is delivered, the credit returns, and the
next frame starts (R384, R385). -/
def State.pushEnd (s : State) (t : Nat) : State :=
  match s.evt.pb with
  | [] => s
  | r :: l =>
    let s0 := s.due (t + 162 * s.epPeriod5 / 5)
    let f := beBytes 2 (s.get F.EVT_PROD_DONE) ++ r.bytes
    let s1 := { s0 with evt := { s.evt with pb := l, lastPush := f ++ beBytes 2 (crc16 f), pushAt := none, pushFree := t + 164 * s.epPeriod5 / 5, delivered := s.evt.delivered ++ [s0.now] } }
    let s2 := s1.incWrapF F.EVT_PROD_DONE
    if l = [] ∧ s.evt.armWaiting then s2.arm else s2.pushTry

/-- PUSH_DONE: a push frame ends (R384, R385). A frame that R116 held until now starts first. -/
def execPushDone (s : State) : Out State :=
  .next (if s.inMode .run then
    match s.pushTry.evt.pushAt with
    | some t => s.pushTry.pushEnd t
    | none => s
  else s)

/-- A write of `c` to `EVT_CONS` (R386). -/
def State.consWrite (s : State) (c : Nat) : State :=
  let cons := s.get F.EVT_CONS_CONS
  let d := wrap16 ((c : Int) - cons)
  if d ≤ wrap16 ((s.get F.EVT_PROD_DONE : Int) - cons) then
    let s1 := s.set F.EVT_CONS_CONS c
    { s1 with evt := { s1.evt with delivered := s1.evt.delivered.drop d } }
  else (s.set F.EVT_IRQ_STAT_CONS_BAD 1).setDisc

/-- EVT_CONS_WRITE: returns ring slots, or is discarded (R386). -/
def execEvtConsWrite (v : Word) (s : State) : Out State :=
  .next (s.bus 0x3414 fun t => t.consWrite (v.toNat % 65536))

/-- The arm key (R387): discarded while armed; it waits while a drain goes on. -/
def State.armKey (s : State) : State :=
  if s.evt.armed then s.setDisc
  else if s.evt.pb = [] then s.arm
  else { s with evt := { s.evt with armWaiting := true } }

def execEvtArm (s : State) : Out State := .next (s.bus 0x3408 fun t => t.armKey)

/-- EVT_DISARM: the disarm key; no effect while disarmed (R387). -/
def execEvtDisarm (s : State) : Out State := .next (s.bus 0x3408 fun t => t.disarm)

/-- Block and code of a record. -/
def Rec.block (r : Rec) : Nat := leField r.bytes 1 1
def Rec.code (r : Rec) : Nat := leField r.bytes 2 2

/-- A mask write removes buffered records of the masked blocks (R389). -/
def State.maskWrite (s : State) (m : Nat) : State :=
  let s1 := s.set F.EVT_MASK_MASK m
  let keep := s1.evt.buf.filter fun r => !s1.masked r.block r.code
  let gone := s1.evt.buf.length - keep.length
  ((({ s1 with evt := { s1.evt with buf := keep } } : State).addSatF F.EVT_MASKED_CNT gone)).fillOverflow

def execEvtMaskWrite (v : Word) (s : State) : Out State :=
  .next (s.bus 0x3418 fun t => t.maskWrite (v.toNat % 2 ^ 19))

/-- A level source is active (R390). -/
def State.levelActive (s : State) (k : Nat) : Bool :=
  match k with
  | 0 => s.pendingAt 1
  | 1 => s.pendingAt 2
  | 2 => decide (s.get F.ADC_WIN_STATE_ALARM ≠ 0)
  | 3 => s.flag F.THM_STAT_WARN
  | 4 => s.flag F.PP_PACK_STAT_BAT_ABSENT
  | 5 => s.flag F.PP_FE_STAT_SRC
  | 6 => s.flag F.GG_STAT_DISAGREE
  | 7 => decide (s.get F.EVT_LOST_RB ≠ 0 ∨ s.get F.EVT_LOST_AMBER ≠ 0 ∨ s.get F.EVT_LOST_GREEN ≠ 0)
  | _ => false

/-- `EVT_LVL.ACTIVE`. -/
def State.levelBits (s : State) : Nat := (List.range 8).foldl (fun m k => if s.levelActive k then setBit m k else m) 0

/-- The record colour of a level source (R390). -/
def levelColour (k : Nat) : Nat := if k = 0 then 1 else if k = 1 then 2 else 0

/-- The EVT_LEVEL record of a source (R393). -/
def State.emitLevel (s : State) (k ack : Nat) : State := s.emitC 0xD 2 (levelColour k) [(k, 1), (s.levelBits, 1), (ack, 1)]

/-- A write to `EVT_ACK` samples the reported sources again (R390). -/
def State.ackWrite (s : State) (m : Nat) : State :=
  forEach (List.range 8) (fun k t =>
    if bitOf m k ∧ t.bitF F.EVT_LVL_REPORTED k then
      if t.levelActive k then t.emitLevel k 1 else t.putBitF F.EVT_LVL_REPORTED k false
    else t) s

def execEvtAck (v : Word) (s : State) : Out State := .next (s.bus 0x3424 fun t => t.ackWrite (v.toNat % 256))

/-- EVT_LEVEL: an idle enabled source is active (R390). -/
def execEvtLevel (k : Fin 8) (s : State) : Out State :=
  .next (if s.coreRuns && s.bitF F.EVT_LVL_EN_EN k && !s.bitF F.EVT_LVL_REPORTED k && s.levelActive k
    then (s.emitLevel k 0).putBitF F.EVT_LVL_REPORTED k true else s)

/-- The clear keys of `EVT_CLR` (R393). -/
def State.clearLost (s : State) : State := ((s.set F.EVT_LOST_RB 0).set F.EVT_LOST_AMBER 0).set F.EVT_LOST_GREEN 0
def State.clearMasked (s : State) : State := s.set F.EVT_MASKED_CNT 0
def State.clearHlCnt (s : State) : State :=
  (((s.set F.EVT_HL_CNT_LATE 0).set F.EVT_HL_CNT_ABORT 0).set F.EVT_HL_CNT_BUSY 0).set F.EVT_HL_CNT_CRC 0

def execClearLost (s : State) : Out State := .next (s.bus 0x3430 fun t => t.clearLost)
def execClearMasked (s : State) : Out State := .next (s.bus 0x3430 fun t => t.clearMasked)
def execClearHlCnt (s : State) : Out State := .next (s.bus 0x3430 fun t => t.clearHlCnt)

/-- When the RING timer runs out on the oldest delivered record that is not consumed (R392). -/
def State.ringDue (s : State) : Option Nat :=
  if s.get F.EVT_IRQ_CFG_HOLDOFF = 0 then none else s.evt.delivered.head?.map fun t => t + s.get F.EVT_IRQ_CFG_HOLDOFF * 100 * engPerUs

/-- RING_HOLDOFF: the oldest delivered record has stayed unconsumed for `HOLDOFF` × 100 µs, so the RING cause holds (R392). -/
def execRingHoldoff (s : State) : Out State :=
  .next (match s.ringDue with
    | some t => s.due t
    | none => s)

/-- The causes of `EVT_IRQ_STAT` (R392), bit by bit. -/
def State.irqCauses (s : State) : Nat :=
  let ring := decide (s.get F.EVT_IRQ_CFG_THRESH ≤ wrap16 ((s.get F.EVT_PROD_DONE : Int) - s.get F.EVT_CONS_CONS)) ||
    (match s.ringDue with
      | some t => decide (t ≤ s.now)
      | none => false)
  let fault := s.anyPending && decide (s.get F.EVT_IRQ_CFG_FCOL ≤ s.maxColour)
  let buf := decide (s.evt.buf ≠ []) && !s.evt.armed
  b2n ring + 2 * s.get F.EVT_IRQ_STAT_LOST + 4 * b2n fault + 8 * b2n buf + 16 * s.get F.EVT_IRQ_STAT_CONS_BAD

/-- `IRQ_N` is pulled low (R41, R391, R392). -/
def State.irqLow (s : State) : Bool :=
  match s.dev.mode with
  | .black => true
  | .run => decide (s.irqCauses &&& s.get F.EVT_IRQ_CFG_EN ≠ 0)
  | .park => match s.ret with
    | some r => r.irqLow
    | none => false
  | _ => false

/-- Enabling bits of `EVT_LVL_EN`: a cleared bit makes its source idle (R390). -/
def State.lvlEnWrite (s : State) (m : Nat) : State :=
  (s.set F.EVT_LVL_EN_EN m).set F.EVT_LVL_REPORTED (s.get F.EVT_LVL_REPORTED &&& m)

/-- A write to `EVT_RING_CFG` (R387). -/
def State.ringCfgWrite (s : State) (v : Nat) : State :=
  if s.evt.armed ∨ s.evt.pb ≠ [] then s.setDisc
  else if 4 ≤ v % 16 ∧ v % 16 ≤ 12 then s.set F.EVT_RING_CFG_LOG2N v else s.setDisc

/-- The retention check of a PARK wake has failed: the event unit starts empty and disarmed (R93, R391). -/
def State.evtBlank (s : State) : State :=
  let keys := [F.EVT_PROD_PROD.key, F.EVT_PROD_DONE.key, F.EVT_CONS_CONS.key, F.EVT_RING_CFG_LOG2N.key, F.EVT_MASK_MASK.key,
    F.EVT_LVL_EN_EN.key, F.EVT_LVL_REPORTED.key, F.EVT_LOST_RB.key, F.EVT_LOST_AMBER.key, F.EVT_LOST_GREEN.key, F.EVT_MASKED_CNT.key,
    F.EVT_IRQ_CFG_FCOL.key, F.EVT_IRQ_CFG_EN.key, F.EVT_IRQ_CFG_HOLDOFF.key, F.EVT_IRQ_CFG_THRESH.key, F.EVT_IRQ_STAT_CONS_BAD.key,
    F.EVT_IRQ_STAT_LOST.key]
  { s with evt := { Evt.init with reqs := s.evt.reqs }, regs := s.regs.filter fun e => !keys.contains e.1 }

end Sys2Proof.Machine
end

