-- ==== Sys2Proof/Machine/Answers.lean ====
section
/-! DEFINITION. The answers of the host link (R374, R375, R377): status codes, the status word and the response. -/

namespace Sys2Proof.Machine

/-- Free host-link credits (R10, R35). -/
def State.freeHl (s : State) : Nat := 12 - s.hl.frames.length

def Status.code : Status → Nat
  | .ok => 0 | .booting => 1 | .busy => 2 | .owned => 3 | .crcError => 4 | .badFrame => 5 | .parked => 6 | .refused => 7 | .late => 8

/-- The status word (R374). Answers BOOTING and PARKED carry the state in which their frame began, and zero in the low half (R375, R376). -/
def State.statusWord (s : State) (c : Status) : Nat :=
  let low := s.freeHl * 2 ^ 12 + b2n s.irqLow * 2 ^ 11 + b2n s.hl.disc * 2 ^ 10 + b2n (s.levelActive 7) * 2 ^ 9 + b2n s.anyPending * 2 ^ 8 +
    s.hl.fseq % 256
  let code := match c with
    | .booting => Mode.boot.code
    | .parked => Mode.park.code
    | _ => s.dev.mode.code
  0x5A000000 + code * 2 ^ 20 + c.code * 2 ^ 16 + (if c = .booting ∨ c = .parked then 0 else low)

/-- The device sends an answer: status word, data words and CRC (R369, R377, R378). The status word sent ends `DISC`. -/
def State.answer (s : State) (c : Status) (data : List Nat) : State :=
  let w := s.statusWord c
  let b := beBytes 4 w ++ data.flatMap (beBytes 4)
  ({ s with hl := { s.hl with response := b ++ beBytes 2 (crc16 b), disc := false } } : State).set F.EVT_HL_LAST_STATUS w

/-- Access `i` changes by `f`. -/
def State.onFrame (s : State) (i : Nat) (f : Frame → Frame) : State :=
  { s with hl := { s.hl with frames := s.hl.frames.map fun x => if x.id = i then f x else x } }

/-- A conversion request of access `f` waits for an ADC credit: the access is not answered before it enters the queue (R316). -/
def State.frameWait (s : State) (f : Option Nat) : State :=
  match f with
  | none => s
  | some i => s.onFrame i fun x => { x with enters := x.enters + 1 }

/-- Access `i` is answered with `c`, or its answer waits for its conversion requests (R316). -/
def State.frameAnswer (s : State) (i : Nat) (c : Status) : State :=
  if s.hl.frames.any fun x => decide (x.id = i ∧ x.enters ≠ 0) then s.onFrame i fun x => { x with owed := some c }
  else s.answer c []

/-- A conversion request of access `f` enters the queue; with its last one the answer that waits is sent (R316). -/
def State.frameEnter (s : State) (f : Option Nat) : State :=
  match f with
  | none => s
  | some i =>
    let t := s.onFrame i fun x => { x with enters := x.enters - 1 }
    match t.hl.frames.find? fun x => decide (x.id = i ∧ x.enters = 0) with
    | some x => match x.owed with
      | some c => (t.onFrame i fun y => { y with owed := none }).answer c []
      | none => t
    | none => t

end Sys2Proof.Machine
end

