-- ==== Sys2Proof/Machine/Adc.lean ====
section
/-! DEFINITION. The housekeeping converters: requests and their ranks (R311 to R316), the scan (R317 to R319), Doubles (R320), results
(R321), windows (R322 to R324) and diagnostics (R325). -/

namespace Sys2Proof.Machine

def State.setAdc (s : State) (a : Adc) : State := { s with adc := a }

/-- The converters run (R309). -/
def State.adcOn (s : State) : Bool := s.inMode .run

/-- Owner code of the converters (R83). -/
def adcOwner : Nat := 9

/-- A request that names channel `ch` is refused: an `AINn` that ADC has not claimed (R311). -/
def State.ainRefused (s : State) (ch : Nat) : Bool := decide (46 ≤ ch ∧ ch ≤ 49) && !s.ownedBy 3 (ch - 46) adcOwner

/-- A Doubles pair is active (R320). -/
def State.dblAct (s : State) : Bool := s.flag F.ADC_STAT_DBL_ACT

/-- Converter `cv` is a member of the active Doubles pair. -/
def State.dblMember (s : State) (cv : Nat) : Bool := s.dblAct && decide (cv / 2 = s.get F.ADC_DBL_CFG_PAIR)

/-- The scan pool (R317). -/
def State.pool (s : State) : List Nat := (List.range 4).filter fun c => !s.dblMember c

/-- ADC credits in use: requests in the queue, conversions they started, and a capture (R316). -/
def State.adcUsed (s : State) : Nat :=
  s.adc.queue.length + ((List.range 4).filter fun c => match tget s.adc.cvs c none with
    | some v => decide (1 ≤ v.kind ∧ v.kind ≤ 3)
    | none => false).length + (if s.adc.capture.isSome then 1 else 0)

/-- Every scan-pool converter has an urgent request waiting (R314). -/
def State.poolUrgent (s : State) : Bool := s.pool.all fun c => s.adc.queue.any fun q => decide (q.kind = 3 ∧ q.cv = c)

/-- The request at `q` asks for a Doubles sample or a capture, which takes no converter (R315, R320). -/
def State.onDoubles (s : State) (q : AdcReq) : Bool := s.dblAct && decide (q.ch = s.adc.dblCh) && decide (q.kind ≠ 3)

/-- Pip-placed requests that wait behind urgent ones on every converter are late (R314); a capture takes no converter. -/
def State.markLate (s : State) : State :=
  if s.poolUrgent then
    s.setAdc { s.adc with queue := s.adc.queue.map fun q => if q.kind = 2 ∧ ¬ s.onDoubles q then { q with late := true } else q }
  else s

/-- A request takes an ADC credit, or waits for one (R10 to R12, R316). A frame is answered when its request enters the queue; its own credit stays
taken until the conversion has ended (R11). An armed injection finds the credit counter in error (R353). -/
def State.adcPush (s : State) (q : AdcReq) : State :=
  (if s.adcUsed < 12 ∧ s.adc.wait = [] then (s.setAdc { s.adc with queue := s.adc.queue ++ [q] }).markLate
  else
    ((s.setAdc { s.adc with wait := s.adc.wait ++ [{ q with late := decide (q.kind = 2) }] }).frameWait q.frame).set F.SYS_CREDIT_WAIT_ADC 1).injCheck 8 0

/-- Waiting requests take the credits that are free, in their order. -/
def State.adcPump (s : State) : State :=
  let m := s.adc.wait.take (12 - s.adcUsed)
  let s1 := (s.setAdc { s.adc with queue := s.adc.queue ++ m, wait := s.adc.wait.drop (12 - s.adcUsed) }).markLate
  m.foldl (fun t q => t.frameEnter q.frame) s1

/-- A pip-placed request: a scheduler fire at `pip` names channel `ch` (R311, R314, R320). -/
def State.adcPip (s : State) (ch pip : Nat) : State :=
  let capturing := s.adc.capture.isSome || (s.adc.queue ++ s.adc.wait).any fun q => decide (q.kind = 2 ∧ q.ch = ch)
  if s.ainRefused ch ∨ (s.dblAct ∧ ch = s.adc.dblCh ∧ capturing) then s.set F.ADC_STAT_REJ 1
  else s.adcPush ⟨2, ch, 0, pip, false, none⟩

/-- A single request (R315); `none` where R311 refuses it. -/
def State.adcSingle (s : State) (ch : Nat) (frame : Option Nat) : Option State :=
  if s.ainRefused ch then none else some (s.adcPush ⟨1, ch, 0, 0, false, frame⟩)

/-- An urgent request on converter `cv` (R313); `none` where it is refused. -/
def State.adcUrgent (s : State) (cv ch : Nat) (frame : Option Nat) : Option State :=
  if s.ainRefused ch ∨ s.dblMember cv then none else some (s.adcPush ⟨3, ch, cv, 0, false, frame⟩)

/-- ADC_REQ and ADC_URG: writes of a channel (R313, R315). A channel above 103 is a reserved value, and a refused one has no effect. -/
def execAdcReq (v : Word) (s : State) : Out State :=
  .next (s.bus 0x2420 fun t => if v.toNat % 128 ≤ 103 then (t.adcSingle (v.toNat % 128) none).getD t else t)
def execAdcUrg (n : Fin 4) (v : Word) (s : State) : Out State :=
  .next (s.bus (0x2430 + 4 * n) fun t => if v.toNat % 128 ≤ 103 then (t.adcUrgent n.val (v.toNat % 128) none).getD t else t)

/-- The first element of a list that satisfies `p`, and the rest. -/
def takeFirst {α : Type} (p : α → Bool) : List α → Option (α × List α)
  | [] => none
  | a :: l => if p a then some (a, l) else (takeFirst p l).map fun r => (r.1, a :: r.2)

/-- Scan and single conversions are held by a receive-quiet segment (R319). -/
def State.adcHeld (s : State) : Bool := s.quietHolds F.FRM_QUIET_CFG_ADC_HOLD

/-- Converter `cv` starts a conversion. -/
def State.convBegin (s : State) (cv kind ch : Nat) (frame : Option Nat) : State :=
  s.setAdc { s.adc with cvs := tset s.adc.cvs cv none (some ⟨kind, ch, s.now, frame⟩) }

/-- CONVERSION_START: a free converter starts the highest-ranked conversion that waits for it (R312, R314, R319). -/
def execConversionStart (cv : Fin 4) (s : State) : Out State :=
  let a := s.adc
  .next (if s.adcOn ∧ tget a.cvs cv none = none then
    match takeFirst (fun q => decide (q.kind = 3 ∧ q.cv = cv.val)) a.queue with
    | some (q, r) => (s.setAdc { a with queue := r }).convBegin cv 3 q.ch q.frame
    | none =>
      if s.dblMember cv then s
      else match takeFirst (fun q => decide (q.kind = 2) && !s.onDoubles q) a.queue with
      | some (q, r) =>
        let s1 := (s.setAdc { a with queue := r }).convBegin cv 2 q.ch q.frame
        if q.late then s1.set F.ADC_STAT_PIP_LATE 1 else s1
      | none =>
        let single := takeFirst (fun (q : AdcReq) => decide (q.kind = 1) && !s.onDoubles q) a.queue
        let scan := takeFirst (fun (x : Nat × Nat) => decide (x.2 = cv.val)) a.scan
        if s.adcHeld then (if a.scan ≠ [] then s.set F.ADC_STAT_HELD 1 else s)
        else match single, scan with
        | some (q, r), _ => (s.setAdc { a with queue := r }).convBegin cv 1 q.ch q.frame
        | none, some (x, r) => (s.setAdc { a with scan := r }).convBegin cv 0 x.1 none
        | none, none => s
  else s)

/-- Alarm and clear conditions of window `n` on code `c` (R322). -/
def State.winAlarm (s : State) (n c : Nat) : Bool :=
  let lo := s.get (F.ADC_WIN_THR_LO n)
  let hi := s.get (F.ADC_WIN_THR_HI n)
  match s.get (F.ADC_WIN_CFG_MODE n) with
  | 0 => decide (hi < c)
  | 1 => decide (c < lo)
  | 2 => decide (c < lo) || decide (hi < c)
  | _ => decide (lo ≤ c) && decide (c ≤ hi)
def State.winClear (s : State) (n c : Nat) : Bool :=
  let lo := s.get (F.ADC_WIN_THR_LO n)
  let hi := s.get (F.ADC_WIN_THR_HI n)
  let h := s.get (F.ADC_WIN_CFG_HYST n)
  match s.get (F.ADC_WIN_CFG_MODE n) with
  | 0 => decide (c ≤ hi - h)
  | 1 => decide (min (lo + h) 4095 ≤ c)
  | 2 => decide (min (lo + h) 4095 ≤ c) && decide (c ≤ hi - h)
  | _ => decide (c < lo - h) || decide (min (hi + h) 4095 < c)

/-- Owner code of window `n` (R324). -/
def State.winOwner (s : State) (n : Nat) : Nat :=
  match s.claim 5 n with
  | some (o, _) => o
  | none => 0

/-- Owner code of fault collection (R83). -/
def fltOwner : Nat := 0x0B

/-- A window that fault collection owns is in alarm (R339, R345). -/
def State.fltAlarm (s : State) : Bool :=
  (List.range 32).any fun n => s.bitF F.ADC_WIN_STATE_ALARM n && decide (s.winOwner n = fltOwner)

/-- Window `n` enters alarm, or returns to clear, on code `c` of channel `ch` (R323, R324). -/
def State.winEnter (s : State) (n ch c : Nat) : State :=
  let flt := decide (s.winOwner n = fltOwner)
  let s1 := (s.putBitF F.ADC_WIN_STATE_ALARM n true).putBitF F.ADC_WIN_FLAG_ENTERED n true
  s1.emitX 6 n 9 1 (if flt then s1.effColour 15 else 0) [(n, 1), (1, 1), (ch, 1), (s.winOwner n, 1), (c, 2)]
def State.winReturn (s : State) (n ch c : Nat) : State :=
  let s1 := s.putBitF F.ADC_WIN_STATE_ALARM n false
  let s2 := s1.emitX 6 n 9 1 0 [(n, 1), (0, 1), (ch, 1), (s.winOwner n, 1), (c, 2)]
  if s2.fltAlarm then s2 else s2.unraise 15

/-- Window `n` evaluates code `c` (R322, R323). -/
def State.winEval (s : State) (n ch c : Nat) : State :=
  let k := tget s.adc.win n (0, 0)
  let alarm := s.bitF F.ADC_WIN_STATE_ALARM n
  let a := if s.winAlarm n c ∧ ¬ alarm then k.1 + 1 else 0
  let b := if s.winClear n c ∧ alarm then k.2 + 1 else 0
  let f := s.get (F.ADC_WIN_CFG_FILT n)
  let go := decide (f ≤ a ∧ 0 < a) || decide (f ≤ b ∧ 0 < b)
  let s1 := s.setAdc { s.adc with win := tset s.adc.win n (0, 0) (if go then (0, 0) else (a, b)) }
  if f ≤ a ∧ 0 < a then s1.winEnter n ch c else if f ≤ b ∧ 0 < b then s1.winReturn n ch c else s1

/-- A diagnostic check on channel `ch`, by converter `cv`: it fails at the second consecutive failure (R325). -/
def State.diagCheck (s : State) (k ch cv c : Nat) (ok : Bool) : State :=
  let key := 128 * k + ch
  let run := if ok then 0 else min (tget s.adc.diag key 0 + 1) 2
  let s1 := s.setAdc { s.adc with diag := tset s.adc.diag key 0 run }
  if run = 2 ∧ ¬ s.bitF F.ADC_DIAG_FAIL k then
    let s2 := ((s1.putBitF F.ADC_DIAG_FAIL k true).set F.ADC_DIAG_CV cv).set F.ADC_DIAG_CH ch
    s2.emitC 9 2 (s2.effColour 14) [(k, 1), (cv, 1), (ch, 1), (0, 1), (c, 2)]
  else s1

/-- The checks of R325 on one result; members of an active Doubles pair are not checked. -/
def State.diagEval (s : State) (kind ch cv c : Nat) : State :=
  if s.dblMember cv ∨ kind = 4 then s
  else if ch = 92 then
    (s.setAdc { s.adc with refA := if kind = 0 then some c else s.adc.refA }).diagCheck 0 ch cv c (decide (1984 ≤ c ∧ c ≤ 2016))
  else if ch = 93 then
    let s1 := s.diagCheck 1 ch cv c (decide (1984 ≤ c ∧ c ≤ 2016))
    match kind, s1.adc.refA with
    | 0, some a => (s1.setAdc { s1.adc with refA := none }).diagCheck 2 ch cv c (decide (((a : Int) - c).natAbs ≤ 12))
    | _, _ => s1
  else if ch = 94 then s.diagCheck 3 ch cv c (decide (c ≤ 8))
  else if ch = 95 then s.diagCheck 4 ch cv c (decide (1016 ≤ c ∧ c ≤ 1032))
  else if ch = 96 then s.diagCheck 5 ch cv c (decide (3064 ≤ c ∧ c ≤ 3080))
  else if ch = 64 then s.diagCheck 6 ch cv c (decide (1938 ≤ c ∧ c ≤ 2187))
  else if ch = 65 then s.diagCheck 7 ch cv c (decide (475 ≤ c ∧ c ≤ 525))
  else if 68 ≤ ch ∧ ch ≤ 77 then s.diagCheck 8 ch cv c (decide (1160 ≤ c ∧ c ≤ 3000))
  else s

/-- What a result raises: ADC_DIAG for each check that it fails, ADC_WINDOW for each window of fault collection that enters alarm (R324, R325). -/
def adcRaises (s t : State) : List (Nat × Nat) :=
  (((List.range 9).filter fun k => t.bitF F.ADC_DIAG_FAIL k && !s.bitF F.ADC_DIAG_FAIL k).map fun _ => (14, 0)) ++
  (((List.range 32).filter fun n => t.bitF F.ADC_WIN_STATE_ALARM n && !s.bitF F.ADC_WIN_STATE_ALARM n && decide (t.winOwner n = fltOwner)).map fun n => (15, n))

/-- A result is written and evaluated; what it raises is raised together (R321 to R325, R345). -/
def State.adcResult (s : State) (kind ch cv c : Nat) : State :=
  let s1 := (((s.set (F.ADC_RES_CODE ch) c).set (F.ADC_RES_CV ch) cv).set (F.ADC_RES_KIND ch) kind).set (F.ADC_RES_VALID ch) 1
  let ntc := if ch ≠ 66 then s.adc.ntcAt else if 8 * c ≤ 29000 then none else match s.adc.ntcAt with
    | some t => some t
    | none => some s.now
  let s2 := (s1.incWrapF (F.ADC_RES_CNT ch)).setAdc { s.adc with times := tset s.adc.times ch 0 (s.now + 1), ntcAt := ntc }
  let s3 := forEach ((List.range 32).filter fun n => s.flag (F.ADC_WIN_CFG_EN n) && decide (s.get (F.ADC_WIN_CFG_CH n) = ch))
    (fun n t => t.winEval n ch c) s2
  let s4 := s3.diagEval kind ch cv c
  s4.raiseAll (adcRaises s s4)

/-- A Doubles sample: result, capture, and the single requests for its channel (R315, R320, R321). The pair's members take turns, 125 ns apart. -/
def State.dblSample (s0 : State) (cv c : Nat) : State :=
  let s := s0.due s0.adc.dblAt
  let ch := s.adc.dblCh
  let s1 := ((s.setAdc { s.adc with dblOdd := !s.adc.dblOdd, dblAt := s.adc.dblAt + 20, dblHeld := false }).adcResult 4 ch cv c).set F.ADC_DBL_STAT_LAST c
  let s2 := match s1.adc.capture with
    | some (p, l) =>
      let j := l.length
      if j < 64 then
        (s1.setAdc { s1.adc with capture := some (p, c :: l) }).set (if j % 2 = 0 then F.ADC_DBL_BUF_EVEN (j / 2) else F.ADC_DBL_BUF_ODD (j / 2)) c
      else s1
    | none => s1
  let mine := fun (q : AdcReq) => decide (q.kind = 1 ∧ q.ch = ch)
  let s3 := s2.setAdc { s2.adc with queue := s2.adc.queue.filter fun q => !mine q }
  ((s2.adc.queue.filter mine).foldl (fun t q => t.frameDone q.frame) s3).adcPump

/-- Converter `cv` is the member of the active pair that gives the next Doubles sample (R320); none while PARK entry waits for it. -/
def State.dblTurn (s : State) (cv : Nat) : Bool :=
  s.dblMember cv && decide (cv % 2 = b2n s.adc.dblOdd) && !(s.adc.dblHeld && decide (s.get F.SEQ_STAT_PHASE = 6))

/-- The conversion in progress `v` on converter `cv` ends with code `code`; its credits return (R309, R316, R321). -/
def State.convEnd (s : State) (cv code : Nat) (v : Conv) : State :=
  let s1 := s.due (v.start + 40)
  let s2 := (s1.setAdc { s1.adc with cvs := tset s1.adc.cvs cv none none }).adcResult v.kind v.ch cv code
  ((if v.kind = 4 then s2.set F.ADC_DBL_STAT_LAST code else s2).frameDone v.frame).adcPump

/-- The pair's alternation stops: its conversions in progress, of which one ends at `dblAt` and the other 125 ns later, go on to their ends as
conversions of their own (R309, R320). What follows them starts as they end. -/
def State.dblCut (s : State) : State :=
  let a := s.adc
  let m := fun (odd : Bool) => 2 * s.get F.ADC_DBL_CFG_PAIR + b2n odd
  let l := [(m a.dblOdd, a.dblAt), (m !a.dblOdd, a.dblAt + 20)].filter fun e => decide (e.2 ≤ s.now + 40) && (tget a.cvs e.1 none).isNone
  s.setAdc { a with
    cvs := l.foldl (fun c e => tset c e.1 none (some ⟨4, a.dblCh, e.2 - 40, none⟩)) a.cvs,
    dblAt := a.dblAt + 20 * l.length, dblOdd := xor a.dblOdd (decide (l.length = 1)) }

/-- The channels of R318, always enabled; and the board thermistor's while it is used (R329). -/
def State.alwaysScanned (s : State) (ch : Nat) : Bool :=
  decide (64 ≤ ch ∧ ch ≤ 66) || decide (68 ≤ ch ∧ ch ≤ 77) || decide (92 ≤ ch ∧ ch ≤ 96) ||
  (s.flag F.THM_CFG_BRD_EN && decide (ch = 46 + s.get F.THM_CFG_BRD_AIN))

/-- The channels of a round (R317, R318). -/
def State.scanList (s : State) : List Nat :=
  (List.range 104).filter fun ch =>
    (s.alwaysScanned ch || bitOf (s.get (fr (0x2410 + 4 * (ch / 32)) 0 (if ch < 96 then 32 else 8) (if ch < 64 then 0 else if ch < 96 then 4026548215 else 1))) (ch % 32)) &&
    !(s.dblAct && decide (ch = s.adc.dblCh))

/-- Converter of the `i`-th channel of a round; channels 92 to 96 go to the converter that the round count selects (R317, R325). -/
def scanCv (pool : List Nat) (round i ch : Nat) : Nat :=
  let n := pool.length
  if 92 ≤ ch ∧ ch ≤ 96 then pool.getD (round % n) 0 else pool.getD (i % n) 0

/-- When the conversion in progress on converter `cv` ends; 0 where there is none. -/
def State.convOver (s : State) (cv : Nat) : Nat :=
  match tget s.adc.cvs cv none with
  | some v => v.start + 40
  | none => 0

/-- The alternation of the Doubles pair begins once the conversions in progress on its members let it: the first sample comes one conversion time
after that (R309, R312, R320). -/
def State.dblStart (s : State) : State :=
  let p := 2 * s.get F.ADC_DBL_CFG_PAIR
  s.setAdc { s.adc with dblOdd := false, dblAt := max s.now (max (s.convOver p) (s.convOver (p + 1) - 20)) + 40 }

/-- Doubles takes its written settings at a round start, once no capture is in progress (R320). -/
def State.dblTake (s : State) : State :=
  if s.adc.capture.isSome then s
  else
    let on := s.flag F.ADC_DBL_CFG_EN && s.flag F.ADC_DBL_CFG_CLAIMED
    let s0 := if s.dblAct && (!on || decide (s.get F.ADC_DBL_CFG_CH ≠ s.adc.dblCh)) then s.dblCut else s
    let t := (s0.put F.ADC_STAT_DBL_ACT on).setAdc { s0.adc with dblCh := s.get F.ADC_DBL_CFG_CH }
    if on && !s.dblAct then t.dblStart else t

/-- The round in progress has channels left or a conversion running. -/
def State.scanBusy (s : State) : Bool :=
  decide (s.adc.scan ≠ []) || (List.range 4).any fun c => match tget s.adc.cvs c none with
    | some v => decide (v.kind = 0)
    | none => false

/-- A write to `ADC_CFG` (R317): a scan that it starts again, after a round start at which `SCAN` was 0, owes nothing to the round before. -/
def State.adcCfgWrite (s : State) (store : State) : State :=
  let missed := match s.adc.roundAt with
    | some t => decide (t + s.adc.per * engPerUs ≤ s.now) && !s.scanBusy
    | none => false
  if store.flag F.ADC_CFG_SCAN && !s.flag F.ADC_CFG_SCAN && missed then store.setAdc { store.adc with roundAt := none } else store

/-- A word for `ADC_SCAN_EN2` or `ADC_SCAN_EN3` with the bits that the device holds at 1 (R318). -/
def scanWord (a v : Nat) : Nat := if a = 0x2418 then v ||| 0xF0003FF7 else if a = 0x241C then v ||| 1 else v

/-- SCAN_ROUND_START: the round before has ended and `PER` has passed (R317, R320). -/
def execScanRoundStart (s : State) : Out State :=
  .next (if s.adcOn ∧ s.flag F.ADC_CFG_SCAN ∧ ¬ s.scanBusy then
    let s0 := match s.adc.roundAt with
      | some t => s.due (t + s.adc.per * engPerUs)
      | none => s
    let late := match s.adc.roundAt with
      | some t => decide (t + s.get F.ADC_SCAN_STATUS_PERIOD * 40 < s0.now)
      | none => false
    let s1 := s0.dblTake
    let l := s1.scanList
    let np := s1.pool.length
    let k := s1.get F.ADC_STAT_ROUNDS
    let scan := (List.range l.length).map fun i => (l.getD i 0, scanCv s1.pool k i (l.getD i 0))
    let s2 := s1.setAdc { s1.adc with scan := scan, roundAt := some s1.now, per := s.get F.ADC_CFG_PER, refA := none }
    let s3 := (((s2.put F.ADC_SCAN_STATUS_STRETCH s2.dblAct).set F.ADC_SCAN_STATUS_NE l.length).set F.ADC_SCAN_STATUS_NP np).set F.ADC_SCAN_STATUS_PERIOD
      (max ((l.length + np - 1) / np) (4 * s.get F.ADC_CFG_PER))
    let s4 := s3.incWrapF F.ADC_STAT_ROUNDS
    if late then s4.set F.ADC_STAT_LATE 1 else s4
  else s)

/-- DBL_CAPTURE_START: a pip-placed request for the Doubles channel starts a capture (R320). -/
def execDblCaptureStart (s : State) : Out State :=
  .next (if s.adcOn ∧ s.dblAct ∧ s.adc.capture = none then
    match takeFirst (fun (q : AdcReq) => decide (q.kind = 2 ∧ q.ch = s.adc.dblCh)) s.adc.queue with
    | some (q, r) =>
      let s1 := ((s.setAdc { s.adc with queue := r, capture := some (q.pip, []) }).set F.ADC_DBL_STAT_BUSY 1).set F.ADC_DBL_STAT_PIP q.pip
      if q.late then s1.set F.ADC_STAT_PIP_LATE 1 else s1
    | none => s
  else s)

/-- ADC_DBL_DONE: the capture has its 64 samples (R320, R326). -/
def execAdcDblDone (s : State) : Out State :=
  match s.adc.capture with
  | some (p, l) =>
    .next (if l.length = 64 then
      let s1 := ((s.setAdc { s.adc with capture := none }).set F.ADC_DBL_STAT_BUSY 0).set F.ADC_DBL_STAT_DONE 1
      (s1.emit 9 3 [(s.adc.dblCh, 1), (0, 1), (p, 2), (l.foldl min 4095, 2), (l.foldl max 0, 2)]).adcPump
    else s)
  | none => .next s

/-- A write to `ADC_DBL_CFG`; `none` where RESOURCE_OWNED refuses it (R311, R320). -/
def State.dblCfgWrite (s : State) (v : Nat) : Option State :=
  if (bitOf v 31 ∧ ¬ s.flag F.ADC_DBL_CFG_CLAIMED) ∨ 103 < v % 128 ∨ s.ainRefused (v % 128) then none
  else some ((s.put F.ADC_DBL_CFG_EN (bitOf v 31)).set F.ADC_DBL_CFG_CH (v % 128))

/-- ADC_DBL_CFG_WRITE (R320). -/
def execAdcDblCfgWrite (v : Word) (s : State) : Out State :=
  .next (s.bus 0x2440 fun t => (t.dblCfgWrite v.toNat).getD t)

/-- A write to `ADC_WINn_CFG` (`thr` false) or `ADC_WINn_THR` is discarded as reserved (R4, R322). -/
def winReserved (thr : Bool) (v : Nat) : Bool :=
  if thr then decide (bits v 16 12 < bits v 0 12) else !(decide (1 ≤ bits v 24 4) && decide (bits v 0 7 ≤ 103))

/-- The write is taken (R323): an enabled window's counts start again; a window enabled by it starts clear. -/
def State.winConfig (s : State) (n : Nat) (thr : Bool) (v : Nat) : State :=
  let was := s.flag (F.ADC_WIN_CFG_EN n)
  let s1 := s.setAdc { s.adc with win := tset s.adc.win n (0, 0) (0, 0) }
  if thr then (s1.set (F.ADC_WIN_THR_HI n) (bits v 16 12)).set (F.ADC_WIN_THR_LO n) (bits v 0 12)
  else
    let s2 := (((s1.put (F.ADC_WIN_CFG_EN n) (bitOf v 31)).set (F.ADC_WIN_CFG_MODE n) (bits v 29 2)).set (F.ADC_WIN_CFG_FILT n) (bits v 24 4)).set (F.ADC_WIN_CFG_HYST n) (bits v 16 8)
    let s3 := s2.set (F.ADC_WIN_CFG_CH n) (bits v 0 7)
    if ¬ was ∧ bitOf v 31 ∧ s.bitF F.ADC_WIN_STATE_ALARM n then s3.winReturn n (bits v 0 7) (s.get (F.ADC_RES_CODE (bits v 0 7))) else s3

/-- The host's write to a window register; `none` where RESOURCE_OWNED refuses it (R311, R324). -/
def State.winWrite (s : State) (n : Nat) (thr : Bool) (v : Nat) : Option State :=
  if s.ownedBy 5 n hostOwner then
    if winReserved thr v then some s.setDisc
    else if ¬ thr ∧ s.ainRefused (bits v 0 7) then none
    else some (s.winConfig n thr v)
  else none

/-- ADC_WIN_CONFIG: the owner writes a window register (R322 to R324). -/
def execAdcWinConfig (n : Fin 32) (thr : Bool) (v : Word) (s : State) : Out State :=
  .next (s.bus (0x2500 + 8 * n) fun t => (t.winWrite n thr v.toNat).getD t)

/-- The ADC clock starts: at RUN entry and PARK exit (R309, R323). -/
def State.adcStart (s : State) : State :=
  { s with thm := { s.thm with waits := [] } }.setAdc { s.adc with
    cvs := [], scan := [], roundAt := none, win := [], refA := none, dblOdd := false, dblAt := s.now + 40, dblHeld := false, ntcAt := none }

/-- PARK entry waits for the pair's conversions in progress (R309). -/
def State.dblHold (s : State) : State := s.dblCut.setAdc { s.dblCut.adc with dblHeld := true }

/-- No conversion and no request is in progress: PARK entry interrupts none (R17, R309). -/
def State.adcIdle (s : State) : Bool :=
  decide (s.adcUsed = 0 ∧ s.adc.wait = []) && (List.range 4).all fun c => (tget s.adc.cvs c none).isNone

end Sys2Proof.Machine
end

