-- ==== Sys2Proof/Machine/Crypto.lean ====
section
/-! DEFINITION. SHA-256 and the ECDSA verification on P-256 (R429, R430). The manual names the two by FIPS 186-5; their numbers are those of
FIPS 180-4 and of SP 800-186 (PRESUMED, log entry 10). -/

namespace Sys2Proof.Machine

/-- `f x`, with `x` evaluated first where the kernel computes it. -/
def force {α : Type} (x : Nat) (f : Nat → α) : α :=
  match x with
  | 0 => f 0
  | n + 1 => f (n + 1)

/-- Word `i` of a number of 32-bit words, word 0 the lowest. -/
def word32 (x i : Nat) : Nat := x / 2 ^ (32 * i) % 2 ^ 32

/-- The round constants of SHA-256. -/
def shaK : List Nat := [
  0x428a2f98, 0x71374491, 0xb5c0fbcf, 0xe9b5dba5, 0x3956c25b, 0x59f111f1, 0x923f82a4, 0xab1c5ed5,
  0xd807aa98, 0x12835b01, 0x243185be, 0x550c7dc3, 0x72be5d74, 0x80deb1fe, 0x9bdc06a7, 0xc19bf174,
  0xe49b69c1, 0xefbe4786, 0x0fc19dc6, 0x240ca1cc, 0x2de92c6f, 0x4a7484aa, 0x5cb0a9dc, 0x76f988da,
  0x983e5152, 0xa831c66d, 0xb00327c8, 0xbf597fc7, 0xc6e00bf3, 0xd5a79147, 0x06ca6351, 0x14292967] ++ [
  0x27b70a85, 0x2e1b2138, 0x4d2c6dfc, 0x53380d13, 0x650a7354, 0x766a0abb, 0x81c2c92e, 0x92722c85,
  0xa2bfe8a1, 0xa81a664b, 0xc24b8b70, 0xc76c51a3, 0xd192e819, 0xd6990624, 0xf40e3585, 0x106aa070,
  0x19a4c116, 0x1e376c08, 0x2748774c, 0x34b0bcb5, 0x391c0cb3, 0x4ed8aa4a, 0x5b9cca4f, 0x682e6ff3,
  0x748f82ee, 0x78a5636f, 0x84c87814, 0x8cc70208, 0x90befffa, 0xa4506ceb, 0xbef9a3f7, 0xc67178f2]

/-- The initial hash value: word a the lowest. -/
def shaInit : Nat := 0x5be0cd191f83d9ab9b05688c510e527fa54ff53a3c6ef372bb67ae856a09e667

/-- A word rotated right by `i`, `j` and `k`, the three joined by exclusive or. -/
def rot3 (x i j k : Nat) : Nat := let d := x * (2 ^ 32 + 1); (d / 2 ^ i ^^^ d / 2 ^ j ^^^ d / 2 ^ k) % 2 ^ 32

/-- A word rotated right by `i` and `j` and shifted right by `k`, joined likewise. -/
def rot2 (x i j k : Nat) : Nat := let d := x * (2 ^ 32 + 1); (d / 2 ^ i ^^^ d / 2 ^ j) % 2 ^ 32 ^^^ x / 2 ^ k

/-- The window of sixteen schedule words moves on by one. -/
def shaNext (w : Nat) : Nat :=
  w / 2 ^ 32 + (rot2 (word32 w 14) 17 19 10 + word32 w 9 + rot2 (word32 w 1) 7 18 3 + word32 w 0) % 2 ^ 32 * 2 ^ 480

/-- One round on the eight working words, with constant `k` and schedule word `w`. -/
def shaRound (s k w : Nat) : Nat :=
  let a := word32 s 0
  let e := word32 s 4
  let t1 := word32 s 7 + rot3 e 6 11 25 + ((e &&& word32 s 5) ^^^ ((2 ^ 32 - 1 - e) &&& word32 s 6)) + k + w
  let t2 := rot3 a 2 13 22 + ((a &&& word32 s 1) ^^^ (a &&& word32 s 2) ^^^ (word32 s 1 &&& word32 s 2))
  let r := s * 2 ^ 32 % 2 ^ 256
  r - word32 r 4 * 2 ^ 128 + (word32 s 3 + t1) % 2 ^ 32 * 2 ^ 128 + (t1 + t2) % 2 ^ 32

/-- The rounds of one block. -/
def shaRounds : List Nat → Nat → Nat → Nat
  | [], s, _ => s
  | k :: r, s, w => force (shaRound s k (w % 2 ^ 32)) fun s1 => force (shaNext w) fun w1 => shaRounds r s1 w1

/-- The sums of the words of two numbers of `n` words. -/
def addWords : Nat → Nat → Nat → Nat
  | 0, _, _ => 0
  | n + 1, x, y => (x + y) % 2 ^ 32 + 2 ^ 32 * addWords n (x / 2 ^ 32) (y / 2 ^ 32)

/-- A list of bytes as a number of 32-bit words, each most significant byte first. -/
def beWords : List Byte → Nat
  | a :: b :: c :: d :: r => ((a.toNat * 256 + b.toNat) * 256 + c.toNat) * 256 + d.toNat + 2 ^ 32 * beWords r
  | _ => 0

/-- The hash value after a further block of 64 bytes. -/
def shaBlock (h : Nat) (b : List Byte) : Nat := addWords 8 h (shaRounds shaK h (beWords b))

/-- The hash value after `n` further blocks, the rest of the message among them. -/
def shaBlocks : Nat → Nat → List Byte → Nat
  | 0, h, _ => h
  | n + 1, h, l => force (shaBlock h (l.take 64)) fun h1 => shaBlocks n h1 (l.drop 64)

/-- The message with its padding: a bit 1, zeros, and the length in bits in the last 8 bytes of a block. -/
def shaPad (l : List Byte) : List Byte :=
  l ++ 0x80 :: (List.replicate ((119 - l.length % 64) % 64) 0 ++ beBytes 8 (8 * l.length))

/-- SHA-256 of a list of bytes, as 32 bytes in the order of FIPS 180-4. -/
def sha256 (l : List Byte) : List Byte :=
  let h := shaBlocks ((l.length + 72) / 64) shaInit (shaPad l)
  (List.range 8).flatMap fun i => beBytes 4 (word32 h i)

/-- The field and the group order of P-256, its coefficient b and its base point. -/
def curvePrime : Nat := 0xFFFFFFFF00000001000000000000000000000000FFFFFFFFFFFFFFFFFFFFFFFF
def curveOrder : Nat := 0xFFFFFFFF00000000FFFFFFFFFFFFFFFFBCE6FAADA7179E84F3B9CAC2FC632551
def curveB : Nat := 0x5AC635D8AA3A93E7B3EBBD55769886BC651D06B0CC53B0F63BCE3C3E27D2604B
def baseX : Nat := 0x6B17D1F2E12C4247F8BCE6E563A440F277037D812DEB33A0F4A13945D898C296
def baseY : Nat := 0x4FE342E2FE1A7F9B8EE7EB4A7C0F9E162BCE33576B315ECECBB6406837BF51F5

/-- A point of the curve in Jacobian coordinates: (x / z², y / z³), and the point at infinity where z = 0. -/
structure Point where
  x : Nat
  y : Nat
  z : Nat
  deriving DecidableEq, Repr

/-- `f` of a point, with its coordinates evaluated first where the kernel computes them. -/
def Point.forced {α : Type} (p : Point) (f : Point → α) : α :=
  force p.x fun x => force p.y fun y => force p.z fun z => f ⟨x, y, z⟩

/-- The residue of a field element that is a difference. -/
def fsub (x y : Nat) : Nat := (x + curvePrime - y % curvePrime) % curvePrime

/-- Twice a point; a = −3 on this curve. -/
def Point.double (p : Point) : Point :=
  force (p.z * p.z % curvePrime) fun zz => force (p.y * p.y % curvePrime) fun yy =>
  force (4 * p.x * yy % curvePrime) fun s => force (3 * fsub p.x zz * (p.x + zz) % curvePrime) fun m =>
  force (fsub (m * m) (2 * s)) fun x => ⟨x, fsub (m * fsub s x) (8 * yy * yy), 2 * p.y * p.z % curvePrime⟩

/-- The sum of two points. -/
def Point.add (p q : Point) : Point :=
  if p.z = 0 then q else if q.z = 0 then p else
  force (p.z * p.z % curvePrime) fun pp => force (q.z * q.z % curvePrime) fun qq =>
  force (p.x * qq % curvePrime) fun u => force (p.y * (q.z * qq) % curvePrime) fun s =>
  force (fsub (q.x * pp) u) fun h => force (fsub (q.y * (p.z * pp)) s) fun r =>
  if h = 0 then (if r = 0 then p.double else ⟨1, 1, 0⟩)
  else
    force (h * h % curvePrime) fun hh => force (u * hh % curvePrime) fun v => force (fsub (r * r) (h * hh + 2 * v)) fun x =>
    ⟨x, fsub (r * fsub v x) (s * (h * hh)), p.z * q.z * h % curvePrime⟩

/-- `u` times `p` plus `v` times `q`, over the low `n` bits of the two numbers; `a` is the sum of the higher bits, and `pq` that of the
points. -/
def Point.comb (p q pq : Point) (u v : Nat) : Nat → Point → Point
  | 0, a => a
  | n + 1, a => a.double.forced fun d =>
    (match u / 2 ^ n % 2, v / 2 ^ n % 2 with
     | 0, 0 => d
     | 0, _ => d.add q
     | _, 0 => d.add p
     | _, _ => d.add pq).forced (Point.comb p q pq u v n)

/-- `x` to the power of the low `n` bits of `e`, modulo `m`, times the square of `a` for every bit. -/
def powMod (m x e : Nat) : Nat → Nat → Nat
  | 0, a => a
  | n + 1, a => force (a * a % m) fun b => force (if e / 2 ^ n % 2 = 0 then b else b * x % m) (powMod m x e n)

/-- The point of affine coordinates `x` and `y` lies on the curve. -/
def onCurve (x y : Nat) : Bool :=
  decide (x < curvePrime ∧ y < curvePrime ∧ y * y % curvePrime = (x * x * x + (curvePrime - 3) * x + curveB) % curvePrime)

/-- ECDSA on P-256: (r, s) is a signature of the hash `e` under the public key (x, y) (R430). -/
def ecdsaOk (e x y r s : Nat) : Bool :=
  decide (1 ≤ r ∧ r < curveOrder ∧ 1 ≤ s ∧ s < curveOrder) && onCurve x y &&
  force (powMod curveOrder s (curveOrder - 2) 256 1) fun w =>
    force (e * w % curveOrder) fun u => force (r * w % curveOrder) fun v =>
      let g : Point := ⟨baseX, baseY, 1⟩
      let q : Point := ⟨x, y, 1⟩
      (g.add q).forced fun gq => (Point.comb g q gq u v 256 ⟨1, 1, 0⟩).forced fun t =>
        decide (t.z ≠ 0) && (decide (r * t.z * t.z % curvePrime = t.x) ||
          (decide (r + curveOrder < curvePrime) && decide ((r + curveOrder) * t.z * t.z % curvePrime = t.x)))

/-- Bytes as a number, most significant byte first. -/
def ofBe (l : List Byte) : Nat := l.foldl (fun v b => 256 * v + b.toNat) 0

/-- `sig` signs `msg` under the public key `key` (R429, R430): r and s are 32 bytes each, least significant byte first. The coordinates of the key are
taken likewise, x before y (DEDUCED from R6, log entry 9). -/
def signs (msg key sig : List Byte) : Bool :=
  ecdsaOk (ofBe (sha256 msg)) (leField key 0 32) (leField key 32 32) (leField sig 0 32) (leField sig 32 32)

end Sys2Proof.Machine
end

