-- ==== Sys2Proof/Machine/Rails.lean ====
section
/-! DEFINITION. Linear regulators, load switches and guarded drivers (R242 to R257). -/

namespace Sys2Proof.Machine

def State.ldoTripped (s : State) (n : Nat) : Bool := (tget s.ldo n Rail.init).tripped
def State.lswTripped (s : State) (n : Nat) : Bool := (tget s.lsw n Rail.init).tripped

/-- The output of regulator `n` moves from `v`, in 10 mV, from now on. -/
def State.ldoFrom (s : State) (n v : Nat) : State :=
  { s with ldo := tset s.ldo n Rail.init { tget s.ldo n Rail.init with rampAt := s.now, level := v } }

/-- A ramp of regulator `n` starts from `v`, in 10 mV (R244). -/
def State.ldoRamp (s : State) (n v : Nat) : State := (s.ldoFrom n v).set (F.OUT_LDO_STAT_SS n) 1

/-- What is left of an output that went off at `v`: the manual gives its discharge no time here, so it is a free value from 0 to `v` (log entry 43). -/
def State.residue (s : State) (v : Nat) : Nat × State :=
  if v = 0 then (0, s)
  else
    let (x, t) := s.draw
    (x % (v + 1), t)

/-- A regulator is enabled by its domain: its ramp starts from the present output, which ends a discharge (R244); not while the thermal latch is
set (R336). -/
def State.ldoEnable (s : State) (n : Nat) : State :=
  if s.flag F.THM_STAT_LATCH ∨ s.flag (F.OUT_LDO_STAT_EN n) then s
  else
    let (v, t) := s.residue (tget s.ldo n Rail.init).level
    (t.set (F.OUT_LDO_STAT_EN n) 1).ldoRamp n v

/-- A word to `OUT_LDOn_CFG`: a `VSET` that changes moves the output of an enabled regulator at the rate of its ramp; with a new `SS` alone, a ramp in
progress goes on from where it stands at the new rate (R244). -/
def State.ldoCfgWrite (s : State) (n : Nat) (t : State) : State :=
  if ¬ t.flag (F.OUT_LDO_STAT_EN n) ∨ (tget t.ldo n Rail.init).tripped then t
  else if t.ldoTarget n ≠ s.ldoTarget n then t.ldoRamp n (s.ldoOut n)
  else if t.ldoSs n ≠ s.ldoSs n then t.ldoFrom n (s.ldoOut n)
  else t

/-- A load switch is enabled by its domain (R249). -/
def State.lswEnable (s : State) (n : Nat) : State :=
  if s.flag F.THM_STAT_LATCH ∨ s.flag (F.OUT_LSW_STAT_EN n) then s
  else
    (({ s with lsw := tset s.lsw n Rail.init { tget s.lsw n Rail.init with rampAt := s.now } } : State).set (F.OUT_LSW_STAT_EN n) 1).set
      (F.OUT_LSW_STAT_SS n) 1

/-- LDO_RAMP_END and LSW_RAMP_END: the ramp of an enabled output has ended (R244, R249). -/
def execLdoRampEnd (n : Fin 8) (s : State) : Out State :=
  .next (if s.flag (F.OUT_LDO_STAT_EN n) ∧ s.flag (F.OUT_LDO_STAT_SS n) then (s.due (s.ldoRampEnd n)).set (F.OUT_LDO_STAT_SS n) 0 else s)
def execLswRampEnd (n : Fin 6) (s : State) : Out State :=
  .next (if s.flag (F.OUT_LSW_STAT_EN n) ∧ s.flag (F.OUT_LSW_STAT_SS n) then
    (s.due ((tget s.lsw n Rail.init).rampAt + s.lswSs n)).set (F.OUT_LSW_STAT_SS n) 0 else s)

/-- LDO_PG_ASSERT: the ramp has ended and the output has been at 92% for 2 µs (R245). -/
def execLdoPgAssert (n : Fin 8) (s : State) : Out State :=
  .next (if s.flag (F.OUT_LDO_STAT_EN n) ∧ ¬ s.flag (F.OUT_LDO_STAT_SS n) ∧ ¬ s.ldoTripped n
    then (s.set (F.OUT_LDO_STAT_PG n) 1).refreshRaw else s)

/-- LSW_PG_ASSERT: the ramp has ended and the output has been at 90% of `LSW_IN` for 2 µs (R249). -/
def execLswPgAssert (n : Fin 6) (s : State) : Out State :=
  .next (if s.flag (F.OUT_LSW_STAT_EN n) ∧ ¬ s.flag (F.OUT_LSW_STAT_SS n) ∧ ¬ s.lswTripped n
    then (s.set (F.OUT_LSW_STAT_PG n) 1).refreshRaw else s)

/-- LDO_PG_WITHDRAW and LSW_PG_WITHDRAW: the output has sagged (R245, R249). -/
def execLdoPgWithdraw (n : Fin 8) (s : State) : Out State := .next (s.set (F.OUT_LDO_STAT_PG n) 0).refreshRaw
def execLswPgWithdraw (n : Fin 6) (s : State) : Out State := .next (s.set (F.OUT_LSW_STAT_PG n) 0).refreshRaw

/-- LDO_CURRENT_LIMIT and LSW_CURRENT_LIMIT: an enabled output comes into current limit, whose time starts (R246, R250); a limit that was in
progress has been interrupted. -/
def execLdoCurrentLimit (n : Fin 8) (s : State) : Out State :=
  .next (if s.flag (F.OUT_LDO_STAT_EN n) ∧ ¬ s.ldoTripped n then
    ({ s with ldo := tset s.ldo n Rail.init { tget s.ldo n Rail.init with limAt := some s.now } } : State).set (F.OUT_LDO_STAT_ILIM n) 1 else s)
def execLswCurrentLimit (n : Fin 6) (s : State) : Out State :=
  .next (if s.flag (F.OUT_LSW_STAT_EN n) ∧ ¬ s.lswTripped n then
    ({ s with lsw := tset s.lsw n Rail.init { tget s.lsw n Rail.init with limAt := some s.now } } : State).set (F.OUT_LSW_STAT_ILIM n) 1 else s)

/-- LDO_UVIN: the input of an enabled regulator is below 0.95 V (R243). -/
def execLdoUvin (n : Fin 8) (s : State) : Out State :=
  .next (if s.flag (F.OUT_LDO_STAT_EN n) then s.set (F.OUT_LDO_STAT_UVIN n) 1 else s)

/-- The OUT_OCP record: `kind` 0 regulator or 1 switch, `why` 0 overcurrent or 1 reverse (R257). -/
def State.emitOcp (s : State) (kind n why colour : Nat) : State := s.emitC 6 1 colour [(kind, 1), (n, 1), (why, 1)]

/-- A regulator or a switch is off by a trip; `v` is its output there in 10 mV (R246, R250). -/
def State.ldoTrip (s : State) (n v : Nat) : State :=
  let s1 := { s with ldo := tset s.ldo n Rail.init { tget s.ldo n Rail.init with tripped := true, limAt := none, level := v } }
  (s1.set (F.OUT_LDO_STAT_SS n) 0).set (F.OUT_LDO_STAT_PG n) 0
def State.lswTrip (s : State) (n : Nat) : State :=
  let s1 := { s with lsw := tset s.lsw n Rail.init { tget s.lsw n Rail.init with tripped := true, limAt := none } }
  (s1.set (F.OUT_LSW_STAT_SS n) 0).set (F.OUT_LSW_STAT_PG n) 0

/-- LDO_OCP_TRIP: the current limit in progress has held for 1 ms; the regulator is off until its domain is disabled (R246). -/
def execLdoOcpTrip (n : Fin 8) (s : State) : Out State :=
  .next (match (tget s.ldo n Rail.init).limAt with
    | some t =>
      if s.flag (F.OUT_LDO_STAT_EN n) ∧ ¬ s.ldoTripped n then
        let s1 := s.due (t + engPerMs)
        let s2 := ((s1.ldoTrip n (s1.ldoOut n)).set (F.OUT_LDO_STAT_OCP n) 1).set (F.OUT_LDO_STAT_ILIM n) 1
        ((s2.refreshRaw).emitOcp 0 n 0 (s.effColour 23)).raise 23 n
      else s
    | none => s)

/-- The trip time that `OCP_T` selects, in ENG periods (R250). -/
def State.lswTripTime (s : State) (n : Nat) : Nat := ([100, 500, 1000, 5000].getD (s.get (F.OUT_LSW_CFG_OCP_T n)) 1000) * engPerUs

/-- LSW_OCP_TRIP: the current limit in progress has held for the time that `OCP_T` selects (R250). -/
def execLswOcpTrip (n : Fin 6) (s : State) : Out State :=
  .next (match (tget s.lsw n Rail.init).limAt with
    | some t =>
      if s.flag (F.OUT_LSW_STAT_EN n) ∧ ¬ s.lswTripped n then
        let s1 := (((s.due (t + s.lswTripTime n)).lswTrip n).set (F.OUT_LSW_STAT_OCP n) 1).set (F.OUT_LSW_STAT_ILIM n) 1
        ((s1.refreshRaw).emitOcp 1 n 0 (s.effColour 23)).raise 23 n
      else s
    | none => s)

/-- LSW_REVERSE: the output has been 50 mV above `LSW_IN` for 10 µs: off like a trip, with no OUTPUT_OCP (R250). -/
def execLswReverse (n : Fin 6) (s : State) : Out State :=
  .next (if s.flag (F.OUT_LSW_STAT_EN n) ∧ ¬ s.lswTripped n then
    (((s.lswTrip n).set (F.OUT_LSW_STAT_REV n) 1).refreshRaw).emitOcp 1 n 1 0
  else s)

/-- EXTERNAL_PG_INPUT: the level of a GPIO changes; a pin with code 0x5 is a term of its domain's power-good (R207). A low level ends
the assertion of a Park request (R95). -/
def execExternalPgInput (k : Fin 12) (level : Bool) (s : State) : Out State :=
  let d := { s.dev with gpioIn := putBit s.dev.gpioIn k level }
  .next ({ s with dev := if level then d else { d with parkPinTaken := clrBit d.parkPinTaken k } } : State).refreshRaw

/-- Milliseconds of the AO time base. -/
def State.ms (s : State) : Nat := s.now / engPerMs

/-- A fault bit of a guarded driver is set (R256). -/
def State.guardFaulty (s : State) (g : Nat) : Bool :=
  s.flag (F.OUT_G_STAT_CP g) || s.flag (F.OUT_G_STAT_STUCK g) || s.flag (F.OUT_G_STAT_DESAT g) || s.flag (F.OUT_G_STAT_GATE_LOW g)

/-- The verifier passes an action: mode 0 pulse or 1 hold, duration in ms (R253 to R255). The driver has no fault bit set. A release write of the
same CORE clock acts last. -/
def State.guardAction (s : State) (g mode dur : Nat) : State :=
  let x := tget s.guards g Guard.init
  let a := if s.flag (F.OUT_G_STAT_ON g) then x.turned else s.now
  let s1 := ((({ s with guards := tset s.guards g Guard.init { x with since := s.ms, dur := dur, turned := a } } : State).set
    (F.OUT_G_STAT_ON g) 1).set (F.OUT_G_STAT_MODE g) mode).emit 6 2 [(g, 1), (mode, 1), (dur, 4)]
  if x.released = some s.coreClk then s1.guardEnd g 2 0 else s1

/-- Milliseconds until the duration of an asserted driver elapses (`OUT_Gn_REMAIN`). -/
def State.guardRemain (s : State) (g : Nat) : Nat :=
  let x := tget s.guards g Guard.init
  if s.flag (F.OUT_G_STAT_ON g) then x.since + x.dur - s.ms else 0

/-- GUARD_DURATION_END: the duration of an assertion has elapsed (R255). -/
def execGuardDurationEnd (n : Fin 2) (s : State) : Out State :=
  let x := tget s.guards n Guard.init
  .next (if s.flag (F.OUT_G_STAT_ON n) then (s.due ((x.since + x.dur) * engPerMs)).guardEnd n 1 0 else s)

/-- Output `g` is released (R255). -/
def State.guardReleased (s : State) (g : Nat) : State :=
  ({ s with guards := tset s.guards g Guard.init { tget s.guards g Guard.init with released := some s.coreClk } } : State).guardEnd g 2 0

/-- A write to `OUT_G_RELEASE` (R255). -/
def State.releaseWrite (s : State) (v : Nat) : State :=
  if v = 0x6A7D0000 then s.guardReleased 0 else if v = 0x6A7D0001 then s.guardReleased 1 else s

/-- GUARD_RELEASE: the release key of a guarded output is written (R255). -/
def execGuardRelease (v : Word) (s : State) : Out State := .next (s.bus 0x1898 fun t => t.releaseWrite v.toNat)

/-- The fault bit field `b` of a driver: 0 GATE_LOW, 1 DESAT, 2 STUCK, 3 CP. -/
def guardBit (g b : Nat) : FRef :=
  if b = 0 then F.OUT_G_STAT_GATE_LOW g else if b = 1 then F.OUT_G_STAT_DESAT g else if b = 2 then F.OUT_G_STAT_STUCK g else F.OUT_G_STAT_CP g

/-- How long a driver is asserted, or for STUCK not asserted, when it can first show fault `b`, in ms (R256). -/
def guardDelay (b : Nat) : Nat := if b ≤ 1 then 2 else if b = 2 then 10 else 1

/-- GUARD_FAULT: a driver detects a fault, with `Gn_SRC` at `vsrc` in 10 mV: STUCK while not asserted, the others while asserted (R256). -/
def execGuardFault (n : Fin 2) (bit : Fin 4) (vsrc : Nat) (s : State) : Out State :=
  let on := s.flag (F.OUT_G_STAT_ON n)
  .next (if s.coreRuns ∧ (if bit.val = 2 then ¬ on else on) then
    let c := s.effColour 24
    let s0 := s.due ((tget s.guards n Guard.init).turned + guardDelay bit * engPerMs)
    let s1 := (s0.set (guardBit n bit) 1).guardEnd n 3 c
    let m := s1.get (F.OUT_G_STAT_GATE_LOW n) + 2 * s1.get (F.OUT_G_STAT_DESAT n) + 4 * s1.get (F.OUT_G_STAT_STUCK n) + 8 * s1.get (F.OUT_G_STAT_CP n)
    (s1.emitC 6 4 c [(n, 1), (m, 1), (vsrc, 2)]).raise 24 n
  else s)

end Sys2Proof.Machine
end

