-- ==== Sys2Proof/Machine/Stacks.lean ====
section
/-! DEFINITION. Stacks and tiles: enable, disable and trips (R153 to R158), and the commands of the turn order, Full Roll, shedding,
power-good and discharge (R139 to R159, R483). -/

namespace Sys2Proof.Machine

/-- VOV of a stack in 10 mV: the lower of its OTP ceiling and `OV_LIM` (R157). -/
def State.vov (s : State) (n : Nat) : Nat := min (s.get (F.STK_CEIL_OTP n)) (s.get (F.STK_PROT_OV_LIM n))

/-- VCEIL in 0.2 mV (R201). -/
def State.vceil (s : State) (n : Nat) : Nat := s.vov n * 50

/-- Slots of 2 µs that `STKn_PROT.SS` selects for a ramp from 0 V (R153). -/
def ssSlots (code : Nat) : Nat := ([50, 100, 250, 500, 1000, 2500, 5000, 10000][code]?).getD 10000

/-- The tiles at positions `a` to `b - 1` of stack `n` join the turn order. -/
def State.tilesJoin (s : State) (n a b : Nat) : State :=
  forEach (s.tilesOf n) (fun t x => if a ≤ s.get (F.TIL_STAT_POS t) ∧ s.get (F.TIL_STAT_POS t) < b then x.tileOn t else x) s

/-- Stack `n` may not start its tiles: tripped (R158), or the engine is halted (R180). -/
def State.stackHeldOff (s : State) (n : Nat) : Bool := (s.stk n).tripped || s.flag F.ENG_STAT_HALT

/-- The sequencer enables stack `n`, whose sensed output is `vos` in 0.2 mV (R153, R175): its tiles become active and the first slot presets
the engine. While the PMID cut or the thermal latch holds, the stack is disabled at once (R270, R336). -/
def State.stackEnable (s : State) (n vos : Nat) : State :=
  if s.tileCount n = 0 ∨ s.flag (F.STK_STAT_EN n) ∨ s.pp.cut ∨ s.flag F.THM_STAT_LATCH then s
  else
    let x := { s.stk n with
      preEnable := true, prePark := false, ssFrom := (vos : Int), ssSlot := 0, rampDown := false, pgIn := 0, pgOut := 0, barred := s.stackHeldOff n }
    let s1 := ((((s.setStk n x).set (F.STK_STAT_EN n) 1).set (F.STK_STAT_SS n) 1).set (F.STK_STAT_DIS n) 0).set (F.STK_STAT_NACT n) (s.tileCount n)
    let s2 := (s1.set (F.STK_STAT_PTR n) 0).tilesJoin n 0 (s.tileCount n)
    if s.stackHeldOff n then forEach (s.tilesOf n) (fun t x => x.set (F.TIL_STAT_HIZ t) 1) s2 else s2

/-- Stack `n` is disabled and discharges as `STKn_PROT.DIS` selects (R156), also under a halt of the engine: a ramp-down then holds its reference, which
no slot lowers (R180), until it times out. -/
def State.stackDisable (s : State) (n : Nat) : State :=
  if s.flag (F.STK_STAT_EN n) then
    let k := s.get (F.STK_PROT_DIS n)
    let s1 := (((s.stackPgOff n false).set (F.STK_STAT_EN n) 0).set (F.STK_STAT_SS n) 0).set (F.STK_STAT_LOCK n) 0
    let s2 := ((((s1.set (F.STK_STAT_NACT n) 0).set (F.STK_STAT_PTR n) 0).set (F.STK_SRC_STAT_MOVE n) 0).shedRest n).antEnd n
    let x := { s2.stk n with
      moveLeft := 0, pgIn := 0, pgOut := 0, preEnable := false, prePark := false, disAt := s.now }
    if (s.stk n).tripped ∨ k = 0 ∨ k = 3 then (s2.setStk n x).tilesOff n
    else if k = 1 then
      (s2.setStk n { x with rampDown := true, ssFrom := x.tLast, ssSlot := 0 }).set (F.STK_STAT_DIS n) 1
    else
      let s3 := ((s2.setStk n x).tilesOff n).set (F.STK_STAT_DIS n) 1
      match s.tileAt n 0 with
      | some t => s3.set (F.TIL_STAT_HIZ t) 0
      | none => s3
  else s

/-- A discharge is over: every tile of the stack is high-impedance (R156). -/
def State.dischargeOff (s : State) (n : Nat) : State :=
  let e := if s.flag (F.STK_STAT_DIS n) then s.now else (s.stk n).disEnd
  ((s.set (F.STK_STAT_DIS n) 0).setStk n { s.stk n with rampDown := false, disEnd := e }).tilesOff n

/-- A stack is tripped (level source STACK_OV, R158). -/
def State.anyTripped (s : State) : Bool := (List.range 16).any fun n => (s.stk n).tripped

/-- STK_OV_TRIP: the overvoltage comparator of a stack trips (R157, R158). The tiles leave the turn order, so that `TILn_STAT.ACTIVE` reads 0, while
`NACT` and `PTR` keep their values (DESIGN CHOICE, log entry 37: R158 speaks of the tiles' impedance alone). -/
def execStkOvTrip (n : Fin 16) (s : State) : Out State :=
  .next (if (s.inMode .run ∨ s.inMode .park ∨ s.inMode .black) ∧ s.tileCount n ≠ 0 ∧ ¬ (s.stk n).tripped then
    let en := s.get (F.STK_STAT_EN n)
    let s1 := (s.stackPgOff n true).dischargeOff n
    let s2 := (((s1.set (F.STK_STAT_SS n) 0).set (F.STK_STAT_LOCK n) 0).set (F.STK_STAT_OV_TRIP n) 1).shedRest n
    let s3 := s2.setStk n { s2.stk n with tripped := true }
    (s3.emitX 4 n 3 1 (s.effColour 17) [(n, 1), (en, 1), (s.vov n, 2)]).raise 17 n
  else s)

/-- OV_TRIP_RELEASE: a disabled, tripped stack's output is below VOV − 100 mV (R158). -/
def execOvTripRelease (n : Fin 16) (s : State) : Out State :=
  .next (if (s.stk n).tripped ∧ s.get (F.STK_STAT_EN n) = 0 then
    let s1 := s.setStk n { s.stk n with tripped := false }
    if s1.anyTripped then s1 else s1.unraise 17
  else s)

/-- The tiles of stack or charger `u` that take turns, by position. -/
def State.activeCount (s : State) (u : Nat) : Nat :=
  ((s.tilesOf u).filter fun t => s.flag (F.TIL_STAT_ACTIVE t)).length

/-- Turn-order pointer of a stack or of the charger. -/
def State.turnPtr (s : State) (u : Nat) : Nat := if u = 16 then s.chgPtr else s.get (F.STK_STAT_PTR u)
def State.setTurnPtr (s : State) (u p : Nat) : State := if u = 16 then { s with chgPtr := p } else s.set (F.STK_STAT_PTR u) p

/-- The turn of the tile at position `p` is withheld by its valley limit (R128, R140). -/
def State.withhold (s : State) (u p : Nat) : State :=
  match s.tileAt u p with
  | some t =>
    let s1 := (s.set (F.TIL_STAT_VLIM t) 1).incSatF (F.TIL_CNT_VLIM t)
    let s2 := s1.setTile t { s1.tile t with held := (s1.tile t).held + 1 }
    if u = 16 then s2 else s2.set (F.STK_STAT_VLIM u) 1
  | none => s

/-- The tile at position `p` takes a turn; a tile in the turn order switches then (R130). -/
def State.takeTurn (s : State) (u p : Nat) : State :=
  match s.tileAt u p with
  | some t =>
    let s1 := (s.setTile t { s.tile t with held := 0 }).incWrapF (F.TIL_CNT_TURNS t)
    if s.flag (F.TIL_STAT_ACTIVE t) then s1.set (F.TIL_STAT_HIZ t) 0 else s1
  | none => s

/-- The law of R125 gives stack `u` less than 30 ns at `vpmid` mV (R126). -/
def State.onTimeShort (s : State) (u vpmid : Nat) : Bool :=
  decide (u < 16) && decide ((s.stk u).dLast * 4000 < (30 * vpmid * s.get (F.STK_CFG_FSW u) : Nat))

/-- The limits that an on-time of the tile at position `p` meets: `short` its law gives less than 30 ns, `waited` it waited for its off-time (R126). -/
def State.turnMarks (s : State) (u p : Nat) (short waited : Bool) : State :=
  match s.tileAt u p with
  | some t =>
    let s1 := if short then s.set (F.TIL_STAT_TON_MIN t) 1 else s
    if waited then s1.set (F.TIL_STAT_TOFF_MIN t) 1 else s1
  | none => s

/-- The tiles of `u` run forced-continuous (R128, R130, R156, R271). With `DEM` at 0 they do from the end of soft-start on, whatever power-good is
(DESIGN CHOICE, log entry 37: R130 lists soft-start alone, R154 names power-good). -/
def State.forcedContinuous (s : State) (u : Nat) : Bool :=
  if u = 16 then true
  else (s.stk u).rampDown || (!s.flag (F.STK_CFG_DEM u) && !s.flag (F.STK_STAT_SS u) && !s.inMode .park)

/-- The active tiles at the positions `zero` have turned their low-side FETs off at zero current since their last turns: in diode emulation each is
high-impedance until its next turn (R130). -/
def State.diodeRest (s : State) (u zero : Nat) : State :=
  if s.forcedContinuous u then s
  else forEach ((s.tilesOf u).filter fun t => s.flag (F.TIL_STAT_ACTIVE t) && bitOf zero (s.get (F.TIL_STAT_POS t))) (fun t x => x.set (F.TIL_STAT_HIZ t) 1) s

/-- A host reads `TILn_STAT` of tile `t`. Whether the current of an active tile in diode emulation has fallen to zero since its last turn is a free value
until the stack's next TURN says so; once it has, the tile is high-impedance until its next turn (R130). -/
def State.diodeSee (s : State) (t : Nat) : State :=
  if s.flag (F.TIL_STAT_ACTIVE t) ∧ ¬ s.flag (F.TIL_STAT_HIZ t) ∧ ¬ s.forcedContinuous (s.get (F.TIL_STAT_USE t)) then
    let (v, s1) := s.draw
    if v % 2 = 1 then s1.set (F.TIL_STAT_HIZ t) 1 else s1
  else s

/-- The stack or the charger gives turns now: a tile is active, and no enable under a trip or a halt holds the stack (R158, R180). -/
def State.turns (s : State) (u : Nat) : Bool :=
  (s.inMode .run || s.inMode .park) && ((s.tilesOf u).any fun t => s.flag (F.TIL_STAT_ACTIVE t)) && !(decide (u < 16) && (s.stk u).barred)

/-- The position that takes the turn, among `order` from the pointer on (R140): the pointer's, which the turn waits for where it is in its off-time; where
its valley limit holds, the next one that is ready, or the next one whose off-time alone keeps it. -/
def turnTaker (order : List Nat) (held off : Nat) : Option Nat :=
  match order with
  | [] => none
  | p :: r =>
    if !bitOf held p then some p
    else match r.find? fun q => !bitOf held q && !bitOf off q with
      | some q => some q
      | none => r.find? fun q => !bitOf held q

/-- TURN: the comparator of a stack or of the charger calls for a turn at `vpmid` mV (R139, R140). By position, `held` marks the tiles whose valley limit
holds, `off` those in their minimum off-time, `zero` those whose current has reached zero since their last turn; `nlim` says that the taker reached −2.0 A.
When every active tile is held the turn waits: the flags are set and no turn is taken yet. -/
def execTurn (u : Fin 17) (vpmid : Nat) (held off zero : BitVec 16) (nlim : Bool) (s : State) : Out State :=
  .next (if s.turns u then
    let n := s.activeCount u
    let order := (List.range n).map fun j => (s.turnPtr u + j) % n
    let s0 := s.diodeRest u zero.toNat
    match turnTaker order held.toNat off.toNat with
    | none => forEach order (fun p t => match t.tileAt u p with
        | some k => (if u.val = 16 then t else t.set (F.STK_STAT_VLIM u) 1).set (F.TIL_STAT_VLIM k) 1
        | none => t) s0
    | some p =>
      let passed := (order.takeWhile fun q => decide (q ≠ p)).filter fun q => bitOf held.toNat q
      let s1 := forEach passed (fun q t => t.withhold u q) s0
      let s2 := ((s1.takeTurn u p).setTurnPtr u ((p + 1) % n)).turnMarks u p (s.onTimeShort u vpmid) (bitOf off.toNat p)
      match s.tileAt u p with
      | some k => if nlim ∧ s.forcedContinuous u then s2.set (F.TIL_STAT_NLIM k) 1 else s2
      | none => s2
  else s)

/-- Full Roll is armed for a stack (R143). -/
def State.rollArmed (s : State) (n : Nat) : Bool :=
  s.inMode .run && s.flag (F.STK_STAT_EN n) && s.flag (F.STK_STAT_PG n) && !s.flag (F.STK_STAT_SS n) && !s.flag (F.STK_STAT_DIS n) &&
  !s.flag (F.STK_STAT_LOCK n) && !(s.stk n).tripped && decide (s.get (F.STK_ROLL_ROLL_TH n) ≠ 0)

/-- FULL_ROLL: every ready tile of the stack, shed ones too, starts one on-time at `vpmid` mV, the positions in `off` when their off-time ends; those in
`held` do not take part (R126, R143 to R146). -/
def execFullRoll (n : Fin 16) (vpmid : Nat) (held off : BitVec 16) (s : State) : Out State :=
  .next (if s.rollArmed n then
    let s1 := forEach ((List.range (s.tileCount n)).filter fun p => !bitOf held.toNat p)
      (fun p t => (t.takeTurn n p).turnMarks n p (s.onTimeShort n vpmid) (bitOf off.toNat p)) s
    let s2 := s1.setTurnPtr n ((s.turnPtr n + 1) % (max 1 (s.get (F.STK_STAT_NACT n))))
    let x := s2.stk n
    ((s2.setStk n { x with shedDwell := 0, addDwell := 0, rolls := incSat x.rolls 65535, lockAt := s.now }).set (F.STK_STAT_LOCK n) 1 |>.set (F.STK_STAT_ROLL n) 1).incSatF (F.STK_CNT_ROLL n)
  else s)

/-- FULL_ROLL_LOCKOUT_END: 2 µs after the first on-time of the Full Roll (R145). -/
def execFullRollLockoutEnd (n : Fin 16) (s : State) : Out State :=
  .next (if s.flag (F.STK_STAT_LOCK n) then (s.due ((s.stk n).lockAt + 2 * engPerUs)).set (F.STK_STAT_LOCK n) 0 else s)

/-- STK_ROLL: the record of the Full Rolls since the last one, at most one record a millisecond (R146, R159). -/
def execStkRoll (n : Fin 16) (s : State) : Out State :=
  .next (if (s.stk n).rolls ≠ 0 ∧ s.inMode .run then
    let s1 := match (s.stk n).rollAt with
      | some t => s.due (t + engPerMs)
      | none => s
    (s1.setStk n { s1.stk n with rolls := 0, rollAt := some s1.now }).emitX 3 n 3 2 0 [(n, 1), ((s.stk n).rolls, 2)]
  else s)

/-- M of R147. -/
def State.minTiles (s : State) (n : Nat) : Nat := min (s.get (F.STK_SHED_TIME_MIN_TILES n)) (s.tileCount n)

/-- The shed condition and the add condition of R147. -/
def State.shedCond (s : State) (n : Nat) : Bool :=
  let a := s.get (F.STK_STAT_NACT n)
  decide (s.minTiles n < a) && decide (s.get (F.STK_SHED_SHED_TH n) ≠ 0) &&
  decide ((s.stk n).iNow < (s.get (F.STK_SHED_SHED_TH n) * (a - 1) : Nat))
def State.addCond (s : State) (n : Nat) : Bool :=
  let a := s.get (F.STK_STAT_NACT n)
  decide (a < s.tileCount n) && decide ((s.get (F.STK_SHED_ADD_TH n) * a : Nat) < (s.stk n).iNow)

/-- The engine evaluates a stack's shedding at its slots (R147). -/
def State.shedRuns (s : State) (n : Nat) : Bool :=
  s.inMode .run && s.flag (F.STK_SHED_TIME_EN n) && s.flag (F.STK_STAT_EN n) && !s.flag F.ENG_STAT_HALT

/-- Shedding is armed: by power-good, after soft-start (R150, R154). -/
def State.shedArmed (s : State) (n : Nat) : Bool := s.shedRuns n && s.flag (F.STK_STAT_PG n) && !s.flag (F.STK_STAT_SS n)

/-- The gates of a phase-count change (R150), which is made at a slot: the last one of the stack, until its next one starts 2 µs later. -/
def State.phaseGate (s : State) (n : Nat) : Bool :=
  s.shedArmed n && (s.stk n).slotFree && decide (s.now < (s.stk n).slotAt + 2 * engPerUs) && !(s.stk n).ant && !s.flag (F.STK_STAT_LOCK n)

/-- A due change waits where a gate holds it: `HOLD`, and with its first wait `DEFER` (R150). -/
def State.phaseWait (s : State) (n : Nat) : State :=
  if s.phaseGate n then s
  else
    let s1 := s.set (F.STK_STAT_HOLD n) 1
    if (s.stk n).deferred then s1 else (s1.set (F.STK_STAT_DEFER n) 1).setStk n { s.stk n with deferred := true }

/-- SHED_DWELL_DONE and ADD_DWELL_DONE: a change is due, and waits from the slot in which its dwell is reached where R150 holds it (R149). -/
def execShedDwellDone (n : Fin 16) (s : State) : Out State :=
  .next (if s.shedArmed n ∧ (s.stk n).due = 0 ∧ max 1 (s.get (F.STK_SHED_TIME_SHED_DWELL n)) ≤ (s.stk n).shedDwell
    then (s.setStk n { s.stk n with due := 1, deferred := false }).phaseWait n else s)
def execAddDwellDone (n : Fin 16) (s : State) : Out State :=
  .next (if s.shedArmed n ∧ (s.stk n).due = 0 ∧ max 1 (s.get (F.STK_SHED_TIME_ADD_DWELL n)) ≤ (s.stk n).addDwell
    then (s.setStk n { s.stk n with due := 2, deferred := false }).phaseWait n else s)

/-- The STK_PHASE record (R159). -/
def State.emitPhase (s : State) (n new old kind : Nat) : State := s.emitX 3 n 3 3 0 [(n, 1), (new, 1), (old, 1), (kind, 1)]

/-- TILE_SHED: a due shed is made (R150, R151). -/
def execTileShed (n : Fin 16) (s : State) : Out State :=
  .next (if (s.stk n).due = 1 ∧ s.shedCond n ∧ s.phaseGate n then
    let a := s.get (F.STK_STAT_NACT n)
    let s1 := match s.tileAt n (a - 1) with
      | some t => s.tileOff t
      | none => s
    let s2 := (s1.set (F.STK_STAT_NACT n) (a - 1)).incWrapF (F.STK_CNT_SHED n)
    let s3 := if a - 1 ≤ s.get (F.STK_STAT_PTR n) then s2.set (F.STK_STAT_PTR n) 0 else s2
    (s3.shedRest n).emitPhase n (a - 1) a 0
  else s)

/-- TILE_ADD: a due add is made (R150, R151). -/
def execTileAdd (n : Fin 16) (s : State) : Out State :=
  .next (if (s.stk n).due = 2 ∧ s.addCond n ∧ s.phaseGate n then
    let a := s.get (F.STK_STAT_NACT n)
    let s1 := match s.tileAt n a with
      | some t => s.tileOn t
      | none => s
    (((s1.set (F.STK_STAT_NACT n) (a + 1)).incWrapF (F.STK_CNT_ADD n)).shedRest n).emitPhase n (a + 1) a 1
  else s)

/-- SOFT_START_END: the ramp has reached its target (R153). -/
def execSoftStartEnd (n : Fin 16) (s : State) : Out State :=
  .next (if s.flag (F.STK_STAT_SS n) ∧ ¬ (s.stk n).preEnable ∧ (s.stk n).ssTo ≤ (s.stk n).tLast ∧ ¬ (s.stk n).tripped then
    let x := s.stk n
    (s.set (F.STK_STAT_SS n) 0).setStk n { x with pgIn := 0, pgOut := 0, profInit := decide (s.get (F.STK_SRC_STAT_ACT n) = 3) }
  else s)

/-- STACK_PG_ASSERT: |e| has been within `PG_WIN` for 8 consecutive slots after soft-start (R154). -/
def execStackPgAssert (n : Fin 16) (s : State) : Out State :=
  .next (if s.inMode .run ∧ s.flag (F.STK_STAT_EN n) ∧ ¬ s.flag (F.STK_STAT_SS n) ∧ ¬ s.flag (F.STK_STAT_PG n) ∧ ¬ (s.stk n).tripped ∧
      8 ≤ (s.stk n).pgIn
    then (s.set (F.STK_STAT_PG n) 1).refreshRaw else s)

/-- STACK_PG_WITHDRAW: |e| has been beyond `PG_WIN` for 2 consecutive slots, or e has saturated (R154). -/
def execStackPgWithdraw (n : Fin 16) (s : State) : Out State :=
  .next (if s.inMode .run ∧ 2 ≤ (s.stk n).pgOut then s.stackPgOff n true else s)

/-- PARK_PG_LOSS: in PARK the output of a stack falls below 90% of its reference (R155). -/
def execParkPgLoss (n : Fin 16) (s : State) : Out State := .next (if s.inMode .park then s.stackPgOff n true else s)

/-- DISCHARGE_END: the output is below the level of its discharge (R156). -/
def execDischargeEnd (n : Fin 16) (s : State) : Out State :=
  .next (if s.flag (F.STK_STAT_DIS n) then s.dischargeOff n else s)

/-- STK_DIS_TIMEOUT: 50 ms after the disable, with the output at `vout` in 0.2 mV (R156). -/
def execStkDisTimeout (n : Fin 16) (vout : Nat) (s : State) : Out State :=
  .next (if s.flag (F.STK_STAT_DIS n) then
    ((((s.due ((s.stk n).disAt + 50 * engPerMs)).dischargeOff n).set (F.STK_STAT_DIS_TO n) 1).emitX 3 n 3 4 (s.effColour 18) [(n, 1), (vout, 2)]).raise 18 n
  else s)

/-- MEAS_WINDOW_END: a window of 256 µs ends (R483; `PP_PMID.V`): the means that the converters formed, for each tile, for each
stack, and of `PMID` in mV. The windows run back to back from RUN entry or PARK exit on; outside RUN the tile and stack windows do not run. -/
def execMeasWindowEnd (imean iout vout : List Int) (vpmid : Nat) (s : State) : Out State :=
  .next (if s.inMode .run then
    let s0 := s.due (s.eng.measAt + 256 * engPerUs)
    let s0 : State := { s0 with eng := { s0.eng with measAt := s.eng.measAt + (s0.now - s.eng.measAt) / (256 * engPerUs) * (256 * engPerUs) } }
    let s1 := forEach (List.range 48) (fun t x => if s.get (F.TIL_STAT_USE t) = 0x1F then x else x.setS (F.TIL_IMEAN_I t) (imean.getD t 0)) s0
    let s2 := forEach (List.range 16) (fun n x => if s.tileCount n = 0 then x else
      (x.setS (F.STK_MEAS_IOUT n) (iout.getD n 0)).setS (F.STK_MEAS_VOUT n) (vout.getD n 0)) s1
    s2.set F.PP_PMID_V vpmid
  else if s.inMode .black then s.set F.PP_PMID_V vpmid
  else s)

/-- PARK entry for the stacks: those that stay on run one tile, the others are off (R16, R152, R131). -/
def State.stackPark (s : State) (n : Nat) : State :=
  let s1 := ((s.set (F.STK_SRC_STAT_MOVE n) 0).shedRest n).antEnd n
  let s2 := s1.setStk n { s1.stk n with moveLeft := 0, rampDown := false }
  if s2.flag (F.STK_STAT_EN n) then
    let s3 := forEach (s.tilesOf n) (fun t x => if s.get (F.TIL_STAT_POS t) = 0 then x else x.tileOff t) s2
    (s3.set (F.STK_STAT_NACT n) 1).set (F.STK_STAT_PTR n) 0 |>.setStk n { s3.stk n with prePark := true }
  else (s2.set (F.STK_STAT_DIS n) 0).tilesOff n

/-- The slot of stack `n` computes (R163). -/
def State.slotComputes (s : State) (n : Nat) : Bool :=
  s.inMode .run && decide (s.tileCount n ≠ 0) && !s.flag F.ENG_STAT_HALT && (s.flag (F.STK_STAT_EN n) || (s.stk n).rampDown) &&
  !(s.stk n).tripped

/-- The throttle proportion that an engine slot uses: a new one acts on the slots that start 2 µs or more after its evaluation (R333). -/
def State.slotTh (s : State) : Nat := if s.now < s.thm.thAt + 2 * engPerUs then s.thm.thOld else s.get F.THM_TH_TH

end Sys2Proof.Machine
end

