-- ==== Sys2Proof/Machine/Faults.lean ====
section
/-! DEFINITION. The commands of the fault collector (R340 to R353), and the halt of the control engine (R180). -/

namespace Sys2Proof.Machine

/-- What a block reports of a condition outside the state, beside its fault source. -/
def State.conditionBits (s : State) (src : Nat) (b : Bool) : State :=
  if src = 13 then s.put F.JNL_STAT_LOW b
  else if src = 37 then s.put F.SEC_STAT_TFAIL b
  else s

/-- A journal read finds an uncorrectable error at byte address `a`, which makes its position invalid (R447, R449). -/
def State.journalBadAt (s : State) (a : Nat) : State :=
  if s.nv.journalBad.contains a then s else { s with nv := { s.nv with journalBad := a :: s.nv.journalBad } }

/-- The condition of a level source holds as far as the state decides it (R339); the conditions of 11 and 37 lie outside the state, the PLL's
loss of lock counts in RUN, and a low reserve outside BOOT and 200 ms after the always-on good that began it (R452). -/
def State.levelHolds (s : State) (src : Nat) : Bool :=
  match src with
  | 9 => s.inMode .run
  | 10 => s.flag F.SYS_STATE_XTAL_FAIL
  | 13 => !s.inMode .boot && decide (s.dev.aoAt + 200 * engPerMs ≤ s.now)
  | 15 => s.fltAlarm
  | 17 => s.anyTripped
  | 24 => s.guardFaulty 0 || s.guardFaulty 1
  | 25 => s.flag F.PP_FE_STAT_UNSTABLE
  | 27 => s.flag F.PP_CHG_FAULT_PRE_TO || s.flag F.PP_CHG_FAULT_SAFETY || s.flag F.PP_CHG_FAULT_BAT_OV || s.flag F.PP_CHG_FAULT_TILE
  | 28 => s.flag F.PP_PACK_STAT_BAT_ABSENT
  | 29 => s.flag F.GG_STAT_DISAGREE
  | 30 => s.flag F.THM_STAT_WARN
  | 31 => s.flag F.THM_STAT_THROT
  | 33 => s.flag F.THM_STAT_BRD_INV
  | _ => true

/-- FAULT_CONDITION_END: the condition of a level source that lies outside the state ends (R345). -/
def execFaultConditionEnd (src : Fin 41) (s : State) : Out State :=
  .next (if [9, 11, 13, 37].contains src.val then (s.conditionBits src false).unraise src else s)

/-- A write of ones to `FLT_PENDm` clears pending bits, except those of level sources that are active (R345). -/
def State.pendClear (s : State) (m v : Nat) : State :=
  let f := if m = 0 then F.FLT_PEND0_PEND else F.FLT_PEND1_PEND
  let a := if m = 0 then s.get F.FLT_ACT0_ACT else s.get F.FLT_ACT1_ACT
  s.set f (andNot (s.get f) (andNot (v % 2 ^ f.w) a))

def execFltPendClear (m : Fin 2) (v : Word) (s : State) : Out State :=
  .next (s.bus (0x2C08 + 4 * m) fun t => t.pendClear m v.toNat)

/-- The engine halts (R180): sticky until a full reset; `start` says that the third load mismatched (R179). Its record crosses as the stacks' do (R181),
with a pending bit of its own beside theirs (DESIGN CHOICE, log entry 42). `ENG_STAT.ACTIVE` follows the slots one by one, and all its bits clear at the halt (DESIGN
CHOICE, log entry 46: R180 does not say). -/
def State.engHalt (s : State) (addr start : Nat) : State :=
  ((s.set F.ENG_STAT_HALT 1).set F.ENG_STAT_ACTIVE 0).emitX 3 16 4 4 (s.effColour 7) [(start, 1), (addr, 2)]

/-- A checker finds microcode word `a` uncorrectable: the engine halts, unless it has halted before, and the source is raised (R180, R340). -/
def State.microBad (s : State) (a : Nat) : State := (if s.flag F.ENG_STAT_HALT then s else s.engHalt a 0).checkerRaise 7 a

/-- ENG_HALT: an uncorrectable microcode error (R180). -/
def execEngHalt (addr : Nat) (s : State) : Out State :=
  .next (if s.inMode .run && !s.flag F.ENG_STAT_HALT then (s.engHalt addr 0).checkerRaise 7 addr else s)

/-- FAULT_RAISE: a checker outside the other commands raises its source (R344); a level source is raised only while its condition holds (R339). An
uncorrectable error of the journal is one of the array, unless an injection brings it, which changes no stored data (R352). An uncorrectable word of the
microcode halts the engine (R180). -/
def execFaultRaise (src : Fin 41) (detail : BitVec 16) (s : State) : Out State :=
  .next (if s.coreRuns ∧ s.levelHolds src then
    if src.val = 7 ∧ s.inMode .run then s.microBad detail.toNat
    else ((if src.val = 12 ∧ ¬ s.injects 12 then s.journalBadAt detail.toNat else s).conditionBits src true).checkerRaise src detail.toNat
  else s)

/-- The next scrub of memory `mem` is due (R340). -/
def State.scrubDue (s : State) (mem : Nat) : State :=
  let t := max (tget s.flt.scrubAt mem 0) s.eng.frameAt + 10 * engPerUs
  let s1 := s.due t
  { s1 with flt := { s1.flt with scrubAt := tset s1.flt.scrubAt mem 0 t } }

/-- What the scrub of word `a` of memory `mem` finds (R340, R353). -/
def State.scrubWord (s : State) (mem err a : Nat) : State :=
  match mem with
  | 0 =>
    if s.injects 2 || (err = 2 && !s.injects 3) then s.checkerRaise 2 a
    else if s.injects 3 || err = 1 then s.checkerRaise 3 a else s
  | 1 => if s.injects 6 || err = 2 then s.checkerRaise 6 a else s
  | 2 => if s.injects 5 || err ≠ 0 then s.checkerRaise 5 a else s
  | _ =>
    if s.injects 7 || err = 2 then
      s.microBad a
    else if err = 1 then s.incSatF F.ENG_STAT_CORR else s

/-- MEMORY_SCRUB: one word of a protected memory is scrubbed, 10 µs after the last or after the clocks started (R340): memory 0 supervisor RAM, 1 step store, 2 OTP shadow,
3 engine microcode; finding 0 no error, 1 corrected, 2 uncorrectable. An armed injection decides the finding (R353). -/
def execMemoryScrub (mem : Fin 4) (err : Fin 3) (addr : BitVec 16) (s : State) : Out State :=
  .next (if s.inMode .run then (s.scrubDue mem).scrubWord mem err addr.toNat else s)

/-- FAULT_LOG_RETRY: refused fault-log bodies are queued again 1 ms after the refusal (R351, R451). -/
def execFaultLogRetry (s : State) : Out State :=
  .next (if s.coreRuns ∧ ¬ s.inMode .boot ∧ s.logTokens < s.flt.bodies.length then (s.due s.flt.retryAt).logTokensFill else s)

/-- A write to `FLT_INJ` (R352). -/
def State.injWrite (s : State) (v : Nat) : State :=
  if bits v 16 16 = 0x1F3C then
    let src := v % 256
    if s.flag F.FLT_CFG_INJ_EN && s.inMode .run && !s.flag F.FLT_INJ_STAT_ARMED && !s.flag (F.OUT_G_STAT_ON 0) &&
       !s.flag (F.OUT_G_STAT_ON 1) && [2, 3, 4, 5, 6, 7, 8, 12].contains src then
      (({ s with flt := { s.flt with armedAt := s.now } } : State).set F.FLT_INJ_STAT_ARMED 1).set F.FLT_INJ_STAT_SRC src
    else s.set F.FLT_INJ_STAT_REFUSED 1
  else s

def execFltInjArm (v : Word) (s : State) : Out State := .next (s.bus 0x2C60 fun t => t.injWrite v.toNat)

/-- INJ_FAIL: the armed injection was not flagged within 1 ms (R353). -/
def execInjFail (s : State) : Out State :=
  .next (if s.flag F.FLT_INJ_STAT_ARMED then
    ((s.due (s.flt.armedAt + engPerMs)).set F.FLT_INJ_STAT_ARMED 0).raise 40 (s.get F.FLT_INJ_STAT_SRC) else s)

/-- A body copied into the word registers from address `a` on, one word for each 4 bytes. -/
def State.copyWords (s : State) (a n : Nat) (l : List Byte) : State :=
  forEach (List.range n) (fun j t => t.set (fr (a + 4 * j) 0 32 0) (leField l (4 * j) 4)) s

/-- A write to `FLT_LOG_IDX` copies the body into `FLT_LOG0` to `FLT_LOG3` (R350). Reading the journal is a check (R353); the injected error names
the area's first word. -/
def State.logIdxWrite (s : State) (v : Nat) : State :=
  ((s.set F.FLT_LOG_IDX_K v).injCheck 12 ((area 7).base)).copyWords 0x2C70 4 (s.bodyBack 7 (v % 256))

def execFltLogIdxWrite (v : Word) (s : State) : Out State := .next (s.bus 0x2C68 fun t => t.logIdxWrite v.toNat)

end Sys2Proof.Machine
end

