-- ==== Sys2Proof/Machine/RegStore.lean ====
section
/-! DEFINITION. Whole register words over the register map: assembling a word from its fields, and storing one by the access
codes (R1 to R4). -/

namespace Sys2Proof.Machine

/-- The reference to a field of the register at `a`. -/
def FieldRow.ref (a : Nat) (f : FieldRow) : FRef := ⟨a * 32 + f.lo, f.w, f.reset⟩

/-- The word that the stored fields of a register make; 0 where there is no register (R2, R3). -/
def State.rawWord (s : State) (a : Nat) : Nat :=
  match regFields a with
  | some l => l.foldl (fun w f => w + s.get (f.ref a) * 2 ^ f.lo) 0
  | none => 0

/-- The fields of one access code take their bits of `v`. -/
def State.storeAcc (s : State) (a v : Nat) (c : Acc) : State :=
  match regFields a with
  | some l => l.foldl (fun t f => if f.acc = c then t.set (f.ref a) (bits v f.lo f.w) else t) s
  | none => s

/-- The write-one-to-clear bits of `v` clear (R1). -/
def State.clearW1c (s : State) (a v : Nat) : State :=
  match regFields a with
  | some l => l.foldl (fun t f => if f.acc = .w1c then t.set (f.ref a) (andNot (t.get (f.ref a)) (bits v f.lo f.w)) else t) s
  | none => s

/-- Every RW and LK field of `v` has a value that its encoding lists (R4). -/
def encodable (a v : Nat) : Bool :=
  match regFields a with
  | some l => l.all fun f => !(decide (f.acc = .rw) || decide (f.acc = .lk)) || (decide (f.min ≤ bits v f.lo f.w) && decide (bits v f.lo f.w ≤ f.max))
  | none => true

/-- The register has a field of access code `c`. -/
def hasAcc (a : Nat) (c : Acc) : Bool :=
  match regFields a with
  | some l => l.any fun f => decide (f.acc = c)
  | none => false

/-- What becomes of a register write: taken, discarded as reserved (R4) or locked, or refused with RESOURCE_OWNED (R86). -/
inductive Verdict where
  | ok | discard | owned
  deriving DecidableEq, Repr

end Sys2Proof.Machine
end

