-- ==== Sys2Proof/Machine/Sources.lean ====
section
/-! DEFINITION. Set-point sources, profiles and anticipation (R183 to R203): what a slot does to form its target, and the commands
of tracking, hold and profile. -/

namespace Sys2Proof.Machine

/-- The source code in force (`STKn_SRC_STAT.ACT`). -/
def State.srcAct (s : State) (n : Nat) : Nat := s.get (F.STK_SRC_STAT_ACT n)

/-- The code of the slot's tracking input; none where it is invalid (R191, R192). -/
def State.trackCode (s : State) (n : Nat) : Option Nat :=
  let x := s.stk n
  if s.srcAct n = 1 then
    let l := tget s.track x.ain []
    if l.length = 8 ∧ l.all (fun c => decide (40 ≤ c ∧ c ≤ 4055)) then some (rshr (l.foldl (· + ·) 0 : Nat) 3).toNat else none
  else if s.srcAct n = 2 then
    if x.pulseValid ∧ s.now ≤ x.pulseEnd + 10240 then some x.pulseCode else none
  else none

/-- The source in force is a tracking source. -/
def State.tracks (s : State) (n : Nat) : Bool := decide (s.srcAct n = 1 ∨ s.srcAct n = 2)

/-- The tracking target of code `c`, and the filter state it leaves (R193). -/
def State.trackTarget (s : State) (n c : Nat) : Int × Int :=
  let x := s.stk n
  let k := s.get (F.STK_SRC_FLT n)
  let cf : Int := if k = 0 ∨ x.fresh then shl c 8 else x.cf + rshr (shl c 8 - x.cf) k
  (cf, sat (s.getS (F.STK_TRK_OFS n) + rshr (cf * s.get (F.STK_TRK_GAIN n)) 20) 2000 (s.get (F.STK_VSET_VSET n)))

/-- The STK_SRC_RETURN record (R203): hold has ended, `how` 0 by `RETURN`, 1 by a write, 2 by an enable. -/
def State.holdEnd (s : State) (n how : Nat) (t : Int) : State :=
  ((s.set (F.STK_SRC_STAT_HOLD n) 0).setStk n { s.stk n with badRun := 0, goodRun := 0, fresh := true }).emitX 3 n 3 6 0
    [(n, 1), (how, 1), (unsigned t 16, 2)]

/-- Hold ends by `RETURN`, with the preset of a source change (R195). -/
def State.holdReturn (s : State) (n : Nat) : State :=
  let s1 := (s.set (F.STK_SRC_STAT_RETURNED n) 1).holdEnd n 0 (s.stk n).tLast
  s1.setStk n { s1.stk n with preSource := true }

/-- The stack falls back to manual hold (R194). -/
def State.holdBegin (s : State) (n : Nat) : State :=
  let c := s.srcAct n - 1
  let s1 := ((s.set (F.STK_SRC_STAT_HOLD n) 1).set (F.STK_SRC_STAT_LOST n) 1).set (F.STK_SRC_STAT_LCAUSE n) c
  let s2 := s1.setStk n { s1.stk n with preSource := true, goodRun := 0 }
  (s2.emitX 3 n 3 5 (s.effColour 19) [(n, 1), (c, 1), (unsigned (s.stk n).tsHold 16, 2)]).raise 19 n

/-- With `RETURN` at 1 in hold, a slot with a valid input is the 64th in a row, the slot about to be counted included (R195). -/
def State.returnDue (s : State) (n : Nat) : Bool :=
  s.flag (F.STK_SRC_STAT_HOLD n) && s.flag (F.STK_SRC_RETURN n) && decide (64 ≤ (s.stk n).goodRun + 1)

/-- A slot with an invalid input is the `LOSS`-th in a row, the slot about to be counted included (R194). -/
def State.lossDue (s : State) (n : Nat) : Bool :=
  !s.flag (F.STK_SRC_STAT_HOLD n) && decide (s.get (F.STK_SRC_LOSS n) ≤ (s.stk n).badRun + 1)

/-- One slot of a tracking source: filter, held target, the runs of valid and invalid slots, and the hold that they end or begin in this slot where no
command has done so before it (R193 to R195). -/
def State.trackStep (s : State) (n : Nat) : State :=
  match s.trackCode n with
  | some c =>
    let s1 := if s.returnDue n then s.holdReturn n else s
    let x := s1.stk n
    if s1.flag (F.STK_SRC_STAT_HOLD n) then s1.setStk n { x with badRun := 0, goodRun := incSat x.goodRun 64 }
    else
      let r := s1.trackTarget n c
      s1.setStk n { x with cf := r.1, tsHold := r.2, fresh := false, badRun := 0, goodRun := incSat x.goodRun 64 }
  | none =>
    let s1 := if s.lossDue n then s.holdBegin n else s
    s1.setStk n { s1.stk n with badRun := incSat (s1.stk n).badRun 255, goodRun := 0 }

/-- NA and NJ of a profile: the field values plus one (R196). -/
def State.profNA (s : State) (n : Nat) : Nat := s.get (F.STK_PROF_NA n) + 1
def State.profNJ (s : State) (n : Nat) : Nat := s.get (F.STK_PROF_NJ n) + 1

/-- The move length in slots for a distance `d` (R197). -/
def State.profLength (s : State) (n d : Nat) : Nat :=
  (d + s.get (F.STK_PROF_VEL n) - 1) / s.get (F.STK_PROF_VEL n) + s.profNA n + s.profNJ n - 2

/-- The first check that a profile request for `v` fails (R197). -/
def State.profCheck (s : State) (n v : Nat) : Option Nat :=
  let l := s.profLength n ((v : Int) - (s.stk n).dest).natAbs
  if s.flag (F.STK_SRC_STAT_MOVE n) then some 0
  else if s.get (F.STK_PROF_DUR n) ≠ 0 ∧ s.get (F.STK_PROF_DUR n) < l then some 1
  else if 16 * tget s.otp.slew n 255 < s.get (F.STK_PROF_VEL n) then some 2
  else if s.vceil n < v then some 3
  else none

/-- The STK_PROF record (R203). -/
def State.emitProf (s : State) (n outcome cause v l : Nat) : State :=
  s.emitX 3 n 3 7 0 [(n, 1), (outcome, 1), (cause, 1), (0, 1), (v, 2), (min l 65535, 2)]

/-- A profile request for `v`; a rejection writes `back`, if given, into `STKn_VSET` (R197, R198). -/
def State.profRequest (s : State) (n v : Nat) (back : Option Nat) : State :=
  let l := s.profLength n ((v : Int) - (s.stk n).dest).natAbs
  match s.profCheck n v with
  | none =>
    ((s.set (F.STK_VSET_VSET n) v).set (F.STK_SRC_STAT_MOVE n) 1 |>.setStk n { s.stk n with dest := (v : Int), moveLeft := l, moveLen := l }).emitProf n 0 0 v l
  | some c =>
    let s1 := (s.set (F.STK_SRC_STAT_REJECT n) 1).set (F.STK_SRC_STAT_RCAUSE n) c
    let s2 := match back with
      | some b => s1.set (F.STK_VSET_VSET n) b
      | none => s1
    s2.emitProf n 2 c v l

/-- The generator at rest on `t0` (R196). -/
def State.profInitTo (s : State) (n : Nat) (t0 : Int) : State :=
  let x := s.stk n
  s.setStk n { x with
    dest := t0, pr := t0, ha := List.replicate (s.profNA n) t0, ka := 0, sa := s.profNA n * t0, hj := List.replicate (s.profNJ n) t0, kj := 0, sj := s.profNJ n * t0 }

/-- The generator is initialised to `t0`, and a request is made where `STKn_VSET` differs from it (R196); with `back` its rejection writes `t0` into
`STKn_VSET` (R198). -/
def State.profStart (s : State) (n : Nat) (t0 : Int) (back : Bool) : State :=
  let s1 := s.profInitTo n t0
  let s2 := s1.setStk n { s1.stk n with profInit := false }
  if (s2.get (F.STK_VSET_VSET n) : Int) = t0 then s2
  else s2.profRequest n (s2.get (F.STK_VSET_VSET n)) (if back then some t0.toNat else none)

/-- One slot of the generator (R196), and of the move in progress (R198). -/
def State.profStep (s : State) (n : Nat) : State × Int :=
  let x := s.stk n
  let na := s.profNA n
  let nj := s.profNJ n
  let v : Int := s.get (F.STK_PROF_VEL n)
  let r := x.pr + sat (x.dest - x.pr) (-v) v
  let sa := x.sa + r - x.ha.getD x.ka 0
  let u := tdiv (sa + (na / 2 : Nat)) na
  let sj := x.sj + u - x.hj.getD x.kj 0
  (s.setStk n { x with
    pr := r, sa := sa, ha := x.ha.set x.ka r, ka := (x.ka + 1) % na, sj := sj, hj := x.hj.set x.kj u, kj := (x.kj + 1) % nj, moveLeft := x.moveLeft - 1 },
    tdiv (sj + (nj / 2 : Nat)) nj)

/-- The selected source takes effect (R185, R193, R196), and a hold that began while it waited ends (R195): its pins, a fresh filter, and the held target at the T in force. The last pulse period counts
on where the stack keeps its pulse input (R192). A profile generator rests on the T in force; its request for `STKn_VSET` comes with the first slot that
computes, and a move in progress ends with no record (DESIGN CHOICE, log entry 46: R199 names disable and PARK entry alone). -/
def State.srcTake (s0 : State) (n : Nat) : State :=
  let kept := s0.srcAct n = 2 ∧ s0.get (F.STK_SRC_SRC n) = 2 ∧ s0.get (F.STK_SRC_PIN n) = (s0.stk n).pin
  let s := if s0.get (F.STK_SRC_SRC n) = 3 then s0.profInitTo n (s0.stk n).tLast else s0
  let x := { s.stk n with
    srcDue := false, ain := s.get (F.STK_SRC_AIN n), pin := s.get (F.STK_SRC_PIN n), fresh := true, badRun := 0, goodRun := 0,
    tsHold := (s.stk n).tLast, pulseValid := (s.stk n).pulseValid && decide kept, preSource := true, moveLeft := 0, profInit := decide (s.get (F.STK_SRC_SRC n) = 3) }
  let t := ((s.setStk n x).set (F.STK_SRC_STAT_ACT n) (s.get (F.STK_SRC_SRC n))).set (F.STK_SRC_STAT_MOVE n) 0
  if t.flag (F.STK_SRC_STAT_HOLD n) then t.holdEnd n 1 x.tLast else t

/-- A write of `STKn_SRC` is applied (R185, R195). -/
def State.srcWrite (s : State) (n a v : Nat) : State :=
  let s1 := s.storeAcc a v .rw
  let x := s1.stk n
  if s1.get (F.STK_SRC_SRC n) ≠ s1.srcAct n ∨ s1.get (F.STK_SRC_AIN n) ≠ x.ain ∨ s1.get (F.STK_SRC_PIN n) ≠ x.pin then
    let s2 := s1.setStk n { x with srcDue := true }
    if s2.flag (F.STK_SRC_STAT_HOLD n) then s2.holdEnd n 1 x.tLast else s2
  else s1.setStk n { x with srcDue := false }

/-- A new set-point reaches `STKn_VSET`: a request under a profile source, a plain value under another and in soft-start (R189, R197). In the slot that
starts the generator the value is the one that the generator's own request asks for (R196). -/
def State.vsetTake (s : State) (n v : Nat) (computes : Bool) : State :=
  if s.srcAct n = 3 ∧ ¬ s.flag (F.STK_STAT_SS n) ∧ ¬ (computes ∧ ((s.stk n).profInit ∨ (s.stk n).prePark)) then s.profRequest n v none
  else s.set (F.STK_VSET_VSET n) v

/-- A write of `STKn_VSET` is applied: staged, or taken (R189, R190). -/
def State.vsetWrite (s : State) (n v : Nat) (computes : Bool) : State :=
  if s.flag (F.STK_SRC_STAGE n) then s.setStk n { s.stk n with staged := some v } else s.vsetTake n v computes

/-- A write of `STKn_PROF` is applied (R199). The manual gives no destination and no length for the rejection of such a write. -/
def State.profWrite (s : State) (n a v : Nat) : State :=
  if s.flag (F.STK_SRC_STAT_MOVE n) then
    let d := s.draw
    let e := d.2.draw
    (((e.2.set (F.STK_SRC_STAT_REJECT n) 1).set (F.STK_SRC_STAT_RCAUSE n) 0).emitProf n 2 0 (d.1 % 65536) (e.1 % 65536))
  else
    let na := s.profNA n
    let nj := s.profNJ n
    let s1 := s.storeAcc a v .rw
    if (na ≠ s1.profNA n ∨ nj ≠ s1.profNJ n) ∧ s1.srcAct n = 3 ∧ ¬ (s1.stk n).profInit ∧ ¬ (s1.stk n).prePark then
      (if s1.flag (F.STK_STAT_SS n) then s1.profInitTo n (s1.stk n).dest else s1.profStart n (s1.stk n).dest false)
    else s1

/-- A staged set-point that has been fired is applied in a computing slot; a fire with nothing staged by the end of its slot has done nothing (R190). -/
def State.stagedApply (s : State) (n : Nat) (computes : Bool) : State :=
  let x := s.stk n
  if x.fired then
    match x.staged with
    | some v => if computes then (s.setStk n { x with fired := false, staged := none }).vsetTake n v true else s
    | none => s.setStk n { x with fired := false }
  else s

/-- The soft-start target of the enable slot, with the state that its input leaves (R188, R193). -/
def State.startTarget (s : State) (n : Nat) : State × Int :=
  let v : Int := s.get (F.STK_VSET_VSET n)
  if s.tracks n then
    let s1 := (s.setStk n { s.stk n with tsHold := v }).trackStep n
    (s1, (s1.stk n).tsHold)
  else (s, v)

/-- The value of the soft-start ramp in slot `k` of it (R153). -/
def rampAt (a b : Int) (k slots : Nat) : Int := min b (a + tdiv (b * k) slots)

/-- The enable slot (R153, R188): the source in force is the selected one, hold ends, and the ramp starts at s. -/
def State.enableSlot (s : State) (n : Nat) : State :=
  let hold := s.flag (F.STK_SRC_STAT_HOLD n)
  let s0 := if hold then s.set (F.STK_SRC_STAT_HOLD n) 0 else s
  let s1 := if (s0.stk n).srcDue then s0.srcTake n else s0
  let s2 := s1.setStk n { s1.stk n with fresh := true, badRun := 0, goodRun := 0 }
  let r := s2.startTarget n
  let x := r.1.stk n
  let st : Int := min (min x.ssFrom r.2) (r.1.vceil n)
  let s3 := r.1.setStk n { x with ssFrom := st, ssTo := r.2, ssSlot := 0, profInit := false }
  if hold then s3.emitX 3 n 3 6 0 [(n, 1), (2, 1), (unsigned st 16, 2)] else s3

/-- The source of a slot is updated (R186 step 3): the tracking source, which the enable slot has updated already, and the profile generator, in every
computing slot (R193, R196). The target that the source gives comes with it. -/
def State.sourceStep (s : State) (n : Nat) : State × Int :=
  let x := s.stk n
  if s.tracks n then
    let s1 := if x.preEnable then s else s.trackStep n
    (s1, (s1.stk n).tsHold)
  else if s.srcAct n = 3 then (if x.profInit then s.profStart n x.tLast true else s).profStep n
  else (s, s.get (F.STK_VSET_VSET n))

/-- The target T of a slot and the state that forming it leaves (R186 step 3): soft-start ramp, ramp-down, or the source target. -/
def State.slotTarget (s : State) (n : Nat) : State × Int :=
  let slots := ssSlots (s.get (F.STK_PROT_SS n))
  let r := s.sourceStep n
  let x := r.1.stk n
  if s.flag (F.STK_STAT_SS n) then (r.1.setStk n { x with ssSlot := x.ssSlot + 1 }, rampAt x.ssFrom x.ssTo x.ssSlot slots)
  else if x.rampDown then (r.1.setStk n { x with ssSlot := x.ssSlot + 1 }, max 0 (x.ssFrom - tdiv (x.ssTo * x.ssSlot) slots))
  else r

/-- The tiles that anticipation adds join at once (R200). -/
def State.preAdd (s : State) (n : Nat) : State :=
  let old := s.get (F.STK_STAT_NACT n)
  let new := max old (min (s.tileCount n) (s.get (F.STK_ANT_TILES n)))
  let s1 := s.setStk n { s.stk n with antAdded := true }
  if new = old then s1
  else ((((s1.tilesJoin n old new).set (F.STK_STAT_NACT n) new).incWrapF (F.STK_CNT_ADD n)).shedRest n).emitPhase n new old 2

/-- The next transmit run begins within the lead of stack `n` (R200). -/
def State.runNear (s : State) (n : Nat) : Bool :=
  match s.nextTransmit with
  | some d => decide (d ≤ 16 * s.get (F.STK_ANT_LEAD n))
  | none => false

/-- Anticipation in a slot (R200): its state, whether the preload is due, and the kick. -/
def State.antSlot (s : State) (n : Nat) : State × Bool × Bool :=
  let x := s.stk n
  let live := s.mapsLive && decide (s.get (F.STK_ANT_LEAD n) ≠ 0) && s.flag (F.STK_STAT_PG n) && !s.flag (F.STK_STAT_SS n)
  if x.ant then
    if !live then (s.antEnd n, false, false)
    else if s.segAt s.seg = 1 then
      let s1 := s.setStk n { x with antRun := true, antLead := false, antAdded := true }
      let s2 := if x.antAdded then s1
        else (s1.set (F.STK_SRC_STAT_ANT_MISS n) 1).emitX 3 n 3 8 0 [(n, 1), (s.get (F.STK_STAT_NACT n), 1), (x.antPip, 2)]
      (s2, false, !x.antRun)
    else if s.runNear n then
      let s1 := s.setStk n { x with antRun := false }
      (if x.antAdded ∨ ¬ s.freeRun then s1 else s1.preAdd n, false, false)
    else (s.antEnd n, false, false)
  else if live && s.runNear n then
    let d := match s.nextTransmit with
      | some k => k
      | none => 0
    let s1 := (s.setStk n { x with
      ant := true, antRun := false, antLead := true, antAdded := decide (s.get (F.STK_ANT_TILES n) = 0), antPip := (s.pip + d) % 65536, shedDwell := 0, addDwell := 0 }).set (F.STK_SRC_STAT_ANT n) 1
    (if (s1.stk n).antAdded ∨ ¬ s.freeRun then s1 else s1.preAdd n, true, false)
  else (s, false, false)

/-- TRACK_CONVERSION: a tracking converter delivers a code (R191); it converts only while STK owns its pin. -/
def execTrackConversion (m : Fin 4) (code : Fin 4096) (s : State) : Out State :=
  .next (if s.inMode .run ∧ s.ownedBy 3 m 3 then
    { s with track := tset s.track m [] (((code : Nat) :: tget s.track m []).take 8) }
  else s)

/-- PULSE_PERIOD_END: a complete period of `p` ENG periods, `h` of them high, ends on a pulse-width GPIO (R192). -/
def execPulsePeriodEnd (k : Fin 12) (p h : Nat) (s : State) : Out State :=
  .next (if s.inMode .run then
    forEach (List.range 16) (fun n t =>
      let x := t.stk n
      if t.srcAct n = 2 ∧ x.pin = k then
        t.setStk n { x with
          pulseCode := min (h * 4096 / p) 4095, pulseValid := decide (80 ≤ p ∧ p ≤ 8000 ∧ 1 ≤ h ∧ h ≤ p - 1), pulseEnd := s.now }
      else t) s
  else s)

/-- The stack's next slot computes with the tracking input in force: no enable, source change or mailbox operation comes first (R186, R194, R195). Where one
does, the slot itself judges the input. -/
def State.tracksOn (s : State) (n : Nat) : Bool :=
  s.slotComputes n && s.tracks n && !(s.stk n).preEnable && !(s.stk n).srcDue && s.mbx.all fun q => decide (q.stack ≠ n)

/-- MANUAL_HOLD: the slot about to compute is the `LOSS`-th with an invalid input (R194). -/
def execManualHold (n : Fin 16) (s : State) : Out State :=
  .next (if s.tracksOn n ∧ s.trackCode n = none ∧ s.lossDue n then s.holdBegin n else s)

/-- SOURCE_RETURN: with `RETURN` at 1, the slot about to compute is the 64th with a valid input (R195). -/
def execSourceReturn (n : Fin 16) (s : State) : Out State :=
  .next (if s.tracksOn n ∧ s.trackCode n ≠ none ∧ s.returnDue n then s.holdReturn n else s)

/-- PROFILE_DONE: the last slot of a move has been computed (R198). -/
def execProfileDone (n : Fin 4) (s : State) : Out State :=
  .next (if s.flag (F.STK_SRC_STAT_MOVE n) ∧ (s.stk n).moveLeft = 0 then
    ((s.set (F.STK_SRC_STAT_MOVE n) 0).set (F.STK_SRC_STAT_PDONE n) 1).emitProf n 1 0 (unsigned (s.stk n).dest 16) (s.stk n).moveLen
  else s)

end Sys2Proof.Machine
end

