-- ==== Sys2Proof/Machine/Engine.lean ====
section
/-! DEFINITION. The stack control engine (R160 to R182): stack mailboxes, the slot with its four loops, presets and flags, and the
commands of the engine. -/

namespace Sys2Proof.Machine

/-- XMAX of R168. -/
def xMax : Int := 851968000

/-- Stack and offset of an address of the STK block, or stack and ENG offset plus 0x100 of a per-stack ENG register. -/
def stackOf (a : Nat) : Option (Nat × Nat) :=
  if 0xC00 ≤ a ∧ a < 0x1000 then some ((a - 0xC00) / 0x40, (a - 0xC00) % 0x40)
  else if 0x1040 ≤ a ∧ a < 0x1340 then some ((a - 0x1040) / 0x30, 0x100 + (a - 0x1040) % 0x30)
  else none

/-- A write of `STKn_ENG_CTRL` is applied: a change of `MODE` makes its preset due (R175, R177). In a slot that does not compute it stays due until the
first one that does (R163), where the load of `MAN` replaces what a later write has brought (DESIGN CHOICE, log entry 46: R177 does not say). -/
def State.ctrlWrite (s : State) (n a v : Nat) : State :=
  let old := s.flag (F.STK_ENG_CTRL_MODE n)
  let s1 := s.storeAcc a v .rw
  let new := s1.flag (F.STK_ENG_CTRL_MODE n)
  let x := s1.stk n
  if !old && new then s1.setStk n { x with preManual := true, preAuto := false }
  else if old && !new then s1.setStk n { x with preAuto := true, preManual := false }
  else s1

/-- One word of a mailbox operation is applied. -/
def State.mbxWord (s : State) (n a v : Nat) (computes : Bool) : State :=
  match stackOf a with
  | some (_, o) =>
    if o = 0 then s.vsetWrite n (v % 2 ^ 15) computes
    else if o = 0x2C then s.srcWrite n a v
    else if o = 0x34 then s.profWrite n a v
    else if o = 0x38 then
      let s1 := s.storeAcc a v .rw
      if s1.get (F.STK_ANT_LEAD n) = 0 then s1.antEnd n else s1
    else if o = 0x100 then s.ctrlWrite n a v
    else s.storeAcc a v .rw
  | none => s

/-- An operation takes the mailbox of its stack, or waits for it (R10, R12), with the check of the credit (R353). -/
def State.mbxPush (s : State) (o : MbxOp) : State :=
  (if s.mbx.any (fun q => decide (q.stack = o.stack)) ∨ s.mbxWait.any (fun q => decide (q.stack = o.stack)) then
    ({ s with mbxWait := s.mbxWait ++ [o] } : State).set F.SYS_CREDIT_WAIT_MBX 1
  else { s with mbx := s.mbx ++ [o] }).injCheck 8 0

/-- Period 0 of a slot: the mailbox operation is applied, its credit returns, and the next waiting operation enters (R163). -/
def State.mbxApply (s : State) (n : Nat) (computes : Bool) : State :=
  match s.mbx.find? fun q => decide (q.stack = n) with
  | none => s
  | some o =>
    let s1 := o.writes.foldl (fun t w => t.mbxWord n w.1 w.2 computes) s
    let s2 := ({ s1 with mbx := s1.mbx.filter fun q => decide (q.stack ≠ n) } : State).frameDone o.frame
    match s2.mbxWait.find? fun q => decide (q.stack = n) with
    | none => s2
    | some q => { s2 with mbx := s2.mbx ++ [q], mbxWait := s2.mbxWait.erase q }

/-- The pack supplies `PMID` as the engine sees it: a change acts on the slots that start 2 µs or more after it (R268). -/
def State.slotSrc (s : State) : Bool :=
  if s.now < s.pp.srcAt + 2 * engPerUs then !s.flag F.PP_FE_STAT_SRC else s.flag F.PP_FE_STAT_SRC

/-- The stack's output-power budget (R268). -/
def State.powerBudget (s : State) (n : Nat) : Int :=
  let sh := s.get (fr (0x1C18 + 4 * (n / 4)) (8 * (n % 4)) 8 0)
  if s.flag F.PP_BUDGET_EN ∧ s.slotSrc ∧ sh ≠ 0 then rshr (s.get F.PP_BUDGET_PMAX * sh : Nat) 8 else 32767

/-- Gain register fields of loop `k`, 0 to 3 for V, C, T and P (R168). -/
def State.loopKP (s : State) (n k : Nat) : Int :=
  s.get ([F.STK_ENG_GV_KP n, F.STK_ENG_GC_KP n, F.STK_ENG_GT_KP n, F.STK_ENG_GP_KP n].getD k (F.STK_ENG_GV_KP n))
def State.loopKI (s : State) (n k : Nat) : Int :=
  s.get ([F.STK_ENG_GV_KI n, F.STK_ENG_GC_KI n, F.STK_ENG_GT_KI n, F.STK_ENG_GP_KI n].getD k (F.STK_ENG_GV_KI n))
def State.loopSP (s : State) (n k : Nat) : Nat :=
  s.get ([F.STK_ENG_SHIFT_SP_V n, F.STK_ENG_SHIFT_SP_C n, F.STK_ENG_SHIFT_SP_T n, F.STK_ENG_SHIFT_SP_P n].getD k (F.STK_ENG_SHIFT_SP_V n))
def State.loopSI (s : State) (n k : Nat) : Nat :=
  s.get ([F.STK_ENG_SHIFT_SI_V n, F.STK_ENG_SHIFT_SI_C n, F.STK_ENG_SHIFT_SI_T n, F.STK_ENG_SHIFT_SI_P n].getD k (F.STK_ENG_SHIFT_SI_V n))
def State.loopOn (s : State) (n k : Nat) : Bool :=
  match k with
  | 0 => true
  | 1 => s.flag (F.STK_ENG_CTRL_CLOOP n)
  | 2 => s.flag (F.STK_ENG_CTRL_TLOOP n)
  | _ => s.flag (F.STK_ENG_CTRL_PLOOP n)

/-- The integrator of loop `k`. -/
def Stack.xOf (x : Stack) (k : Nat) : Int := if k = 0 then x.xV else if k = 1 then x.xC else if k = 2 then x.xT else x.xP
def Stack.setX (x : Stack) (k : Nat) (v : Int) : Stack :=
  if k = 0 then { x with xV := v } else if k = 1 then { x with xC := v } else if k = 2 then { x with xT := v } else { x with xP := v }

/-- The error of loop `k` and whether its `sat16` changed it (R168). -/
def State.loopErr (s : State) (n k : Nat) (e i : Int) : Int × Bool :=
  let c (v : Int) : Int × Bool := (sat16 v, decide (sat16 v ≠ v))
  match k with
  | 0 => (e, false)
  | 1 => c (s.get (F.STK_ENG_LIM_ILIM n) - i)
  | 2 => c (rshr ((s.get (F.STK_ENG_LIM_ITH n) : Int) * (32768 - s.slotTh)) 15 - i)
  | _ => c (s.powerBudget n - sat16 (rshr (((s.stk n).vcmpLast - e) * i) 15))

/-- The proportional term of loop `k` and whether its `sat40` changed it. -/
def State.loopProp (s : State) (n k : Nat) (err : Int) : Int × Bool :=
  let p := shl (s.loopKP n k * err) (s.loopSP n k)
  (sat40 p, decide (sat40 p ≠ p))

/-- The proposal of loop `k` and whether its `sat16` changed it (R168). -/
def proposal (x p : Int) : Int × Bool :=
  let r := rshr (sat40 (x + p)) 15
  (sat16 r, decide (sat16 r ≠ r))

/-- The winner among four proposals (R169). -/
def State.selectLoop (s : State) (n : Nat) (r : Nat → Int) : Nat :=
  [1, 2, 3].foldl (fun w k => if s.loopOn n k ∧ r k < r w then k else w) 0

/-- The new integrator of loop `k` and whether a saturation that R178 counts changed its value (R170). -/
def State.integrate (s : State) (n k win : Nat) (x err lo hi : Int) (manual lead : Bool) : Int × Bool :=
  if k = 0 ∧ manual then (x, false)
  else if ¬ s.loopOn n k then (hi, false)
  else
    let d0 := shl (s.loopKI n k * err) (s.loopSI n k)
    let d := sat40 d0
    if k = win then
      let d' := if k = 0 ∧ lead ∧ d < 0 then 0 else d
      (sat (x + d') 0 xMax, decide (d ≠ d0) || decide (sat (x + d') 0 xMax ≠ x + d'))
    else (sat (if d < 0 then x + d else x) lo hi, decide (d ≠ d0))

/-- The presets of a slot: which event, 0 enable, 1 PARK exit, 2 source change, 4 to automatic (R175, R177). A source change and a change to automatic
that make one preset are reported as the source change (DESIGN CHOICE, log entry 46: R181 does not say). -/
def Stack.presetKind (x : Stack) : Option Nat :=
  if x.preEnable then some 0 else if x.prePark then some 1 else if x.preSource then some 2 else if x.preAuto then some 4 else none

/-- The ENG_PRESET record and flag (R175, R181). -/
def State.emitPreset (s : State) (n kind : Nat) : State :=
  (s.set (F.STK_ENG_FLAGS_PRESET n) 1).emitX 3 n 4 3 0 [(n, 1), (kind, 1), (unsigned (s.stk n).dLast 16, 2)]

/-- At entry to manual mode, `MAN` takes the reference in force where `MAN_TRK` says so (R175). -/
def State.manTrack (s : State) (n : Nat) (due : Bool) : State :=
  if due ∧ s.flag (F.STK_ENG_CTRL_MAN_TRK n) then s.setS (F.STK_ENG_CTRL_MAN n) (s.stk n).dLast else s

/-- The preset of entry to manual mode (R175). -/
def State.manualPreset (s : State) (n : Nat) : State :=
  let x := s.stk n
  if x.preManual then ((s.setStk n { x with preManual := false }).manTrack n true).emitPreset n 3 else s

/-- The preset of x[V] and its companions, with this slot's e and i (R175). An enable preset includes that of manual mode (R177); its record reports s as
d_last (DESIGN CHOICE, log entry 46: R181 does not say which d_last it means). -/
def State.loopPreset (s : State) (n : Nat) (e i : Int) : State :=
  let x := s.stk n
  let pV := (s.loopProp n 0 e).1
  let h (b : Int) : Int := shl (min (b + 8 * s.get (F.STK_ENG_CTRL_HDRM n)) 26000) 15
  let y := { x with
    preEnable := false, prePark := false, preSource := false, preAuto := false }
  match x.presetKind with
  | none => s
  | some 0 =>
    let v := x.ssFrom
    (s.setStk n { y with
      xV := shl v 15, xC := h v, xT := h v, xP := h v, nx1 := v, nx2 := v, ny1 := v, ny2 := v, iLast := i, vcmpLast := v, vcmpDac := v, dLast := v, preManual := false }).manTrack n x.preManual |>.emitPreset n 0
  | some 1 =>
    let d := x.dLast
    (s.setStk n { y with
      xV := sat (shl d 15 - pV) 0 xMax, xC := h d, xT := h d, xP := h d, nx1 := d, nx2 := d, ny1 := d, ny2 := d, iLast := i }).emitPreset n 1
  | some k => (s.setStk n { y with xV := sat (shl x.dLast 15 - pV) 0 xMax }).emitPreset n k

/-- Target feed-through into x[V] (R187). -/
def State.feedThrough (s : State) (n : Nat) (t tPrev : Int) (preset : Bool) : State :=
  let x := s.stk n
  if s.flag (F.STK_SRC_TFF n) ∧ ¬ preset ∧ ¬ s.flag (F.STK_ENG_CTRL_MODE n) then
    s.setStk n { x with xV := sat (x.xV + shl (t - tPrev) 15) 0 xMax } else s

/-- The anticipation preload of x[V] (R200). -/
def State.preload (s : State) (n : Nat) (due : Bool) : State :=
  let x := s.stk n
  if due ∧ ¬ s.flag (F.STK_ENG_CTRL_MODE n) then
    s.setStk n { x with xV := sat (x.xV + shl (s.getS (F.STK_ANT_PRELOAD n)) 15) 0 xMax } else s

/-- The notch: its output, its states, and whether a saturation changed a value (R172). -/
def State.notch (s : State) (n : Nat) (x : Stack) (rsel : Int) : Int × Stack × Bool :=
  if s.flag (F.STK_ENG_CTRL_NOTCH_EN n) then
    let a := s.getS (F.STK_ENG_N0_B0 n) * rsel + s.getS (F.STK_ENG_N0_B1 n) * x.nx1 + s.getS (F.STK_ENG_N1_B2 n) * x.nx2 -
      s.getS (F.STK_ENG_N1_A1 n) * x.ny1 - s.getS (F.STK_ENG_N2_A2 n) * x.ny2
    let b := shl (sat40 a) (s.get (F.STK_ENG_SHIFT_NSH n))
    let y := rshr (sat40 b) 15
    (sat16 y, { x with nx2 := x.nx1, nx1 := rsel, ny2 := x.ny1, ny1 := sat16 y }, decide (sat40 a ≠ a) || decide (sat40 b ≠ b) || decide (sat16 y ≠ y))
  else (rsel, { x with nx1 := rsel, nx2 := rsel, ny1 := rsel, ny2 := rsel }, false)

/-- Feed-forward: its value and whether a saturation changed one (R173). -/
def State.feedForward (s : State) (n win : Nat) (i iLast aoff : Int) : Int × Bool :=
  if win = 0 ∧ ¬ s.flag (F.STK_ENG_CTRL_MODE n) then
    let a := shl (s.get (F.STK_ENG_N2_KFF n) * (i - iLast)) (s.get (F.STK_ENG_SHIFT_SFF n))
    let f := rshr (sat40 a) 15
    let g : Int × Bool := if s.flag (F.STK_ENG_CTRL_FF_EN n) then (sat16 f, decide (sat40 a ≠ a) || decide (sat16 f ≠ f)) else (0, false)
    (sat16 (g.1 + aoff), g.2 || decide (sat16 (g.1 + aoff) ≠ g.1 + aoff))
  else (0, false)

/-- The hardware ceilings on a value written to the reference DAC (R201). -/
def State.dacWrite (s : State) (n : Nat) (prev out : Int) : Int :=
  let st : Int := 16 * tget s.otp.slew n 255
  min (sat out (prev - st) (prev + st)) (s.vceil n)

/-- The load-line drop and V_CMP before its clamp (R171). -/
def State.loadLine (s : State) (n : Nat) (t i : Int) : Int × Int :=
  let llc := (s.get (F.STK_LL_LL n) * 1048576 + 50000) / 100000
  let drop := rshr (max i 0 * llc) 20
  (drop, t - drop)

/-- `STKn_ENG_FLAGS` [7:0] (R178). -/
def State.engFlags (s : State) (n : Nat) : Nat := s.rawWord (0x106C + 0x30 * n) % 256

/-- A sticky flag bit of `STKn_ENG_FLAGS` is set where `b`. -/
def State.engFlag (s : State) (n k : Nat) (b : Bool) : State := if b then s.set (fr (0x106C + 0x30 * n) k 1 0) 1 else s

/-- The ENG_LIMIT record of the takeovers counted within the millisecond after the last one, which starts a new one at `t` (R181). -/
def State.limitMade (s : State) (n t : Nat) : State :=
  let x := s.stk n
  (s.setStk n { x with limCount := 0, limAt := t }).emitX 3 n 4 1 0 [(n, 1), (x.limLoop, 1), (x.limCount, 2), (unsigned x.limRef 16, 2)]

/-- A takeover by a ceiling loop: counted within the millisecond after a record, or a record at once (R181). Takeovers whose millisecond has ended are
recorded first. -/
def State.takeover (s0 : State) (n win : Nat) (ref : Int) : State :=
  let t := (s0.stk n).limAt + engPerMs
  let s := if (s0.stk n).limOpen ∧ (s0.stk n).limCount ≠ 0 ∧ t < s0.now then s0.limitMade n t else s0
  let x := s.stk n
  if x.limOpen ∧ s.now ≤ x.limAt + engPerMs then
    s.setStk n { x with
      limCount := incSat x.limCount 65535, limLoop := if x.limCount = 0 then win else x.limLoop, limRef := if x.limCount = 0 then ref else x.limRef }
  else (s.setStk n { x with limOpen := true, limCount := 0, limAt := s.now }).emitX 3 n 4 1 0 [(n, 1), (win, 1), (1, 2), (unsigned ref 16, 2)]

/-- Periods 1 to 19 of a computing slot, after presets, feed-through and preload (R161, R168 to R178). `vcmp` is kept as vcmp_last and shown as the engine
writes it; the comparison DAC limits what it holds by VCEIL (R174, R202; DEDUCED, log entry 46). The `sat16` of the sum of the notch output and the feed-forward
is none of those that set `FSAT` (DESIGN CHOICE, log entry 46: R178 does not say). -/
def State.slotLoops (s : State) (n : Nat) (e i t aoff : Int) : State :=
  let x := s.stk n
  let man := s.flag (F.STK_ENG_CTRL_MODE n)
  let er (k : Nat) : Int × Bool := s.loopErr n k e i
  let pr (k : Nat) : Int × Bool := s.loopProp n k (er k).1
  let rr (k : Nat) : Int × Bool := proposal (x.xOf k) (pr k).1
  let r (k : Nat) : Int := if k = 0 ∧ man then s.get (F.STK_ENG_CTRL_MAN n) else (rr k).1
  let win := s.selectLoop n r
  let rsel := r win
  let base := sat rsel 0 26000
  let lo := shl base 15
  let hi := shl (min (base + 8 * s.get (F.STK_ENG_CTRL_HDRM n)) 26000) 15
  let g (k : Nat) : Int × Bool := s.integrate n k win (x.xOf k) (er k).1 lo hi man (x.ant && x.antLead)
  let bad (k : Nat) : Bool := (er k).2 || (pr k).2 || (rr k).2 || (g k).2
  let ll := s.loadLine n t i
  let vcmp := sat ll.2 0 26000
  let nt := s.notch n x rsel
  let ff := s.feedForward n win i x.iLast aoff
  let y := sat16 (nt.1 + ff.1)
  let out := sat y 0 26000
  let dac := s.dacWrite n x.dLast out
  let x1 := { nt.2.1 with
    xV := (g 0).1, xC := (g 1).1, xT := (g 2).1, xP := (g 3).1, iLast := i, vcmpLast := vcmp, vcmpDac := min vcmp (s.vceil n), dLast := dac, lastWin := some win,
    rV := r 0, rC := r 1, rT := r 2, rP := r 3, ffLast := ff.1, dropLast := ll.1, pbLast := s.powerBudget n, thLast := s.slotTh, tLast := t }
  let before := s.engFlags n
  let s1 := (((s.setStk n x1).set (F.STK_ENG_STAT_WIN n) win).setS (F.STK_ENG_STAT_DAC n) dac).setS (F.STK_ENG_STAT_VCMP n) vcmp |>.setS (F.STK_SRC_STAT_T n) t
  let s2 := (((s1.engFlag n 0 (bad 0)).engFlag n 1 (bad 1)).engFlag n 2 (bad 2)).engFlag n 3 (bad 3)
  let s3 := (((s2.engFlag n 4 nt.2.2).engFlag n 5 ff.2).engFlag n 6 (decide (out ≠ y) || decide (dac ≠ out))).engFlag n 7 (decide (vcmp ≠ ll.2))
  let s4 := s3.engFlag n (8 + win) true
  let s5 := if before = 0 ∧ s4.engFlags n ≠ 0 then s4.emitX 3 n 4 2 0 [(n, 1), (s4.engFlags n, 1), (unsigned dac 16, 2)] else s4
  if win ≠ 0 ∧ x.lastWin = some 0 then s5.takeover n win dac else s5

/-- A computing slot of stack `n` (R186): staged set-point, target, presets, feed-through, anticipation, loops. -/
def State.slotCompute (s : State) (n : Nat) (e i : Int) : State :=
  let s1 := s.stagedApply n true
  let x1 := s1.stk n
  let s2 := if x1.preEnable then s1.enableSlot n
    else if x1.srcDue ∧ ¬ s1.flag (F.STK_STAT_SS n) then s1.srcTake n else s1
  let s3 := if (s2.stk n).prePark then
      ((s2.tilesJoin n 0 (s2.tileCount n)).set (F.STK_STAT_NACT n) (s2.tileCount n)).setStk n
        { s2.stk n with profInit := decide (s2.srcAct n = 3) }
    else s2
  let tPrev := (s3.stk n).tLast
  let en := (s3.stk n).preEnable
  let tg := s3.slotTarget n
  let e1 := if en then 0 else e
  let kind := (tg.1.stk n).presetKind
  let s4 := (tg.1.loopPreset n e1 i).manualPreset n
  let s5 := s4.feedThrough n tg.2 tPrev kind.isSome
  let a := s5.antSlot n
  let s6 := a.1.preload n a.2.1
  let s7 := s6.slotLoops n e1 i tg.2 (if a.2.2 then s6.getS (F.STK_ANT_AOFF n) else 0)
  s7.putBitF F.ENG_STAT_ACTIVE n true

/-- Slots within and beyond `PG_WIN`, for power-good (R154). -/
def State.pgSlot (s : State) (n : Nat) (e : Int) (esat : Bool) : State :=
  let x := s.stk n
  if s.flag (F.STK_STAT_EN n) ∧ ¬ s.flag (F.STK_STAT_SS n) then
    let w : Int := 25 * s.get (F.STK_PROT_PG_WIN n)
    let inside := decide (-w ≤ e) && decide (e ≤ w)
    s.setStk n { x with
      pgIn := if inside && !esat then incSat x.pgIn 8 else 0, pgOut := if esat then 2 else if inside then 0 else incSat x.pgOut 2 }
  else s.setStk n { x with pgIn := 0, pgOut := 0 }

/-- The shedding logic in a slot: dwells while it is armed, and the wait or the end of a due change (R147 to R150). -/
def State.shedSlot (s : State) (n : Nat) : State :=
  let x := s.stk n
  if s.shedRuns n then
    let c := s.shedCond n
    let a := s.addCond n
    let y := if x.ant ∨ ¬ s.shedArmed n then { x with shedDwell := 0, addDwell := 0 }
      else { x with
        shedDwell := if c then incSat x.shedDwell 65535 else 0, addDwell := if a then incSat x.addDwell 255 else 0 }
    if x.due = 0 then s.setStk n y
    else if (x.due = 1 ∧ ¬ c) ∨ (x.due = 2 ∧ ¬ a) then (s.setStk n { y with due := 0 }).set (F.STK_STAT_HOLD n) 0
    else (s.setStk n y).phaseWait n
  else if x.due = 0 ∧ x.shedDwell = 0 ∧ x.addDwell = 0 then s
  else s.shedRest n

/-- The next slot of stack `n`, counted from the restart of the frame counter: the first that has neither run nor ended (R160). -/
def State.nextSlot (s : State) (n : Nat) : Nat :=
  let f := (s.now - s.eng.frameAt) / 320
  if s.eng.slots ≤ 16 * f + n ∧ s.now < s.eng.frameAt + 320 * f + 20 * n + 20 then 16 * f + n else 16 * (f + 1) + n

/-- The slot of stack `n` starts at its place in the engine frame (R160). -/
def State.slotTime (s : State) (n : Nat) : State :=
  let k := s.nextSlot n
  let t := s.due (s.eng.frameAt + 320 * (k / 16) + 20 * n)
  { (t.setStk n { t.stk n with slotAt := t.now, slotFree := t.freeRun }) with eng := { t.eng with slots := k + 1 } }

/-- The microcode fetches of a slot: `corr` single-bit errors are corrected and counted (R180); an armed injection finds its error, at a word that the
manual leaves open, and halts the engine (R353). -/
def State.slotFetch (s : State) (corr : Nat) : State :=
  let t := s.addSatF F.ENG_STAT_CORR corr
  if t.injects 7 then
    let d := t.draw
    (d.2.engHalt (d.1 % 4096) 0).checkerRaise 7 (d.1 % 4096)
  else t

/-- What a slot that does not compute does (R163, R177): a source change that is due, a staged value, and the end of anticipation where the maps are no longer in
force (R200). -/
def State.slotRest (s : State) (n : Nat) : State :=
  let t := if (s.stk n).srcDue ∧ ¬ s.flag (F.STK_STAT_SS n) then s.srcTake n else s
  let u := if (t.stk n).ant ∧ ¬ t.mapsLive then t.antEnd n else t
  (u.stagedApply n false).putBitF F.ENG_STAT_ACTIVE n false

/-- ENGINE_SLOT: the slot of stack `n` runs at its time, with the error and current that its converters deliver (R136, R137, R160, R161, R163) and the number
`corr` of microcode errors that its fetches correct. A halt in the slot suppresses its DAC write (R177). Anticipation ends at any slot, computing or not, at
which the maps are no longer in force (R200). -/
def execEngineSlot (n : Fin 16) (e i : Int) (corr : Nat) (s : State) : Out State :=
  .next (if s.inMode .run then
    let s0 := s.slotTime n
    if s0.tileCount n = 0 then s0
    else
      let e1 := sat e (-2048) 2047
      let i1 := sat i (-32767) 32767
      let s1 := if e1 ≠ e then s0.set (F.STK_STAT_ESAT n) 1 else s0
      let s2 := if i1 ≠ i then s1.set (F.STK_STAT_ISAT n) 1 else s1
      let s3 := s2.setStk n { s2.stk n with iNow := i1 }
      let s4 := s3.mbxApply n (s3.slotComputes n)
      let s5 := if s4.slotComputes n then s4.slotFetch corr else s4
      let s6 := if s5.slotComputes n then s5.slotCompute n e1 i1 else s5.slotRest n
      (s6.pgSlot n e1 (decide (e1 ≠ e))).shedSlot n
  else s)

/-- Word `w` of a mailbox operation selects pulse tracking on GPIO `pin` for stack `m` (R184). -/
def selectsPulse (m pin : Nat) (w : Nat × Nat) : Bool := decide (w.1 = 0x0C2C + 0x40 * m) && decide (bits w.2 0 3 = 2) && decide (bits w.2 8 4 = pin)

/-- Another stack than `n` has pulse tracking on GPIO `pin`, or a word waits that selects it: in a mailbox, behind one, or among the words `l` of the
same write, each with its stack (R184). -/
def State.pulseTaken (s : State) (l : List (Nat × Nat × Nat)) (n pin : Nat) : Bool :=
  (List.range 16).any fun m => decide (m ≠ n) &&
    ((decide (s.get (F.STK_SRC_SRC m) = 2) && decide (s.get (F.STK_SRC_PIN m) = pin)) ||
     (s.mbx ++ s.mbxWait).any (fun o => decide (o.stack = m) && o.writes.any (selectsPulse m pin)) ||
     l.any (fun x => selectsPulse m pin x.2))

/-- Whether a write of `v` to a register of stack `n` is taken (R138, R148, R183, R184); `l` holds the words that the same write has for stacks. -/
def State.stkVerdictIn (s : State) (l : List (Nat × Nat × Nat)) (n a v : Nat) : Verdict :=
  match stackOf a with
  | some (_, o) =>
    let src := bits v 0 3
    let pin := bits v 8 4
    if ¬ encodable a v then .discard
    else if o = 0x0C ∧ bits v 16 12 ≤ bits v 0 12 then .discard
    else if o = 0x2C ∧ src = 3 ∧ 4 ≤ n then .discard
    else if o = 0x2C ∧ src = 1 ∧ s.claim 3 (bits v 4 2) ≠ some (3, n) then .owned
    else if o = 0x2C ∧ src = 2 ∧ (s.gpioCode pin ≠ 4 ∨ s.pulseTaken l n pin) then .owned
    else .ok
  | none => .discard

/-- The same for a word alone. -/
def State.stkVerdict (s : State) (n a v : Nat) : Verdict := s.stkVerdictIn [] n a v

/-- STACK_MAILBOX_WRITE: one frame's or one step's writes of RW words to one stack enter its mailbox (R138, R164). Words that no
RW register of the stack takes are left out, and a stack with no tiles discards them all. -/
def execStackMailboxWrite (n : Fin 16) (w : List (BitVec 16 × Word)) (s : State) : Out State :=
  let l := (w.map fun p => (p.1.toNat, p.2.toNat)).filter fun p =>
    decide ((stackOf p.1).map Prod.fst = some n.val) && hasAcc p.1 .rw && decide (s.stkVerdict n p.1 p.2 = .ok) && s.writeOk p.1
  .next (if s.tileCount n = 0 ∨ l = [] then s else s.onBus fun t => t.mbxPush ⟨n, l, none⟩)

/-- ENG_LIMIT: 1 ms after the last record of a stack, the takeovers counted meanwhile make the next record (R181). -/
def execEngLimit (n : Fin 16) (s : State) : Out State :=
  let x := s.stk n
  .next (if x.limOpen ∧ x.limCount ≠ 0 then
    let s1 := s.due (x.limAt + engPerMs)
    s1.limitMade n s1.now
  else s)

/-- A read of `ENG_PROBE0` latches the other three probe words of the selected stack (R182). -/
def State.probeLatch (s : State) : State :=
  let x := s.stk (s.get F.ENG_PROBE_SEL_STACK)
  ((((((((s.setS F.ENG_PROBE0_RV x.rV).setS F.ENG_PROBE0_RC x.rC).setS F.ENG_PROBE1_RT x.rT).setS F.ENG_PROBE1_RP x.rP).setS F.ENG_PROBE2_FF x.ffLast).setS F.ENG_PROBE2_DROP x.dropLast).setS F.ENG_PROBE3_PB x.pbLast).setS F.ENG_PROBE3_TH x.thLast)

/-- ENG_PROBE0_READ: a host access reads `ENG_PROBE0` (R182). -/
def execEngProbe0Read (s : State) : Out State := .next (if s.inMode .run ∨ s.inMode .black then s.probeLatch else s)

end Sys2Proof.Machine
end

