-- ==== Sys2Proof/Machine/Commits.lean ====
section
/-! DEFINITION. What producers put into the journal's queue: gauge commits (R302 to R304), slot-state and history entries (R456, R457),
satellite-log bodies (R445), and the end of a download at PARK entry or power-down (R464). -/

namespace Sys2Proof.Machine

/-- A gauge commit is queued or waits for a credit. -/
def State.gaugeQueued (s : State) : Bool := (s.jnl.queue ++ s.jnl.waiting).any fun c => decide (c.producer = .gauge)

/-- The gauge makes a commit with reason `r` (R303); while one is queued it is marked due. The queued operation carries the reason;
its record is made when the journal starts it. -/
def State.gaugeCommit (s : State) (r : Nat) : State :=
  if s.gaugeQueued then { s with gg := { s.gg with commitDue := some r } }
  else (s.jnlTake ⟨.gauge, 1, [byte r], .none⟩).emit 8 3 [(r, 1), (0, 1), (s.get F.GG_JNL_DEFER, 2)]

/-- The fault source UPDATE_FAIL is raised by history entries 0x04 to 0x09 (R458). -/
def failEntry (code : Nat) : Bool := decide (4 ≤ code ∧ code ≤ 9)

/-- An update-history entry about an image with this rollback count, firmware version and setup identifier: one commit of 16 bytes, and `act` when
it is stored (R457, R458). -/
def State.historyOf (s : State) (code slot cause rollback fw setupId : Nat) (act : UpdAct) : State :=
  s.jnlTake ⟨.update, 4, [byte code, byte slot, byte cause, byte rollback] ++ leBytes 4 fw ++ leBytes 4 s.rtcStamp ++ leBytes 4 setupId, act⟩

/-- An update-history entry about the image of the download. -/
def State.history (s : State) (code slot cause : Nat) (act : UpdAct) : State :=
  s.historyOf code slot cause s.upd.rollback s.upd.fw s.upd.setupId act

/-- The body of the newest slot-state record; no slot active, nothing invalid where the area is empty (R456). -/
def State.slotState (s : State) : List Byte := (s.newestBody 3).getD (byte 0xFF :: List.replicate 79 0)

/-- A slot-state body with another active slot, write flags, invalid digests or length. -/
def slotBody (active wip : Nat) (d0 d1 : List Byte) (len : Nat) : List Byte :=
  [byte active, byte wip, 0, 0] ++ padTo 32 d0 ++ padTo 32 d1 ++ leBytes 4 len ++ List.replicate 8 0

/-- A slot-state commit is queued (R456, R459). -/
def State.slotCommit (s : State) (body : List Byte) (act : UpdAct) : State := s.jnlTake ⟨.update, 3, body, act⟩

/-- A download ends in FAILED with a history entry of `code` and `cause`. -/
def State.updFail (s : State) (code cause : Nat) : State :=
  let s1 := (s.set F.UPD_STAT_PHASE 5).set F.UPD_STAT_BUSY 0
  let s2 := ({ s1 with upd := { s1.upd with block := none, ending := none, ended := false, held := false, frame := none } } : State).frameDone s.upd.frame
  (if cause = 0 then s2 else s2.set F.UPD_STAT_CAUSE cause).history code (s.get F.UPD_STAT_SLOT) cause .none

/-- A memory command or a verification is in progress (R461, R462). -/
def State.updBusy (s : State) : Bool := s.flag F.UPD_STAT_BUSY

/-- A download is in ERASING, RECEIVING or VERIFYING. -/
def State.updRuns (s : State) : Bool := let p := s.get F.UPD_STAT_PHASE; decide (1 ≤ p ∧ p ≤ 3)

/-- PARK entry, the start of program 1 and the abort key end a download after the memory command in progress (R459, R464). -/
def State.updStop (s : State) (code : Nat) : State :=
  if s.updRuns then
    if s.updBusy ∧ ¬ s.upd.held then { s with upd := { s.upd with ending := some (s.upd.ending.getD code) } } else s.updFail code 0
  else s

/-- The body of a satellite-log record (R445), and its commit (R412, R413). -/
def State.satLog (s : State) (sat cause misses st : Nat) : State :=
  let (ms, s1) := s.msSinceRun
  s1.jnlTake ⟨.satellite, 6, [byte sat, byte cause, byte misses, byte st] ++ leBytes 4 s.rtcStamp ++ leBytes 4 ms ++ List.replicate 4 0, .none⟩

end Sys2Proof.Machine
end

