-- ==== Sys2Proof/Machine/Gauge.lean ====
section
/-! DEFINITION. The fuel gauge (R286 to R308). -/

namespace Sys2Proof.Machine

/-- A value put into a field of a register; where the field cannot hold it, the manual states no value and the field takes a free
one. -/
def State.putNat (s : State) (f : FRef) (x : Int) : State :=
  if 0 ≤ x ∧ x < 2 ^ f.w then s.set f x.toNat else s.draw.2.set f s.draw.1
def State.putInt (s : State) (f : FRef) (x : Int) : State :=
  if -(2 ^ (f.w - 1) : Int) ≤ x ∧ x < 2 ^ (f.w - 1) then s.setS f x else s.draw.2.set f s.draw.1

/-- Shunt in µΩ (R286). -/
def State.rsh (s : State) : Int := s.get F.GG_SHUNT_RSH

/-- Point `k` of the OCV table in mV (R292). -/
def State.ocv (s : State) (k : Nat) : Int := s.get (fr (0x2018 + 4 * (k / 2)) (16 * (k % 2)) 16 (([6000, 6620, 6880, 7020, 7120, 7200, 7260,
  7320, 7400, 7480, 7580, 7680, 7790, 7900, 8020, 8160, 8340][k]?).getD 0))

/-- `ocv_to_soc` of R292. -/
def State.ocvToSoc (s : State) (x : Int) : Int :=
  if x ≤ s.ocv 0 then 0
  else if s.ocv 16 ≤ x then 10000
  else
    let k := (List.range 16).foldl (fun b k => if s.ocv k ≤ x then k else b) 0
    625 * (k : Int) + tdiv ((x - s.ocv k) * 625) (s.ocv (k + 1) - s.ocv k)

/-- Impedance of band `b` in 10 µΩ (R293). -/
def bandField (b : Nat) : FRef := fr (0x2064 + 4 * (b / 2)) (16 * (b % 2)) 16 0

/-- soc_c of R296; 0 before a full-charge capacity is known. -/
def State.socC (s : State) : Int := tdiv (s.gg.qc * 10000) ((s.gg.fcc : Int) * 3600000)

/-- sc, the band b and the factor f of R293. -/
def State.sc (s : State) : Int := sat s.socC 0 10000
def State.band (s : State) : Nat := min (s.sc / 625).toNat 15
def State.packTemp (s : State) : Int := asr (s.getS F.THM_NTC_T_TPACK) 3
def State.tempFactor (s : State) : Int := sat (1024 + (s.get F.GG_IMP_CFG_KT : Int) * (25 - s.packTemp)) 512 4096
/-- ruse of R293. -/
def State.ruse (s : State) : Int := tdiv ((s.get (bandField s.band) : Int) * s.tempFactor) 1024

/-- The disagreement in force ends (R296, R299). -/
def State.disagreeEnd (s : State) (socV vc : Int) : State :=
  if s.flag F.GG_STAT_DISAGREE then
    ((s.set F.GG_STAT_DISAGREE 0).unraise 29).emit 8 2 [(0, 1), (0, 1), (s.sc.toNat, 2), (wrap16 socV, 2), (wrap16 vc, 2)]
  else s

/-- An anchor to the state of charge `x` with `cause` (R296). -/
def State.anchor (s : State) (x : Nat) (cause : Nat) (socV vc : Int) : State :=
  let g := s.gg
  let before := sat s.socC (-32767) 32767
  let span : Int := ((x : Int) - g.asoc).natAbs
  let relearn := s.flag F.GG_STAT_RELEARN
  let learn := s.flag F.GG_STAT_AVALID && (decide (5000 ≤ span) || (relearn && decide (3000 ≤ span)))
  let dcap : Int := s.get F.GG_PACK_DCAP
  let fnew := tdiv (tdiv (((g.qc - g.aqc).natAbs : Int) * 10000) span) 3600000
  let fcc := if learn then sat (g.fcc + rshr (fnew - g.fcc) (if relearn then 1 else 2)) (tdiv dcap 2) (tdiv (dcap * 11) 10) else g.fcc
  let qc := tdiv ((x : Int) * fcc * 3600000) 10000
  let s1 := s.setGg { g with fcc := fcc.toNat, qc := qc, aqc := qc, asoc := x }
  let s2 := if learn then (s1.set F.GG_STAT_RELEARN 0).set F.GG_STAT_LEARN 1 else s1
  let s3 := (s2.set F.GG_STAT_AVALID 1).emit 8 1 [(cause, 1), (b2n learn, 1), (wrap16 before, 2), (x, 2), (fcc.toNat, 2)]
  s3.disagreeEnd socV vc

/-- Counting of the sum `sum` (R289): charge with its carry, and the equivalent cycles (R302). -/
def State.countCharge (s : State) (sum : Int) : State :=
  let g := s.gg
  let num := sum * 625000 + g.carry
  let den := 32768 * s.rsh
  let dq := tdiv num den
  let s1 := s.setGg { g with carry := num - dq * den, accepted := false }
  if s.flag F.GG_STAT_FROZEN then s1
  else
    let used := g.used + max (-dq) 0
    let q : Int := (g.fcc : Int) * 360000
    if 0 < q ∧ q ≤ used then
      let n := tdiv used q
      (s1.setGg { s1.gg with qc := g.qc + dq, used := used - n * q }).addSatF F.GG_LEARN_CYCLES n.toNat
    else s1.setGg { s1.gg with qc := g.qc + dq, used := used }

/-- The anchor a start of the gauge waits for (R298, R305). -/
def State.anchorStart (s : State) (vc socV : Int) : State :=
  match s.gg.startAnchor with
  | some (c, forget) =>
    let t := s.anchor socV.toNat c socV vc
    let t1 := t.setGg { t.gg with startAnchor := none }
    ((if forget then t1.set F.GG_STAT_AVALID 0 else t1).emit 8 4
      [(if c = 0 then 1 else 2, 1), (0, 1), (s.get F.PP_PACK_STAT_ID, 2)]).gaugeCommit 3
  | none => s

/-- The anchor after half an hour of rest (R297). -/
def State.anchorRelax (s : State) (vc socV : Int) : State :=
  if 1800 ≤ s.get F.GG_RELAX_SEC then (s.anchor socV.toNat 1 socV vc).set F.GG_RELAX_SEC 0 else s

/-- The anchor at the end of a charge (R297). -/
def State.anchorFull (s : State) (vc socV : Int) : State :=
  if s.gg.term then
    let t := s.anchor 10000 2 socV vc
    (t.setGg { t.gg with socR := 10000 }).gaugeCommit 1
  else s

/-- The anchor at three updates below the pack's empty voltage, and the end of `VEMPTY` (R297). -/
def State.anchorEmpty (s : State) (i vc socV : Int) : State :=
  let vempty : Int := s.get F.GG_PACK_VEMPTY
  let s1 := if s.flag F.GG_STAT_VEMPTY ∧ (vempty + 100 < vc ∨ 20 < i) then s.set F.GG_STAT_VEMPTY 0 else s
  let run := if vc ≤ vempty then s1.gg.emptyRun + 1 else 0
  let s2 := s1.setGg { s1.gg with emptyRun := min run 3 }
  if 3 ≤ run ∧ ¬ s2.flag F.GG_STAT_VEMPTY then ((s2.anchor 0 3 socV vc).set F.GG_STAT_VEMPTY 1).gaugeCommit 2 else s2

/-- Anchors of an update (R297, R298, R305), given the means, vc and soc_v. -/
def State.anchors (s : State) (i vc socV : Int) : State :=
  (((s.anchorStart vc socV).anchorRelax vc socV).anchorFull vc socV).anchorEmpty i vc socV

/-- Disagreement of an update (R299). -/
def State.disagree (s : State) (i vc socV : Int) : State :=
  if s.flag F.GG_STAT_VALID ∧ i.natAbs ≤ 500 then
    let d := (s.sc - socV).natAbs
    let g := { s.gg with
      disRun := if 500 < d then incSat s.gg.disRun 60 else 0, okRun := if d ≤ 300 then incSat s.gg.okRun 60 else 0 }
    let s1 := s.setGg g
    if 60 ≤ g.disRun ∧ ¬ s.flag F.GG_STAT_DISAGREE then
      let s2 := (s1.set F.GG_STAT_DISAGREE 1).set F.GG_STAT_RELEARN 1
      (s2.emitC 8 2 (s2.effColour 29) [(1, 1), (0, 1), (s.sc.toNat, 2), (wrap16 socV, 2), (wrap16 vc, 2)]).raise 29 0
    else if 60 ≤ g.okRun ∧ s.flag F.GG_STAT_DISAGREE then s1.disagreeEnd socV vc
    else s1
  else s

/-- The target t of R300. -/
def State.socTarget (s : State) (ruse : Int) : Int :=
  let t := s.sc
  if s.flag F.GG_CFG_MODE then
    let vsd : Int := 5600 + 100 * (s.get F.PP_PMID_SHDN : Int)
    let u := s.ocvToSoc (vsd + 20 + tdiv (s.gg.iavg * ruse) 100000)
    if 10000 ≤ u then 0 else sat (tdiv ((t - u) * 10000) (10000 - u)) 0 10000
  else t

/-- The reported registers show what the gauge holds, while `VALID` is 1 (R301). -/
def State.showSoc (s : State) : State :=
  if s.flag F.GG_STAT_VALID then
    ((s.putNat F.GG_SOC_SOC_R s.gg.socR).set F.GG_CAPY_FCC s.gg.fcc).putNat F.GG_CAPY_RM (tdiv (max s.gg.qc 0) 3600000)
  else s

/-- The reported state of charge of an update (R300, R301); `first` says that the gauge becomes valid in it. -/
def State.report (s : State) (i vc ruse : Int) (first : Bool) : State :=
  let g := s.gg
  let t := s.socTarget ruse
  let lim : Int := ((t - g.tPrev).natAbs : Int) + s.get F.GG_CFG_CONV
  let step0 := sat (t - g.socR) (-lim) lim
  let step := if (20 < i ∧ step0 < 0) ∨ (i < -20 ∧ 0 < step0) then 0 else step0
  let r := if first then t else g.socR + step
  let floor := decide ((s.get F.GG_PACK_VEMPTY : Int) + 50 < vc) && decide (r < 100)
  let r1 := if s.flag F.GG_STAT_VEMPTY then 0 else if floor then 100 else r
  let s1 := (s.setGg { g with socR := r1, tPrev := t }).put F.GG_STAT_FLOOR floor
  (s1.set F.GG_SOC_SOC_C (wrap16 (sat s1.socC (-32767) 32767))).showSoc

/-- A commit that is due is queued, once none is (R303, R304). -/
def State.gaugeRetry (s : State) : State :=
  match s.gg.commitDue with
  | some r => if s.gaugeQueued then s else (s.setGg { s.gg with commitDue := none }).gaugeCommit r
  | none => s

/-- What an update forms after the count, while the gauge is not frozen (R289 to R301), from the means. Until the start decision of R305 has given a
capacity, only the filtered current. -/
def State.gaugeForm (s : State) (i v : Int) : State :=
  let s1 := s.setGg { s.gg with iavg := s.gg.iavg + rshr (max (-i) 0 - s.gg.iavg) 6 }
  let s3 := s1.putNat F.GG_IAVG_IAVG s1.gg.iavg
  if s3.gg.fcc = 0 then s3
  else
    let ruse := s3.ruse
    let vc := v - tdiv (i * ruse) 100000
    let socV := s3.ocvToSoc vc
    let start := s3.gg.startAnchor.isSome
    let first := start && !s3.flag F.GG_STAT_VALID
    let s4 := (s3.putNat F.GG_VC_VC vc).putNat F.GG_VC_SOC_V socV
    let s5 := s4.anchors i vc socV
    let s6 := (if start then s5.set F.GG_STAT_VALID 1 else s5).disagree i vc socV
    s6.report i vc ruse first

/-- An update of `n` whole seconds with the sums `si` and `sv` (R289 to R301). With no whole second the charge is counted and nothing else is formed. A
frozen gauge holds every reported value (R306). A termination signal counts for one update (R297), and a deferred commit is tried again at each (R304). -/
def State.gaugeUpdate (s : State) (si sv : Int) (n : Nat) : State :=
  let s1 := s.countCharge si
  if n = 0 then s1
  else if s.flag F.GG_STAT_FROZEN then (s1.setGg { s1.gg with term := false }).gaugeRetry
  else
    let i := tdiv (si * 625) (32768 * s.rsh * n)
    let v := tdiv (sv * 5) (1048576 * (n : Int))
    let s2 := ((s1.putInt F.GG_MEAS_I i).putNat F.GG_MEAS_V v).gaugeForm i v
    (s2.setGg { s2.gg with term := false }).gaugeRetry

/-- The interval in progress ends as one of `n` seconds (R288). -/
def State.gaugeEnds (s : State) (n : Nat) : State :=
  (s.setGg { s.gg with sumI := 0, sumV := 0, wins := 0 }).gaugeUpdate s.gg.sumI s.gg.sumV n

/-- The gauge's converter and accumulator run (R15, R287). -/
def State.gaugeRuns (s : State) : Bool := s.inMode .run || s.inMode .park || s.inMode .black

/-- The capture in progress takes a window (R294). -/
def Capture.window (c : Capture) (i : Int) (v : Nat) : Capture :=
  if c.skip ≠ 0 then { c with skip := c.skip - 1 }
  else if c.left ≠ 0 then { c with left := c.left - 1, postI := c.postI + i, postV := c.postV + v }
  else c

/-- GAUGE_WINDOW: a window completes with current code `i` and voltage code `v`, beyond its range or not (R287, R288, R290). -/
def execGaugeWindow (i : Int) (v : Nat) (s : State) : Out State :=
  .next (if s.gaugeRuns then
    let wide := decide (131071 < i.natAbs)
    let i1 := sat i (-131071) 131071
    let v1 := min v 65535
    let g := s.gg
    let full := decide (32768 ≤ g.secWins + 1)
    let sec := g.secI + i1
    let g1 := { g with
      sumI := g.sumI + i1, sumV := g.sumV + v1, wins := g.wins + 1, recent := (i1, v1) :: g.recent.take 3,
      secI := if full then 0 else sec, secWins := if full then 0 else g.secWins + 1,
      capture := g.capture.map fun c => c.window i1 v1, sinceChange := incSat g.sinceChange 5 }
    let s1 := s.setGg g1
    let s2 := if wide then s1.set F.GG_STAT_ISAT 1 else s1
    if full then
      if (sec.natAbs : Int) * 625 < 20 * 32768 * s.rsh ∧ ¬ s.flag F.GG_STAT_FROZEN then s2.incSatF F.GG_RELAX_SEC else s2.set F.GG_RELAX_SEC 0
    else s2
  else s)

/-- GAUGE_UPDATE: an update interval ends (R288, R289); first the engine takes the sums of an interval that ended with PARK, where they wait. -/
def execGaugeUpdate (s : State) : Out State :=
  .next (if s.gaugeRuns then
    match s.gg.handed with
    | some (i, v, n) => (s.setGg { s.gg with handed := none }).gaugeUpdate i v n
    | none => s.gaugeEnds (if s.inMode .park then s.get F.GG_CFG_PARK_PER else 1)
  else s)

/-- The interval in progress ends early, at PARK entry and PARK exit (R288). -/
def State.gaugeCut (s : State) : State := s.gaugeEnds (s.gg.wins / 32768)

/-- GAUGE_SNAPSHOT: the first complete window after the fire is latched (R291). -/
def execGaugeSnapshot (i : Int) (v : Nat) (s : State) : Out State :=
  match s.gg.snap with
  | some (f, p) =>
    .next (if s.gaugeRuns then
      let s1 := (s.setGg { s.gg with snap := none }).putInt F.GG_SNAP_I (tdiv (sat i (-131071) 131071 * 625) s.rsh)
      let s2 := s1.putNat F.GG_SNAP_V (tdiv ((min v 65535 : Nat) * 5) 32)
      ((s2.set F.GG_SNAP_AT_FRAME f).set F.GG_SNAP_AT_PIP p).set F.GG_STAT_SNAP 1
    else s)
  | none => .next s

/-- A capture is reported (R295). -/
def State.captureDone (s : State) (probe : Bool) (cause : Nat) (r : Option Int) : State :=
  let s1 := ((s.set F.GG_CAP_LAST_CAUSE cause).put F.GG_CAP_LAST_SRC probe).set F.GG_CAP_LAST_BAND s.band
  let s2 := match r with
    | some x => s1.putNat F.GG_CAP_LAST_RMEAS x
    | none => s1.set F.GG_CAP_LAST_RMEAS 0
  if cause = 0 then s2.incWrapF F.GG_CAP_CNT_ACC else s2.incWrapF F.GG_CAP_CNT_REJ

/-- A trigger reaches the gauge (R294, R295): cause 1 and cause 4 are judged here. -/
def State.captureTrigger (s : State) (probe : Bool) : State :=
  let src := s.flag F.PP_FE_STAT_SRC
  let bad := s.flag F.GG_STAT_FROZEN || !s.flag F.GG_STAT_VALID || (!probe && !src) ||
    (probe && (src || decide (s.get F.PP_CHG_STAT_STATE ≠ 5)))
  if bad then s.captureDone probe 1 none
  else if s.gg.capture.isSome ∨ s.gg.accepted then s.captureDone probe 4 none
  else
    let w := s.gg.recent
    s.setGg { s.gg with capture := some ⟨probe, (w.map Prod.fst).sum, ((w.map Prod.snd).sum : Nat), s.get F.GG_IMP_CFG_CAP_DLY + 1, 4, 0, 0, false,
      decide (s.gg.sinceChange ≤ 4)⟩ }

/-- CAPTURE_TRIGGER: a trigger on crossing 2 reaches the gauge (R294): a transmit run in LOCKED or HOLDOVER begins, or the one that the charger has raised
where a probe step began. A trigger that merges on the crossing does not act again (R28). -/
def execCaptureTrigger (probe : Bool) (s : State) : Out State :=
  .next (if s.inMode .run then
    if probe then (if s.gg.trig then (s.setGg { s.gg with trig := false }).captureTrigger true else s)
    else if s.mapsLive ∧ s.segAt s.seg = 1 then s.fireOn 2 0 fun x => x.captureTrigger false else s
  else s)

/-- CAPTURE_COMPLETE: the post windows have ended (R295). -/
def execCaptureComplete (s : State) : Out State :=
  match s.gg.capture with
  | none => .next s
  | some c =>
    .next (if c.skip = 0 ∧ c.left = 0 then
      let s1 := s.setGg { s.gg with capture := none }
      let dv := c.postV - c.preV
      let di := c.postI - c.preI
      if c.ended then s1.captureDone c.probe 5 none
      else if c.changed then s1.captureDone c.probe 6 none
      else if (di.natAbs : Int) * 625 < (s.get F.GG_IMP_CFG_CAP_MIN_DI : Int) * 4 * s.rsh then s1.captureDone c.probe 2 none
      else
        let r := tdiv (dv * s.rsh * 25) di
        if r < 1 ∨ 50000 < r then s1.captureDone c.probe 3 (some r)
        else
          let r25 := tdiv (r * 1024) s.tempFactor
          let b := s.band
          let old : Int := s.get (bandField b)
          let s2 := if s.bitF F.GG_LEARN_LMASK b then s1.putNat (bandField b) (old + rshr (r25 - old) (s.get F.GG_IMP_CFG_RLRN))
            else (s1.putNat (bandField b) r25).putBitF F.GG_LEARN_LMASK b true
          (s2.setGg { s2.gg with accepted := true }).captureDone c.probe 0 (some r)
    else s)

/-- The probe step has ended before the post window of its capture (R294). -/
def State.captureEnded (s : State) : State :=
  s.setGg { s.gg with capture := s.gg.capture.map fun c => if c.probe ∧ c.left ≠ 0 then { c with ended := true } else c }

/-- GAUGE_PERIODIC_COMMIT: `JPER` minutes of RUN, PARK and BLACK have passed since the last stored commit (R303). -/
def execGaugePeriodicCommit (s : State) : Out State :=
  .next (if s.gaugeRuns then (s.due (s.gg.storedAt + s.get F.GG_CFG_JPER * 60000 * engPerMs)).gaugeCommit 0 else s)

/-- The learned-value record's body (R302). -/
def State.gaugeBody (s : State) (reason : Nat) : List Byte :=
  let g := s.gg
  let flags := s.get F.GG_STAT_RELEARN + 2 * s.get F.GG_STAT_AVALID + 4 * s.get F.GG_STAT_FROZEN + 8 * s.get F.GG_STAT_VEMPTY
  leBytes 2 (s.get F.PP_PACK_STAT_ID) ++ leBytes 2 g.fcc ++ leBytes 2 (s.get F.GG_LEARN_LMASK) ++ [byte flags, byte reason] ++
  leBytes 6 (unsigned g.qc 48) ++ leBytes 4 s.rtcStamp ++ leBytes 6 (unsigned g.aqc 48) ++ leBytes 2 g.asoc ++
  leBytes 2 (s.get F.GG_LEARN_CYCLES) ++ ((List.range 16).flatMap fun b => leBytes 2 (s.get (bandField b))) ++
  [byte (s.get F.GG_JNL_DEFER), 0, 0, 0]

/-- RUN entry or a passed qualification: the later of the two makes the start decision due (R305, R306). -/
def State.gaugeStartCheck (s : State) : State :=
  if s.gg.ran ∧ s.gg.qualified then s.setGg { s.gg with startDue := true } else s

/-- The values of an unknown pack (R305). -/
def State.gaugeRelearn (s : State) : State :=
  let s1 := s.setGg { s.gg with fcc := s.get F.GG_PACK_DCAP, startAnchor := some (4, false) }
  let s2 := forEach (List.range 16) (fun b t => t.set (bandField b) (s.get F.GG_RDEF_RDEF)) s1
  (((s2.set F.GG_LEARN_LMASK 0).set F.GG_LEARN_CYCLES 0).set F.GG_STAT_AVALID 0).set F.GG_STAT_RELEARN 1

/-- The learned values of a record (R302, R305). -/
def State.gaugeRestore (s : State) (b : List Byte) : State :=
  let s1 := s.setGg { s.gg with fcc := leField b 2 2 }
  let s2 := forEach (List.range 16) (fun k t => t.set (bandField k) (leField b (28 + 2 * k) 2)) s1
  ((s2.set F.GG_LEARN_LMASK (leField b 4 2)).set F.GG_LEARN_CYCLES (leField b 26 2)).put F.GG_STAT_RELEARN (bitOf (leField b 6 1) 0)

/-- GAUGE_START: at the later of RUN entry and the pack's qualification the gauge restores its values or begins to relearn
(R305, R306). -/
def execGaugeStart (s : State) : Out State :=
  .next (if s.gg.startDue then
    let frozen := s.flag F.GG_STAT_FROZEN
    let s0 := (s.setGg { s.gg with startDue := false, removedAt := none, startAnchor := none }).set F.GG_STAT_FROZEN 0
    match s.newestBody 1, s.gg.idMatch with
    | some b, true =>
      let s1 := s0.gaugeRestore b
      let time := leField b 14 4
      let fresh := s.rtcValid && (if frozen then (match s.gg.removedAt with
          | some t => decide (s.rtcSec < t + 1800)
          | none => false) else decide (time ≠ 0) && decide (s.rtcSec < time + 1800))
      if fresh then
        let g := if frozen then s1.gg else { s1.gg with
          qc := signed (leField b 8 6) 48, aqc := signed (leField b 18 6) 48, asoc := leField b 24 2 }
        let s2 := s1.setGg g
        let s3 := if frozen then s2 else s2.put F.GG_STAT_AVALID (bitOf (leField b 6 1) 1)
        let t := s3.socTarget s3.ruse
        let s4 := if s.flag F.GG_STAT_VALID then s3 else s3.setGg { s3.gg with socR := t, tPrev := t }
        ((s4.emit 8 4 [(1, 1), (1, 1), (s.get F.PP_PACK_STAT_ID, 2)]).gaugeCommit 3).set F.GG_STAT_VALID 1 |>.showSoc
      else (s1.setGg { s1.gg with startAnchor := some (0, !s.rtcValid) }).set F.GG_STAT_AVALID 0
    | _, _ => s0.gaugeRelearn
  else s)

/-- The gauge freezes at a removal sign (R306). Before the start decision of R305 it holds no pack's values: nothing is frozen, and the record that the
journal holds stays. -/
def State.gaugeFreeze (s : State) : State :=
  if s.flag F.GG_STAT_FROZEN ∨ s.gg.fcc = 0 then s.setGg { s.gg with qualified := false, startDue := false }
  else
    let s1 := s.setGg { s.gg with
      capture := none, qualified := false, startDue := false, removedAt := if s.rtcValid then some s.rtcSec else none }
    ((s1.set F.GG_STAT_FROZEN 1).emit 8 4 [(0, 1), (0, 1), (s.get F.PP_PACK_STAT_ID, 2)]).gaugeCommit 3

end Sys2Proof.Machine
end

