-- ==== Sys2Proof/Machine/TwcOps.lean ====
section
/-! DEFINITION. The queue of the two-wire controller (R406, R407), and the contacts with satellites (R237, R409, R410). -/

namespace Sys2Proof.Machine

/-- The staged configuration of satellite `k` (R89): its address, its supply domain and its payload. -/
def State.satCfg (s : State) (k : Nat) : Option (Nat × Nat × List Byte) := tget s.image.sats k none

/-- The supply domain of satellite `k`. -/
def State.satDomain (s : State) (k : Nat) : Option Nat := (s.satCfg k).map fun x => x.2.1

/-- The items of a payload, each with its PEC bit (R409). -/
def satItems : Nat → List Byte → List (List Byte × Bool)
  | 0, _ => []
  | _, [] => []
  | n + 1, h :: r =>
    let k := bits h.toNat 0 6
    (r.take k, bitOf h.toNat 6) :: satItems n (r.drop k)

/-- An operation takes a controller credit, or waits for one (R10 to R12), with the check of the credit counter (R353). -/
def State.twcPush (s : State) (t : Tx) : State :=
  (if s.twc.queue.length < 8 ∧ s.twc.waiting = [] then { s with twc := { s.twc with queue := s.twc.queue ++ [t] } }
  else ({ s with twc := { s.twc with waiting := s.twc.waiting ++ [t] } } : State).set F.SYS_CREDIT_WAIT_TWC 1).injCheck 8 0

/-- A SEND that does not wait for its transaction ends when it is queued (R238). -/
def Tx.endsSend (t : Tx) : Bool :=
  match t.kind with
  | .send _ false => true
  | _ => false

/-- Waiting producers take the credits that are free, in their order. -/
def State.twcPump (s : State) : State :=
  let k := 8 - s.twc.queue.length
  let m := s.twc.waiting.take k
  let s1 := { s with twc := { s.twc with queue := s.twc.queue ++ m, waiting := s.twc.waiting.drop k } }
  if m.any Tx.endsSend ∧ s1.seq.stage = .sending then
    { s1 with seq := { s1.seq with stage := .ended, since := s1.now + engPerUs } }
  else s1

/-- A transaction belongs to the contact of satellite `k`. -/
def Tx.ofContact (t : Tx) (k : Nat) : Bool := decide (t.kind = .contact k true ∨ t.kind = .contact k false)

/-- The rest of satellite `k`'s contact is discarded; a transaction on the bus goes on, for nothing (R410). -/
def State.contactDiscard (s : State) (k : Nat) : State :=
  let keep := fun (l : List Tx) => l.filter fun t => !t.ofContact k
  let q := match s.flag F.TWB_CTL_STAT_BUSY, s.twc.queue with
    | true, t :: r => (if t.ofContact k then { t with kind := .cut k } else t) :: keep r
    | _, l => keep l
  ({ s with twc := { s.twc with queue := q, waiting := keep s.twc.waiting } } : State).twcPump

/-- A contact of satellite `k` begins: its items and one HEARTBEAT are queued (R410). A contact in progress goes on. -/
def State.contact (s : State) (k : Nat) : State :=
  match s.satCfg k with
  | none => s
  | some (a, _, p) =>
    if s.get (F.TWB_SAT_STAT_STATE k) = 2 then s
    else
      let s1 := (s.set (F.TWB_SAT_STAT_STATE k) 2).set (F.TWB_SAT_STAT_ITEMS k) 0
      let s2 := (satItems 1024 p).foldl (fun t i => t.twcPush ⟨.contact k false, a, i.1, i.2, 0, none⟩) s1
      s2.twcPush ⟨.contact k true, a, [0x20, 0, 0], true, 0, none⟩

/-- The satellites supplied by domain `d`, in ascending number. -/
def State.satsOf (s : State) (d : Nat) : List Nat := (List.range 8).filter fun k => decide (s.satDomain k = some d)

/-- A CHECK passes on domain `d`: its satellites are contacted in ascending number (R73, R237). The controller runs only in RUN. -/
def State.contactAll (s : State) (d : Nat) : State := forEach (s.satsOf d) (fun k t => t.contact k) s

/-- Domain `d` is disabled: the contacts of its satellites end (R410). -/
def State.contactsEnd (s : State) (d : Nat) : State :=
  forEach (s.satsOf d) (fun k t =>
    if t.get (F.TWB_SAT_STAT_STATE k) = 2 then (t.contactDiscard k).set (F.TWB_SAT_STAT_STATE k) 1 else t) s

end Sys2Proof.Machine
end

