-- ==== Sys2Proof/Machine/SeqOps.lean ====
section
/-! DEFINITION. The sequencer's operations (R204 to R236): domains and their dependencies, shutdowns in tiers, the start and end of
programs, and what follows them. -/

namespace Sys2Proof.Machine

/-- Domain `m` depends directly on domain `k`. -/
def State.depends (s : State) (m k : Nat) : Bool := s.bitF (F.SEQ_DOM_CFG_DEP m) k

/-- The greatest of a list of lengths, one longer; none where there is no path. -/
def longest (l : List (Option Nat)) : Option Nat :=
  l.foldl (fun b x => match b, x with
    | some p, some q => some (max p (q + 1))
    | none, some q => some (q + 1)
    | _, none => b) none

/-- Length of the longest dependency path from `m` to `d`, if there is one (R205, R232). A path has at most 11 steps. -/
def State.depthTo (s : State) (d : Nat) : Nat → Nat → Option Nat
  | 0, m => if m = d then some 0 else none
  | n + 1, m =>
    if m = d then some 0
    else longest ((List.range 12).map fun k => if s.depends m k then s.depthTo d n k else none)

/-- Length of the longest dependency path that starts at `m`. -/
def State.height (s : State) : Nat → Nat → Nat
  | 0, _ => 0
  | n + 1, m => (longest ((List.range 12).map fun k => if s.depends m k then some (s.height n k) else none)).getD 0

/-- The direct and indirect dependants of `d` (R205). -/
def State.dependants (s : State) (d : Nat) : List Nat :=
  (List.range 12).filter fun m => decide (m ≠ d) && (s.depthTo d 11 m).isSome

/-- Domain `d` has domain `k` among its direct or indirect dependencies. -/
def State.reaches (s : State) (d k : Nat) : Bool := decide (d ≠ k) && (s.depthTo k 11 d).isSome

/-- Apply `f` for every member of a bit mask of width `w`. -/
def forBits (w m : Nat) (f : Nat → State → State) (s : State) : State := forEach ((List.range w).filter fun k => bitOf m k) f s

/-- Domain `d` enables all its members and drives its enable pins high (R206). `vos` holds the sensed outputs of the stacks. -/
def State.domEnable (s : State) (d : Nat) (vos : List Nat) : State :=
  let s1 := (s.putBitF F.SEQ_DOM_STATE_EN d true).setDomState d .ramp
  let s2 := s1.setDom d { s1.dom d with skipped := false }
  let s3 := forBits 16 (s.get (F.SEQ_DOM_MEMB_STK d)) (fun n t => t.stackEnable n (vos.getD n 0)) s2
  let s4 := forBits 8 (s.get (F.SEQ_DOM_MEMB_LDO d)) (fun n t => t.ldoEnable n) s3
  let s5 := forBits 6 (s.get (F.SEQ_DOM_MEMB_LSW d)) (fun n t => t.lswEnable n) s4
  (s5.driveEnables d true).refreshRaw

/-- Domain `d` disables all its members and drives its enable pins low; contacts with its satellites end (R206, R251, R410). -/
def State.domDisable (s : State) (d : Nat) : State :=
  let s1 := (s.putBitF F.SEQ_DOM_STATE_EN d false).driveEnables d false
  let s2 := forBits 16 (s.get (F.SEQ_DOM_MEMB_STK d)) (fun n t => t.stackDisable n) s1
  let s3 := forBits 8 (s.get (F.SEQ_DOM_MEMB_LDO d)) (fun n t => (t.ldoOff n).ldoClear n) s2
  let s4 := forBits 6 (s.get (F.SEQ_DOM_MEMB_LSW d)) (fun n t => (t.lswOff n).lswClear n) s3
  (s4.contactsEnd d).refreshRaw

/-- Edit of the sequencer's record. -/
def State.setSeq (s : State) (q : Seq) : State := { s with seq := q }

/-- The phase of R230, and a program in progress. -/
def State.phase (s : State) : Nat := s.get F.SEQ_STAT_PHASE
def State.setPhase (s : State) (p : Nat) : State := s.set F.SEQ_STAT_PHASE p
def State.progRuns (s : State) : Bool := s.flag F.SEQ_STAT_RUN

/-- The step of the program in progress comes to `x` now; after a step's end the next is due 1 µs later (R215). -/
def State.setStage (s : State) (x : StepStage) : State :=
  { s with seq := { s.seq with stage := x, since := if x = .ended then s.now + engPerUs else s.now } }

/-- A request is dropped: counted, with a SEQ_REQ_DROP record; `b` is the request that replaced or cleared it (R224 to R226, R241). -/
def State.reqDrop (s : State) (code b : Nat) : State := (s.incSatF F.SEQ_CNT_DROP).emit 5 7 [(code, 1), (b, 1)]

/-- Program `p` starts at word `ofs` for request `reason` (R213, R215, R241). Programs 1 and 2 make a gauge commit (R303), and
program 1 ends a download (R464) and a PARK entry, with its hold on commits (R388). -/
def State.progStart (s : State) (p reason ofs : Nat) : State :=
  let q := { s.seq with
    stage := .ended, since := s.now, pc := ofs, steps := 0, reason := reason, failAct := false,
    tagged := if p = 0 then false else s.seq.tagged, downMask := 0 }
  let s1 := (({ s with seq := q } : State).set F.SEQ_STAT_RUN 1).set F.SEQ_STAT_PROG p
  let s2 := (if p = 0 then s1.set F.SEQ_STAT_TAG 0 else s1).emit 5 1 [(p, 1), (reason, 1)]
  if p = 1 then (({ s2 with evt := { s2.evt with pushHeld := false } } : State).gaugeCommit 5).updStop 8 else if p = 2 then s2.gaugeCommit 4 else s2

/-- The step store's word `k`. -/
def State.storeWord (s : State) (k : Nat) : Nat := tget s.image.store k 0

/-- The mirror entry point of program 1: the MARK with program 0's last tag (R227). -/
def State.mirror (s : State) : Nat :=
  if s.seq.tagged then
    ((List.range (s.get (F.SEQ_PROG_LEN 1))).find? fun k =>
      let w := s.storeWord (s.get (F.SEQ_PROG_FIRST 1) + k)
      decide (w / 2 ^ 28 = 7 ∧ w % 256 = s.get F.SEQ_STAT_TAG)).getD 0
  else 0

/-- The sequencer waits out `TOFF_MIN` until this AO tick; none where enough time has passed or none is recorded (R229). -/
def State.dwellEnd (s : State) : Option Nat :=
  match s.seq.downAt with
  | none => none
  | some t =>
    let e := t + (s.get F.SEQ_CFG_TOFF_MIN * 32768 + 999) / 1000
    if s.aoTicks < e then some e else none

/-- Program 0 starts, or the phase becomes OFF_DWELL (R229). -/
def State.upOrDwell (s : State) (reason : Nat) : State :=
  if s.dwellEnd.isSome then { s.setPhase 5 with seq := { s.seq with reason := reason } }
  else (s.setPhase 1).progStart 0 reason 0

/-- BOOT begins from HIBERNATE (R94). The conditions that the AO domain has kept raise their level sources again (R267, R339). -/
def State.wakeBoot (s : State) : State :=
  let s1 := ({ s with dev := { s.dev with aoAt := s.now } } : State).enterBoot
  s1.raiseAll ([(10, F.SYS_STATE_XTAL_FAIL), (25, F.PP_FE_STAT_UNSTABLE), (28, F.PP_PACK_STAT_BAT_ABSENT), (30, F.THM_STAT_WARN), (31, F.THM_STAT_THROT)].filterMap
    fun x => if s1.flag x.2 then some (x.1, 0) else none)

/-- The device enters HIBERNATE; a latched wake then starts BOOT at once (R19, R22). A full reset in progress comes before it (R20). -/
def State.hibernate (s : State) : State :=
  let s1 := if s.dev.stage = .none then s.enterHibernate else s
  if s.dev.stage = .none ∧ s1.dev.wakeLatch ≠ 0 ∧ ¬ s1.flag F.THM_STAT_LATCH ∧ s1.aoGood then s1.wakeBoot else s1

/-- A PMID shutdown or the thermal latch acts at its sample point (R225, R336): the pending request is dropped, and HIBERNATE will follow program 1. -/
def State.pmidTake (s : State) : State :=
  let p := s.get F.SEQ_STAT_PEND
  let s1 := if p = 0 then s else (s.set F.SEQ_STAT_PEND 0).reqDrop p 5
  s1.setSeq { s1.seq with pmidShut := false, after := 1, reason := 5, afterOn := false }

/-- A PMID shutdown or the thermal latch runs program 1, skipping the ramp wait; HIBERNATE follows (R225, R336). -/
def State.pmidProgram (s : State) : State :=
  let ofs := if (s.progRuns ∧ s.get F.SEQ_STAT_PROG = 0) ∨ s.phase = 1 ∨ s.phase = 3 then s.mirror else 0
  let s0 := s.pmidTake
  let s1 := s0.setSeq { s0.seq with stage := .idle }
  let s2 := if s1.progRuns then
      let p := s1.get F.SEQ_STAT_PROG
      let s3 := (s1.set F.SEQ_STAT_RUN 0).emit 5 2 [(p, 1), (2, 1), (s.get F.SEQ_PC_WORD, 2)]
      if 4 ≤ p then s3.set F.SEQ_FLAGS_ABANDON 1 else s3
    else s1
  (s2.setPhase 4).progStart 1 5 ofs

/-- A pending request acts in UP and DOWN (R229, R230); a PMID shutdown before it (R225). -/
def State.actPending (s : State) : State :=
  if s.progRuns ∨ s.seq.shut.isSome then s
  else
    let p := s.get F.SEQ_STAT_PEND
    let clear := s.set F.SEQ_STAT_PEND 0
    if s.phase = 0 then
      if p = 1 then clear.upOrDwell 1
      else if p = 2 then clear
      else if p = 3 ∨ p = 4 then
        if s.seq.afterOn ∧ s.dwellEnd.isSome then s.setPhase 5
        else if p = 3 then ((clear.setPhase 6).progStart 2 3 0)
        else clear.hibernate
      else s
    else if s.phase = 2 then
      if p = 1 then clear
      else if p = 2 then (clear.setPhase 4).progStart 1 2 0
      else if p = 3 then (clear.setPhase 6).progStart 2 3 0
      else if p = 4 then ({ clear with seq := { clear.seq with after := 1 } }.setPhase 4).progStart 1 4 0
      else s
    else s

/-- The fault source of a failure with this cause (R212, R232). -/
def failSource (cause : Nat) : Nat := if cause = 6 then 21 else 20

/-- Step 4 of R232 for domain `d`: it is FAILED, with the evidence, the record and the fault; in PARKED the last two wait for the
exit (R235), but not once program 1 runs there (R233). `mask` holds the dependants shut down. A HALTED sequencer makes none (R231). -/
def State.failRecord (s : State) (d cause mask : Nat) : State :=
  if s.phase = 9 then s else
  let checked := decide (s.seq.word / 2 ^ 28 = 4 ∧ bits s.seq.word 24 4 = d)
  let chat := if checked then min s.seq.chat 255 else s.get (F.SEQ_DOM_STAT_CHAT d)
  let prog := if s.progRuns then s.get F.SEQ_STAT_PROG else 0xFF
  let w := s.get F.SEQ_PC_WORD
  let s1 := if cause = 6 then s else ((s.setDomState d .failed).putBitF F.SEQ_DOM_FAIL_FAILED d true).incSatF F.SEQ_CNT_FAILS
  let s2 := ((s1.set (F.SEQ_DOM_STAT_CAUSE d) cause).set F.SEQ_LAST_FAIL_DOM d).set F.SEQ_LAST_FAIL_CAUSE cause
  let s3 := ((s2.put F.SEQ_LAST_FAIL_INPROG s.progRuns).set F.SEQ_LAST_FAIL_PROG (if s.progRuns then prog else 0)).set F.SEQ_LAST_FAIL_CHAT (min chat 15)
  let s4 := s3.set F.SEQ_LAST_FAIL_WORD w
  let src := failSource cause
  if s.phase = 7 then { s4 with seq := { s4.seq with parkFails := s4.seq.parkFails ++ [(d, cause, mask + 4096 * (chat + 256 * (prog + 256 * w)))] } }
  else (s4.emitC 5 3 (s4.effColour src) [(d, 1), (cause, 1), (mask, 2), (chat, 1), (prog, 1), (w, 2)]).raise src d

/-- The records and faults of failures in PARKED are made at PARK exit (R235), together (R345); where program 1 ends PARK instead, before it starts
(DEDUCED from R233, log entry 47). -/
def State.parkFailsOut (s : State) : State :=
  let l := s.seq.parkFails
  let s1 := { s with seq := { s.seq with parkFails := [] } }
  let s2 := l.foldl (fun t x =>
    let (d, c, r) := x
    t.emitC 5 3 (t.effColour (failSource c)) [(d, 1), (c, 1), (r % 4096, 2), (r / 4096 % 256, 1), (r / 2 ^ 20 % 256, 1), (r / 2 ^ 28, 2)]) s1
  s2.raiseAll (l.map fun x => (failSource x.2.1, x.1))

/-- The depth of domain `m` in a shutdown: the deepest tier goes first (R218, R228, R232). -/
def State.shutDepth (s : State) (j : TierJob) (m : Nat) : Nat :=
  match j with
  | .failure d _ => (s.depthTo d 11 m).getD 0
  | .cascade d => (s.depthTo d 11 m).getD 0
  | .residue _ => s.height 11 m

/-- The failed domain of a shutdown takes FAILED with its record; every other domain is OFF once disabled. -/
def TierJob.failed : TierJob → Option Nat
  | .failure d _ => some d
  | _ => none

/-- One tier of the shutdown in progress is disabled: the deepest that is left. -/
def State.tier (s : State) : State :=
  match s.seq.shut with
  | none => s
  | some x =>
    let l := (List.range 12).filter fun m => bitOf x.left m
    let top := l.foldl (fun b m => max b (s.shutDepth x.job m)) 0
    let now_ := l.filter fun m => decide (s.shutDepth x.job m = top)
    let s1 := forEach now_ (fun m t =>
      let t1 := t.domDisable m
      if x.job.failed = some m ∨ (t1.dom m).st = .failed then t1 else t1.setDomState m .off) s
    let left := now_.foldl (fun b m => clrBit b m) x.left
    s1.setSeq { s1.seq with shut := some { x with left := left, at_ := s1.now } }

/-- A shutdown of the domains in `mask` begins with its deepest tier. -/
def State.shutBegin (s : State) (j : TierJob) (mask left : Nat) : State :=
  ({ s with seq := { s.seq with shut := some ⟨j, mask, left, s.now⟩ } } : State).tier

/-- The mask of a list of numbers. -/
def maskOf (l : List Nat) : Nat := l.foldl setBit 0

/-- The failure of domain `d` begins (R232): it and its enabled dependants are STOPPING. -/
def State.failBegin (s : State) (d cause : Nat) : State :=
  let deps := (s.dependants d).filter fun m => s.domEnabled m
  let s1 := forEach (d :: deps) (fun m t => t.setDomState m .stopping) s
  s1.shutBegin (.failure d cause) (maskOf deps) (setBit (maskOf deps) d)

/-- The domains that remain enabled after program `p` (R228, R234). -/
def State.residueOf (s : State) (p : Nat) : Nat :=
  maskOf ((List.range 12).filter fun m => s.domEnabled m && (decide (p = 1) || !s.flag (F.SEQ_DOM_CFG_PARK_KEEP m)))

/-- A program ends with `reason` (R241), the record of a runaway in that source's colour (R380), and what follows it begins: the residue after programs 1 and 2, program 0 after program 3
(R228, R234, R236), or a pending request. -/
def State.progEnd (s : State) (reason : Nat) : State :=
  let p := s.get F.SEQ_STAT_PROG
  let s1 := ((s.set F.SEQ_STAT_RUN 0).setStage .idle).emitC 5 2 (if reason = 3 then s.effColour 22 else 0)
    [(p, 1), (reason, 1), (s.get F.SEQ_PC_WORD, 2)]
  if p = 1 then s1.shutBegin (.residue 1) (s1.residueOf 1) (s1.residueOf 1)
  else if p = 2 then
    let s2 := { s1 with evt := { s1.evt with pushHeld := true } }
    s2.shutBegin (.residue 2) (s2.residueOf 2) (s2.residueOf 2)
  else if p = 3 then
    if s1.flag F.SEQ_CFG_EXIT_UP then (s1.setPhase 1).progStart 0 9 0 else s1.setPhase 2
  else if p = 0 then s1.setPhase 2
  else s1

/-- The power-down is complete (R228, R229, R233): the time is recorded, every lockout ends, and what the power-down was for follows. -/
def State.downComplete (s : State) : State :=
  let s1 := forEach (List.range 12) (fun d t => if (t.dom d).st = .failed then t.setDomState d .off else t) s.markDown
  let s2 := (s1.set F.SEQ_DOM_FAIL_FAILED 0).setPhase 0
  if s.dev.stage = .powerDown then s2.resetFinish
  else if s.seq.after = 1 then s2.hibernate
  else s2

/-- The shutdown in progress has disabled its last domain. -/
def State.shutEnd (s : State) (x : Shutdown) : State :=
  let s1 := { s with seq := { s.seq with shut := none } }
  match x.job with
  | .failure d c => s1.failRecord d c x.mask
  | .cascade _ => s1.setStage .ended
  | .residue p =>
    if x.mask = 0 then s1 else (s1.set F.SEQ_FLAGS_RESIDUE 1).emit 5 6 [(p, 1), (0, 1), (x.mask, 2)]

/-- The failure action of a CHECK (R220): continue, end the program, or jump. -/
def State.failAction (s : State) : State :=
  let s1 := { s with seq := { s.seq with failAct := false } }
  let k := bits s.seq.word 22 2
  if k = 1 then s1.progEnd 1
  else if k = 2 then ({ s1 with seq := { s1.seq with pc := bits s.seq.word 10 10 } } : State).setStage .ended
  else s1.setStage .ended

/-- What is due once a shutdown has ended or a program has: waiting failures in their order (R233), a CHECK's failure action, a PMID
shutdown, the end of a power-down, and a pending request. Each round deals with one of them. -/
def State.settle : Nat → State → State
  | 0, s => s
  | n + 1, s =>
    match s.seq.shut with
    | some x => if x.left = 0 then settle n (s.shutEnd x) else s
    | none =>
      match s.seq.failQueue with
      | (d, c) :: r =>
        let s1 := { s with seq := { s.seq with failQueue := r } }
        if (s1.dom d).st = .failed then settle n s1 else settle n (s1.failBegin d c)
      | [] =>
        if s.seq.failAct then settle n s.failAction
        else if s.seq.pmidShut ∧ ¬ s.progRuns then (if s.phase = 4 then settle n s.pmidTake else s.pmidProgram)
        else if s.phase = 4 ∧ ¬ s.progRuns then settle n s.downComplete
        else s.actPending

/-- What is due is dealt with to the end. -/
def State.settled (s : State) : State := s.settle 64

/-- Domain `d` fails with `cause` (R232); during a shutdown the failure waits for its end (R233). A FAILED domain fails no more. -/
def State.domFailQ (s : State) (d cause : Nat) : State :=
  if (s.dom d).st = .failed then s
  else { s with seq := { s.seq with failQueue := s.seq.failQueue ++ [(d, cause)] } }

/-- As `domFailQ`, with what is due dealt with. -/
def State.domFail (s : State) (d cause : Nat) : State := (s.domFailQ d cause).settled

/-- A PMID shutdown or full reset ends the shutdown in progress (R233): step 4 of R232 is made at once for the failed domain and for
every failure that waits. The program that it paused goes on; program 1 takes the failure action of its failed CHECK (R220), and other programs come
to their sample point. -/
def State.shutAbort (s : State) : State :=
  let q := s.seq.failQueue
  let s1 := { s with seq := { s.seq with shut := none, failQueue := [], failAct := false } }
  let s2 := match s.seq.shut with
    | some x => match x.job with
      | .failure d c => s1.failRecord d c x.mask
      | _ => s1
    | none => s1
  let s3 : State := q.foldl (fun t e =>
    if (t.dom e.1).st = .failed then t
    else t.failRecord e.1 e.2 (maskOf ((t.dependants e.1).filter fun m => t.domEnabled m))) s2
  if s3.seq.stage = .idle ∧ s3.progRuns then (if s.seq.failAct ∧ s.phase = 4 then s3.failAction else s3.setStage .ended) else s3

/-- A shutdown is in progress that leaves its domains to program 1 when it is cut short: any but program 1's own residue (R233). -/
def State.failing (s : State) : Bool :=
  match s.seq.shut with
  | some x => match x.job with
    | .residue p => decide (p ≠ 1)
    | _ => true
  | none => false

/-- A PMID shutdown or the thermal latch has been requested, so that later requests are dropped (R225). -/
def State.pmidGoing (s : State) : Bool := s.seq.pmidShut || (decide (s.phase = 4) && decide (s.seq.reason = 5))

/-- A PMID shutdown request, or the thermal latch, reaches the sequencer (R225, R269, R336): it acts at the next sample point, which comes at once
where no step is in progress, or where a WAIT or CHECK of a program that it ends is. -/
def State.pmidRequest (s : State) : State :=
  if s.phase = 9 ∨ s.dev.stage = .powerDown ∨ s.pmidGoing then s
  else
    let s1 := (if s.failing then s.shutAbort else s).parkFailsOut
    let s2 := { s1 with seq := { s1.seq with pmidShut := true } }
    if s1.phase = 9 then s1
    else if s2.progRuns then
      if s2.phase ≠ 4 ∧ (s2.seq.stage = .waiting ∨ s2.seq.stage = .checking) then s2.setStage .ended else s2
    else if s2.phase = 4 then s2.pmidTake.settled
    else s2.settled

/-- A sequencer action takes a credit, or waits for one (R10 to R12, R222), with the check of the credit counter (R353). -/
def State.seqPush (s : State) (code : Nat) (frame : Option Nat) : State :=
  (if s.seq.queue.length < 8 ∧ s.seq.qwait = [] then { s with seq := { s.seq with queue := s.seq.queue ++ [(code, frame)] } }
  else ({ s with seq := { s.seq with qwait := s.seq.qwait ++ [(code, frame)] } } : State).set F.SYS_CREDIT_WAIT_SEQ 1).injCheck 8 0

end Sys2Proof.Machine
end

