-- ==== Sys2Proof/Machine/PowerPath.lean ====
section
/-! DEFINITION. The power path: the front end and its hand-over (R259 to R267), the supply of `PMID` (R263, R269, R270), the
charger (R271 to R279) and the pack (R280 to R284). -/

namespace Sys2Proof.Machine

/-- The power path works from VAO good (R59). -/
def State.ppOn (s : State) : Bool := s.dev.vaoGood

/-- Front-end state code (R259). -/
def State.fe (s : State) : Nat := s.get F.PP_FE_STAT_STATE

/-- treq_eff in ms (R265), from `TREQUAL` as the count has taken it (R266). -/
def State.treqEff (s : State) : Nat := min (s.pp.treq * 2 ^ s.pp.doublings) 1600

/-- `TREQUAL` as it stood at time `t` of the present wait in QUAL (R266). -/
def State.treqOf (s : State) (t : Nat) : Nat :=
  match s.pp.treqs.find? fun e => decide (e.1 ≤ t) with
  | some e => e.2
  | none => s.get F.PP_FE_CFG_TREQUAL

/-- A write has stored `TREQUAL`: it counts from the next count of R264 on (R266). -/
def State.treqWrite (s : State) : State := s.setPp { s.pp with treqs := (s.now, s.get F.PP_FE_CFG_TREQUAL) :: s.pp.treqs }

/-- A hand-over completes: the next count takes `TREQUAL` as it stands (R261, R264, R266). -/
def State.handOver (s : State) : State :=
  let q := s.get F.PP_FE_CFG_TREQUAL
  s.setPp { s.pp with handAt := s.now, treqs := [(s.now, q)], treq := q }

/-- Losses of the last 1 s (R265). -/
def State.recentLosses (s : State) : List Nat := s.pp.losses.filter fun t => decide (s.now < t + 1000 * engPerMs)

/-- vset in mV (R272). -/
def State.chgVset (s : State) : Nat :=
  8000 + 10 * min (s.get F.PP_CHG_CFG_VCHG) (s.get F.PP_CHG_CEIL_VMAX) - (if s.zone = 3 then 50 * s.get F.PP_CHG_ZONE_WARM_DV else 0)

/-- The current target in mA: ieff, lowered while a probe step runs (R278). -/
def State.chgTarget (s : State) : Nat :=
  s.chgIeff s.chgState - (if s.flag F.PP_CHG_STAT_PROBE then 50 * s.get F.PP_CHG_PROBE_DI else 0)

/-- A setting is held at an OTP ceiling (R272). -/
def State.chgCeil (s : State) : Bool :=
  decide (s.get F.PP_CHG_CEIL_VMAX < s.get F.PP_CHG_CFG_VCHG) || decide (s.get F.PP_CHG_CEIL_IMAX < s.get F.PP_CHG_CFG_ICHG)

/-- Both timers reset (rows 2, 7 and 18 of R276), or the safety timer alone (row 17). -/
def State.chgReset (s : State) : State := s.setChg { s.pp.chg with pre := 0, safe := 0 }
def State.safeReset (s : State) : State := s.setChg { s.pp.chg with safe := 0 }

/-- Any `PP_CHG_FAULT` bit is set. -/
def State.chgFaulty (s : State) : Bool :=
  s.flag F.PP_CHG_FAULT_TILE || s.flag F.PP_CHG_FAULT_BAT_OV || s.flag F.PP_CHG_FAULT_SAFETY || s.flag F.PP_CHG_FAULT_PRE_TO

/-- The entry decision E of R275, with V(`VBAT_SNS`) at `vbat` mV. -/
def State.entryE (s : State) (vbat : Nat) : Nat :=
  if s.chgFaulty then 9 else if s.suspend ≠ 0 then 3 else if vbat < 6000 then 4 else 5

/-- The charger stays OFF: `EN` at 0, or an alarm on its ceilings (row 1 of R276). -/
def State.chgHeldOff (s : State) : Bool := !s.flag F.PP_CHG_CFG_EN || s.flag F.PP_CHG_CEIL_ALARM

/-- `PP_CHG_FAULT` as a number. -/
def State.chgFaults (s : State) : Nat :=
  s.get F.PP_CHG_FAULT_PRE_TO + 2 * s.get F.PP_CHG_FAULT_SAFETY + 4 * s.get F.PP_CHG_FAULT_BAT_OV + 8 * s.get F.PP_CHG_FAULT_TILE

/-- A charger fault is latched (R277, row 8 of R276), with V(`VBAT_SNS`) at `vbat` in 10 mV. A bit already set is no new fault. -/
def State.chgFault (s : State) (f : FRef) (vbat : Nat) : State :=
  let s1 := if s.flag f then s
    else
      let t := s.set f 1
      (t.emitC 7 7 (t.effColour 27) [(t.chgFaults, 1), (vbat, 2)]).raise 27 0
  if chgCharging s1.chgState then s1.chgTo 9 else s1

/-- A write of `PP_CHG_CFG` has been stored: rows 1 to 3 of R276, 5 where the presence conditions already hold, and 9. -/
def State.chgEnable (s : State) (wasOn : Bool) (vbat : Nat) : State :=
  (if s.chgHeldOff then s.chgTo 0
  else if wasOn ∧ s.chgState ≠ 0 then s
  else if s.flag F.PP_PACK_STAT_PRESENT then s.chgReset.chgTo (s.entryE vbat)
  else
    let t := s.chgTo 1
    if s.flag F.PP_PACK_STAT_QUAL then t.chgTo 2 else t).chgCheck

/-- A value of `PP_CHG_CFG` that R272 reserves on this board. -/
def State.chgCfgBad (s : State) (v : Nat) : Bool :=
  let n := ((List.range 8).filter fun k => bitOf s.image.chgTiles k).length
  if n = 0 then bitOf v 31 else decide (60 * n < bits v 16 7)

/-- A write to `PP_CHG_CFG` (R272, R276). -/
def State.chgCfgWrite (s : State) (v vbat : Nat) : State :=
  if encodable 0x1C40 v ∧ ¬ s.chgCfgBad v then (s.storeAcc 0x1C40 v .rw).chgEnable (s.flag F.PP_CHG_CFG_EN) vbat else s.setDisc

/-- CHG_ENABLE_WRITE: a write to `PP_CHG_CFG` while V(`VBAT_SNS`) is `vbat` mV (R276). -/
def execChgEnableWrite (v : Word) (vbat : Nat) (s : State) : Out State :=
  .next (s.bus 0x1C40 fun t => t.chgCfgWrite v.toNat vbat)

/-- A write of ones to `PP_CHG_FAULT`; with the last bit the source ends, and a charger in FAULT leaves it (R277, row 18 of R276). -/
def State.chgFaultWrite (s : State) (v vbat : Nat) : State :=
  let s1 := s.clearW1c 0x1C5C v
  if s1.chgFaulty then s1
  else
    let s2 := s1.unraise 27
    if s2.chgState = 9 then s2.chgReset.chgTo (s2.entryE vbat) else s2

/-- CHG_FAULT_CLEAR: a write to `PP_CHG_FAULT` while V(`VBAT_SNS`) is `vbat` mV (R277). -/
def execChgFaultClear (v : Word) (vbat : Nat) (s : State) : Out State :=
  .next (s.bus 0x1C5C fun t => t.chgFaultWrite v.toNat vbat)

/-- CHG_SUSPEND: a suspend condition holds while the charger charges; `headroom` is the state of the headroom comparator, whose condition ends by itself
(R275). -/
def execChgSuspend (headroom : Bool) (s : State) : Out State :=
  .next (if s.ppOn then (s.setChg { s.pp.chg with headroom := headroom }).chgCheck else s)

/-- CHG_RESUME: no suspend condition has held for 100 ms (row 10 of R276). -/
def execChgResume (vbat : Nat) (s : State) : Out State :=
  let s0 := s.chgCheck
  .next (match s0.pp.chg.clearAt with
    | some t => if s0.chgState = 3 then (s0.due (t + 100 * engPerMs)).chgTo (s0.entryE vbat) else s0
    | none => s0)

/-- Rows 11 to 14 of R276. During a probe step the rows of voltage and current control do not count (R278). -/
def execChgPrechargeDone (s : State) : Out State := .next (s.chgRow 4 fun t => t.chgTo 5)
def execChgCcToPrecharge (s : State) : Out State := .next (s.chgRow 5 fun t => t.chgTo 4)
def execChgCcToCv (s : State) : Out State := .next (if s.flag F.PP_CHG_STAT_PROBE then s else s.chgRow 5 fun t => t.chgTo 6)
def execChgCvToCc (s : State) : Out State := .next (if s.flag F.PP_CHG_STAT_PROBE then s else s.chgRow 6 fun t => t.chgTo 5)

/-- CHG_TERMINATION: row 15 of R276; the gauge is signalled. -/
def execChgTermination (s : State) : Out State :=
  .next (if s.flag F.PP_CHG_STAT_PROBE then s
    else s.chgRow 6 fun t => (t.setGg { t.gg with term := true }).chgTo (if t.get F.PP_CHG_TERM_TOPOFF = 0 then 8 else 7))

/-- CHG_TOPOFF_END: `TOPOFF` minutes in TOPOFF (row 16 of R276). -/
def execChgTopoffEnd (s : State) : Out State :=
  .next (s.chgRow 7 fun t => (t.due (t.pp.chg.since + t.get F.PP_CHG_TERM_TOPOFF * 60000 * engPerMs)).chgTo 8)

/-- CHG_RECHARGE: row 17 of R276. -/
def execChgRecharge (vbat : Nat) (s : State) : Out State :=
  .next (if s.chgState = 8 then s.safeReset.chgTo (s.safeReset.entryE vbat) else s)

/-- CHG_PRECHARGE_TIMEOUT: 30 min counted in PRECHARGE (R277); `vbat` in 10 mV. -/
def execChgPrechargeTimeout (vbat : Nat) (s : State) : Out State :=
  .next (if s.chgState = 4 then (s.due (s.pp.chg.since + (1800000 * engPerMs - s.pp.chg.pre))).chgFault F.PP_CHG_FAULT_PRE_TO vbat else s)

/-- CHG_SAFETY_TIMEOUT: `SAFETY` hours counted in PRECHARGE, CC and CV (R277). -/
def execChgSafetyTimeout (vbat : Nat) (s : State) : Out State :=
  .next (if s.chgState = 4 ∨ s.chgState = 5 ∨ s.chgState = 6 then
    (s.due (s.pp.chg.since + (s.get F.PP_CHG_TERM_SAFETY * 3600000 * engPerMs - s.pp.chg.safe))).chgFault F.PP_CHG_FAULT_SAFETY vbat
  else s)

/-- A removal sign has occurred within the last millisecond (R273). -/
def State.signFresh (s : State) : Bool :=
  match s.pp.signAt with
  | some t => decide (s.now < t + engPerMs)
  | none => false

/-- BAT_OV: the pack overvoltage comparator, which does not latch within 1 ms after a removal sign (R273). -/
def execBatOv (vbat : Nat) (s : State) : Out State :=
  .next (if s.flag F.PP_PACK_STAT_PRESENT ∧ ¬ s.signFresh then (s.tilesOff 16).chgFault F.PP_CHG_FAULT_BAT_OV vbat else s)

/-- TIL_VLIM: a tile's turn has been withheld at 64 consecutive opportunities (R159); a charger tile also latches a charger fault (R277). -/
def execTilVlim (t : Fin 48) (vbat : Nat) (s : State) : Out State :=
  let u := s.get (F.TIL_STAT_USE t)
  .next (if 64 ≤ (s.tile t).held ∧ ¬ (s.tile t).sent then
    let s1 := s.setTile t { s.tile t with sent := true }
    let s2 := (s1.emitC 2 1 (s.effColour 16) [(t, 1), (u, 1), (s.get (F.TIL_IMEAN_I t), 2)]).raise 16 t
    if u = 16 then s2.chgFault F.PP_CHG_FAULT_TILE vbat else s2
  else s)

/-- A probe step starts, with the charger's trigger on crossing 2, or its fire is ignored (R278). -/
def State.probeFire (s : State) : State :=
  if (s.chgState = 5 ∨ s.chgState = 6) ∧ s.flag F.PP_CHG_PROBE_EN ∧ ¬ s.flag F.PP_CHG_STAT_PROBE ∧
      100 + 50 * s.get F.PP_CHG_PROBE_DI ≤ s.chgIeff s.chgState then
    let s1 := s.fireOn 2 1 fun x => x.setGg { x.gg with trig := true }
    (s1.setChg { s1.pp.chg with probeAt := s.now }).set F.PP_CHG_STAT_PROBE 1
  else s.set F.PP_CHG_STAT_PROBE_IGN 1

/-- PROBE_END: `LEN` × 10 µs have passed (R278). -/
def execProbeEnd (s : State) : Out State :=
  .next (if s.flag F.PP_CHG_STAT_PROBE then
    ((s.due (s.pp.chg.probeAt + s.get F.PP_CHG_PROBE_LEN * 10 * engPerUs)).set F.PP_CHG_STAT_PROBE 0).captureEnded
  else s)

/-- CHG_TILE_COUNT: ieff has crossed a threshold; the count changes in a free segment, outside a probe step (R271, R115). -/
def execChgTileCount (s : State) : Out State :=
  let i := s.chgIeff s.chgState
  let n := if i < 1200 then 1 else if 1500 ≤ i then 2 else s.pp.chg.count
  .next (if chgCharging s.chgState ∧ (s.tilesOf 16).length = 2 ∧ n ≠ s.pp.chg.count ∧ s.segAt s.seg = 0 ∧ ¬ s.flag F.PP_CHG_STAT_PROBE then
    (s.setChg { s.pp.chg with count := n }).chgTiles
  else s)

/-- CHG_STATUS_TOGGLE: in FAULT the status pin changes level every 500 ms (R279). -/
def execChgStatusToggle (s : State) : Out State :=
  .next (if s.chgState = 9 then
    let s1 := s.due (s.pp.chg.toggled + 500 * engPerMs)
    let s2 := s1.setChg { s1.pp.chg with toggled := s1.now }
    { s2 with dev := { s2.dev with
        gpioDrive := (List.range 12).foldl (fun m k => if s.gpioCode k = 9 then putBit m k (!bitOf m k) else m) s2.dev.gpioDrive } }
  else s)

/-- `PMID` is supplied by the pack in QUAL and while the vehicle lies low (R263); the charger follows (R275). -/
def State.srcRefresh (s : State) : State :=
  let b := decide (s.fe = 0) || s.pp.vinLow
  if b = s.flag F.PP_FE_STAT_SRC then s.chgCheck else ((s.setPp { s.pp with srcAt := s.now }).put F.PP_FE_STAT_SRC b).chgCheck

/-- A loss with `cause`, V(`VIN_SNS`) at `vin` in 10 mV (R261, R265, R266): hand-over, and the count of losses. -/
def State.feLoss (s : State) (cause vin : Nat) : State :=
  let l := s.now :: s.recentLosses
  let un := s.flag F.PP_FE_STAT_UNSTABLE
  let k := if un then s.pp.doublings + 1 else s.pp.doublings
  let s1 := (s.setPp { s.pp with losses := l, doublings := k }).handOver
  let s2 := ((s1.set F.PP_FE_STAT_STATE 0).set (fr 0x1C08 cause 1 0) 1).incSatF F.PP_FE_CNT_LOSS |>.set F.PP_FE_CNT_CAUSE cause
  let s3 := (s2.srcRefresh.captureChanged).emit 7 1 [(cause, 1), (min l.length 255, 1), (vin, 2), (s2.treqEff, 2)]
  if ¬ un ∧ 8 ≤ l.length then
    let s4 := (s3.set F.PP_FE_STAT_UNSTABLE 1).set F.PP_FE_FLAGS_UNSTABLE 1
    (s4.emitC 7 3 (s4.effColour 25) [(1, 1), (k, 1)]).raise 25 0
  else s3

/-- VIN_LOSS: the loss conditions in `causes` qualify in one CORE clock: bit 0 undervoltage, 1 reverse current, 2 overvoltage; the lowest cause code counts
(R260, R261). -/
def execVinLoss (causes : BitVec 3) (vin : Nat) (s : State) : Out State :=
  .next (match [1, 2, 3].find? fun k => bitOf causes.toNat (k - 1) with
    | some k => if s.ppOn ∧ s.fe ≠ 0 then s.feLoss k vin else s
    | none => s)

/-- FE_START_DONE: `PMID` is within 0.5 V of `VIN_SNS` (R260). -/
def execFeStartDone (s : State) : Out State := .next (if s.fe = 1 then s.set F.PP_FE_STAT_STATE 2 else s)

/-- FE_START_TIMEOUT: 50 ms in START (R260). -/
def execFeStartTimeout (vin : Nat) (s : State) : Out State :=
  .next (if s.fe = 1 then (s.due (s.pp.feOut + 50 * engPerMs)).feLoss 5 vin else s)

/-- FE_CLAMP: `PMID` reaches 18.5 V (R260). -/
def execFeClamp (s : State) : Out State :=
  .next (if s.fe = 2 then ((s.setPp { s.pp with clampAt := s.now }).set F.PP_FE_STAT_STATE 3).set F.PP_FE_FLAGS_CLAMPED 1 else s)

/-- FE_CLAMP_RELEASE: `VIN_SNS` has been below 18.3 V for 100 µs (R260). -/
def execFeClampRelease (s : State) : Out State := .next (if s.fe = 3 then s.set F.PP_FE_STAT_STATE 2 else s)

/-- FE_CLAMP_TIMEOUT: 1 s in CLAMP without interruption (R260). -/
def execFeClampTimeout (vin : Nat) (s : State) : Out State :=
  .next (if s.fe = 3 then (s.due (s.pp.clampAt + 1000 * engPerMs)).feLoss 4 vin else s)

/-- UNSTABLE_END: the front end has stayed out of QUAL for 10 s (R266). -/
def execUnstableEnd (s : State) : Out State :=
  .next (if s.fe ≠ 0 ∧ s.flag F.PP_FE_STAT_UNSTABLE then
    let s1 := s.due (s.pp.feOut + 10000 * engPerMs)
    let s2 := (s1.setPp { s1.pp with doublings := 0 }).set F.PP_FE_STAT_UNSTABLE 0
    (s2.unraise 25).emit 7 3 [(0, 1), (s.pp.doublings, 1)]
  else s)

/-- IDEAL_DIODE_ON and IDEAL_DIODE_OFF: the pack-path gate, while the path is enabled (R262). -/
def execIdealDiodeOn (s : State) : Out State := .next (if s.pp.packPath then s.setPp { s.pp with diode := true } else s)
def execIdealDiodeOff (s : State) : Out State := .next (s.setPp { s.pp with diode := false })

/-- PMID_SOURCE_CHANGE: the comparison of `VIN_SNS` with `VBAT_SNS` + 200 mV changes (R263). -/
def execPmidSourceChange (low : Bool) (s : State) : Out State :=
  .next (if s.ppOn then (s.setPp { s.pp with vinLow := low }).srcRefresh else s)

/-- PMID_SHUTDOWN: `PMID`, at `v` in 10 mV, has stayed below the shutdown level for 1 ms in RUN or PARK (R225, R269). -/
def execPmidShutdown (v : Nat) (s : State) : Out State :=
  .next (if s.inMode .run ∨ s.inMode .park then (s.emit 7 4 [(v, 2)]).seqPush 5 none else s)

/-- The undervoltage cut turns stack `n` off without a discharge (R270). -/
def State.cutStack (s : State) (n : Nat) : State :=
  if s.flag (F.STK_STAT_EN n) ∨ s.flag (F.STK_STAT_DIS n) then (s.dischargeOff n).stackKill n else s

/-- PMID_UV: `PMID`, at `v` in 10 mV, has stayed below 5.30 V for 2 µs (R270). -/
def execPmidUv (v : Nat) (s : State) : Out State :=
  .next (if s.ppOn then
    let s1 := s.setPp { s.pp with cut := true, uvArmed := false }
    let s2 := (forEach (List.range 16) (fun n t => t.cutStack n) s1).chgTiles
    if s.pp.uvArmed then (s2.emitC 7 5 (s2.effColour 26) [(v, 2)]).raise 26 0 else s2
  else s)

/-- PMID_UV_RELEASE: `PMID` has risen above 5.50 V (R270). -/
def execPmidUvRelease (s : State) : Out State :=
  .next (if s.ppOn then (s.setPp { s.pp with cut := false, uvArmed := true }).chgTiles else s)

/-- PACK_PRESENT: the presence conditions come to hold, or fail (R280, R281; rows 5 and 6 of R276). In PARK no pack qualifies. -/
def execPackPresent (hold : Bool) (s : State) : Out State :=
  .next (if s.ppOn ∧ ¬ s.inMode .park ∧ ¬ s.flag F.PP_PACK_STAT_PRESENT then
    if hold then
      let s0 := s.setPp { s.pp with ntcOpen := false }
      let s1 := if s.flag F.PP_PACK_STAT_QUAL then s0 else (s0.setPp { s0.pp with presAt := s.now }).set F.PP_PACK_STAT_QUAL 1
      if s1.chgState = 1 then s1.chgTo 2 else s1
    else
      let s1 := (s.setPp { s.pp with firstQual := false }).set F.PP_PACK_STAT_QUAL 0
      if s1.chgState = 2 then s1.chgTo 1 else s1
  else s)

/-- The ID resistance `id` matches the one on record, both in 100 Ω (R281). -/
def State.idMatches (s : State) (id : Nat) : Bool :=
  match s.newestBody 1 with
  | some b => let r := leField b 0 2; decide (100 * id ≤ 103 * r) && decide (97 * r ≤ 100 * id)
  | none => false

/-- PACK_QUALIFIED: qualification passes (R281, row 7 of R276). `id` is the ID resistance in 100 Ω, `vbat` V(`VBAT_SNS`) in mV. -/
def execPackQualified (id : Nat) (vbat : Nat) (s : State) : Out State :=
  .next (if s.ppOn ∧ s.flag F.PP_PACK_STAT_QUAL ∧ ¬ s.flag F.PP_PACK_STAT_PRESENT ∧ ¬ s.inMode .park then
    let s0 := s.due (s.pp.presAt + (if s.pp.firstQual then 10 else 2000) * engPerMs)
    let m := s.idMatches id
    let p := { s0.pp with packPath := true, firstQual := false, resting := !m, qualAt := s0.now }
    let s1 := ((((s0.setPp p).set F.PP_PACK_STAT_PRESENT 1).set F.PP_PACK_STAT_QUAL 0).set F.PP_PACK_STAT_ID (min id 1023)).put F.PP_PACK_STAT_ID_MATCH m
    let s2 := s1.emit 7 9 [(b2n m, 1), (min id 1023, 2)]
    let s3 := (s2.setGg { s2.gg with qualified := true, idMatch := m }).gaugeStartCheck
    if s3.chgState = 2 ∧ m then s3.chgReset.chgTo (s3.entryE vbat) else s3
  else s)

/-- PACK_REST_END: the extra second in QUALIFY has passed (R281). -/
def execPackRestEnd (vbat : Nat) (s : State) : Out State :=
  .next (if s.pp.resting then
    let s1 := s.due (s.pp.qualAt + 1000 * engPerMs)
    let s2 := s1.setPp { s1.pp with resting := false }
    if s2.chgState = 2 then s2.chgReset.chgTo (s2.entryE vbat) else s2
  else s)

/-- A removal with `sign` (R283; rows 4 and 6 of R276). -/
def State.packRemoval (s : State) (sign : Nat) : State :=
  let st := s.chgState
  let s1 := (s.tilesOff 16).setPp { s.pp with
    packPath := false, diode := false, resting := false, parkSign := 0, ntcOpen := s.pp.ntcOpen || decide (sign = 1), signAt := if s.pp.parkSign = 0 then some s.now else s.pp.signAt }
  let s2 := (((s1.set F.PP_PACK_STAT_PRESENT 0).set F.PP_PACK_STAT_QUAL 0).set F.PP_PACK_STAT_BAT_ABSENT 1).set F.PP_PACK_STAT_SIGN sign
  let s3 := if 2 ≤ st then s2.chgTo 1 else s2
  ((s3.gaugeFreeze).emitC 7 8 (s3.effColour 28) [(sign, 1), (st, 1)]).raise 28 0

/-- PACK_REMOVAL: a removal sign of R282 occurs. In PARK the checks of R284 take its place. -/
def execPackRemoval (sign : Fin 5) (s : State) : Out State :=
  .next (if s.ppOn ∧ s.flag F.PP_PACK_STAT_PRESENT ∧ ¬ s.inMode .park ∧ (sign.val = 2 → s.chgState = 5) ∧ (sign.val = 3 → s.chgState = 6)
    then s.packRemoval (sign + 1) else s)

/-- PARK_PACK_CHECK: the check of the lines in PARK, the first 1 s after the entry and then one a second (R284). -/
def execParkPackCheck (ntcOpen idOpen : Bool) (s : State) : Out State :=
  .next (if s.inMode .park then
    let s1 := s.due s.pp.parkChk
    let s2 := s1.setPp { s1.pp with parkChk := s1.now + 1000 * engPerMs }
    if s.flag F.PP_PACK_STAT_PRESENT ∧ (ntcOpen ∨ idOpen) ∧ s.pp.parkSign = 0
    then s2.setPp { s2.pp with packPath := false, diode := false, parkSign := if ntcOpen then 1 else 2, signAt := some s2.now } else s2
  else s)

/-- The rest of a removal found in PARK takes effect at PARK exit (R284), where the presence conditions are watched afresh. -/
def State.packExit (s : State) : State :=
  let s1 := if s.pp.parkSign ≠ 0 then s.packRemoval s.pp.parkSign else s
  s1.setPp { s1.pp with presAt := s1.now, firstQual := false }

end Sys2Proof.Machine
end

