-- ==== Sys2Proof/Machine/Seq.lean ====
section
/-! DEFINITION. The commands of the sequencer (R204 to R241). -/

namespace Sys2Proof.Machine

/-- The sequencer works: RUN and PARK (R230, R231, R235). -/
def State.seqOn (s : State) : Bool := s.inMode .run || s.inMode .park

/-- A CHECK of domain `d` is in progress; `off` is its `OFF` bit. -/
def State.checks (s : State) (d : Nat) : Bool :=
  decide (s.seq.stage = .checking) && s.progRuns && decide (bits s.seq.word 24 4 = d)
def State.checkOff (s : State) : Bool := bitOf s.seq.word 21

/-- The CHECK in progress fails; its failure action waits for the failure shutdown (R211, R220). -/
def State.checkFail (s : State) (d cause : Nat) : State :=
  let s1 := (s.setStage .idle).domFailQ d cause
  ({ s1 with seq := { s1.seq with failAct := true } } : State).settled

/-- The thermal latch has turned outputs of domain `d` off while its raw power-good stood, so that its loss is none of the domain's own (R336). -/
def State.latchCut (s : State) (d : Nat) : Bool := s.flag F.THM_STAT_LATCH && bitOf s.seq.latchMask d

/-- PG_TRANSITION: a change of raw power-good has held for `PG_FILT` and is accepted (R209). It may lose an ON domain (R210) or
fail a CHECK by its count (R211). A loss that the thermal latch causes is no failure (R336). -/
def execPgTransition (d : Fin 12) (s : State) : Out State :=
  let x := s.dom d
  .next (if s.seqOn ∧ x.raw ≠ x.pg then
    let s0 := s.due (x.rawSince + s.get (F.SEQ_DOM_PG_PG_FILT d) * engPerUs)
    let s1 := s0.setDom d { x with pg := x.raw, lastChange := s0.now }
    let s2 := (s1.putBitF F.SEQ_DOM_STATE_PG d x.raw).put (F.SEQ_DOM_STAT_PG d) x.raw
    let s3 := if s2.checks d then
        let c := s2.seq.chat + 1
        ({ s2 with seq := { s2.seq with chat := c } } : State).set (F.SEQ_DOM_STAT_CHAT d) (min c 15)
      else s2
    let s4 := if x.st = .on ∧ ¬ x.raw ∧ ¬ s.latchCut d then s3.domFail d 3 else s3
    if s4.checks d ∧ s4.get (F.SEQ_DOM_PG_CHATTER_MAX d) < s4.seq.chat then s4.checkFail d 2 else s4
  else s)

/-- When domain `d` will have been stable for `PG_STABLE` (R210). -/
def State.stableAt (s : State) (d : Nat) : Nat := (s.dom d).lastChange + s.get (F.SEQ_DOM_PG_PG_STABLE d) * 100 * engPerUs

/-- DOMAIN_STABLE: a RAMP domain's filtered power-good has been 1 for `PG_STABLE` (R210). -/
def execDomainStable (d : Fin 12) (s : State) : Out State :=
  .next (if s.seqOn ∧ (s.dom d).st = .ramp ∧ (s.dom d).pg then (s.due (s.stableAt d)).setDomState d .on else s)

/-- A program is between two steps: nothing pauses it, and 256 consecutive steps have not been reached (R215, R232). -/
def State.sampleDue (s : State) : Bool :=
  s.seqOn && s.progRuns && decide (s.seq.stage = .ended) && decide (s.seq.shut = none) && !s.seq.failAct && decide (s.seq.steps < 256)

/-- The store word that the next step of the program in progress stands in. -/
def State.nextWord (s : State) : Nat := s.get (F.SEQ_PROG_FIRST (s.get F.SEQ_STAT_PROG)) + s.seq.pc

/-- The next step of the program in progress is fetched. -/
def State.fetch (s : State) : State :=
  let k := s.nextWord
  let w := s.storeWord k
  let op := w / 2 ^ 28
  let q := { s.seq with
    stage := .fetched, word := w, pc := s.seq.pc + 1, steps := if op = 3 ∨ op = 4 then 0 else s.seq.steps + 1 }
  (s.setSeq q).set F.SEQ_PC_WORD k

/-- REVERSING begins (R227): program 0 ends, and program 1 waits for the ramps. -/
def State.reverse (s : State) : State :=
  let p := s.get F.SEQ_STAT_PEND
  let s1 := ((s.set F.SEQ_STAT_PEND 0).incSatF F.SEQ_CNT_REVERSE).emit 5 4 [(s.get F.SEQ_STAT_TAG, 1), (p, 1), (s.get F.SEQ_DOM_STATE_EN, 2)]
  let s2 := (s1.set F.SEQ_STAT_RUN 0).emit 5 2 [(0, 1), (2, 1), (s.get F.SEQ_PC_WORD, 2)]
  (s2.setSeq { s2.seq with stage := .idle, reason := p, after := if p = 4 then 1 else 0 }).setPhase 3

/-- A general program is ended by a request (R226). -/
def State.abandon (s : State) : State := ((s.set F.SEQ_FLAGS_ABANDON 1).progEnd 2).settled

/-- The step store's check of a fetched word with an armed injection flags it (R353); then the step is fetched where the sequencer still works. -/
def State.fetchChecked (s : State) : State :=
  let s1 := s.injCheck 6 s.nextWord
  if s1.sampleDue then s1.fetch else s1

/-- NEXT_STEP: the pending request is sampled, then the next step starts (R215, R225 to R227). A PMID shutdown or thermal shutdown that finds
program 1 running lets it go on (R225, R231). -/
def execNextStep (s : State) : Out State :=
  .next (if s.sampleDue then
    let s0 := s.due s.seq.since
    let p := s0.get F.SEQ_STAT_PEND
    if s0.seq.pmidShut then (if s0.phase = 4 then s0.pmidTake.fetchChecked else s0.pmidProgram)
    else if s0.phase = 1 ∧ (p = 2 ∨ p = 4) then s0.reverse
    else if 4 ≤ s0.get F.SEQ_STAT_PROG ∧ p ≠ 0 then s0.abandon
    else s0.fetchChecked
  else s)

/-- The fetched step has opcode `op` and runs now. -/
def State.runs (s : State) (op : Nat) : Bool :=
  s.seqOn && s.progRuns && decide (s.seq.stage = .fetched) && decide (s.seq.word / 2 ^ 28 = op) && decide (s.seq.shut = none)

/-- The operand of the fetched step in bits [27:24]. -/
def State.operand (s : State) : Nat := bits s.seq.word 24 4

/-- The step has ended; the next one is due. -/
def State.stepEnd (s : State) : State := s.setStage .ended

/-- A step is skipped (R217, R238). -/
def State.stepSkip (s : State) : State := (s.set F.SEQ_FLAGS_SKIP 1).stepEnd

/-- STEP_ENABLE: a domain's outputs are enabled, or `HOSTRST_N` is released (R216, R217, R43). `vos` holds the sensed outputs of the
stacks in 10 mV, by stack. -/
def execStepEnable (vos : List Nat) (s : State) : Out State :=
  let d := s.operand
  .next (if s.runs 1 then
    if d = 12 then ({ s with dev := { s.dev with hostRstReleased := true } } : State).stepEnd
    else
      let x := s.dom d
      if x.st = .on ∨ x.st = .ramp then s.stepEnd
      else if x.st = .failed ∨ (List.range 12).any (fun k => s.reaches d k && decide ((s.dom k).st = .failed)) then
        (s.setDom d { x with skipped := true }).stepSkip
      else if (List.range 12).all (fun k => !s.depends d k || decide ((s.dom k).st = .on)) then (s.domEnable d vos).stepEnd
      else s.stepEnd.domFail d 4
  else s)

/-- STEP_DISABLE: a domain is disabled, its enabled dependants first, or `HOSTRST_N` is asserted (R216, R218, R387). -/
def execStepDisable (s : State) : Out State :=
  let d := s.operand
  .next (if s.runs 2 then
    if d = 12 then s.assertHostRst.stepEnd
    else if (s.dom d).st = .off ∨ (s.dom d).st = .failed then s.stepEnd
    else
      let deps := (s.dependants d).filter fun m => s.domEnabled m
      let s1 := if deps = [] then s else s.set F.SEQ_FLAGS_CASCADE 1
      let s2 := forEach (if deps = [] then [] else d :: deps) (fun m t => t.setDomState m .stopping) s1
      let s3 := if s.get F.SEQ_STAT_PROG = 1 then s2.setSeq { s2.seq with downMask := s2.seq.downMask ||| maskOf (d :: deps) } else s2
      ((s3.setStage .idle).shutBegin (.cascade d) (maskOf deps) (setBit (maskOf deps) d)).settled
  else s)

/-- STEP_WAIT: a wait starts (R216). -/
def execStepWait (s : State) : Out State := .next (if s.runs 3 then s.setStage .waiting else s)

/-- The length of the WAIT in progress, in ENG periods. -/
def State.waitLength (s : State) : Nat :=
  let u := bits s.seq.word 16 2
  bits s.seq.word 0 16 * (if u = 0 then 1 else if u = 1 then 100 else 10000) * engPerUs

/-- WAIT_END: the time of a WAIT has passed (R215). -/
def execWaitEnd (s : State) : Out State :=
  .next (if s.seqOn ∧ s.progRuns ∧ s.seq.stage = .waiting ∧ s.seq.shut = none then (s.due (s.seq.since + s.waitLength)).stepEnd else s)

/-- STEP_CHECK: a check starts, or is skipped on a domain that is FAILED, was left OFF by a skipped ENABLE, or, for an off-CHECK of
program 1, is OFF without a DISABLE of this run (R211, R218, R228). -/
def execStepCheck (s : State) : Out State :=
  let d := s.operand
  let x := s.dom d
  .next (if s.runs 4 then
    if x.st = .failed ∨ (x.skipped ∧ x.st = .off) ∨ (s.checkOff ∧ s.get F.SEQ_STAT_PROG = 1 ∧ x.st = .off ∧ ¬ bitOf s.seq.downMask d) then s.stepEnd
    else (({ s with seq := { s.seq with chat := 0 } } : State).set (F.SEQ_DOM_STAT_CHAT d) 0).setStage .checking
  else s)

/-- When the window of the CHECK in progress ends. -/
def State.windowEnd (s : State) : Nat := s.seq.since + bits s.seq.word 0 10 * 100 * engPerUs

/-- When the CHECK in progress will pass if nothing changes; none where it cannot (R211, R212). -/
def State.passAt (s : State) : Option Nat :=
  let d := s.operand
  let x := s.dom d
  if s.get (F.SEQ_DOM_PG_CHATTER_MAX d) < s.seq.chat then none
  else if s.checkOff then
    let stk := (List.range 16).filter fun n => s.bitF (F.SEQ_DOM_MEMB_STK d) n
    if x.pg ∨ stk.any (fun n => s.flag (F.STK_STAT_DIS n)) then none
    else some (stk.foldl (fun m n => max m ((s.stk n).disEnd)) x.lastChange + s.get (F.SEQ_DOM_PG_PG_STABLE d) * 100 * engPerUs)
  else if x.pg then some (s.stableAt d) else none

/-- The CHECK in progress passes within its window, and when. -/
def State.passIn (s : State) : Option Nat :=
  match s.passAt with
  | some t => if t ≤ s.windowEnd then some t else none
  | none => none

/-- CHECK_PASS: power-good is stable with few enough transitions; the domain becomes ON and its satellites are contacted (R211, R237). -/
def execCheckPass (s : State) : Out State :=
  .next (if s.seqOn ∧ s.progRuns ∧ s.seq.stage = .checking ∧ s.seq.shut = none ∧ ¬ s.checkOff then
    match s.passIn with
    | some t =>
      let d := s.operand
      let s1 := s.due t
      ((if s1.domEnabled d then s1.setDomState d .on else s1).contactAll d).stepEnd
    | none => s
  else s)

/-- OFF_CHECK_PASS: filtered power-good is 0 and every discharge has ended, both for `PG_STABLE` (R212). -/
def execOffCheckPass (s : State) : Out State :=
  .next (if s.seqOn ∧ s.progRuns ∧ s.seq.stage = .checking ∧ s.seq.shut = none ∧ s.checkOff then
    match s.passIn with
    | some t => (s.due t).stepEnd
    | none => s
  else s)

/-- CHECK_TIMEOUT: the window ends without a pass: cause TIMEOUT, or an off-timeout (R211, R212). -/
def execCheckTimeout (s : State) : Out State :=
  .next (if s.seqOn ∧ s.progRuns ∧ s.seq.stage = .checking ∧ s.seq.shut = none ∧ s.passIn = none then
    let d := s.operand
    let s1 := s.due s.windowEnd
    if s1.checkOff then
      let s2 := (s1.setStage .idle).failRecord d 6 0
      ({ s2 with seq := { s2.seq with failAct := s2.progRuns } } : State).settled
    else s1.checkFail d 1
  else s)

/-- The jump condition of R219. -/
def State.jumps (s : State) : Bool :=
  let c := s.operand
  let o := bits s.seq.word 20 4
  if c = 0 then true
  else if c = 1 then decide ((s.dom o).st = .on)
  else if c = 2 then decide ((s.dom o).st = .failed)
  else if c = 3 then s.flag F.PP_FE_STAT_SRC
  else s.bitF F.SYS_WAKE_STATUS_FIRED o

/-- STEP_JUMP: the program goes on at the target when the condition holds (R219). -/
def execStepJump (s : State) : Out State :=
  .next (if s.runs 5 then
    (if s.jumps then { s with seq := { s.seq with pc := bits s.seq.word 10 10 } } else s).stepEnd
  else s)

/-- STEP_SEND: one satellite transaction is queued (R238, R411). It waits for a contact of its satellite; it is skipped where the
satellite's supply domain is not ON. -/
def execStepSend (s : State) : Out State :=
  let k := bits s.seq.word 24 3
  let wait := bitOf s.seq.word 27
  .next (if s.runs 6 then
    let off : Bool := match s.satDomain k with
      | some d => decide ((s.dom d).st ≠ .on)
      | none => false
    if off then s.stepSkip
    else if s.get (F.TWB_SAT_STAT_STATE k) = 2 then s
    else
      let a := match s.satCfg k with
        | some (a, _, _) => a
        | none => 0
      let t : Tx := ⟨.send k wait, a, [byte (bits s.seq.word 16 8), byte (bits s.seq.word 0 8), byte (bits s.seq.word 8 8)], true, 0, none⟩
      let free := decide (s.twc.queue.length < 8 ∧ s.twc.waiting = [])
      let s1 := s.twcPush t
      if free ∧ ¬ wait then s1.stepEnd else s1.setStage .sending
  else s)

/-- STEP_MARK: the tag is recorded, with a SEQ_MARK record where the step asks for one (R221). -/
def execStepMark (s : State) : Out State :=
  .next (if s.runs 7 then
    let p := s.get F.SEQ_STAT_PROG
    let tag := s.seq.word % 256
    let s1 := if p = 0 then ({ s with seq := { s.seq with tagged := true } } : State).set F.SEQ_STAT_TAG tag else s
    (if bitOf s.seq.word 8 then s1.emit 5 5 [(p, 1), (tag, 1)] else s1).stepEnd
  else s)

/-- STEP_END: the program ends, and what follows it begins (R228, R229, R234, R236). -/
def execStepEnd (s : State) : Out State := .next (if s.runs 0 then (s.progEnd 0).settled else s)

/-- SEQ_RUNAWAY: 256 consecutive steps with no WAIT or CHECK (R215). -/
def execSeqRunaway (s : State) : Out State :=
  .next (if s.seqOn ∧ s.progRuns ∧ s.seq.stage = .ended ∧ s.seq.shut = none ∧ 256 ≤ s.seq.steps then
    let s1 := (s.set F.SEQ_FLAGS_RUNAWAY 1).raise 22 (s.get F.SEQ_STAT_PROG)
    if s1.progRuns then (s1.progEnd 3).settled else s1
  else s)

/-- The level of `ON_REQ` is the active one: `SYS_WAKE_CFG.POL` bit 0 selects it (R222, R223). -/
def State.onActive (s : State) (high : Bool) : Bool := xor high (s.bitF F.SYS_WAKE_CFG_POL 0)

/-- ON_REQ_EDGE: an edge of `ON_REQ`, filtered by `SYS_WAKE_CFG.FILT`, makes an ON or an OFF request in level mode (R222, R230, R240); in BOOT it
sets its status bit alone (R75), and BLACK ignores it (R41). -/
def execOnReqEdge (rising : Bool) (s : State) : Out State :=
  .next (if s.inMode .boot then (s.cross 11 0).putBitF F.SYS_WAKE_STATUS_FIRED 0 true
    else if (s.inMode .run ∨ s.inMode .park ∨ s.inMode .recovery) ∧ ¬ s.flag F.SEQ_CFG_ON_MODE ∧ ¬ s.flag F.SEQ_CFG_SAT_MODE
    then s.seqPush (if s.onActive rising then 1 else 2) none else s)

/-- The request of a write to `SEQ_REQ`; any other value is discarded without effect (R222). -/
def State.seqReqWrite (s : State) (v : Nat) (frame : Option Nat) : State :=
  if v = 0x5E900001 then s.seqPush 1 frame
  else if v = 0x5E900002 then s.seqPush 2 frame
  else if 0x5E900104 ≤ v ∧ v ≤ 0x5E900107 then s.seqPush (v - 0x5E900104 + 0x14) frame
  else s.frameDone frame

/-- SEQ_ON, SEQ_OFF and SEQ_PROGRAM_START: the keys of `SEQ_REQ` (R222, R226). -/
def execSeqOn (s : State) : Out State := .next (s.bus 0x1404 fun t => t.seqReqWrite 0x5E900001 none)
def execSeqOff (s : State) : Out State := .next (s.bus 0x1404 fun t => t.seqReqWrite 0x5E900002 none)
def execSeqProgramStart (p : Fin 4) (s : State) : Out State :=
  .next (s.bus 0x1404 fun t => t.seqReqWrite (0x5E900104 + p) none)

/-- The request table acts on power request `p` in the phase in progress, so that a WAIT or CHECK ends at once (R226, R227). -/
def State.actsNow (s : State) (p : Nat) : Bool :=
  (decide (s.phase = 1) && (decide (p = 2) || decide (p = 4))) || (s.progRuns && decide (4 ≤ s.get F.SEQ_STAT_PROG) && decide (p ≠ 0))

/-- A request that matches what the sequencer is already doing, with nothing pending, is absorbed (R224, R230). -/
def State.absorbs (s : State) (p : Nat) : Bool :=
  let f := s.phase
  decide (s.get F.SEQ_STAT_PEND = 0) &&
  ((decide (p = 1) && (decide (f = 1) || decide (f = 2) || decide (f = 5))) ||
   (decide (p = 2) && (decide (f = 0) || decide (f = 3) || decide (f = 4))) ||
   (decide (p = 3) && (decide (f = 6) || decide (f = 7))))

/-- A power request leaves the queue (R224, R230). The OFF of a lost master is not replaced (R240). -/
def State.takePower (s : State) (p : Nat) : State :=
  let old := s.get F.SEQ_STAT_PEND
  if s.absorbs p then s
  else if s.seq.masterOff ∧ old = 2 then s.reqDrop p 2
  else if s.phase = 5 then
    let s1 := if old = 0 then s else (s.set F.SEQ_STAT_PEND 0).reqDrop old p
    ((s1.setSeq { s1.seq with afterOn := false, masterOff := false }).setPhase 0 |>.set F.SEQ_STAT_PEND p).settled
  else
    let s1 := if old = 0 then s else s.reqDrop old p
    let s2 := (s1.setSeq { s1.seq with masterOff := false, afterOn := decide ((p = 3 ∨ p = 4) ∧ (old = 1 ∨ (s.seq.afterOn ∧ old ≠ 0))) }).set F.SEQ_STAT_PEND p
    if s2.actsNow p ∧ (s2.seq.stage = .waiting ∨ s2.seq.stage = .checking) then s2.setStage .ended
    else s2.settled

/-- The OFF of a lost master leaves the queue (R240). -/
def State.takeMasterOff (s : State) : State :=
  let s1 := s.takePower 2
  s1.setSeq { s1.seq with masterOff := decide (s1.get F.SEQ_STAT_PEND = 2) }

/-- A start request leaves the queue (R226); a scheduler start of program 3 is discarded and counted (R222). -/
def State.takeStart (s : State) (p : Nat) : State :=
  if p < 4 then s.reqDrop (0x10 + p) 0
  else if s.bitF F.SEQ_STAT_START (p - 4) then s.reqDrop (0x10 + p) 0
  else s.putBitF F.SEQ_STAT_START (p - 4) true

/-- SEQ_REQUEST_TAKEN: the oldest request leaves the queue and returns its credit (R224, R226, R230). -/
def execSeqRequestTaken (s : State) : Out State :=
  match s.seq.queue with
  | [] => .next s
  | (code, fr_) :: r =>
    .next (if s.seqOn ∨ s.coreRuns then
      let w := s.seq.qwait
      let s1 := (s.setSeq { s.seq with queue := r ++ w.take 1, qwait := w.drop 1 }).frameDone fr_
      if s1.phase = 9 then s1.reqDrop (if code = 6 then 2 else code) 0
      else if s1.pmidGoing then s1.reqDrop (if code = 6 then 2 else code) 5
      else if code = 5 then s1.pmidRequest
      else if code = 6 then s1.takeMasterOff
      else if code < 0x10 then s1.takePower code
      else s1.takeStart (code - 0x10)
    else s)

/-- An output is in soft-start (R227 step 2). -/
def State.anyRamp (s : State) : Bool :=
  ((List.range 16).any fun n => s.flag (F.STK_STAT_EN n) && s.flag (F.STK_STAT_SS n)) ||
  ((List.range 8).any fun n => s.flag (F.OUT_LDO_STAT_EN n) && s.flag (F.OUT_LDO_STAT_SS n)) ||
  ((List.range 6).any fun n => s.flag (F.OUT_LSW_STAT_EN n) && s.flag (F.OUT_LSW_STAT_SS n))

/-- REVERSAL: every soft-start has ended in REVERSING, so program 1 starts at its mirror entry point (R227). -/
def execReversal (s : State) : Out State :=
  .next (if s.seqOn ∧ s.phase = 3 ∧ ¬ s.anyRamp ∧ s.seq.shut = none
    then (s.setPhase 4).progStart 1 s.seq.reason s.mirror else s)

/-- OFF_DWELL_END: `TOFF_MIN` has passed since the last power-down, so program 0 starts; a PARK or HIB that followed an ON acts
now (R229, R230). -/
def execOffDwellEnd (s : State) : Out State :=
  .next (if s.inMode .run ∧ s.phase = 5 then
    let s1 := match s.dwellEnd with
      | some t => s.due (ofTicks t)
      | none => s
    let s2 := s1.setSeq { s1.seq with afterOn := false }
    if s2.get F.SEQ_STAT_PEND = 0 then (s2.setPhase 1).progStart 0 s.seq.reason 0
    else (s2.setPhase 0).settled
  else s)

/-- PROGRAM_START: a pending general program starts in UP or DOWN when nothing runs and nothing is pending (R226). The start of a
program that the image does not hold comes to nothing. -/
def execProgramStart (s : State) : Out State :=
  .next (if s.inMode .run ∧ (s.phase = 0 ∨ s.phase = 2) ∧ ¬ s.progRuns ∧ s.get F.SEQ_STAT_PEND = 0 ∧ s.seq.shut = none then
    match (List.range 4).find? fun k => s.bitF F.SEQ_STAT_START k with
    | some k =>
      let s1 := s.putBitF F.SEQ_STAT_START k false
      if s.get (F.SEQ_PROG_LEN (k + 4)) = 0 then s1 else s1.progStart (k + 4) 6 0
    | none => s
  else s)

/-- A write of ones to `SEQ_DOM_FAIL` (R233). -/
def State.domFailWrite (s : State) (m : Nat) : State :=
  let hit := s.get F.SEQ_DOM_FAIL_FAILED &&& (m % 4096)
  let s1 := forBits 12 hit (fun d t => if (t.dom d).st = .failed then t.setDomState d .off else t) s
  s1.set F.SEQ_DOM_FAIL_FAILED (andNot (s.get F.SEQ_DOM_FAIL_FAILED) hit)

/-- DOMAIN_FAIL_CLEAR: a FAILED domain becomes OFF and its lockout ends (R233). -/
def execDomainFailClear (mask : BitVec 12) (s : State) : Out State :=
  .next (s.bus 0x1414 fun t => t.domFailWrite mask.toNat)

end Sys2Proof.Machine
end

