-- ==== Sys2Proof/Machine/Frame.lean ====
section
/-! DEFINITION. The commands of the frame timing unit: edges and the lock states (R98 to R108, R484), the burst maps (R109 to R114),
the receive-quiet segments (R116) and the pip scheduler (R118 to R122). -/

namespace Sys2Proof.Machine

def State.setFrm (s : State) (f : Frm) : State := { s with frm := f }

/-- ENG periods until the phase has advanced by `d` (R104). -/
def State.periodsTo (s : State) (d : Nat) : Nat :=
  let inc := s.get F.FRM_INC_INC
  let inc1 := ((inc : Int) + s.frm.incP).toNat
  let w := s.frm.incPEnd - s.now
  if d ≤ inc1 * w then (d + inc1 - 1) / inc1 else w + (d - inc1 * w + inc - 1) / inc

/-- Time passes until the counter reaches phase `p` of the frame in progress; none where it stands there or beyond. -/
def State.toPhase (s : State) (p : Nat) : State := s.pass (s.periodsTo (p - s.frm.phase))

/-- Time passes until the counter reaches pip `p` of the frame in progress. -/
def State.toPip (s : State) (p : Nat) : State := s.toPhase (p * 2 ^ 32)

/-- The pins with code 0xB are high in pips 0 to 127 of each frame while the scheduler fires, and low otherwise (R122). -/
def State.strobe (s : State) : State :=
  let b := s.firing && decide (s.pip < 128)
  forEach (List.range 12) (fun k t =>
    if t.gpioCode k = 0xB then { t with dev := { t.dev with gpioDrive := putBit t.dev.gpioDrive k b } } else t) s

/-- Every pulse in progress ends. -/
def State.pulsesEnd (s : State) : State :=
  let d := s.frm.pulses.foldl (fun m e => clrBit m e.1) s.dev.gpioDrive
  { s with dev := { s.dev with gpioDrive := d }, frm := { s.frm with pulses := [] } }

/-- The unit goes to IDLE (R102). -/
def State.frmStop (s : State) : State := s.pulsesEnd.frmIdle.strobe

/-- The unit goes to SEARCH (R101, R102): the counter stops at pip 0. `first` is the time of an edge that counts as a first edge. -/
def State.frmSearch (s : State) (first : Option Nat) : State :=
  let t := s.pulsesEnd.frmIdle
  ((t.setFrm { t.frm with lastEdge := first }).set F.FRM_STATE_STATE 1).strobe

/-- FRM_SEARCH: entry to SEARCH from ACQUIRE, HOLDOVER or FREE with a period change (0) or a lock failure (1) (R123). -/
def State.frmLose (s : State) (why : Nat) : State :=
  ((if why = 0 then s.set F.FRM_STAT_PERIOD_CHG 1 else s.set F.FRM_STAT_LOCK_FAIL 1).frmSearch (some s.now)).emit 1 4 [(why, 1)]

/-- RUN entry and PARK exit: the unit searches where it is enabled (R102). -/
def State.frmStart (s : State) : State := if s.flag F.FRM_CFG_EN ∧ s.frmState = 0 then s.frmSearch none else s

/-- The period `n` differs from `ref` by more than 0.1% (R102). -/
def periodChange (n ref : Nat) : Bool := decide (ref < 1000 * ((n : Int) - ref).natAbs)

/-- The phase error at the edge: towards `SYNC_PIP`, taken into the signed 48-bit range (R104). -/
def State.frmErr (s : State) : Int :=
  signed (unsigned ((s.get F.FRM_SYNC_SYNC_PIP * 2 ^ 32 : Nat) - (s.frm.phase : Int)) 48) 48

/-- The phase is set to `SYNC_PIP` (R102, R105, R107). Pip 61,440 is still to come where it is not behind `SYNC_PIP` (R111). A step of ACQUIRE that passes
the end of the frame counts as no wrap: the frame number stays, and no latched map applies (DESIGN CHOICE, log entry 44: R102 does not say). -/
def State.phaseStep (s : State) : State :=
  s.setFrm { s.frm with
    phase := s.get F.FRM_SYNC_SYNC_PIP * 2 ^ 32, incP := 0, incPEnd := 0, wrote := [], latched := decide (61440 < s.get F.FRM_SYNC_SYNC_PIP) }

/-- The tracking step of R104, with phase error `err`. The edge is one taken in its window (R484). -/
def State.phaseTrack (s : State) (err : Int) : State :=
  let inc0 : Int := s.get F.FRM_INC_INC
  let incF := inc0 + rshr (err * inc0) 50
  let lim := asr incF 6
  let incP := sat (rshr (err * incF) 49) (-lim) lim
  let s1 := (s.set F.FRM_INC_INC incF.toNat).setS F.FRM_ERR_ERR (sat (asr err 24) (-8388608) 8388607)
  s1.setFrm { s1.frm with
    incP := incP, incPEnd := s.now + 2 ^ 48 / incF.toNat, misses := 0, lastWin := s.now }

/-- The scheduler begins to fire in this frame: at the first pip that the counter reaches from now on (R118). -/
def State.slotsStart (s : State) : State :=
  s.setFrm { s.frm with fired := [], late := [], firstPip := (s.frm.phase + 2 ^ 32 - 1) / 2 ^ 32 }

/-- Entry to LOCKED with period `n` (R102, R123). -/
def State.frmLocked (s : State) (n : Nat) : State :=
  ((s.set F.FRM_STATE_STATE 3).set F.FRM_STATE_HELD 0).strobe.emit 1 1 [(s.get F.FRM_INC_INC, 4), (n, 4)]

/-- A fire is skipped or dropped (R107, R122). -/
def State.skipFires (s : State) (k : Nat) : State :=
  if k = 0 then s else (s.addSatF F.FRM_CNT_SKIP k).set F.FRM_STAT_FIRE_LOST 1

/-- The frame number `f` matches the slot's `REP` (R118). -/
def State.repOk (s : State) (n f : Nat) : Bool :=
  match s.get (F.FRM_SLOT_CFG_REP n) with
  | 1 => decide (f % 2 = 0)
  | 2 => decide (f % 4 = 0)
  | _ => true

/-- The slot's fire is due in frame `f` at its pip (R118). -/
def State.slotDue (s : State) (n f : Nat) : Bool := s.flag (F.FRM_SLOT_CFG_EN n) && s.repOk n f

/-- The word of `FRM_SLOTn_CFG`. -/
def State.slotWord (s : State) (n : Nat) : Nat :=
  s.get (F.FRM_SLOT_CFG_PIP n) + 2 ^ 16 * s.get (F.FRM_SLOT_CFG_TARGET n) + 2 ^ 24 * s.get (F.FRM_SLOT_CFG_ACTION n) +
  2 ^ 28 * s.get (F.FRM_SLOT_CFG_REP n) + 2 ^ 31 * s.get (F.FRM_SLOT_CFG_EN n)

/-- Slot `n` is due at pip `p` of this frame by a word that stood in its register at the start of that pip, and has not fired there (R118 to R120). -/
def State.duePip (s : State) (n p : Nat) : Bool :=
  s.slotDue n (s.get F.FRM_FRAME_FRAME) && decide (s.get (F.FRM_SLOT_CFG_PIP n) = p) && decide (tget s.frm.wrote n 0 ≤ p) &&
  decide (s.frm.firstPip ≤ p) && decide (tget s.frm.fired n 0 ≠ p + 1)

/-- A fire of slot `n` for pip `p` waits: of this frame, or with `old` of the one before. -/
def State.lateAt (s : State) (old : Bool) (n p : Nat) : Bool :=
  match tget s.frm.late n none with
  | some (o, _, w) => decide (o = old ∧ w % 65536 = p)
  | none => false

/-- The slots below `n` that are due at pip `p` of this frame, fired or not (R119). -/
def State.lowerDue (s : State) (n p : Nat) : List Nat :=
  (List.range n).filter fun k => s.duePip k p || s.lateAt false k p || decide (tget s.frm.fired k 0 = p + 1)

/-- A slot below `n` has still to fire for pip `p`. -/
def State.lowerWaits (s : State) (old : Bool) (n p : Nat) : Bool :=
  (List.range n).any fun k => s.lateAt old k p || (!old && s.duePip k p)

/-- The fires that the end of the frame at pip `q` leaves to the next one, each with the pips left to it counted from pip `y` there (R119). -/
def State.carries (s : State) (q y : Nat) : SMap (Option (Bool × Nat × Nat)) :=
  (List.range 32).foldl (fun m n =>
    match tget s.frm.late n none with
    | some (_, lim, w) => if q ≤ lim then tset m n none (some (true, lim - q + y, w)) else m
    | none =>
      let p := s.get (F.FRM_SLOT_CFG_PIP n)
      let lim := p + (s.lowerDue n p).length
      if s.duePip n p ∧ p < q ∧ q ≤ lim then tset m n none (some (true, lim - q + y, s.slotWord n)) else m) []

/-- A latched map applies from now on (R111). -/
def State.mapApply (s : State) (m : Option (Bool × Nat)) : State :=
  match m with
  | none => s
  | some (one, x) =>
    (if one then s.setFrm { s.frm with oneFrame := some x } else s.setFrm { s.frm with persistent := x }).set
      F.FRM_BMAP_STAT_APPLIED (s.get F.FRM_FRAME_FRAME)

/-- The latch of pip 61,440, once a frame (R111). A map that was latched before the unit stopped, and never applied, is overwritten with no mark (DESIGN
CHOICE, log entry 44). -/
def State.mapLatch (s : State) : State :=
  if s.frm.latched then s
  else if s.frm.pendMap.isSome then s.setFrm { s.frm with latched := true, latchMap := s.frm.pendMap, pendMap := none }
  else s.setFrm { s.frm with latched := true }

/-- What a new frame begins with: the frame number one higher, the deferred probes of the last frame dropped, and the maps (R111, R122). -/
def State.frameBegin (s : State) : State :=
  let s1 := s.incWrapF F.FRM_FRAME_FRAME
  let s2 := s1.setFrm { s1.frm with
    oneFrame := none, latched := false, fired := [], late := [], wrote := [], firstPip := 0, probeDefer := 0 }
  if s.frm.latchMap.isSome then
    let s3 := s2.mapApply s.frm.latchMap
    s3.setFrm { s3.frm with latchMap := none }
  else s2

/-- The first pip 0 in LOCKED uses the persistent map (R113). -/
def State.firstPipZero (s : State) : State :=
  if s.frm.firstLock ∧ s.frmState = 3 then s.setFrm { s.frm with firstLock := false, latchMap := s.latchedMap } else s

/-- A frame restart at the edge (R107, R111): the fires in the pips skipped are counted. -/
def State.frmRestart (s : State) (n : Nat) : State :=
  let p := s.pip
  let f := s.get F.FRM_FRAME_FRAME
  let y := s.get F.FRM_SYNC_SYNC_PIP
  let due := fun (k : Nat) => s.flag (F.FRM_SLOT_CFG_EN k)
  let tail := (List.range 32).filter fun k => due k && decide (p < s.get (F.FRM_SLOT_CFG_PIP k)) && s.repOk k f
  let head := (List.range 32).filter fun k => due k && decide (s.get (F.FRM_SLOT_CFG_PIP k) < y) && s.repOk k ((f + 1) % 2 ^ 32)
  let skipped := tail.length + head.length
  let s1 := s.skipFires (skipped + s.frm.probeDefer)
  let pending := s.frm.latchMap = none
  let s2 := s1.pulsesEnd.frameBegin
  let s3 := if pending then
      let t := s2.mapApply s.frm.pendMap
      t.setFrm { t.frm with pendMap := none }
    else s2
  let s4 := s3.phaseStep
  let s5 := s4.setFrm { s4.frm with
    firstPip := y, late := s.carries (p + 1) y, lastWin := s4.now, misses := 0, firstLock := false }
  ((((s5.incSatF F.FRM_CNT_RESTART).set F.FRM_STAT_RESTART 1).frmLocked n).emit 1 5 [(p, 2), (skipped, 2)])

/-- An active edge at this time, by the transitions of R102. In LOCKED an ignored edge is still an active edge: it counts for `FRM_PERIOD` and begins the
period of the next one (DESIGN CHOICE, log entry 44: R102 says no more of it than that it is ignored and counted). -/
def State.frmEdge (s : State) : State :=
  let before := s.frm.lastEdge
  let n := match before with
    | some t => s.now - t
    | none => 0
  let s1 := s.setFrm { s.frm with lastEdge := some s.now }
  let s2 := if before.isSome then s1.set F.FRM_PERIOD_N (min n 0xFFFFFF) else s1
  let err := s.frmErr
  match s.frmState with
  | 1 =>
    if before.isSome then
      let s3 := (s2.set F.FRM_INC_INC (2 ^ 48 / n)).phaseStep
      (s3.setFrm { s3.frm with prevN := n, acqEdges := 0 }).set F.FRM_STATE_STATE 2
    else s2
  | 2 =>
    let e := s.frm.acqEdges + 1
    if periodChange n s.frm.prevN then s2.frmLose 0
    else if 2 ≤ e ∧ err.natAbs ≤ s.get F.FRM_CFG_LOCK_TOL * 2 ^ 32 then
      let s3 := s2.slotsStart
      ((s3.setFrm { s3.frm with firstLock := true }).phaseTrack err).frmLocked n
    else if 8 ≤ e then s2.frmLose 1
    else
      let s3 := (s2.set F.FRM_INC_INC (2 ^ 48 / n)).phaseStep
      s3.setFrm { s3.frm with prevN := n, acqEdges := e }
  | 3 =>
    if err.natAbs ≤ s.get F.FRM_CFG_WIN * 2 ^ 32 then s2.phaseTrack err
    else (s2.incSatF F.FRM_CNT_SPUR).set F.FRM_STAT_SPUR 1
  | _ =>
    if before.isSome then
      if periodChange n (2 ^ 48 / s.get F.FRM_INC_INC) then s2.frmLose 0
      else if err.natAbs ≤ s.get F.FRM_CFG_WIN * 2 ^ 32 then
        ((s2.setFrm { s2.frm with firstLock := decide (s.frmState = 5) }).phaseTrack err).frmLocked n
      else s2.frmRestart n
    else s2

/-- An edge of `FSYNC` at this time, rising or falling, that starts a level of `width` ns (R98): an inactive edge and one whose level lasts less than
50 ns are ignored, one whose level lasts 100 ns or more is taken, and between the two it is free which. -/
def State.fsyncJudge (s : State) (rising : Bool) (width : Nat) : State :=
  let s1 := s.setFrm { s.frm with levelEnd := s.now + (width * 4 + 24) / 25 }
  if rising = s.flag F.FRM_CFG_POL ∨ width < 50 then s1
  else if 100 ≤ width then s1.frmEdge
  else if s1.draw.1 % 2 = 1 then s1.draw.2.frmEdge
  else s1.draw.2

/-- FSYNC_EDGE: an edge, `wait` ENG periods from now but not before the level in progress has ended (R98, R99, R102). Edges act in RUN (R71). -/
def execFsyncEdge (wait : Nat) (rising : Bool) (width : Nat) (s : State) : Out State :=
  .next (if s.inMode .run ∧ s.frmState ≠ 0 then ((s.pass wait).due s.frm.levelEnd).fsyncJudge rising width else s)

/-- HOLDOVER becomes FREE: the holdover limit (0) or the crystal (1) (R102, R123). -/
def State.frmFree (s : State) (why : Nat) : State := ((s.set F.FRM_STATE_STATE 5).set F.FRM_STATE_HELD 0).emit 1 3 [(why, 1)]

/-- In HOLDOVER, a failed crystal or the holdover limit leads to FREE (R102). -/
def State.holdCheck (s : State) : State :=
  if s.frmState = 4 then
    if s.flag F.SYS_STATE_XTAL_FAIL then s.frmFree 1
    else if s.get F.FRM_SYNC_HOLD_MAX ≤ s.get F.FRM_STATE_HELD then s.frmFree 0
    else s
  else s

/-- One miss (R484): the last of `MISS` + 1 in a row enters HOLDOVER (R102). An edge before HOLDOVER is none of the two consecutive edges that
leave it (DESIGN CHOICE, log entry 44: R102 does not say). -/
def State.frmMiss (s : State) : State :=
  let s1 := (s.incSatF F.FRM_CNT_MISS).set F.FRM_STAT_MISSED 1
  let s2 := s1.setFrm { s1.frm with misses := s1.frm.misses + 1, lastWin := s1.now }
  if s2.get F.FRM_CFG_MISS + 1 ≤ s2.frm.misses then
    let s3 := s2.setFrm { s2.frm with misses := 0, incP := 0, incPEnd := 0, lastEdge := none }
    ((((s3.set F.FRM_STATE_STATE 4).set F.FRM_STATE_HELD 0).emit 1 2 [(s3.get F.FRM_INC_INC, 4)])).holdCheck
  else s2

/-- A window's instant is counted once: the last edge taken, or the last miss, lies more than half a frame back (R484). -/
def State.missDue (s : State) : Bool := decide (2 ^ 47 / s.get F.FRM_INC_INC ≤ s.now - s.frm.lastWin)

/-- FRAME_MISS: the counter passes pip `SYNC_PIP` + `WIN` with no edge taken in the window (R484). The instant has come in the last half frame, or comes
later in this frame. -/
def execFrameMiss (s : State) : Out State :=
  let p := (s.get F.FRM_SYNC_SYNC_PIP + s.get F.FRM_CFG_WIN + 1) % 65536
  let passed : Bool := decide ((s.pip + 65536 - p) % 65536 < 32768)
  .next (if s.frmState = 3 then
    (if passed ∧ s.missDue then s.frmMiss
    else if s.pip < p ∧ (s.toPip p).missDue then (s.toPip p).frmMiss
    else s)
  else s)

/-- HOLDOVER_LIMIT: holdover has lasted `HOLD_MAX` frames (R102). -/
def execHoldoverLimit (s : State) : Out State := .next s.holdCheck

/-- The counter wraps (R101, R111, R122): time passes to the end of the frame. The frames of HOLDOVER and FREE are counted at
their wraps, so that the frame in which the state was entered counts as one (DESIGN CHOICE, log entry 44). -/
def State.frameWrap (s : State) : State :=
  let s0 := s.mapLatch.firstPipZero
  let k := s0.periodsTo (2 ^ 48 - s0.frm.phase)
  let ph := s0.frm.phase + s0.advance k - 2 ^ 48
  let c := if s0.firing then s0.carries 65536 0 else []
  let s1 := ({ s0 with now := s0.now + k, frm := { s0.frm with phase := ph } }).skipFires s0.frm.probeDefer
  let s2 := s1.frameBegin
  let s3 := s2.setFrm { s2.frm with late := c }
  let s4 := if 4 ≤ s3.frmState then s3.incSatF F.FRM_STATE_HELD else s3
  s4.strobe

/-- FRAME_WRAP: the counter wraps to pip 0 (R111). -/
def execFrameWrap (s : State) : Out State := .next (if s.counting then s.frameWrap else s)

/-- BMAP_LATCH: at pip 61,440 a pending map is latched for the next frame (R111). -/
def execBmapLatch (s : State) : Out State :=
  .next (if s.counting then (s.toPip 61440).mapLatch else s)

/-- A commit of the next map (R110, R112): one that comes after pip 61,440 waits for the following latch, and replaces one that no latch has taken. -/
def State.mapCommit (s : State) (one : Bool) : State :=
  let s1 := if s.counting ∧ 61440 < s.pip then s.mapLatch else s
  let m := s.get F.FRM_BMAP_NEXT_LO_SEG + 2 ^ 32 * s.get F.FRM_BMAP_NEXT_HI_SEG
  let s2 := if s1.frm.pendMap.isSome then s1.set F.FRM_STAT_REPLACED 1 else s1
  s2.setFrm { s2.frm with pendMap := some (one, m) }

/-- A write to `FRM_BMAP_CTRL`: any other value is discarded without effect. -/
def State.mapCtrlWrite (s : State) (v : Nat) : State :=
  if v = 0xB1A50001 then s.mapCommit false else if v = 0xB1A50002 then s.mapCommit true else s

def execBmapCommitPersistent (s : State) : Out State := .next (s.bus 0x0440 fun t => t.mapCtrlWrite 0xB1A50001)
def execBmapCommitOneFrame (s : State) : Out State := .next (s.bus 0x0440 fun t => t.mapCtrlWrite 0xB1A50002)

/-- A write to `FRM_CFG`: reserved values are discarded whole (R4); `EN` moves the unit to IDLE or, in RUN, to SEARCH (R102). -/
def State.frmCfgWrite (s : State) (v : Nat) : State :=
  let win := bits v 16 12
  let tol := bits v 8 8
  if 16 ≤ win ∧ win ≤ 2048 ∧ 1 ≤ tol ∧ tol ≤ win then
    let s1 := (((s.set F.FRM_CFG_WIN win).set F.FRM_CFG_LOCK_TOL tol).set F.FRM_CFG_MISS (bits v 4 3)).set F.FRM_CFG_POL (bits v 1 1)
    let s2 := s1.set F.FRM_CFG_EN (v % 2)
    if v % 2 = 0 then s2.frmStop
    else if s2.inMode .run then s2.frmStart
    else s2
  else s.setDisc

def execFrmCfgWrite (v : Word) (s : State) : Out State := .next (s.bus 0x0400 fun t => t.frmCfgWrite v.toNat)

/-- The first free segment of the frame in progress after segment `k`. -/
def State.nextFree (s : State) (k : Nat) : Option Nat := (List.range 32).find? fun j => decide (k < j) && decide (s.segAt j = 0)

/-- A charger probe step fires, is deferred to the next free segment, or is dropped where the frame has none left (R122). -/
def State.probeSlot (s : State) : State :=
  if s.segAt s.seg = 0 then s.probeFire
  else
    let s1 := s.set F.FRM_STAT_DEFER 1
    if (s.nextFree s.seg).isSome then s1.setFrm { s1.frm with probeDefer := s1.frm.probeDefer + 1 } else s1.skipFires 1

/-- The pip count of a frame number and a pip: 48 bits that wrap with the frame number. -/
def pipCount (f p : Nat) : Nat := (f * 65536 + p) % 2 ^ 48

/-- The action of slot `n` by its register's word `w` (R121). -/
def State.slotAct (s : State) (n w : Nat) : State :=
  let t := bits w 16 8
  match bits w 24 4 with
  | 1 => s.emitX 0 n 1 6 0 [(t, 1), (n, 1)]
  | 2 =>
    let k := t % 16
    let e := pipCount (s.get F.FRM_FRAME_FRAME) (s.pip + 2 ^ (t / 16)) + 1
    if s.gpioCode k = 0xA then
      { s with dev := { s.dev with gpioDrive := setBit s.dev.gpioDrive k }, frm := { s.frm with pulses := tset s.frm.pulses k 0 e } }
    else s
  | 3 => s.fireOn 1 n fun x => x.adcPip t s.pip
  | 4 => s.fireOn 0 n fun x => x.seqPush (if t = 0 then 1 else if t = 1 then 2 else if t = 2 then 3 else 0x10 + t) none
  | 5 => s.setStk t { s.stk t with fired := true }
  | 6 => s.fireOn 0 n fun x => x.probeSlot
  | 7 => s.fireOn 0 n fun x => x.setGg { x.gg with snap := some (s.get F.FRM_FRAME_FRAME % 65536, s.pip) }
  | _ => s

/-- Slot `n` fires by word `w` (R118): a once-only slot clears its `EN`, unless its register has been written since (DESIGN CHOICE, log entry 44). -/
def State.slotFire (s : State) (n w : Nat) : State :=
  let s1 := s.putBitF F.FRM_SLOT_FIRED_FIRED n true
  let s2 := if bits w 28 2 = 3 ∧ s.slotWord n = w then s1.set (F.FRM_SLOT_CFG_EN n) 0 else s1
  s2.slotAct n w

/-- The fire of slot `n` that waits, if it may still come: whether it is one of the frame before, and its word. -/
def State.lateFire (s : State) (n : Nat) : Option (Bool × Nat) :=
  match tget s.frm.late n none with
  | some (o, lim, w) => if s.pip ≤ lim then some (o, w) else none
  | none => none

/-- SLOT_FIRE: an enabled slot reaches its pip in a matching frame (R118 to R120). Slots due at one pip fire in ascending order, each
no later than its place among them; a delayed fire may carry into the next frame. -/
def execSlotFire (n : Fin 32) (s : State) : Out State :=
  let p := s.get (F.FRM_SLOT_CFG_PIP n)
  .next (if s.firing then
    match s.lateFire n with
    | some (o, w) =>
      if s.lowerWaits o n (w % 65536) then s
      else
        let m := if o then s.frm.fired else tset s.frm.fired n 0 (w % 65536 + 1)
        (s.setFrm { s.frm with late := tset s.frm.late n none none, fired := m }).slotFire n w
    | none =>
      if s.duePip n p ∧ s.pip ≤ p + (s.lowerDue n p).length ∧ ¬ s.lowerWaits false n p then
        let s1 := s.toPip p
        (s1.setFrm { s1.frm with fired := tset s1.frm.fired n 0 (p + 1) }).slotFire n (s.slotWord n)
      else s
  else s)

/-- GPIO_PULSE_END: a pulse's 2^w pips have passed and the pin goes low (R121). The end lies in this frame, behind it, or in one to come. -/
def execGpioPulseEnd (k : Fin 12) (s : State) : Out State :=
  let e := tget s.frm.pulses k 0
  let d := (e - 1 + 2 ^ 48 - pipCount (s.get F.FRM_FRAME_FRAME) 0) % 2 ^ 48
  .next (if e ≠ 0 ∧ (d < 65536 ∨ 2 ^ 47 ≤ d) then
    let s1 := if d < 65536 then s.toPip d else s
    { s1 with dev := { s1.dev with gpioDrive := clrBit s1.dev.gpioDrive k }, frm := { s1.frm with pulses := tset s1.frm.pulses k 0 0 } }
  else s)

/-- FRAME_STROBE_END: at pip 128 the strobe pins go low (R122). -/
def execFrameStrobeEnd (s : State) : Out State := .next (if s.counting then (s.toPip 128).strobe else s.strobe)

/-- PROBE_DEFERRED_FIRE: the deferred probe steps fire at the first pip of the next free segment (R122). -/
def execProbeDeferredFire (s : State) : Out State :=
  let go := fun (t : State) => forEach (List.range t.frm.probeDefer) (fun _ x => x.probeFire) (t.setFrm { t.frm with probeDefer := 0 })
  .next (if s.firing ∧ s.frm.probeDefer ≠ 0 then
    if s.segAt s.seg = 0 then go s
    else match s.nextFree s.seg with
      | some k => go (s.toPip (2048 * k))
      | none => s
  else s)

/-- RECEIVE_QUIET_END: the counter leaves a receive-quiet run (R116). A push frame and a memory command that waited start; a transaction and a conversion
that waited may start with their own commands. -/
def execReceiveQuietEnd (s : State) : Out State :=
  .next (if s.mapsLive ∧ s.segAt s.seg = 2 then
    match (List.range 32).find? fun j => decide (s.seg < j) && decide (s.segAt j ≠ 2) with
    | some k => (s.toPip (2048 * k)).pushTry.nvmRetry
    | none => s.frameWrap.pushTry.nvmRetry
  else s)

/-- A write of ones to `FRM_STAT` clears flags, and with four of them their counts (FRM registers). -/
def State.frmStatClear (s : State) (v : Nat) : State :=
  let c := fun (b : Nat) (f : FRef) (t : State) => if bitOf v b then t.set f 0 else t
  c 5 F.FRM_CNT_SKIP (c 4 F.FRM_CNT_RESTART (c 3 F.FRM_CNT_MISS (c 2 F.FRM_CNT_SPUR
    (forEach (List.range 8) (fun b t => if bitOf v b then t.set (fr 0x0420 b 1 0) 0 else t) s))))

/-- The owner code and the target are what the action table permits (R121). -/
def State.slotOk (s : State) (n v : Nat) : Bool :=
  let o := match s.claim 6 n with
    | some (o, _) => o
    | none => 0
  let t := bits v 16 8
  match bits v 24 4 with
  | 0 => decide (t = 0)
  | 1 => decide (o = hostOwner)
  | 2 => decide (o = 1) && decide (t % 16 < 12) && decide (s.gpioCode (t % 16) = 0xA)
  | 3 => decide (o = 9) && decide (t ≤ 103)
  | 4 => decide (o = 5) && decide (t ≤ 7)
  | 5 => decide (o = 4) && decide (t ≤ 15)
  | 6 => decide (o = 7) && decide (t = 0)
  | 7 => decide (o = 8) && decide (t = 0)
  | _ => false

/-- A write to slot `n` begins: a fire that is due and waits behind lower slots goes by the word at the start of its pip, and the new word acts from the
next pip on (R119, R120). -/
def State.slotKeep (s : State) (n : Nat) : State :=
  let p := s.get (F.FRM_SLOT_CFG_PIP n)
  let lim := p + (s.lowerDue n p).length
  let s1 := if s.firing ∧ s.duePip n p ∧ p ≤ s.pip ∧ s.pip ≤ lim then
      s.setFrm { s.frm with late := tset s.frm.late n none (some (false, lim, s.slotWord n)) }
    else s
  if s.counting then s1.setFrm { s1.frm with wrote := tset s1.frm.wrote n 0 (s.pip + 1) } else s1

/-- A write to `FRM_SLOTn_CFG` that its owner makes. -/
def State.slotWrite (s : State) (n v : Nat) : State :=
  if s.slotOk n v then
    let s1 := s.slotKeep n
    ((((s1.set (F.FRM_SLOT_CFG_EN n) (bits v 31 1)).set (F.FRM_SLOT_CFG_REP n) (bits v 28 2)).set (F.FRM_SLOT_CFG_ACTION n)
      (bits v 24 4)).set (F.FRM_SLOT_CFG_TARGET n) (bits v 16 8)).set (F.FRM_SLOT_CFG_PIP n) v
  else s.setDisc

end Sys2Proof.Machine
end

