-- ==== Sys2Proof/Machine/Thermal.lean ====
section
/-! DEFINITION. Temperature sensing, throttling and thermal shutdown (R327 to R338). -/

namespace Sys2Proof.Machine

/-- One in the fixed-point form of the logarithm below. -/
def lnOne : Nat := 2 ^ 80

/-- The sum of y^(2j+1) / (2j+1) for `j` from `j0` on, `n` terms, in fixed point; `p` is the power of y in hand and `y2` is y². -/
def atanhSum (y2 : Int) : Nat → Nat → Int → Int
  | 0, _, _ => 0
  | n + 1, j, p => tdiv p (2 * j + 1 : Nat) + atanhSum y2 n (j + 1) (tdiv (p * y2) lnOne)

/-- The natural logarithm of `a / b`, both positive, in fixed point: `a / b` is brought between 2/3 and 4/3 by `k` doublings or halvings,
each worth ln 2, and the rest is twice the inverse hyperbolic tangent of (m − 1) / (m + 1). The 25 terms leave an error far below
the rounding of R328. -/
def lnSmall (a b : Nat) : Int :=
  let y : Int := tdiv (((a : Int) - b) * lnOne) ((a : Int) + b)
  2 * atanhSum (tdiv (y * y) lnOne) 25 0 y
def lnTwo : Int := 2 * atanhSum (tdiv (tdiv lnOne 3 * tdiv lnOne 3) lnOne) 25 0 (tdiv lnOne 3)
def lnRatio : Nat → Nat → Nat → Int
  | 0, a, b => lnSmall a b
  | n + 1, a, b => if 4 * b < 3 * a then lnRatio n a (2 * b) + lnTwo else if 3 * a < 2 * b then lnRatio n (2 * a) b - lnTwo else lnSmall a b

/-- The thermistor temperature of R328 for R / R25 = `a / b` and the constant `beta`, in 0.125 °C: rounded to the nearest, saturated. -/
def ntcTemp (a b beta : Nat) : Int :=
  let l := lnRatio 64 a b
  let num : Int := 47704 * beta * lnOne
  let den : Int := 20 * beta * lnOne + 5963 * l
  sat ((10 * num - 21847 * den).fdiv (10 * den)) (-440) 1240

/-- As `ntcTemp`; where the ratio is 0 or has no value, the manual states no temperature: a free value of the saturated range. -/
def State.ntc (s : State) (a b : Int) (beta : Nat) : Int × State :=
  if 0 < a ∧ 0 < b then (ntcTemp a.toNat b.toNat beta, s) else ((s.draw.1 % 1681 : Nat) - 440, s.draw.2)

/-- The code of a channel's latest result. -/
def State.code (s : State) (ch : Nat) : Nat := s.get (F.ADC_RES_CODE ch)

/-- The board thermistor's channel (R329). -/
def State.brdCh (s : State) : Nat := 46 + s.get F.THM_CFG_BRD_AIN

/-- The inputs of an evaluation (R327, R328). -/
def State.thmInputs (s : State) : List Nat :=
  [64, 66, 68, 69, 70, 71, 72, 73, 74, 75, 76, 77] ++ (if s.flag F.THM_CFG_BRD_EN then [s.brdCh] else [])

/-- The latest result of a channel is more than 100 µs old, or there is none (R327). -/
def State.stale (s : State) (ch : Nat) : Bool :=
  let t := tget s.adc.times ch 0
  decide (t = 0) || decide (t - 1 + 100 * engPerUs < s.now)

/-- The zone of temperature `t` in 0.125 °C (R274). -/
def State.zoneAt (s : State) (t : Int) : Nat :=
  let lim := fun (f : FRef) => 8 * s.getS f
  if t < lim F.PP_CHG_JEITA_T1 then 0 else if t < lim F.PP_CHG_JEITA_T2 then 1 else if t ≤ lim F.PP_CHG_JEITA_T3 then 2
  else if t ≤ lim F.PP_CHG_JEITA_T4 then 3 else 4

/-- How restrictive a zone is: its distance from NORMAL. -/
def zoneRank (z : Nat) : Nat := if z = 2 then 0 else if z = 1 ∨ z = 3 then 1 else 2

/-- The temperature lies at least 2 °C inside zone `z`. -/
def State.wellInside (s : State) (z : Nat) (t : Int) : Bool :=
  let lim := fun (f : FRef) => 8 * s.getS f
  let lo := if z = 1 then lim F.PP_CHG_JEITA_T1 else if z = 2 then lim F.PP_CHG_JEITA_T2 else if z = 3 then lim F.PP_CHG_JEITA_T3 else -100000
  let hi := if z = 0 then lim F.PP_CHG_JEITA_T1 else if z = 1 then lim F.PP_CHG_JEITA_T2 else if z = 2 then lim F.PP_CHG_JEITA_T3 else if z = 3 then lim F.PP_CHG_JEITA_T4 else 100000
  decide (lo + 16 ≤ t ∧ t ≤ hi - 16)

/-- The zone is evaluated again at a pack measurement: at once towards a more restrictive zone, otherwise only 2 °C inside the new
one (R274). -/
def State.zoneEval (s : State) (t : Int) : State :=
  let z := s.zoneAt t
  if z = s.zone then s
  else if zoneRank z < zoneRank s.zone ∧ ¬ s.wellInside z t then s
  else s.set F.PP_CHG_STAT_ZONE z

/-- The pack line is open (R282, R330): sign 1 has found it so, or its results, 0.8 mV a code on channel 66, have stayed above the 2.90 V of R280 for 20 µs
(DEDUCED, log entry 45). -/
def State.packOpen (s : State) : Bool :=
  s.pp.ntcOpen || (match s.adc.ntcAt with
    | some t => decide (t + 20 * engPerUs ≤ s.now)
    | none => false)

/-- The thermal states edited, with `THM_STAT` and the level sources that follow them (R332, R345). -/
def State.setThm (s : State) (x : Thm) : State :=
  let s1 := (({ s with thm := x } : State).put F.THM_STAT_WARN (x.jWarn || x.bWarn)).put F.THM_STAT_THROT (x.jThr || x.bThr)
  let s2 := if x.jWarn || x.bWarn then s1 else s1.unraise 30
  if x.jThr || x.bThr then s2 else s2.unraise 31

/-- Warning of one input: `brd` 0 junction or 1 board, at temperature `t` with threshold `w` and hysteresis (R332). An entry also raises its source. -/
def State.warnEval (s : State) (brd : Bool) (t w : Int) (sens : Nat) : State :=
  let was := if brd then s.thm.bWarn else s.thm.jWarn
  let h : Int := 8 * s.get F.THM_CFG_HYST
  let upd := fun (b : Bool) => if brd then { s.thm with bWarn := b } else { s.thm with jWarn := b }
  if ¬ was ∧ w ≤ t then
    let s1 := (s.setThm (upd true)).set F.THM_STAT_WARN_SEEN 1
    s1.emitC 0xA 1 (s1.effColour 30) [(1, 1), (b2n brd, 1), (unsigned t 16, 2), (sens, 1)]
  else if was ∧ t < w - h then (s.setThm (upd false)).emit 0xA 1 [(0, 1), (b2n brd, 1), (unsigned t 16, 2), (sens, 1)]
  else s

/-- Throttle of one input (R332). An entry also raises its source. -/
def State.throtEval (s : State) (brd : Bool) (t w : Int) (th : Nat) : State :=
  let was := if brd then s.thm.bThr else s.thm.jThr
  let h : Int := 8 * s.get F.THM_CFG_HYST
  let upd := fun (b : Bool) => if brd then { s.thm with bThr := b } else { s.thm with jThr := b }
  if ¬ was ∧ w ≤ t then
    let s1 := (s.setThm (upd true)).set F.THM_STAT_THROT_SEEN 1
    s1.emitC 0xA 2 (s1.effColour 31) [(1, 1), (b2n brd, 1), (unsigned t 16, 2), (th, 2)]
  else if was ∧ t < w - h then (s.setThm (upd false)).emit 0xA 2 [(0, 1), (b2n brd, 1), (unsigned t 16, 2), (th, 2)]
  else s

/-- The sources that the step from thermal states `x` to `y` raises (R332). -/
def thmRaises (x y : Thm) : List (Nat × Nat) :=
  (if y.jWarn && !x.jWarn then [(30, 0)] else []) ++ (if y.bWarn && !x.bWarn then [(30, 0)] else []) ++
  (if y.jThr && !x.jThr then [(31, 0)] else []) ++ (if y.bThr && !x.bThr then [(31, 0)] else [])

/-- A new throttle proportion stands; the slots of the next 2 µs still use `old` (R333). -/
def State.thMark (s : State) (old : Nat) : State := { s with thm := { s.thm with thOld := old, thAt := s.now } }

/-- A throttle proportion (R333). -/
def State.proportion (s : State) (t thr : Int) : Nat :=
  if 8 * thr < t then (min (tdiv ((t - 8 * thr) * 4096) (s.get F.THM_CFG_SPAN)) 32767).toNat else 0

/-- The board thermistor's part of an evaluation: its validity and its temperature (R328, R329). -/
def State.brdEval (s : State) : State :=
  let ch := s.brdCh
  let c := s.code ch
  if c = 4095 ∨ c ≤ 40 then
    if s.flag F.THM_STAT_BRD_INV then s
    else
      let s1 := (s.set F.THM_STAT_BRD_INV 1).set F.THM_STAT_NTC_FAULT 1
      s1.emitC 0xA 4 (s1.effColour 33) [(1, 1), (ch, 1), (c, 2)]
  else
    let s1 := if s.flag F.THM_STAT_BRD_INV then ((s.set F.THM_STAT_BRD_INV 0).unraise 33).emit 0xA 4 [(0, 1), (ch, 1), (c, 2)] else s
    let r := s1.ntc (s1.get F.THM_BRD_RB_RB * (5 * c) : Nat)
      ((s1.get F.THM_BRD_NTC_R25 : Int) * (16 * s1.code 64 - 5 * c)) (s1.get F.THM_BRD_NTC_B)
    r.2.setS F.THM_NTC_T_TBRD r.1

/-- TJ and the sensor that gives it (R327). -/
def State.junction (s : State) : Int × Nat :=
  (List.range 10).foldl (fun (b : Int × Nat) k => if b.1 < (s.code (68 + k) : Int) - 1600 then ((s.code (68 + k) : Int) - 1600, k) else b)
    ((s.code 68 : Int) - 1600, 0)

/-- Without the board thermistor its states end (R329, R334). -/
def State.brdOff (s : State) : State :=
  if s.flag F.THM_CFG_BRD_EN then s
  else ((s.set F.THM_STAT_BRD_INV 0).unraise 33).setThm { s.thm with bWarn := false, bThr := false }

/-- An evaluation with fresh results (R327 to R333, R274), which may suspend the charger (R275). The sources that it raises come together (R345). -/
def State.thmEval (s : State) : State :=
  let tj := s.junction
  let s1 := (s.setS F.THM_TJ_TJ tj.1).set F.THM_TJ_SENS tj.2
  let s2 := if s1.packOpen then s1
    else
      let r := s1.ntc (1000 * s1.code 66 : Nat) ((s1.get F.THM_PACK_NTC_R25 : Int) * (2 * s1.code 64 - s1.code 66)) (s1.get F.THM_PACK_NTC_B)
      (r.2.setS F.THM_NTC_T_TPACK r.1).zoneEval r.1
  let brd := s.flag F.THM_CFG_BRD_EN
  let s3 := if brd then s2.brdEval else s2.brdOff
  let valid := brd && !s3.flag F.THM_STAT_BRD_INV
  let tb := s3.getS F.THM_NTC_T_TBRD
  let thj := s3.proportion tj.1 (s3.get F.THM_THR_THR)
  let thb := if valid then s3.proportion tb (s3.getS F.THM_BRD_THR_BTHR) else 0
  let th := max thj thb
  let s4 := ((s3.set F.THM_TH_TH th).put F.THM_TH_SRC (decide (thj < thb))).thMark s.slotTh
  let s5 := (s4.warnEval false tj.1 (8 * (s4.get F.THM_THR_WARN : Int)) tj.2).throtEval false tj.1 (8 * (s4.get F.THM_THR_THR : Int)) th
  let s6 := (if valid then
      let d := s5.draw
      (d.2.warnEval true tb (8 * s5.getS F.THM_BRD_THR_BWARN) (d.1 % 256)).throtEval true tb (8 * s5.getS F.THM_BRD_THR_BTHR) th
    else s5).chgCheck
  s6.raiseAll (thmRaises s.thm s6.thm ++ (if s6.flag F.THM_STAT_BRD_INV && !s.flag F.THM_STAT_BRD_INV then [(33, 0)] else []))

/-- The evaluation is made, where no input is stale; stale ones are requested, and it waits for their results (R327). -/
def State.thmTry (s : State) : State :=
  let old := s.thmInputs.filter fun ch => s.stale ch
  if old = [] then s.thmEval
  else
    let cv := s.pool.headD 0
    old.foldl (fun t ch => t.adcPush ⟨3, ch, cv, 0, false, none⟩) { s with thm := { s.thm with waits := old } }

/-- THERMAL_EVAL: the 100 µs evaluation (R327). -/
def execThermalEval (s : State) : Out State :=
  .next (if s.inMode .run ∧ s.thm.waits = [] then
    let s1 := s.due s.thm.next
    ({ s1 with thm := { s1.thm with next := s1.now + 100 * engPerUs } } : State).thmTry
  else s)

/-- An urgent conversion of channel `ch` has ended: the evaluation that waited for it alone is made, as its inputs then stand (R327). -/
def State.thmResult (s : State) (ch : Nat) : State :=
  if s.thm.waits.contains ch then
    let t : State := { s with thm := { s.thm with waits := s.thm.waits.filter fun c => decide (c ≠ ch) } }
    if t.thm.waits = [] then t.thmTry else t
  else s

/-- CONVERSION_END: the conversion in progress on converter `cv` ends with code `code`; the member of the active Doubles pair whose turn it is, with
none in progress, gives a Doubles sample (R309, R316, R320, R321). -/
def execConversionEnd (cv : Fin 4) (code : BitVec 12) (s : State) : Out State :=
  .next (if s.adcOn then
    match tget s.adc.cvs cv none with
    | some v => if v.kind = 3 then (s.convEnd cv code.toNat v).thmResult v.ch else s.convEnd cv code.toNat v
    | none => if s.dblTurn cv then s.dblSample cv code.toNat else s
  else s)

/-- Everything that the shutdown comparators turn off (R335). -/
def State.thermalOff (s : State) : State :=
  let s1 := forEach (List.range 16) (fun n t => t.cutStack n) s
  let s2 := forEach (List.range 8) (fun n t => t.ldoOff n) s1
  let s3 := forEach (List.range 6) (fun n t => t.lswOff n) s2
  let own := fun (d : Nat) => decide (s.get (F.SEQ_DOM_MEMB_STK d) ≠ 0 ∨ s.get (F.SEQ_DOM_MEMB_LDO d) ≠ 0 ∨ s.get (F.SEQ_DOM_MEMB_LSW d) ≠ 0)
  let m := maskOf ((List.range 12).filter fun d => (s.dom d).raw && own d)
  ({ s3 with seq := { s3.seq with latchMask := s3.seq.latchMask ||| m } } : State).refreshRaw.chgTiles

/-- THERMAL_SHUTDOWN: a sensor passes the shutdown threshold (R335, R336); another sensor may do so while the latch holds. -/
def execThermalShutdown (sensor : Fin 10) (s : State) : Out State :=
  .next (if (s.inMode .run ∨ s.inMode .park ∨ s.inMode .black ∨ s.inMode .boot) ∧ s.dev.stage ≠ .waiting then
    let s1 := ((s.set F.THM_STAT_LATCH 1).thermalOff).set F.THM_STAT_SD 1
    let s2 := (s1.emitC 0xA 3 (s1.effColour 32) [(sensor, 1), (s.dev.mode.code, 1), (s.get F.THM_TJ_TJ, 2)]).raise 32 0
    if s2.inMode .run ∨ s2.inMode .park then s2.pmidRequest else s2
  else s)

/-- HIB_TS6_CHECK: once per second in HIBERNATE; below the release level the latch clears and a held wake source acts (R337). -/
def execHibTs6Check (below : Bool) (s : State) : Out State :=
  .next (if s.inMode .hibernate ∧ below ∧ s.flag F.THM_STAT_LATCH then
    let s1 := s.set F.THM_STAT_LATCH 0
    if s1.dev.wakeLatch ≠ 0 ∧ s1.aoGood then s1.wakeBoot else s1
  else s)

end Sys2Proof.Machine
end

