-- ==== Sys2Proof/Machine/Restart.lean ====
section
/-! DEFINITION. The start of a full reset (R29 to R32) and the commands that begin it, end its waits, or bring and take away the
supplies (R54 to R57). -/

namespace Sys2Proof.Machine

/-- Every seat of the host watchdog stops, and a second period with it (R30 step 1, R359, R360). -/
def State.seatsStop (s : State) : State :=
  let s0 := s.latchCounts
  ((((({ s0 with wdg := { s0.wdg with stage2 := none } } : State).set F.WDG_STAT_RUN 0).set F.WDG_STAT_PAUSED 0).set F.WDG_STAT_STAGE2 0).set
    F.WDG_STAT_SEAT 15).set F.WDG_STAT_CAUSE 0

/-- Step 3 of a full reset (R30, R231): program 1 runs from its first word, or goes on where it runs already; requests are cleared. A Black
failure of a shutdown that this ends leaves nothing to run (R21). -/
def State.resetProgram (s : State) : State :=
  let s1 := (s.set F.SEQ_STAT_PEND 0).set F.SEQ_STAT_START 0
  let s2 := s1.setSeq { s1.seq with pmidShut := false, masterOff := false }
  let s3 := (if s2.failing then s2.shutAbort.settled else s2).parkFailsOut
  if s3.dev.stage ≠ .powerDown ∨ s2.phase = 4 then s3
  else
    let s4 := if s3.progRuns then (s3.set F.SEQ_STAT_RUN 0).emit 5 2 [(s3.get F.SEQ_STAT_PROG, 1), (2, 1), (s3.get F.SEQ_PC_WORD, 2)] else s3
    (s4.setPhase 4).progStart 1 8 0

/-- Step 3 of a full reset begins (R30). -/
def State.resetStep3 (s : State) : State :=
  ({ s with dev := { s.dev with stage := .powerDown, resetAt := s.now } }).resetProgram

/-- A cause of a full reset arises (R29): its bit is set, and it begins the reset, or joins the one in progress (R30, R32). It
abandons a memory command at once (R365, R464). A journal commit in progress completes before step 3 (step 2); JOURNAL_COMMIT_DONE then goes on. -/
def State.startReset (s : State) (cause : FRef) : State :=
  let rcv := decide (cause = F.SYS_RESET_CAUSE_CMD_RCV)
  let s1 := s.set cause 1
  if s.inMode .off then s
  else if s.dev.stage ≠ .none then
    let s2 := { s1 with dev := { s1.dev with toRecovery := s1.dev.toRecovery || rcv } }
    if s.dev.stage ≠ .waiting ∧ cause = F.SYS_RESET_CAUSE_PMID_LOSS then s2.resetFinish else s2
  else
    let s2 := { s1.seatsStop.updAbandon with dev := { s1.dev with toRecovery := rcv } }
    if (s.inMode .run ∨ s.inMode .park) ∧ cause ≠ F.SYS_RESET_CAUSE_PMID_LOSS then
      (if s2.jnl.busy then { s2 with dev := { s2.dev with stage := .commit } } else s2.resetStep3)
    else s2.resetFinish

/-- RESET_N_LOW: `RESET_N` has been low for 1 µs (R29). -/
def execResetNLow (s : State) : Out State :=
  .next (if s.dev.vaoGood then ({ s with dev := { s.dev with resetNLow := true } } : State).startReset F.SYS_RESET_CAUSE_PIN else s)

/-- The level of the strap pin. -/
def State.strapTo (s : State) (b : Bool) : State := { s with dev := { s.dev with gpioIn := putBit s.dev.gpioIn 0 b } }

/-- RESET_N_RELEASE: `RESET_N` rises; a reset that waits for it enters BOOT (R30 steps 6 and 7). -/
def execResetNRelease (strap : Bool) (s : State) : Out State :=
  let s1 := { (s.strapTo strap) with
    dev := { (s.strapTo strap).dev with resetNLow := false } }
  .next (if s1.dev.stage = .waiting ∧ s1.aoGood then s1.enterBoot else s1)

/-- POWER_DOWN_TIMEOUT: the power-down program of step 3 has not ended within 250 ms (R30). -/
def execPowerDownTimeout (s : State) : Out State :=
  .next (if s.dev.stage = .powerDown then (s.due (s.dev.resetAt + 250 * engPerMs)).resetFinish else s)

/-- A key written to `SYS_RESET` (R33); any other value is discarded without effect. -/
def State.resetWrite (s : State) (v : Nat) : State :=
  if v = 0xD1CE0F0F then s.startReset F.SYS_RESET_CAUSE_CMD
  else if v = 0xD1CE0EC0 then s.startReset F.SYS_RESET_CAUSE_CMD_RCV
  else s

def execSysResetImage (s : State) : Out State := .next (s.bus 0x0008 fun t => t.resetWrite 0xD1CE0F0F)
def execSysResetRecovery (s : State) : Out State := .next (s.bus 0x0008 fun t => t.resetWrite 0xD1CE0EC0)

/-- Always-on good begins BOOT (R55, R452). -/
def State.aoBoot (s : State) : State := ({ s with dev := { s.dev with aoAt := s.now } } : State).enterBoot

/-- Always-on good has come: BOOT begins from OFF, from a reset that waits, or from HIBERNATE with a wake latched (R19, R55, R56). -/
def State.onAoGood (s : State) : State :=
  if s.aoGood then
    if s.inMode .off then s.aoBoot
    else if s.dev.stage = .waiting then
      (if s.dev.resetNLow then { s with dev := { s.dev with strapSeen := s.dev.strapSeen || bitOf s.dev.gpioIn 0 } } else s.aoBoot)
    else if s.inMode .hibernate ∧ s.dev.wakeLatch ≠ 0 ∧ ¬ s.flag F.THM_STAT_LATCH then s.wakeBoot
    else s
  else s

/-- VAO_GOOD: `VAO` has stayed at or above 3.10 V for 1 ms (R54). The power path looks for a supply and a pack from then on (R59, R281);
`pack` says that one is present already. -/
def execVaoGood (strap pack : Bool) (s : State) : Out State :=
  .next (if s.inMode .off ∧ ¬ s.dev.vaoGood then
    let s1 := { (s.strapTo strap) with
      dev := { (s.strapTo strap).dev with vaoGood := true }, rtcAt := s.aoTicks,
      pp := { s.pp with firstQual := pack, presAt := s.now, feOut := s.now, handAt := s.now, treqs := [(s.now, 20)] } }
    (s1.put F.PP_PACK_STAT_QUAL pack).onAoGood
  else s)

/-- VAO_GOOD_LOSS: the device goes to OFF and everything stops (R56). Memories without power keep their contents; a journal commit in
progress completes; an OTP word in the middle of its programming may be torn (R427). -/
def execVaoGoodLoss (s : State) : Out State :=
  .next (if s.dev.vaoGood then
    let s1 := s.jnlFlush.updTear
    let s2 := match s1.otp.prog with
      | some (w, d) => s1.otpTorn w d
      | none => s1
    { State.blank with
      pending := s.pending, now := s.now, draws := s2.draws, nv := s2.nv,
      dev := { Dev.init with pmidGood := s.dev.pmidGood, gpioIn := s.dev.gpioIn, xtalFailed := s.dev.xtalFailed } }
  else s)

/-- PMID_CORE_READY: `PMID` rises above 4.30 V (R55). -/
def execPmidCoreReady (strap : Bool) (s : State) : Out State :=
  .next (if s.dev.pmidGood then s
    else ({ (s.strapTo strap) with
      dev := { (s.strapTo strap).dev with pmidGood := true }, pp := { s.pp with uvArmed := false } } : State).onAoGood)

/-- PMID_CORE_READY_LOSS: `PMID` falls below 4.10 V (R55, R56). -/
def execPmidCoreReadyLoss (s : State) : Out State :=
  .next (if s.dev.pmidGood then
    let s1 := { s with dev := { s.dev with pmidGood := false } }
    if s.inMode .off ∨ s.inMode .hibernate then s1 else s1.startReset F.SYS_RESET_CAUSE_PMID_LOSS
  else s)

end Sys2Proof.Machine
end

