-- ==== Sys2Proof/Machine/Watchdog.lean ====
section
/-! DEFINITION. The host watchdog's seats (R355 to R362), the core watchdog (R363), the `WDX` pulse (R364) and the evidence snapshot
(R366). -/

namespace Sys2Proof.Machine

/-- AO ticks of `n` ms (R356). -/
def msTicks (n : Nat) : Nat := (n * 32768 + 500) / 1000

/-- The regular period, the window's opening and the first period of seat `n`, in ticks (R356). -/
def State.seatPt (s : State) (n : Nat) : Nat := msTicks (s.get (F.WDG_SEAT_CFG_PERIOD n))
def State.seatOp (s : State) (n : Nat) : Nat :=
  let w := s.get (fr 0x300C (3 * n) 3 0)
  s.seatPt n * (if w = 0 then 4 else w) / 8
def State.seatFt (s : State) (n : Nat) : Nat :=
  let f := s.get (F.WDG_SEAT_CFG_FIRST n)
  if f = 0 then s.seatPt n else msTicks (f * 100)

/-- The length of the period in progress. -/
def State.seatLen (s : State) (n : Nat) : Nat := if (s.seat n).first then s.seatFt n else s.seatPt n

/-- The seats count: the watchdog runs and seat `n` is enabled (R357, R362). -/
def State.seatRuns (s : State) (n : Nat) : Bool :=
  s.flag F.WDG_STAT_RUN && !s.flag F.WDG_STAT_PAUSED && s.flag (F.WDG_SEAT_CFG_EN n)

/-- Ticks since the period in progress began: t of R357. -/
def State.seatT (s : State) (n : Nat) : Nat := s.aoTicks - (s.seat n).start

/-- The window is open (R357, R366). -/
def State.seatOpen (s : State) (n : Nat) : Bool := s.seatRuns n && !(s.seat n).first && decide (s.seatOp n ≤ s.seatT n)

/-- The start of the time base of R366. -/
def State.timeBase (s : State) : Nat :=
  match s.dev.runSinceReset, s.dev.runEntry with
  | true, some t => t
  | _, _ => s.dev.bootStart

/-- The two flag and time bytes of seat `n` in a snapshot; `bad` says that it violates at the latch (R366). -/
def State.seatBytes (s : State) (n : Nat) (bad : Bool) : List Byte :=
  let x := s.seat n
  let e := s.flag (F.WDG_SEAT_CFG_EN n)
  let ms := match x.lastGood with
    | some t => min ((s.aoTicks - t) * 1000 / 32768) 65534
    | none => 65535
  [byte (s.get (F.WDG_SEAT_STAT_TAG n)), byte (b2n e + 2 * b2n (e && x.first) + 4 * b2n (e && x.served) + 8 * b2n bad + 16 * b2n (s.seatOpen n))] ++ leBytes 2 ms

/-- The evidence snapshot is latched (R366); byte 54 counts the snapshots that it replaces. -/
def State.evidenceLatch (s : State) (kind seat cause pc : Nat) (bad : List Nat) : State :=
  let b := s.timeBase
  let core := match s.wdg.coreLast with
    | some t => if b ≤ ofTicks t then min ((ofTicks t - b) / engPerMs) 0xFFFFFFFE else 0xFFFFFFFF
    | none => 0xFFFFFFFF
  let replaced := match s.wdg.latch with
    | some l => incSat (leField l 54 1) 255
    | none => 0
  let l := [byte kind, byte seat, byte cause, byte (s.dev.mode.code + 16 * b2n (s.flag F.UPD_STAT_BUSY && decide (s.get F.UPD_STAT_PHASE ≠ 3)))] ++ leBytes 4 s.rtcStamp ++
    leBytes 4 (min ((s.now - b) / engPerMs) 0xFFFFFFFF) ++ leBytes 4 pc ++ leBytes 4 core ++
    (List.range 8).flatMap (fun n => s.seatBytes n (bad.contains n)) ++ [0, 0, byte replaced] ++ List.replicate 9 0
  { s with wdg := { s.wdg with latch := some l } }

/-- Length of the `WDX` pulse in ms (R364). -/
def State.wdxLen (s : State) : Nat :=
  match s.get F.WDG_FUSE_WDX_LEN with
  | 0 => 100
  | 1 => 200
  | 2 => 500
  | _ => 1000

/-- The expiry pulse begins (R364). -/
def State.wdxStart (s : State) : State := { s with dev := { s.dev with wdxPulse := true, wdxAt := s.now + s.wdxLen * engPerMs } }

/-- The device resets for an expiry of the host watchdog (R359, R360). -/
def State.hostExpiry (s : State) : State := s.wdxStart.startReset F.SYS_RESET_CAUSE_HOST_WDG

/-- The host watchdog's action started at this very tick (R359). -/
def State.vioNow (s : State) : Bool := decide (s.wdg.vioTick = some s.aoTicks)

/-- The snapshot `l` with seat `n` recorded as violating too, with the tag it has written; a lower-numbered seat becomes the first (R359, R366). -/
def amendSnapshot (n cause tag : Nat) (l : List Byte) : List Byte :=
  let l1 := (l.set (20 + 4 * n) (byte tag)).set (21 + 4 * n) (byte (leField l (21 + 4 * n) 1 ||| 8))
  if n < leField l 1 1 then (l1.set 1 (byte n)).set 2 (byte cause) else l1

/-- The WDG_STAGE1 record of the second period that began at this tick. It is requested when the tick ends, for a seat that violates later in the tick
and has a lower number is the first seat (R359, R360); it takes the place of one requested already. -/
def State.stage1 (s : State) (n cause : Nat) : State :=
  let clk := ofTicks (s.aoTicks + 1) / 2
  let l := s.evt.reqs.filter fun r => !decide (r.block = 0xC ∧ r.code = 1 ∧ r.clk = clk)
  if s.coreRuns then
    { s with evt := { s.evt with reqs := insReq ⟨0xC, 1, 0, payload
      [(n, 1), (cause, 1), (s.get (F.WDG_SEAT_STAT_TAG n), 1), (0, 1), (s.seatPt n * 1000 / 32768, 4)], none, clk⟩ l } }
  else s

/-- Seat `n` violates at the tick at which the action started: it is recorded with the others (R359). -/
def State.violateToo (s : State) (n cause : Nat) : State :=
  let s1 := { s with wdg := { s.wdg with latch := s.wdg.latch.map (amendSnapshot n cause (s.get (F.WDG_SEAT_STAT_TAG n))) } }
  match s.wdg.stage2 with
  | some (t, _) =>
    if n < s.get F.WDG_STAT_SEAT then
      ((({ s1 with wdg := { s1.wdg with stage2 := some (t, s1.seatPt n) } } : State).set F.WDG_STAT_SEAT n).set F.WDG_STAT_CAUSE cause).stage1 n cause
    else s1
  | none => s1

/-- Seats violate with `cause` at this tick; the lowest-numbered one is the first seat (R359, R360). During a second period those of the
other seats are counted. -/
def State.violate (s : State) (l : List Nat) (cause pc : Nat) : State :=
  match l with
  | [] => s
  | n :: _ =>
    if s.wdg.stage2.isSome then
      (if s.vioNow then l.foldl (fun t m => t.violateToo m cause) s
      else { s with wdg := { s.wdg with
        s2Violations := min (s.wdg.s2Violations + (l.filter fun m => decide (m ≠ s.get F.WDG_STAT_SEAT)).length) 255 } })
    else if s.flag F.WDG_CFG_COMPAT then
      let s0 := { s with wdg := { s.wdg with vioTick := some s.aoTicks } }
      let s1 := s0.evidenceLatch 1 n cause pc l
      let s2 := { s1 with wdg := { s1.wdg with stage2 := some (s1.aoTicks, s1.seatPt n), s2Services := 0, s2Violations := 0 } }
      let s3 := ((s2.set F.WDG_STAT_STAGE2 1).set F.WDG_STAT_SEAT n).set F.WDG_STAT_CAUSE cause
      s3.stage1 n cause
    else (({ s with wdg := { s.wdg with vioTick := some s.aoTicks } } : State).evidenceLatch 0 n cause pc l).hostExpiry

/-- A seat's record with its status bits. -/
def State.putSeat (s : State) (n : Nat) (x : Seat) : State :=
  ((s.setSeat n x).put (F.WDG_SEAT_STAT_FIRSTP n) x.first).put (F.WDG_SEAT_STAT_SERVED n) x.served

/-- How a service of seat `n` at this tick violates: 2 EARLY, 3 DOUBLE, 0 not at all (R357). -/
def State.serviceCause (s : State) (n : Nat) : Nat :=
  let x := s.seat n
  if x.first then 0 else if s.seatT n < s.seatOp n then 2 else if x.served then 3 else 0

/-- A service word reaches the block with checkpoint `tag` (R357, R358); `pc` stands for the core's program counter, should the service violate.
A second period discards services and counts them (R360); a violation at the tick of the first is recorded with it (R359). -/
def State.serve (s : State) (n tag pc : Nat) : State :=
  let s1 := s.set (F.WDG_SEAT_STAT_TAG n) tag
  let x := s1.seat n
  let c := s1.serviceCause n
  let again : Bool := match s1.wdg.latch with
    | some l => bitOf (leField l (21 + 4 * n) 1) 3
    | none => false
  if s1.vioNow ∧ c ≠ 0 ∧ ¬ again then s1.violateToo n c
  else if s.wdg.stage2.isSome then { s1 with wdg := { s1.wdg with s2Services := incSat s1.wdg.s2Services 255 } }
  else if s1.vioNow then s1
  else if c ≠ 0 then s1.violate [n] c pc
  else if x.first then s1.putSeat n { x with first := false, served := false, start := s1.aoTicks, lastGood := some s1.aoTicks }
  else s1.putSeat n { x with served := true, lastGood := some s1.aoTicks }

/-- A write to `WDG_SERVICE` (R358). The core's program counter at an expiry is a free value. -/
def State.serviceWrite (s : State) (v : Nat) : State :=
  let n := bits v 8 8
  if bits v 16 16 = 0x5EA7 ∧ n < 8 ∧ s.flag (F.WDG_SEAT_CFG_EN n) then
    if s.seatRuns n ∨ s.vioNow then
      let (pc, s1) := s.draw
      s1.serve n (v % 256) (pc % 2 ^ 32)
    else s
  else s.incSatF F.WDG_STAT_BADKEY

def execWdgService (v : Word) (s : State) : Out State := .next (s.bus 0x3004 fun t => t.serviceWrite v.toNat)

/-- The tick at which seat `n`'s period in progress ends. -/
def State.seatEnd (s : State) (n : Nat) : Nat := (s.seat n).start + s.seatLen n

/-- The seats whose periods end at tick `k` roll over; those left unserved violate together with MISSED (R357, R359). -/
def State.seatsRoll (s : State) (k pc : Nat) : State :=
  let l := (List.range 8).filter fun n => s.seatRuns n && decide (s.seatEnd n ≤ k)
  let bad := l.filter fun n => (s.seat n).first || !(s.seat n).served
  let s1 := s.violate bad 1 pc
  if s1.flag F.WDG_STAT_RUN then
    forEach l (fun n t => t.putSeat n { t.seat n with first := false, served := false, start := s.seatEnd n }) s1
  else s1

/-- SEAT_FIRST_PERIOD_END and SEAT_PERIOD_END: the period of seat `n` ends (R357). No seat that ends earlier is passed over. -/
def State.seatPeriodEnd (s : State) (n pc : Nat) : State :=
  let k := s.seatEnd n
  if (List.range 8).all (fun m => !s.seatRuns m || decide (k ≤ s.seatEnd m)) then (s.due (ofTicks k)).seatsRoll k pc else s

def execSeatFirstPeriodEnd (n : Fin 8) (pc : Word) (s : State) : Out State :=
  .next (if s.seatRuns n ∧ (s.seat n).first then s.seatPeriodEnd n pc.toNat else s)
def execSeatPeriodEnd (n : Fin 8) (pc : Word) (s : State) : Out State :=
  .next (if s.seatRuns n ∧ ¬ (s.seat n).first then s.seatPeriodEnd n pc.toNat else s)

/-- SECOND_PERIOD_END: the second period ends and the full reset starts (R360). -/
def execSecondPeriodEnd (s : State) : Out State :=
  match s.wdg.stage2 with
  | some (t, len) => .next ((s.due (ofTicks (t + len))).hostExpiry)
  | none => .next s

/-- The core watchdog's period in ms, where it runs (R363, R70). -/
def State.corePeriod (s : State) : Option Nat :=
  match s.dev.mode with
  | .boot => if s.dev.stage = .none then some 200 else none
  | .run => some (s.get F.WDG_CORE_CFG_PER)
  | .black => some (if s.dev.blackFromBoot then 200 else s.get F.WDG_CORE_CFG_PER)
  | .recovery => some 2000
  | _ => none

/-- CORE_WDG_SERVICE: the supervisor core serves its watchdog, a quarter of the period in force after the last service or the period's start
(R363); not in a BLACK that began in BOOT. -/
def execCoreWdgService (s : State) : Out State :=
  .next (match s.corePeriod with
    | some p =>
      if s.inMode .black ∧ s.dev.blackFromBoot then s
      else
        let s1 := s.due (ofTicks (s.wdg.coreServed + msTicks p / 4))
        { s1 with wdg := { s1.wdg with coreServed := s1.aoTicks, coreLast := some s1.aoTicks } }
    | none => s)

/-- CORE_WDG_EXPIRY: no service has come within the period (R363). -/
def execCoreWdgExpiry (pc : Word) (s : State) : Out State :=
  .next (match s.corePeriod with
    | some p =>
      let s1 := s.due (ofTicks (s.wdg.coreServed + msTicks p))
      ((s1.evidenceLatch 2 0xFF 4 pc.toNat []).wdxStart).startReset F.SYS_RESET_CAUSE_CORE_WDG
    | none => s)

/-- WDX_PULSE_END: the pulse has lasted its length (R364). -/
def execWdxPulseEnd (s : State) : Out State :=
  .next (if s.dev.wdxPulse then
    let s1 := s.due s.dev.wdxAt
    { s1 with dev := { s1.dev with wdxPulse := false } }
  else s)

/-- The seats pause at PARK entry, and their counts are discarded (R362). -/
def State.seatsPause (s : State) : State :=
  forEach (List.range 8) (fun n t => t.putSeat n { t.seat n with first := false, served := false })
    ((s.set F.WDG_STAT_RUN 0).set F.WDG_STAT_PAUSED 1)

/-- EVIDENCE_RETRY: a snapshot whose commit was refused is queued again 100 ms after the refusal (R451). -/
def execEvidenceRetry (s : State) : Out State :=
  .next (match s.wdg.retryAt with
    | some t =>
      if (s.inMode .run ∨ s.inMode .black ∨ s.inMode .recovery) ∧ s.wdg.latch.isSome ∧ ¬ s.evidenceQueued then (s.due t).evidencePush else s
    | none => s)

/-- A write to `WDG_EVID_IDX` copies a journalled snapshot (WDG registers). -/
def State.evidIdxWrite (s : State) (v : Nat) : State :=
  ((s.set F.WDG_EVID_IDX_K v).injCheck 12 (area 5).base).copyWords 0x3090 16 (s.bodyBack 5 (v % 16))

def execWdgEvidIdxWrite (v : Word) (s : State) : Out State := .next (s.bus 0x3080 fun t => t.evidIdxWrite v.toNat)

end Sys2Proof.Machine
end

