-- ==== Sys2Proof/Machine/Park.lean ====
section
/-! DEFINITION. PARK entry and exit, the wake sources and the RTC (R16, R17, R22, R90 to R95, R234 to R236, R388, R391, R440). -/

namespace Sys2Proof.Machine

/-- The stacks that PARK kept on compute again, with the presets of R175. -/
def State.stacksWake (s : State) : State :=
  forEach (List.range 16) (fun n t => if t.flag (F.STK_STAT_EN n) then t.setStk n { t.stk n with prePark := true } else t) s

/-- What starts with RUN entry and with PARK exit alike: the seats, the frame timing unit, the ADC, the engine's frame counter (R160), the heartbeats and the first
window of a master's heartbeat (R102, R309, R357, R362, R412, R413). -/
def State.runStart (s : State) : State :=
  let s1 := s.seatsStart.coreWdgRestart.frmStart.adcStart
  { s1 with eng := { s1.eng with frameAt := s1.now, slots := 0, measAt := s1.now }, twc := { s1.twc with beatAt := s1.now }, twt := { s1.twt with winEnd := s1.now + 500 * engPerMs } }

/-- PARK exit (R92, R93): retention is restored and program 3 starts; `retOk` false means that the check of the retention data failed. -/
def State.parkExit (s : State) (retOk : Bool) : State :=
  let s0 := (({ s with ret := none, dev := { s.dev with wakeLatch := 0 } } : State).set F.SYS_STATE_RET_VALID 0)
  let s1 := if retOk then s0 else s0.evtBlank.raise 1 0
  if s1.inMode .park then
    let s2 := { (s1.setMode .run) with evt := { s1.evt with pushHeld := false } }
    let s3 := s2.gaugeCut.stacksWake.runStart.parkFailsOut.packExit.chgCheck
    if s3.inMode .run then
      (if retOk then (s3.setPhase 8).progStart 3 7 0 else (s3.setPhase 2).settled)
    else s3
  else s1

/-- The latch of R22 for wake source `k`, with the outcome of the check of the retention data. -/
def wakeCode (k : Nat) (retOk : Bool) : Nat := k + 1 + (if retOk then 0 else 8)

/-- The device is on its way to HIBERNATE: for a thermal latch or a PMID shutdown, or by a power-down that HIBERNATE follows (R225, R230, R336). -/
def State.hibGoing (s : State) : Bool :=
  s.flag F.THM_STAT_LATCH || s.seq.pmidShut || (decide (s.seq.after = 1) && (decide (s.phase = 3) || decide (s.phase = 4)))

/-- The wake that is latched, if one is, takes the device out of PARK. -/
def State.parkWake (s : State) : State :=
  if s.inMode .park ∧ s.dev.wakeLatch ≠ 0 ∧ s.seq.shut = none ∧ ¬ s.progRuns ∧ ¬ s.hibGoing ∧ s.dev.stage = .none then s.parkExit (decide (s.dev.wakeLatch ≤ 8)) else s

/-- The wake of source `k` is latched; one that is latched already stays, unless HIBERNATE comes and it is not enabled for that. -/
def State.wakeHold (s : State) (k : Nat) (retOk : Bool) : State :=
  { s with dev := { s.dev with wakeLatch := if (if s.hibGoing then s.hibWake else s.dev.wakeLatch) = 0 then wakeCode k retOk else s.dev.wakeLatch } }

/-- Wake source `k` fires (R90 to R94), crossing from the AO domain (R28): its status bit is set, and where it is enabled the device wakes, or latches the wake until the
entry in progress has completed (R22), or until the thermal latch clears (R337). BLACK ignores `ON_REQ` and the `WAKEn` pins (R41). -/
def State.wakeFire (s : State) (k : Nat) (retOk : Bool) : State :=
  if s.inMode .black ∧ k ≤ 4 then s else
  let s1 := (s.cross 11 k).putBitF F.SYS_WAKE_STATUS_FIRED k true
  let park := s.bitF F.SYS_WAKE_CFG_PARK_EN k
  let hib := decide (k < 7) && s.bitF F.SYS_WAKE_CFG_HIB_EN k
  if s.dev.stage ≠ .none then s1
  else match s.dev.mode with
    | .hibernate =>
      if hib then (if s.aoGood ∧ ¬ s.flag F.THM_STAT_LATCH then s1.wakeBoot else s1.wakeHold k retOk) else s1
    | .park =>
      if s.hibGoing then (if hib then s1.wakeHold k retOk else s1)
      else if park then (s1.wakeHold k retOk).parkWake else s1
    | .run => if (s.phase = 6 ∧ park) ∨ (s.hibGoing ∧ hib) then s1.wakeHold k retOk else s1
    | .boot => if s.flag F.THM_STAT_LATCH ∧ hib then s1.wakeHold k retOk else s1
    | _ => s1

/-- WAKE_SOURCE: a wake source fires (R90). Source 5 fires when the seconds count equals the alarm, source 6 while the power path has accepted
`VIN`, source 7 only while PARKED holds (R91). -/
def execWakeSource (k : Fin 8) (retOk strap : Bool) (s : State) : Out State :=
  .next (if s.dev.vaoGood ∧ (k.val = 7 → s.inMode .park) ∧
      (k.val = 5 → s.rtcSec = s.get F.SYS_WAKE_ALARM_SEC ∧ s.rtcSec ≠ 0) ∧ (k.val = 6 → s.get F.PP_FE_STAT_STATE ≠ 0) then
    (if s.inMode .hibernate then s.strapTo strap else s).wakeFire k retOk else s)

/-- V(`VIN_SNS`) at `vin` in 10 mV allows the end of QUAL: at least 6.5 V, and after a loss with cause 3 or 4 at most 18.0 V (R264). -/
def State.vinFits (s : State) (vin : Nat) : Bool :=
  decide (650 ≤ vin) && (decide (s.get F.PP_FE_CNT_CAUSE ≠ 3 ∧ s.get F.PP_FE_CNT_CAUSE ≠ 4) || decide (vin ≤ 1800))

/-- VIN_QUALIFIED: V(`VIN_SNS`), at `vin` in 10 mV, has stayed in range for treq_eff since the last hand-over or since its last rise through 6.5 V, which
came `rise` ENG periods after the hand-over (R260, R264, R266); wake source 6 fires (R90). -/
def execVinQualified (vin rise : Nat) (retOk strap : Bool) (s : State) : Out State :=
  .next (if s.ppOn ∧ s.fe = 0 ∧ s.vinFits vin then
    let t := s.pp.handAt + rise
    let s0 := s.setPp { s.pp with treq := s.treqOf t }
    let s1 := s0.due (t + s0.treqEff * engPerMs)
    let s2 := (((s1.setPp { s1.pp with feOut := s1.now }).set F.PP_FE_STAT_STATE 1).srcRefresh).emit 7 2 [(s1.treqEff, 2), (vin, 2)]
    (if s2.inMode .hibernate then s2.strapTo strap else s2).wakeFire 6 retOk
  else s)

/-- RTC_SECOND: 32,768 AO ticks have passed (R440); the alarm may fire (R90). -/
def execRtcSecond (retOk strap : Bool) (s : State) : Out State :=
  .next (if s.dev.vaoGood then
    let t := s.rtcAt + 32768
    let s0 := s.due (ofTicks t)
    let c := (s0.rtcSec + 1) % 2 ^ 32
    let s1 := { s0 with rtcSec := c, rtcAt := t }
    if c = s1.get F.SYS_WAKE_ALARM_SEC ∧ c ≠ 0 then (if s1.inMode .hibernate then s1.strapTo strap else s1).wakeFire 5 retOk else s1
  else s)

/-- `SYS_STATE.XTAL_FAIL` becomes 1: the epoch becomes invalid and holdover ends in FREE (R102, R440). -/
def State.xtalMark (s : State) : State :=
  let s1 := { s.set F.SYS_STATE_XTAL_FAIL 1 with rtcValid := false }
  if s1.inMode .run then s1.holdCheck else s1

/-- The same, with the source raised where the collector works (R339). -/
def State.xtalSet (s : State) : State := (s.xtalMark).raise 10 0

/-- XTAL_FAIL: the crystal fails (R440). -/
def execXtalFail (s : State) : Out State :=
  .next (if s.dev.vaoGood ∧ ¬ s.dev.xtalFailed then ({ s with dev := { s.dev with xtalFailed := true } } : State).xtalSet else s)

/-- CRYSTAL_RETURN: the crystal runs again; the seconds count stays invalid until an anchor is accepted (R440). -/
def execCrystalReturn (s : State) : Out State :=
  .next (if s.dev.xtalFailed then
    (({ s with dev := { s.dev with xtalFailed := false } } : State).set F.SYS_STATE_XTAL_FAIL 0).unraise 10
  else s)

/-- The queues and the push buffer that PARK entry waits for are empty (R17, R388). -/
def State.queuesEmpty (s : State) : Bool :=
  decide (s.hl.frames = [] ∧ s.mbx = [] ∧ s.mbxWait = [] ∧ s.twc.queue = [] ∧ s.twc.waiting = [] ∧
    s.jnl.queue = [] ∧ s.jnl.waiting = [] ∧ s.seq.queue = [] ∧ s.seq.qwait = [] ∧ s.evt.pb = [] ∧ s.twt.wait = none) && s.adcIdle

/-- The device enters PARK: what RUN runs stops, and the event unit's state is retained (R16, R102, R199, R362, R391, R432). -/
def State.parkEnter (s : State) : State :=
  let irq := s.irqLow
  let s1 := (s.gaugeCut.frmStop.dropNonces.seatsPause)
  let s2 := forEach (List.range 16) (fun n t => t.stackPark n) s1
  let s3 := ({ ((s2.unraise 9).setMode .park) with ret := some ⟨irq⟩ } : State).set F.SYS_STATE_RET_VALID 1
  let s4 := s3.setPp { s3.pp with parkChk := s3.now + 1000 * engPerMs }
  ((s4.setPhase 7).chgCheck).parkWake

/-- PARK_ENTRY: after program 2 and its residue, with every queue empty (R17, R234, R388). A download in progress ends first (R464), and so do the conversions
of an active Doubles pair (R309). -/
def execParkEntry (s : State) : Out State :=
  .next (if s.inMode .run ∧ s.dev.stage = .none ∧ s.phase = 6 ∧ ¬ s.progRuns ∧ s.seq.shut = none ∧ s.seq.failQueue = [] then
    if s.updRuns then s.updStop 8
    else if s.queuesEmpty then (if s.dblAct ∧ ¬ s.adc.dblHeld then s.dblHold else s.parkEnter)
    else s
  else s)

/-- FAIL_TIER: `FAIL_GAP` has passed, so the next tier is disabled (R218, R228, R232); a wake that waits for the end of a failure's
shutdown then acts (R235). -/
def execFailTier (s : State) : Out State :=
  match s.seq.shut with
  | some x =>
    .next (if s.seqOn ∧ x.left ≠ 0 then (s.due (x.at_ + s.get F.SEQ_CFG_FAIL_GAP * 10 * engPerUs)).tier.settled.parkWake else s)
  | none => .next s

/-- A request key of `SYS_PWR_REQ` (R95); any other value is discarded without effect. -/
def State.pwrReqWrite (s : State) (v : Nat) (frame : Option Nat) : State :=
  if v = 0x9A4C0001 then s.seqPush 3 frame
  else if v = 0x9A4C0002 then s.seqPush 4 frame
  else s.frameDone frame

def execParkRequest (s : State) : Out State := .next (s.bus 0x020C fun t => t.pwrReqWrite 0x9A4C0001 none)
def execHibernateRequest (s : State) : Out State := .next (s.bus 0x020C fun t => t.pwrReqWrite 0x9A4C0002 none)

/-- PARK_REQUEST_GPIO: a GPIO with code 0x7 has been high for 1 ms (R95); one request for one assertion, which ends
when the pin is next reported low. -/
def execParkRequestGpio (k : Fin 12) (s : State) : Out State :=
  .next (if (s.inMode .run ∨ s.inMode .park ∨ s.inMode .black) ∧ s.gpioCode k = 7 ∧ ¬ bitOf s.dev.parkPinTaken k then
    ({ s with dev := { s.dev with parkPinTaken := setBit s.dev.parkPinTaken k, gpioIn := setBit s.dev.gpioIn k } } : State).seqPush 3 none
  else s)

/-- RECOVERY_HOSTRST_RELEASE: 10 ms after RECOVERY entry (R465). -/
def execRecoveryHostrstRelease (s : State) : Out State :=
  .next (if s.inMode .recovery ∧ ¬ s.dev.hostRstReleased then
    let s1 := s.due (s.dev.recoveryEntry + 10 * engPerMs)
    { s1 with dev := { s1.dev with hostRstReleased := true } }
  else s)

end Sys2Proof.Machine
end

