-- ==== Sys2Proof/Machine/Security.lean ====
section
/-! DEFINITION. Challenges, grants and time anchors: the verifier and the security record (R429 to R443). -/

namespace Sys2Proof.Machine

def State.setSec (s : State) (x : Sec) : State := { s with sec := x }

/-- A free value of `n` words, and the state in which they have been drawn. -/
def State.drawWords : Nat → State → List Nat × State
  | 0, s => ([], s)
  | n + 1, s =>
    let (v, s1) := s.draw
    let (l, s2) := drawWords n s1
    (v % 2 ^ 32 :: l, s2)

/-- `SEC_CHAL_STAT.OUT` follows the nonces. -/
def State.countNonces (s : State) : State := s.set F.SEC_CHAL_STAT_OUT s.sec.nonces.length

/-- The oldest nonce is discarded where four are outstanding (R432). -/
def State.evict (s : State) : State :=
  if s.sec.nonces.length < 4 then s
  else (s.setSec { s.sec with nonces := s.sec.nonces.drop 1 }).incSatF F.SEC_CHAL_STAT_EVICT

/-- The lowest challenge slot that no outstanding nonce takes. -/
def State.freeSlot (s : State) : Nat := ((List.range 4).find? fun k => !(s.sec.nonces.any fun n => decide (n.slot = k))).getD 0

/-- The nonce of words `w` becomes outstanding in slot `k`, and shows in the challenge window (R431, R432). -/
def State.nonceAdd (s : State) (k : Nat) (w : List Nat) : State :=
  let s1 := (s.setSec { s.sec with nonces := s.sec.nonces ++ [⟨k, w, s.aoTicks⟩] }).countNonces
  let s2 := forEach (List.range 4) (fun j t => t.set (F.SEC_CHAL_W_BYTES j) (w.getD j 0)) s1
  (s2.set F.SEC_CHAL_STAT_SLOT k).set F.SEC_CHAL_STAT_READY 1

/-- A write to `SEC_CHAL_REQ` (R431, R432). -/
def State.chalWrite (s : State) (v : Nat) : State :=
  if v = 0x5EC00001 then
    if s.flag F.SEC_STAT_TFAIL then s.set F.SEC_CHAL_STAT_REFUSED 1
    else
      let d := s.evict.drawWords 4
      d.2.nonceAdd s.evict.freeSlot d.1
  else s

def execChallengeRequest (s : State) : Out State := .next (s.bus 0x3C08 fun t => t.chalWrite 0x5EC00001)

/-- NONCE_EXPIRY: the oldest nonce reaches `CHAL_LIFE` seconds (R432). -/
def execNonceExpiry (s : State) : Out State :=
  match s.sec.nonces with
  | [] => .next s
  | n :: r =>
    let s1 := s.due (ofTicks (n.at_ + s.get F.SEC_CFG_CHAL_LIFE * 32768))
    .next ((s1.setSec { s1.sec with nonces := r }).countNonces)

/-- A submission begins (R435): the bytes of the buffer go to the verifier. While one is in progress the write is counted and discarded. Where an
update is being verified, whether the verifier is busy with its signatures is a free value; then the submission waits, and its access `f` keeps its
credit (R435, R462). -/
def State.submit (s : State) (anchor : Bool) (f : Option Nat) : State :=
  if s.flag F.SEC_RESULT_BUSY then s.incSatF F.SEC_CNT_BUSYW
  else
    let b := (List.range 32).flatMap fun k => leBytes 4 (s.get (F.SEC_BUF_BYTES k))
    let (v, s1) := if s.updVerifying then s.draw else (0, s)
    let s2 := if v % 2 = 1 then (s1.frameHold f).setSec { s1.sec with sub := some ⟨anchor, b, 3, f⟩ }
      else s1.setSec { s1.sec with sub := some ⟨anchor, b, 0, none⟩ }
    (s2.set F.SEC_RESULT_BUSY 1).put F.SEC_RESULT_KIND anchor

/-- A write to `SEC_SUBMIT` (R435). -/
def State.submitWrite (s : State) (v : Nat) (f : Option Nat) : State :=
  if v = 0x5EC00A01 then s.submit false f
  else if v = 0x5EC00A02 then s.submit true f
  else if s.flag F.SEC_RESULT_BUSY then s.incSatF F.SEC_CNT_BUSYW
  else s

def execGrantSubmit (s : State) : Out State := .next (s.bus 0x3C20 fun t => t.submitWrite 0x5EC00A01 none)
def execAnchorSubmit (s : State) : Out State := .next (s.bus 0x3C20 fun t => t.submitWrite 0x5EC00A02 none)

/-- Bytes `i` to `i + n - 1` are zero. -/
def zeros (b : List Byte) (i n : Nat) : Bool := (slice b i n).all fun x => decide (x = 0)

/-- The format of a grant (R433). -/
def grantFormat (b : List Byte) : Bool :=
  let mode := leField b 25 1
  let dur := leField b 28 4
  let win := leField b 32 1
  decide (leField b 0 4 = 0x544E5247 ∧ leField b 4 1 = 1) && zeros b 5 3 && zeros b 26 2 && zeros b 33 3 && zeros b 60 4 &&
  decide (leField b 20 4 ≤ 0xFFFFFFFE ∧ leField b 24 1 ≤ 1 ∧ mode ≤ 1 ∧ 10 ≤ dur ∧ dur ≤ (if mode = 0 then 10000 else 86400000)) &&
  (if win = 0 then zeros b 52 8 else decide (win = 1) && zeros b 36 16 && decide (leField b 52 4 ≤ leField b 56 4))

/-- The format of a time anchor (R434). -/
def anchorFormat (b : List Byte) : Bool :=
  decide (leField b 0 4 = 0x434E4154 ∧ leField b 4 1 = 1) && zeros b 5 3 && zeros b 20 16 && zeros b 56 8

/-- The four words of the nonce that a submission names. -/
def nonceOf (b : List Byte) : List Nat := (List.range 4).map fun j => leField b (36 + 4 * j) 4

/-- Window binding (R433). -/
def Submission.window (x : Submission) : Bool := !x.anchor && decide (leField x.bytes 32 1 = 1)

/-- The outstanding nonces without the one that a submission names. -/
def State.consume (s : State) (b : List Byte) : State :=
  (s.setSec { s.sec with nonces := s.sec.nonces.filter fun n => decide (n.words ≠ nonceOf b) }).countNonces

/-- Guarded actions on driver `g` are refused (R346, R256), as they are outside RUN. -/
def State.guardBlocked (s : State) (g : Nat) : Bool := s.redBlocked || s.guardFaulty g || !s.inMode .run

/-- The checks before and with the signature (R436), in their order; 0 where they pass. -/
def State.subChecks (s : State) (x : Submission) : Nat :=
  let b := x.bytes
  if s.flag F.SYS_BOOT_STATUS_OWNER_OPEN then 0x01
  else if s.flag F.SEC_STAT_VFAIL then 0x0E
  else if !(if x.anchor then anchorFormat b else grantFormat b) then 0x02
  else if leField b 8 4 ≠ s.otp.hwType then 0x03
  else if leField b 12 8 ≠ s.otp.unitId then 0x04
  else if !signs (slice b 0 64) s.sec.ownerKey (slice b 64 64) then 0x05
  else 0

/-- The checks after the signature (R436), in their order; `known` says that the nonce was outstanding. -/
def State.lateChecks (s : State) (x : Submission) (known : Bool) : Nat :=
  let b := x.bytes
  let seq := leField b 20 4
  if !x.window && !known then 0x07
  else if x.anchor then (if s.flag F.SYS_STATE_XTAL_FAIL then 0x08 else 0)
  else if s.flag F.SEC_STAT_MARK_VALID && decide (seq < s.get F.SEC_MARK_MARK) then 0x06
  else if x.window && !s.flag F.SEC_STAT_MARK_VALID then 0x0C
  else if x.window && !s.rtcValid then 0x08
  else if x.window && !(decide (leField b 52 4 ≤ s.rtcSec) && decide (s.rtcSec ≤ leField b 56 4)) then 0x09
  else if s.guardBlocked (leField b 24 1) then 0x0A
  else 0

/-- The result of a submission is recorded (R436, R437, R443). -/
def State.secResult (s : State) (x : Submission) (code : Nat) (wasValid : Bool) : State :=
  let s1 := ((s.setSec { s.sec with sub := none }).set F.SEC_RESULT_BUSY 0).set F.SEC_RESULT_CODE code
  let s2 := if code = 0 then s1.incWrapF F.SEC_CNT_ACCEPTED else (s1.incSatF F.SEC_CNT_REFUSED).raise 36 code
  let colour := if code = 0 then 0 else s1.effColour 36
  let b := x.bytes
  if x.anchor then s2.emitC 0xF 2 colour [(code, 1), (b2n wasValid, 1), (0, 2), (leField b 52 4, 4)]
  else s2.emitC 0xF 1 colour [(code, 1), (leField b 24 1, 1), (leField b 25 1, 1), (leField b 32 1, 1), (leField b 20 4, 4)]

/-- The security record that an accepted submission leaves (R442). -/
def State.secBody (s : State) (x : Submission) : List Byte :=
  let b := x.bytes
  let mark := if x.anchor then s.get F.SEC_MARK_MARK else leField b 20 4 + 1
  let known := !x.anchor || s.flag F.SEC_STAT_MARK_VALID
  leBytes 4 mark ++ [byte (b2n known), 0, 0, 0] ++
  (if x.anchor then leBytes 4 s.sec.lastSeq ++ [byte s.sec.lastOut, byte s.sec.lastMode] else slice b 20 6) ++ [0, 0] ++
  (if x.anchor then slice b 52 4 else leBytes 4 s.sec.lastEpoch) ++ leBytes 4 s.rtcStamp ++
  leBytes 4 (s.sec.granted + b2n (!x.anchor)) ++ leBytes 4 (s.sec.anchored + b2n x.anchor)

/-- The verifier takes the values of a security record (R438, R442). -/
def State.secTake (s : State) (b : List Byte) : State :=
  let x := { s.sec with
    lastSeq := leField b 8 4, lastOut := leField b 12 1, lastMode := leField b 13 1, lastEpoch := leField b 16 4,
    granted := leField b 24 4, anchored := leField b 28 4 }
  ((s.setSec x).set F.SEC_MARK_MARK (leField b 0 4)).put F.SEC_STAT_MARK_VALID (bitOf (leField b 4 1) 0)

/-- RUN entry restores the mark from the newest record (R438). -/
def State.secRestore (s : State) : State :=
  match s.newestBody 2 with
  | some b => s.secTake b
  | none => s

/-- VERIFY_DONE: the verifier finishes its checks (R436, R437). -/
def execVerifyDone (s : State) : Out State :=
  match s.sec.sub with
  | none => .next s
  | some x =>
    .next (if x.stage = 0 ∧ (s.inMode .run ∨ s.inMode .black) then
      let c := s.subChecks x
      if c ≠ 0 then s.secResult x c s.rtcValid
      else
        let known := s.sec.nonces.any fun n => decide (n.words = nonceOf x.bytes)
        let s1 := if x.window then s else s.consume x.bytes
        let d := s1.lateChecks x known
        if d ≠ 0 then s1.secResult x d s.rtcValid
        else (s1.setSec { s1.sec with sub := some { x with stage := 1 } }).jnlTake ⟨.security, 2, s1.secBody x, .none⟩
    else s)

/-- The journal refused the record (R437, R451). -/
def State.secRefused (s : State) : State :=
  match s.sec.sub with
  | some x => s.secResult x 0x0B s.rtcValid
  | none => s

/-- The seconds count steps to `c`: the alarm fires where the step passes it (R441). -/
def State.rtcStep (s : State) (c : Nat) : State :=
  let a := s.get F.SYS_WAKE_ALARM_SEC
  let old := s.rtcSec
  let s1 := { s with rtcSec := c, rtcValid := true }
  if a ≠ 0 ∧ ((old < a ∧ a ≤ c) ∨ (c ≤ a ∧ a < old)) then s1.wakeFire 5 true else s1

/-- SUBMISSION_COMMIT_DONE: the record is stored, and the submission acts (R437 to R441). -/
def execSubmissionCommitDone (s : State) : Out State :=
  match s.sec.sub with
  | none => .next s
  | some x =>
    .next (if x.stage = 2 then
      let b := x.bytes
      let s1 := s.secTake (s.secBody x)
      if x.anchor then (s1.rtcStep (leField b 52 4)).secResult x 0 s.rtcValid
      else
        let g := leField b 24 1
        if s1.guardBlocked g then s1.secResult x 0x0A s.rtcValid
        else (s1.guardAction g (leField b 25 1) (leField b 28 4)).secResult x 0 s.rtcValid
    else s)

/-- TRNG_HEALTH: a health test of the random-number generator fails (R431). -/
def execTrngHealth (s : State) : Out State :=
  .next (if s.coreRuns ∧ ¬ s.flag F.SEC_STAT_TFAIL then (s.set F.SEC_STAT_TFAIL 1).raise 37 0 else s)

end Sys2Proof.Machine
end

