-- ==== Sys2Proof/Machine/Otp.lean ====
section
/-! DEFINITION. The OTP controller: reading the array, programming a word and advancing the rollback counter (R423 to R428). -/

namespace Sys2Proof.Machine

def State.setOtp (s : State) (x : OtpCtl) : State := { s with otp := x }

/-- A write to `OTP_RD_ADDR` (R423). -/
def State.otpReadWrite (s : State) (v : Nat) : State :=
  if s.flag F.OTP_RD_STAT_BUSY then s
  else (s.setOtp { s.otp with reading := some (v % 512) }).set F.OTP_RD_STAT_BUSY 1

def execOtpRead (v : Word) (s : State) : Out State := .next (s.bus 0x4008 fun t => t.otpReadWrite v.toNat)

/-- `n` cells of word `w`, at most two, have changed since it was last read: which of those that a read looks at are free values (R418). -/
def State.otpAge (s : State) (w n : Nat) : State :=
  let x := s.otpWord w
  if n = 0 then s
  else
    let (a, s1) := s.draw
    let i := a % x.cells
    if n = 1 then s1.setOtpWord w (x.flip i)
    else
      let (b, s2) := s1.draw
      s2.setOtpWord w ((x.flip i).flip ((i + 1 + b % (x.cells - 1)) % x.cells))

/-- OTP_READ_DONE: the read ends (R423); `err` cells of the word have changed since its last read. -/
def execOtpReadDone (err : Fin 3) (s : State) : Out State :=
  match s.otp.reading with
  | none => .next s
  | some w =>
    let s1 := (s.setOtp { s.otp with reading := none }).otpAge w err
    let x := s1.otpWord w
    let s2 := ((s1.set F.OTP_RD_DATA_DATA x.value).set F.OTP_RD_STAT_SLOT x.checks.length).put F.OTP_RD_STAT_UE x.bad
    .next ((s2.put F.OTP_RD_STAT_CE x.ce).set F.OTP_RD_STAT_BUSY 0)

/-- The owner lock, which acts from the moment it is programmed (R422). -/
def State.ownerLock (s : State) : Bool := bitOf (tget s.otp.shadow 3 0) 1

/-- Word `w` may take the new bits `fresh` (R425). -/
def State.otpOpen (s : State) (w fresh : Nat) : Bool :=
  !s.ownerLock && (decide (w = 0) || (decide (w = 3) && decide (fresh = 2 ∨ fresh = 0)) || decide (0x18 ≤ w ∧ w < 0x20) || decide (0x80 ≤ w ∧ w < 0x98))

/-- The write would change a slew field that is not 0 (R424). -/
def slewSet (w old new : Nat) : Bool :=
  decide (0x88 ≤ w ∧ w < 0x8C) && (List.range 4).any fun k => decide (bits old (8 * k) 8 ≠ 0 ∧ bits new (8 * k) 8 ≠ bits old (8 * k) 8)

/-- The first cause that holds against state and supply (R424). -/
def State.otpHeld (s : State) : Nat :=
  if !s.inMode .run then 1 else if s.flag F.PP_FE_STAT_SRC then 2 else 0

/-- The first refusal cause of a programming of word `w` with data `d` (R424); 0 for none. -/
def State.otpRefusal (s : State) (w d : Nat) : Nat :=
  let x := s.otpWord w
  let old := x.value
  let new := x.next d
  if s.otpHeld ≠ 0 then s.otpHeld
  else if !s.otpOpen w (new - old) then 3
  else if 4 ≤ x.checks.length then 4
  else if slewSet w old new then 5
  else if new = old then 6
  else 0

/-- The refusal cause of the next step of the counter (R428). -/
def State.advanceRefusal (s : State) : Nat :=
  if s.otpHeld ≠ 0 then s.otpHeld
  else if s.image.rollback ≤ s.otpCounter then 8
  else if 4 ≤ (s.otpWord (0x20 + s.otpCounter)).checks.length then 4
  else 0

/-- The result of an operation is recorded, with its record; the access that waits returns its credit (R426, R443). -/
def State.otpResult (s : State) (w cause slot : Nat) : State :=
  let s1 := (s.set F.OTP_PROG_STAT_CAUSE cause).set F.OTP_PROG_STAT_BUSY 0
  let s2 := if cause = 0 ∨ cause = 7 then s1 else s1.set F.OTP_PROG_STAT_REFUSED 1
  let s3 := (s2.emit 0x10 1 [(cause, 1), (slot, 1), (w, 2)]).frameDone s.otp.frame
  s3.setOtp { s3.otp with prog := none, advancing := false, frame := none }

/-- The programming of word `w` with data `d` begins. -/
def State.otpBegin (s : State) (w d : Nat) : State :=
  (s.setOtp { s.otp with prog := some (w, d) }).set F.OTP_PROG_STAT_BUSY 1

/-- The next step of the counter is programmed, or refused (R420, R428). -/
def State.otpStep (s : State) : State :=
  let w := 0x20 + s.otpCounter
  let c := s.advanceRefusal
  if c = 0 then s.otpBegin w 0xFFFFFFFF else s.otpResult w c 0

/-- A write to `OTP_PROG_CTRL` (R424, R426, R428). -/
def State.otpProgWrite (s : State) (v : Nat) (frame : Option Nat) : State :=
  if s.flag F.OTP_PROG_STAT_BUSY then s.frameDone frame
  else if v = 0x0F7E0001 then
    let w := s.get F.OTP_PROG_ADDR_WORD
    let d := s.get F.OTP_PROG_DATA_DATA
    let s1 := s.setOtp { s.otp with frame := frame, advancing := false }
    let c := s.otpRefusal w d
    if c = 0 then s1.otpBegin w d else s1.otpResult w c 0
  else if v = 0x0F7E0002 then (s.setOtp { s.otp with frame := frame, advancing := true }).otpStep
  else s.frameDone frame

def execOtpProgram (s : State) : Out State := .next (s.bus 0x4020 fun t => t.otpProgWrite 0x0F7E0001 none)
def execOtpAdvance (s : State) : Out State := .next (s.bus 0x4020 fun t => t.otpProgWrite 0x0F7E0002 none)

/-- A programming of word `w` with bits `d` sets every cell that it should: the new data, and their check bits in the next slot (R418, R424). -/
def State.otpBurn (s : State) (w d : Nat) : State := s.setOtpWord w ((s.otpWord w).burnt d (2 ^ 32 - 1) 255 true)

/-- The read-back of word `w` equals the data `n` with no error; then its shadow takes them (R426). -/
def State.otpVerified (s : State) (w n : Nat) : Bool :=
  let x := s.otpWord w
  decide (x.value = n) && !x.ce && !x.bad

def State.otpShadowSet (s : State) (w n : Nat) : State := s.setOtp { s.otp with shadow := tset s.otp.shadow w 0 n }

/-- The lock word and the counter as `OTP_STATE` reports them after a programming (R422, R428). -/
def State.otpReport (s : State) : State :=
  (s.set F.OTP_STATE_OTP_CNT s.otpCounter).put F.OTP_STATE_OWNER_LOCK s.ownerLock

/-- What the end of a programming of word `w` with cause `c` and slot `k` brings: its result, or the counter's next step; a record that waits for the
CORE clock where it stands still; in BOOT the shadowing that waited (R426 to R428). -/
def State.otpEnds (s : State) (w c k : Nat) : State :=
  if !s.coreRuns then s.setOtp { s.otp with prog := none, result := some (c, k, w) }
  else if s.inMode .boot then
    let s1 := (s.otpResult w c k).otpShadow
    { s1 with
      dev := { s1.dev with shadowAt := s1.now + 4096 * engPerUs }
      evt := { s1.evt with reqs := (s1.evt.reqs.map fun r => { r with clk := (s1.now + 4096 * engPerUs) / 2 }).foldl (fun l r => insReq r l) [] } }
  else
    let s1 := s.otpReport
    if c = 0 ∧ s.otp.advancing ∧ s1.otpCounter < s1.image.rollback then (s1.emit 0x10 1 [(0, 1), (k, 1), (w, 2)]).otpStep
    else s1.otpResult w c k

/-- OTP_PROGRAM_DONE: the programming ends and is read back (R426 to R428); `ok` says that every cell that it should set is set. A full reset does not
stop it, and the shadowing of the following BOOT waits for it (R427). -/
def execOtpProgramDone (ok : Bool) (s : State) : Out State :=
  match s.otp.prog with
  | none => .next s
  | some (w, d) =>
    let n := (s.otpWord w).next d
    let k := (s.otpWord w).checks.length + 1
    let s1 := if ok then s.otpBurn w d else s.otpTorn w d
    .next (if s1.otpVerified w n then (s1.otpShadowSet w n).otpEnds w 0 k else s1.otpEnds w 7 k)

end Sys2Proof.Machine
end

