-- ==== Sys2Proof/Machine/RegRules.lean ====
section
/-! DEFINITION. The conditions on a register word beside its fields' encodings: reserved combinations (R4) and resources that another
owner holds (R86), as a host write and the loader's check 0x0C meet them. -/

namespace Sys2Proof.Machine

/-- The window or scheduler-slot number of a register address. -/
def winOf (a : Nat) : Option (Nat × Bool) := if 0x2500 ≤ a ∧ a < 0x2600 then some ((a - 0x2500) / 8, decide (a % 8 = 4)) else none
def slotOf (a : Nat) : Option Nat := if 0x0480 ≤ a ∧ a < 0x0500 then some ((a - 0x0480) / 4) else none

/-- The limits of R331 on a word of `THM_THR`. -/
def State.thrOk (s : State) (v : Nat) : Bool :=
  let w := bits v 0 8
  let t := bits v 8 8
  let d := bits v 16 8
  decide (40 ≤ w ∧ w ≤ t ∧ w ≤ s.get F.THM_CEIL_WARN_MAX ∧ 40 ≤ t ∧ t ≤ s.get F.THM_CEIL_THR_MAX ∧ t < d ∧ 100 ≤ d ∧ d ≤ s.get F.THM_CEIL_SD_MAX)

/-- T1 < T2 < T3 < T4 (R274). -/
def jeitaOk (v : Nat) : Bool :=
  decide (signed (bits v 0 8) 8 < signed (bits v 8 8) 8 ∧ signed (bits v 8 8) 8 < signed (bits v 16 8) 8 ∧ signed (bits v 16 8) 8 < signed (bits v 24 8) 8)

/-- The word `v` carries a reserved value for the register at `a` (R4). -/
def State.wordBad (s : State) (a v : Nat) : Bool :=
  if !encodable a v then true
  else if a = 0x0400 then decide (bits v 16 12 < bits v 8 8)
  else if a = 0x0430 ∨ a = 0x0434 then (List.range 16).any fun k => decide (bits v (2 * k) 2 = 3)
  else if a = 0x1C40 then s.chgCfgBad v
  else if a = 0x1C48 then !jeitaOk v
  else if a = 0x2804 then !s.thrOk v
  else if a = 0x2808 then decide (signed (bits v 8 8) 8 < signed (bits v 0 8) 8)
  else if a = 0x3814 then decide (bits v 0 10 ≤ s.get F.TWB_CTL_SDA_HOLD)
  else if a = 0x3818 then decide (s.get F.TWB_CTL_SCL_LOW ≤ bits v 0 8)
  else if a = 0x3880 then decide (bits v 16 6 = 0 ∧ bits v 8 6 = 0)
  else match winOf a, slotOf a, stackOf a with
    | some (_, thr), _, _ => winReserved thr v
    | _, some n, _ => !s.slotOk n v
    | _, _, some (n, _) => decide (s.stkVerdict n a v = .discard)
    | _, _, _ => false

/-- The word names a resource that its owner does not hold, or enables one that is not claimed (R185, R311, R320, R329). -/
def State.claimBad (s : State) (a v : Nat) : Bool :=
  if a = 0x2414 then (List.range 4).any fun k => bitOf v (14 + k) && s.ainRefused (46 + k)
  else if a = 0x2440 then (s.dblCfgWrite v).isNone
  else if a = 0x2800 then bitOf v 31 && !s.ownedBy 3 (bits v 28 2) adcOwner
  else match winOf a, stackOf a with
    | some (_, false), _ => s.ainRefused (bits v 0 7)
    | _, some (n, _) => decide (s.stkVerdict n a v = .owned)
    | _, _ => false

/-- The host is not the owner of the register's resource (R86, R118, R324, R406). -/
def State.ownerBad (s : State) (a : Nat) : Bool :=
  match winOf a, slotOf a with
  | some (n, _), _ => !s.ownedBy 5 n hostOwner
  | _, some n => !s.ownedBy 6 n hostOwner
  | _, _ => decide (a = 0x3880 ∨ (0x3890 ≤ a ∧ a < 0x38B0)) && s.ownedBy 7 0 5

/-- A REG word sets RW and LK fields alike (R1, R87). -/
def State.loadWord (s : State) (a v : Nat) : State := (s.storeAcc a (scanWord a v) .rw).storeAcc a (scanWord a v) .lk

/-- The bits of the RW and LK fields of a register. -/
def loadMask (l : List FieldRow) : Nat :=
  l.foldl (fun m f => if f.acc = .rw ∨ f.acc = .lk then m + (2 ^ f.w - 1) * 2 ^ f.lo else m) 0

/-- A REG word addresses a register and has its Reserved, RO, WO and W1C bits zero (R87). -/
def loadable (a v : Nat) : Bool :=
  match regFields a with
  | some l => decide (andNot v (loadMask l) = 0)
  | none => false

/-- One word of a REG record: none where check 0x0C fails (R87). A stack with no tiles keeps its Reset values. The manual gives the bits of
`SYS_GPIO_OUT` that a host write keeps, and none for the loader: a REG word sets all 12 (DESIGN CHOICE, log entry 40). -/
def State.regWord (s : State) (a v : Nat) : Option State :=
  if a % 4 ≠ 0 ∨ 0x4BFC < a ∨ ¬ loadable a v ∨ s.wordBad a v ∨ s.claimBad a v then none
  else match stackOf a with
    | some (n, _) => if s.tileCount n = 0 then some s else some (s.loadWord a v)
    | none => some (s.loadWord a v)

/-- Open-circuit voltages strictly rising (R292). -/
def State.ocvOk (s : State) : Bool := (List.range 16).all fun k => decide (s.ocv k < s.ocv (k + 1))

/-- The dependencies of R205: no domain depends on itself, and a kept domain depends only on kept ones. -/
def State.depsOk (s : State) : Bool :=
  (List.range 12).all fun d =>
    ((List.range 12).all fun k => !s.depends d k || (s.depthTo d 11 k).isNone) &&
    (!s.flag (F.SEQ_DOM_CFG_PARK_KEEP d) || (List.range 12).all fun k => !s.depends d k || s.flag (F.SEQ_DOM_CFG_PARK_KEEP k))

/-- The GPIO map names only pins with code 0x5 or 0x6, and only domains (R205). -/
def State.mapOk (s : State) : Bool :=
  (List.range 12).all fun k =>
    let d := s.get (if k < 8 then fr 0x1424 (4 * k) 4 15 else fr 0x1428 (4 * (k - 8)) 4 15)
    decide (d = 15) || (decide (d ≤ 11) && decide (s.gpioCode k = 5 ∨ s.gpioCode k = 6))

/-- What check 0x0C asks of the image as a whole (R205, R292, R355). -/
def State.imageRegsOk (s : State) : Bool :=
  s.depsOk && s.mapOk && s.ocvOk && (List.range 8).any fun n => s.flag (F.WDG_SEAT_CFG_EN n)

end Sys2Proof.Machine
end

