-- ==== Sys2Proof/Machine/ImageParse.lean ====
section
/-! DEFINITION. The image of a slot: its header (R453, R454), the setup section's records (R76 to R89) and the checks of R64 in their order. -/

namespace Sys2Proof.Machine

/-- Why a slot fails: cause, `CLASS` and `INDEX` (R64). -/
structure SlotFail where
  cause : Nat
  cls : Nat
  idx : Nat
  deriving DecidableEq, Repr

/-- A record of the setup section with its header (R77). -/
structure SetupRec where
  typ : Nat
  idx : Nat
  bytes : List Byte
  deriving DecidableEq, Repr

/-- Fields of an image header (R454). -/
def hdrRollback (h : List Byte) : Nat := leField h 6 1
def hdrLength (h : List Byte) : Nat := leField h 8 4
def hdrFw (h : List Byte) : Nat := leField h 12 4
def hdrSetup (h : List Byte) : Nat := leField h 56 4
def hdrSetupLen (h : List Byte) : Nat := leField h 144 4

/-- Checks 0x01 to 0x04 on a header (R64, R453, R454); 0 where they pass. Any binding but 0x00 asks for the unit ID. -/
def State.headerCheck (s : State) (h : List Byte) : Nat :=
  let len := hdrLength h
  let e := leField h 48 4
  let g := leField h 52 4
  if ¬ (leField h 0 4 = 0x49544445 ∧ leField h 4 2 = 1 ∧ len % 4 = 0 ∧ 4096 ≤ len ∧ len ≤ 524288 ∧ 512 ≤ e ∧ g = e + 16384 ∧
      g ≤ hdrSetup h ∧ hdrSetup h + hdrSetupLen h = len) then 1
  else if leField h 128 4 ≠ s.otp.hwType then 2
  else if leField h 132 1 ≠ 0 ∧ leField h 136 8 ≠ s.otp.unitId then 3
  else if hdrRollback h < s.otpCounter then 4
  else 0

/-- The records of the section after its header, or the number of the first one that runs past its end or has a bad length (R77, R78). -/
def splitRecs : Nat → Nat → List Byte → Except Nat (List SetupRec)
  | 0, k, _ => .error k
  | n + 1, k, l =>
    if l = [] then .ok []
    else
      let len := leField l 2 2
      if len < 4 ∨ len % 4 ≠ 0 ∨ l.length < len then .error k
      else match splitRecs n (k + 1) (l.drop len) with
        | .ok r => .ok (⟨leField l 0 1, leField l 1 1, l.take len⟩ :: r)
        | .error e => .error e

/-- A record's type, index and length are what its type asks for, and its reserved bytes are zero (R78 to R88). -/
def SetupRec.shapeOk (r : SetupRec) : Bool :=
  let n := r.bytes.length
  match r.typ with
  | 0x01 => decide (r.idx = 0 ∧ n = 12) && zeros r.bytes 8 4
  | 0x02 => decide (r.idx ≤ 5 ∧ n = 8) && zeros r.bytes 5 1
  | 0x03 => decide (r.idx ≤ 47 ∧ n = 8)
  | 0x05 => decide (r.idx = 0)
  | 0x06 => decide (r.idx = 0 ∧ 8 ≤ n ∧ n = 8 + 4 * leField r.bytes 6 2)
  | 0x07 => decide (r.idx ≤ 7 ∧ 8 ≤ n) && zeros r.bytes 6 2
  | 0x08 => decide (r.idx ≤ 7 ∧ 8 ≤ n)
  | 0xFF => decide (r.idx = 0 ∧ n = 4)
  | _ => false

/-- Check 0x08 on the records (R78): the number of the first that fails. A second PROGRAM or SATELLITE record of one index, which the table allows
once and the failing sentence does not name, fails it too (DESIGN CHOICE, log entry 41). -/
def structFail (l : List SetupRec) : Option Nat :=
  (List.range l.length).find? fun k =>
    match l[k]? with
    | none => false
    | some r =>
      !r.shapeOk || (decide (r.typ = 0x01) != decide (k = 0)) || (decide (r.typ = 0xFF) != decide (k + 1 = l.length)) ||
      (decide (r.typ = 0x02 ∨ r.typ = 0x07 ∨ r.typ = 0x08) && (l.take k).any fun q => decide (q.typ = r.typ ∧ q.idx = r.idx))

/-- The records of the section of `len` bytes, or the failure of check 0x08. Where only the header's record count is wrong, `INDEX` is the number of
records found, modulo 256 (DESIGN CHOICE, log entry 41). -/
def setupRecs (b : List Byte) (len : Nat) : Except SlotFail (List SetupRec) :=
  if ¬ (leField b 0 4 = 0x53544445 ∧ leField b 4 2 = 1 ∧ leField b 8 4 = len ∧ 16 ≤ len ∧ len ≤ 65536) then .error ⟨8, 0, 0⟩
  else match splitRecs 16384 0 (b.drop 16) with
    | .error k => .error ⟨8, 0, k % 256⟩
    | .ok l =>
      match structFail l with
      | some k => .error ⟨8, 0, k % 256⟩
      | none => if l.length = 0 ∨ l.length ≠ leField b 6 2 then .error ⟨8, 0, l.length % 256⟩ else .ok l

/-- A tile of a TILE record: number, use, position and inductance (R81). -/
structure TileRec where
  t : Nat
  use : Nat
  pos : Nat
  nH : Nat
  deriving DecidableEq, Repr

def tileRecs (l : List SetupRec) : List TileRec :=
  l.filterMap fun r => if r.typ = 0x03 then some ⟨r.idx, leField r.bytes 4 1, leField r.bytes 5 1, leField r.bytes 6 2⟩ else none

/-- The entries of the CLAIM records: class, index, owner, qualifier (R83). -/
def claimEntries (l : List SetupRec) : List (Nat × Nat × Nat × Nat) :=
  l.flatMap fun r => if r.typ = 0x05 then
    (List.range (r.bytes.length / 4 - 1)).map fun k =>
      (leField r.bytes (4 * k + 4) 1, leField r.bytes (4 * k + 5) 1, leField r.bytes (4 * k + 6) 1, leField r.bytes (4 * k + 7) 1)
  else []

/-- The least number of a list; 0 of an empty one. -/
def leastOf (l : List Nat) : Nat := (l.foldl (fun b x => match b with
  | none => some x
  | some m => some (min m x)) none).getD 0

/-- The tiles of use `u`. -/
def useTiles (l : List TileRec) (u : Nat) : List TileRec := l.filter fun x => decide (x.use = u)

/-- The racks that tiles of use `u` lie in. -/
def useRacks (l : List TileRec) (u : Nat) : List Nat := (List.range 6).filter fun r => (useTiles l u).any fun x => decide (x.t / 8 = r)

/-- The racks of one stack: one, or two that are adjacent (R82). -/
def racksOk (l : List Nat) : Bool :=
  match l with
  | [] => true
  | [_] => true
  | [a, b] => decide (b = a + 1)
  | _ => false

/-- The positions of one use are 0 to count − 1, each once (R82). -/
def positionsOk (l : List TileRec) (u : Nat) : Bool :=
  let x := useTiles l u
  (List.range x.length).all fun p => decide ((x.filter fun t => decide (t.pos = p)).length = 1)

/-- The mask of the numbers of a list. -/
def maskBits (l : List Nat) : Nat := l.foldl (fun m k => setBit m k) 0

/-- Body bytes of the one record of a type and index; zero bytes where there is none. -/
def recField (l : List SetupRec) (typ idx i n : Nat) : Nat :=
  match l.find? fun r => decide (r.typ = typ ∧ r.idx = idx) with
  | some r => leField r.bytes i n
  | none => 0

/-- The racks whose RACK masks differ from what the TILE records imply (R80, R82). -/
def rackBad (l : List SetupRec) (ts : List TileRec) : Option Nat :=
  (List.range 6).find? fun r =>
    let x := ts.filter fun t => decide (t.t / 8 = r)
    !(decide (recField l 0x02 r 4 1 = maskBits (x.map fun t => t.t % 8)) &&
      decide (recField l 0x02 r 6 2 = maskBits ((x.filter fun t => decide (t.use < 16)).map fun t => t.use)))

/-- The lowest tile that check 0x0A finds at fault, if any, condition by condition in the order of R82. A mask that differs names the
lowest tile of its rack, and where no tile is involved the index is the rack's first, or 0. A use byte above 0x10, for which the manual names no
check, fails this one (DESIGN CHOICE, log entry 41). -/
def compositionFail (l : List SetupRec) (ts : List TileRec) : Option Nat :=
  let uses := List.range 17
  let tilesFor := fun (us : List Nat) => leastOf (us.flatMap fun u => (useTiles ts u).map fun t => t.t)
  let unknown := (ts.filter fun t => decide (16 < t.use)).map fun t => t.t
  let spread := (List.range 16).filter fun u => !racksOk (useRacks ts u)
  let many := (List.range 16).filter fun u => decide (16 < (useTiles ts u).length)
  let posBad := uses.filter fun u => !positionsOk ts u
  let chg := useTiles ts 16
  let out := (chg.filter fun t => decide (t.t < 40)).map fun t => t.t
  let ind := (ts.filter fun t => decide (t.nH < 47 ∨ 4700 < t.nH)).map fun t => t.t
  if unknown ≠ [] then some (leastOf unknown)
  else if spread ≠ [] then some (tilesFor spread)
  else if many ≠ [] then some (tilesFor many)
  else if posBad ≠ [] then some (tilesFor posBad)
  else if out ≠ [] then some (leastOf out)
  else if 2 < chg.length then some (tilesFor [16])
  else if ind ≠ [] then some (leastOf ind)
  else match rackBad l ts with
    | some r =>
      let x := (ts.filter fun t => decide (t.t / 8 = r)).map fun t => t.t
      some (if x = [] then 8 * r else leastOf x)
    | none =>
      if recField l 0x01 0 4 2 ≠ maskBits ((ts.filter fun t => decide (t.use < 16)).map fun t => t.use) ∨
         recField l 0x01 0 6 1 ≠ maskBits (ts.map fun t => t.t / 8) ∨ recField l 0x01 0 7 1 ≠ maskBits (chg.map fun t => t.t - 40) then
        some (leastOf (ts.map fun t => t.t))
      else if (claimEntries l).any fun e => decide (e.1 = 8 ∧ e.2.1 < 16) && decide (useTiles ts e.2.1 = []) then some 0
      else none

/-- The owner that a GPIO code asks for (R47). -/
def gpioOwner (code : Nat) : Option Nat :=
  ([none, some hostOwner, some hostOwner, some hostOwner, some 3, some 5, some 5, some 0, some 0xB, some 7, some 1, some 1, some 0xE][code]?).getD none

/-- A claim entry is what the table of R83 permits. -/
def claimOk (e : Nat × Nat × Nat × Nat) : Bool :=
  let (c, i, o, q) := e
  match c with
  | 2 => decide (i ≤ 11) && decide (gpioOwner q = some o)
  | 3 => decide (i ≤ 3) && ((decide (o = 3) && decide (q ≤ 15)) || (decide (o = 9) && decide (q = 0)))
  | 4 => decide (i ≤ 3 ∧ o = 9 ∧ q ≤ 1)
  | 5 => decide (i ≤ 31 ∧ q = 0) && [hostOwner, 5, 7, 8, 0xA, 0xB].contains o
  | 6 => decide (i ≤ 31 ∧ q = 0) && [hostOwner, 1, 4, 5, 7, 8, 9].contains o
  | 7 => decide (i = 0 ∧ q = 0) && [5, hostOwner].contains o
  | 8 => decide (i ≤ 29 ∧ o = 5 ∧ q ≤ 11)
  | _ => false

/-- The first entry that check 0x0B refuses, or the second converter of a Doubles claim that R84 refuses. Where both pairs carry the claim, the second
converter is taken as CV3, of the second pair (DESIGN CHOICE, log entry 41). -/
def claimFail (es : List (Nat × Nat × Nat × Nat)) : Option (Nat × Nat) :=
  let dbl := fun (k : Nat) => es.any fun e => decide (e.1 = 4 ∧ e.2.1 = k ∧ e.2.2.2 = 1)
  match es.find? fun e => !claimOk e with
  | some e => some (e.1, e.2.1)
  | none =>
    if dbl 0 != dbl 1 then some (4, 1)
    else if dbl 2 != dbl 3 then some (4, 3)
    else if dbl 0 && dbl 2 then some (4, 3)
    else none

/-- Every claim of the section in order: tiles as class 0x01, and the entries (R81, R83). -/
def allClaims (l : List SetupRec) : List (Nat × Nat) :=
  l.flatMap fun r => if r.typ = 0x03 then [(1, r.idx)] else if r.typ = 0x05 then (claimEntries [r]).map fun e => (e.1, e.2.1) else []

/-- The first resource that is claimed a second time (R84). -/
def secondClaim : List (Nat × Nat) → List (Nat × Nat) → Option (Nat × Nat)
  | _, [] => none
  | seen, e :: r => if seen.contains e then some e else secondClaim (e :: seen) r

/-- The field of a domain's members that holds output `k` of class 0x08, and its bit. -/
def memberBit (d k : Nat) : FRef × Nat :=
  if k < 16 then (F.SEQ_DOM_MEMB_STK d, k) else if k < 24 then (F.SEQ_DOM_MEMB_LDO d, k - 16) else (F.SEQ_DOM_MEMB_LSW d, k - 24)

/-- A TILE record claims its tile (R81). -/
def State.takeTile (s : State) (x : TileRec) : State :=
  let i := { s.image with
    claims := tset s.image.claims (256 + x.t) none (some (if x.use = 16 then 7 else 3, x.use)), tileL := tset s.image.tileL x.t 0 x.nH }
  (({ s with image := i } : State).set (F.TIL_STAT_USE x.t) x.use).set (F.TIL_STAT_POS x.t) x.pos

/-- A CLAIM entry claims its resource (R83); an output becomes a member of its domain, and a converter pair a Doubles pair. -/
def State.takeClaim (s : State) (e : Nat × Nat × Nat × Nat) : State :=
  let (c, i, o, q) := e
  let s1 := { s with image := { s.image with claims := tset s.image.claims (c * 256 + i) none (some (o, q)) } }
  if c = 8 then s1.putBitF (memberBit q i).1 (memberBit q i).2 true
  else if c = 4 ∧ q = 1 then (s1.set F.ADC_DBL_CFG_CLAIMED 1).set F.ADC_DBL_CFG_PAIR (i / 2)
  else s1

/-- Tiles, claims and masks of the records are taken. -/
def State.takeClaims (s : State) (l : List SetupRec) : State :=
  let s1 := (tileRecs l).foldl State.takeTile { s with image := { s.image with chgTiles := recField l 0x01 0 7 1 } }
  (claimEntries l).foldl State.takeClaim s1

/-- The words of one REG record are applied, or check 0x0C fails (R87). -/
def State.regWords (s : State) (b : List Byte) : Nat → Nat → Option State
  | 0, _ => some s
  | n + 1, k =>
    match s.regWord (leField b 4 2 + 4 * k) (leField b (8 + 4 * k) 4) with
    | some t => State.regWords t b n (k + 1)
    | none => none

/-- The REG records in their order (R87); the number of the first record that fails. -/
def State.regRecs (s : State) : Nat → List SetupRec → Except Nat State
  | _, [] => .ok s
  | k, r :: l =>
    if r.typ = 0x06 then
      match s.regWords r.bytes (leField r.bytes 6 2) 0 with
      | some t => State.regRecs t (k + 1) l
      | none => .error k
    else State.regRecs s (k + 1) l

/-- A window that nobody claims stays disabled (R324). -/
def State.idleWindows (s : State) : State :=
  forEach (List.range 32) (fun n t => if (t.claim 5 n).isNone then t.set (F.ADC_WIN_CFG_EN n) 0 else t) s

/-- Word `w` of program `p`, which has `len` words, is a step (R214, R216, R219). -/
def stepOk (p len w : Nat) : Bool :=
  let x := bits w 24 4
  match w / 2 ^ 28 with
  | 0 => decide (w = 0)
  | 1 => decide (x ≤ 0xC ∧ bits w 0 24 = 0 ∧ (x = 0xC → p = 0))
  | 2 => decide (x ≤ 0xC ∧ bits w 0 24 = 0)
  | 3 => decide (x = 0 ∧ bits w 18 6 = 0 ∧ bits w 16 2 ≠ 3 ∧ 1 ≤ bits w 0 16)
  | 4 => decide (x ≤ 11 ∧ bits w 22 2 ≠ 3 ∧ bits w 20 1 = 0 ∧ 1 ≤ bits w 0 10 ∧ (bits w 22 2 = 2 → bits w 10 10 < len))
  | 5 =>
    let o := bits w 20 4
    decide (x ≤ 4 ∧ bits w 0 10 = 0 ∧ bits w 10 10 < len) &&
    (match x with
     | 0 => decide (o = 0)
     | 1 => decide (o ≤ 11)
     | 2 => decide (o ≤ 11)
     | 3 => decide (o = 0)
     | _ => decide (o ≤ 7))
  | 6 => !(decide (0x10 ≤ bits w 16 8 ∧ bits w 16 8 ≤ 0x12))
  | 7 => decide (x = 0 ∧ bits w 9 15 = 0)
  | _ => false

/-- The words of a PROGRAM record (R88). -/
def progWords (b : List Byte) : List Nat := (List.range (b.length / 4 - 2)).map fun k => leField b (8 + 4 * k) 4

/-- Program `p`'s record, if there is one. -/
def progRec (l : List SetupRec) (p : Nat) : Option SetupRec := l.find? fun r => decide (r.typ = 0x07 ∧ r.idx = p)

/-- The step-store words that a program takes. -/
def progRange (l : List SetupRec) (p : Nat) : Option (Nat × Nat) :=
  (progRec l p).map fun r => (leField r.bytes 4 2, (progWords r.bytes).length)

/-- Two programs share a word of the store (R88). -/
def overlap (l : List SetupRec) (p q : Nat) : Bool :=
  match progRange l p, progRange l q with
  | some (a, n), some (b, m) => decide (a < b + m ∧ b < a + n)
  | _, _ => false

/-- The lowest program that check 0x0D refuses (R88, R214). -/
def programFail (l : List SetupRec) : Option Nat :=
  (List.range 8).find? fun p =>
    match progRec l p with
    | none => decide (p < 4)
    | some r =>
      let w := progWords r.bytes
      let last := w.getLastD 0xFFFFFFFF
      !(decide (leField r.bytes 4 2 + w.length ≤ 512) && (w.all fun x => stepOk p w.length x) &&
        decide (w ≠ [] ∧ (last / 2 ^ 28 = 0 ∨ last / 2 ^ 24 = 0x50))) || (List.range p).any fun q => overlap l p q

/-- The programs are loaded into the step store (R213). -/
def State.takePrograms (s : State) (l : List SetupRec) : State :=
  (l.filter fun r => decide (r.typ = 0x07)).foldl (fun t r =>
    let w := progWords r.bytes
    let a := leField r.bytes 4 2
    let st := (List.range w.length).foldl (fun m k => tset m (a + k) 0 (w.getD k 0)) t.image.store
    ((({ t with image := { t.image with store := st } } : State).set (F.SEQ_PROG_FIRST r.idx) a).set (F.SEQ_PROG_LEN r.idx) w.length)) s

/-- A satellite payload is a sequence of items (R409). -/
def itemsOk : Nat → List Byte → Bool
  | _, [] => true
  | 0, _ => false
  | n + 1, h :: r =>
    let k := bits h.toNat 0 6
    decide (1 ≤ k ∧ k ≤ 34 ∧ bits h.toNat 7 1 = 0 ∧ k ≤ r.length) && itemsOk n (r.drop k)

/-- The first satellite that check 0x0E refuses (R85, R89, R409), in the order of the records. -/
def State.satelliteFail (s : State) (l : List SetupRec) : Option Nat :=
  let x := l.filter fun r => decide (r.typ = 0x08)
  ((List.range x.length).find? fun k =>
    match x[k]? with
    | none => false
    | some r =>
      let pay := r.bytes.drop 8
      !(s.ownedBy 7 0 5 && decide (leField r.bytes 5 1 ≤ 11 ∧ leField r.bytes 6 2 ≤ 1024 ∧ leField r.bytes 6 2 = pay.length) && itemsOk 1024 pay) ||
      (x.take k).any fun q => decide (leField q.bytes 4 1 % 128 = leField r.bytes 4 1 % 128)).map fun k => match x[k]? with
    | some r => r.idx
    | none => 0

/-- Satellite configurations are staged (R89). -/
def State.takeSats (s : State) (l : List SetupRec) : State :=
  (l.filter fun r => decide (r.typ = 0x08)).foldl (fun t r =>
    let a := leField r.bytes 4 1 % 128
    let t1 := { t with image := { t.image with sats := tset t.image.sats r.idx none (some (a, leField r.bytes 5 1, r.bytes.drop 8)) } }
    (t1.set (F.TWB_SAT_STAT_ADDR r.idx) a).set (F.TWB_SAT_STAT_STATE r.idx) 1) s

/-- Checks 0x08 to 0x0E on a setup section `b` of `len` bytes, in the order of R64, and the state with the image applied. Where a rule on the
registers of the whole image fails after every REG record has passed, `INDEX` is the number of the last record (DESIGN CHOICE, log entry 41). -/
def State.setupCheck (s : State) (b : List Byte) (len : Nat) : Except SlotFail State :=
  match setupRecs b len with
  | .error f => .error f
  | .ok l =>
    let ts := tileRecs l
    match compositionFail l ts with
    | some t => .error ⟨0x0A, 1, t⟩
    | none =>
      match claimFail (claimEntries l) with
      | some (c, i) => .error ⟨0x0B, c, i⟩
      | none =>
        match secondClaim [] (allClaims l) with
        | some (c, i) => .error ⟨0x09, c, i⟩
        | none =>
          match (s.takeClaims l).regRecs 0 l with
          | .error k => .error ⟨0x0C, 0, k % 256⟩
          | .ok s1 =>
            if !s1.imageRegsOk then .error ⟨0x0C, 0, (l.length - 1) % 256⟩
            else match programFail l with
              | some p => .error ⟨0x0D, 0, p⟩
              | none =>
                match s1.satelliteFail l with
                | some k => .error ⟨0x0E, 0, k⟩
                | none => .ok ((s1.idleWindows.takePrograms l).takeSats l)

/-- A stored invalid digest, if one is recorded for the slot (R67, R456). -/
def State.invalidDigest (s : State) (slot : Nat) : Option (List Byte) :=
  let d := slice s.slotState (4 + 32 * slot) 32
  if d.all (fun x => decide (x = 0)) then none else some d

/-- The digest of header `h` is marked invalid for the slot (R67). -/
def State.marked (s : State) (slot : Nat) (h : List Byte) : Bool :=
  match s.invalidDigest slot with
  | some d => decide (d = sha256 h)
  | none => false

/-- Check 0x06: the vendor key is the one that OTP names, and it signs bytes 0 to 127 of the header (R429, R454). -/
def State.vendorOk (s : State) (h : List Byte) : Bool :=
  decide (sha256 (slice h 64 64) = s.otp.vendorHash) && signs (slice h 0 128) (slice h 64 64) (slice h 256 64)

/-- Check 0x07: the owner key is the one that OTP names, and it signs bytes 128 to 255 of the header and the setup section `b` (R429, R454). While
the owner hash is unprogrammed the vendor signs in its place (R66). -/
def State.ownerOk (s : State) (h b : List Byte) : Bool :=
  let m := slice h 128 128 ++ b
  if s.ownerOpen then signs m (slice h 64 64) (slice h 320 64)
  else decide (sha256 (slice h 192 64) = s.otp.ownerHash) && signs m (slice h 192 64) (slice h 320 64)

/-- Checks 0x05 to 0x0E on a slot whose header is `h` (R64, R462). -/
def State.bodyCheck (s : State) (slot : Nat) (h : List Byte) : Except SlotFail State :=
  if sha256 (s.slotBytes slot 512 (hdrSetup h - 512)) ≠ slice h 16 32 then .error ⟨5, 0, 0⟩
  else if !s.vendorOk h then .error ⟨6, 0, 0⟩
  else if !s.ownerOk h (s.slotBytes slot (hdrSetup h) (hdrSetupLen h)) then .error ⟨7, 0, 0⟩
  else s.setupCheck (s.slotBytes slot (hdrSetup h) (min (hdrSetupLen h) 65537)) (hdrSetupLen h)

/-- Every check of R64 on a slot, in its order; `answers` says that the attached memory answers the read command. -/
def State.slotCheck (s : State) (slot : Nat) (answers : Bool) : Except SlotFail State :=
  let h := s.slotBytes slot 0 512
  if !answers then .error ⟨0x10, 0, 0⟩
  else if s.marked slot h then .error ⟨0x0F, 0, 0⟩
  else if s.headerCheck h ≠ 0 then .error ⟨s.headerCheck h, 0, 0⟩
  else s.bodyCheck slot h

end Sys2Proof.Machine
end

