-- ==== Sys2Proof/Machine/Update.lean ====
section
/-! DEFINITION. Downloading an image into the attached memory (R459 to R464), and reading the update history (R457). -/

namespace Sys2Proof.Machine

def State.setUpd (s : State) (u : Upd) : State := { s with upd := u }

/-- A request is refused with `cause`; the phase stays as it was (R459). -/
def State.updRefuse (s : State) (cause : Nat) : State := s.set F.UPD_STAT_CAUSE cause

def State.updPhase (s : State) : Nat := s.get F.UPD_STAT_PHASE

/-- The invalid digest of slot `k` in a slot-state body (R456). -/
def digestOf (b : List Byte) (k : Nat) : List Byte := slice b (4 + 32 * k) 32

/-- The start key names slot `n` (R459, R463). Nothing is known of the image yet: its entry carries zeros (R457). -/
def State.updStart (s : State) (n : Nat) : State :=
  if ¬ (s.updPhase = 0 ∨ s.updPhase = 4 ∨ s.updPhase = 5) then s.updRefuse 0x20
  else if bits (s.get F.SYS_OTP_ALARM_REGION) 0 2 ≠ 0 then s.updRefuse 0x24
  else if s.inMode .run ∧ s.get F.SYS_STATE_SLOT = n then s.updRefuse 0x21
  else
    let b := s.slotState
    (s.slotCommit (slotBody (leField b 0 1) (1 + 2 * n) (digestOf b 0) (digestOf b 1) (leField b 68 4)) .none).historyOf 1 n 0 0 0 0 (.started n)

/-- The start's commits are made: the erase begins, or the slot receives at once (R459). A second start whose commits come later begins anew. -/
def State.updBegin (s : State) (n : Nat) : State :=
  let s0 := s.updTear.nvmFree
  let s1 := (((s0.setUpd Upd.init).set F.UPD_STAT_SLOT n).set F.UPD_STAT_BLOCKS 0).set F.UPD_LEN_L 0
  if s.flag F.UPD_CFG_ERASE then ((s1.set F.UPD_STAT_PHASE 1).set F.UPD_STAT_BUSY 1).nvmTry else (s1.set F.UPD_STAT_PHASE 2).set F.UPD_STAT_BUSY 0

/-- A download that waited for its memory command ends with history code `c`. The abort key's entry comes before its effect: the phase stays until
it is stored (R459, R463). With code 0 the entry has been stored already. The others' effect comes with the entry (R464). -/
def State.updEnd (s : State) (c : Nat) : State :=
  if c = 7 then
    (((s.setUpd { s.upd with block := none, ending := none, ended := true, held := false, frame := none }).set F.UPD_STAT_BUSY 0).frameDone
      s.upd.frame).history 7 (s.get F.UPD_STAT_SLOT) 0 .failed
  else if c = 0 then ((s.setUpd { s.upd with block := none, ending := none, ended := false }).set F.UPD_STAT_PHASE 5).set F.UPD_STAT_BUSY 0
  else s.updFail c 0

/-- UPD_ERASE_DONE: the slot erase completes, or times out (R461). A memory command that waited for a receive-quiet segment has started where none holds
it any more (R116). -/
def execUpdEraseDone (ok : Bool) (s0 : State) : Out State :=
  let s := s0.nvmRetry
  .next (if s.updPhase = 1 ∧ s.updBusy ∧ ¬ s.upd.held then
    if ok then
      match s.upd.ending with
      | some c => (s.updErase 8).updEnd c
      | none => ((s.updErase 8).set F.UPD_STAT_PHASE 2).set F.UPD_STAT_BUSY 0
    else s.updTear.updFail 9 0x23
  else s)

/-- The bytes of the update buffer. -/
def State.updBuf (s : State) : List Byte := (List.range 64).flatMap fun j => leBytes 4 (s.get (F.UPD_BUF_BYTES j))

/-- The block at offset `o` is taken: its programming begins, or waits with the access `f` that brought it (R116, R460 to R462). -/
def State.updProgram (s : State) (o : Nat) (f : Option Nat) : State :=
  let t := ((s.setUpd { s.upd with seen := o :: s.upd.seen, block := some o }).set F.UPD_STAT_BUSY 1).nvmTry
  if t.upd.held then (t.setUpd { t.upd with frame := f }).frameHold f else t

/-- A write to `UPD_BLK` (R460, R462). -/
def State.updBlkWrite (s : State) (v : Nat) (f : Option Nat) : State :=
  let o := v % 2 ^ 19
  if s.updBusy then s.incSatF F.UPD_STAT_DISC
  else if s.updPhase ≠ 2 then s.updRefuse 0x20
  else if s.upd.seen = [] then
    if o ≠ 0 then s.updRefuse 0x22
    else
      let h := s.updBuf
      let s1 := s.setUpd { s.upd with rollback := hdrRollback h, fw := hdrFw h }
      let c := s.headerCheck h
      if c ≠ 0 then s1.updFail 9 c else (s1.set F.UPD_LEN_L (hdrLength h)).updProgram 0 f
  else if o % 256 ≠ 0 ∨ s.get F.UPD_LEN_L ≤ o ∨ s.upd.seen.contains o then s.updRefuse 0x22
  else s.updProgram o f

def execUpdBlock (v : Word) (s : State) : Out State := .next (s.bus 0x4A00 fun t => t.updBlkWrite v.toNat none)

/-- UPD_BLOCK_DONE: a block's programming and read-back end (R461). -/
def execUpdBlockDone (ok : Bool) (s0 : State) : Out State :=
  let s := s0.nvmRetry
  match s.upd.block with
  | none => .next s
  | some o =>
    .next (if s.updPhase = 2 ∧ s.updBusy ∧ ¬ s.upd.held then
      let s1 := (s.updWrite o (min 256 (s.get F.UPD_LEN_L - o))).incSatF F.UPD_STAT_BLOCKS
      if ok then
        match s.upd.ending with
        | some c => s1.updEnd c
        | none => (s1.setUpd { s1.upd with block := none }).set F.UPD_STAT_BUSY 0
      else s.updTear.updFail 9 0x23
    else s)

/-- The verify key (R459, R462). -/
def State.updVerify (s : State) : State :=
  if s.updBusy ∨ s.updPhase ≠ 2 ∨ s.upd.seen = [] ∨ s.get F.UPD_STAT_BLOCKS * 256 < s.get F.UPD_LEN_L then s.updRefuse 0x20
  else ((s.set F.UPD_STAT_PHASE 3).set F.UPD_STAT_BUSY 1).nvmTry

/-- The machine as boot ROM finds it when it checks a slot: Reset values, with the OTP's copies (R422, R462). -/
def State.bootBase (s : State) : State :=
  ({ State.blank with
    nv := s.nv, regs := s.regs.filter (fun e => otpCopyKeys.contains e.1),
    otp := { OtpCtl.init with
      shadow := s.otp.shadow, hwType := s.otp.hwType, unitId := s.otp.unitId, slew := s.otp.slew, vendorHash := s.otp.vendorHash,
      ownerHash := s.otp.ownerHash } } : State).thmLimit

/-- Verification ends: the slot passes, or fails with a code (R462). -/
def State.updJudge (s : State) : State :=
  let n := s.get F.UPD_STAT_SLOT
  let h := s.slotBytes n 0 512
  let s1 := (s.set (F.UPD_SLOT_ROLLBACK n) (hdrRollback h)).set (F.UPD_SLOT_FW n) (leField h 15 1)
  match s.bootBase.bodyCheck n h with
  | .error f => s1.updFail 9 f.cause
  | .ok _ =>
    if s.marked n h then s1.updFail 9 0x0F
    else
      let b := s.slotState
      let s2 := (s1.setUpd { s1.upd with setupId := leField (s.slotBytes n (hdrSetup h) 16) 12 4 }).set F.UPD_STAT_BUSY 0
      let d := fun k => if k = n then [] else digestOf b k
      let s3 := if (s.invalidDigest n).isSome then
          s2.slotCommit (slotBody (leField b 0 1) (leField b 1 1) (d 0) (d 1) (s.get F.UPD_LEN_L)) .none
        else s2
      s3.history 2 n 0 .verified

/-- The journal has refused the entry of an abort: a download whose memory command ended meanwhile goes on from there (R459, R463). -/
def State.updResume (s : State) : State :=
  if s.upd.ended then
    let s1 := s.setUpd { s.upd with ended := false }
    if s.updPhase = 1 then s1.set F.UPD_STAT_PHASE 2 else if s.updPhase = 3 then s1.updJudge else s1
  else s

/-- UPD_VERIFY_DONE: verification ends (R462); a submission that waits for the verifier then starts. -/
def execUpdVerifyDone (s0 : State) : Out State :=
  let s := s0.nvmRetry
  .next (if s.updPhase = 3 ∧ s.updBusy ∧ ¬ s.upd.held then
    (match s.upd.ending with
    | some c => s.updEnd c
    | none => s.updJudge).secTry
  else s)

/-- The activate key (R459, R463). -/
def State.updActivate (s : State) : State :=
  if s.updPhase ≠ 4 then s.updRefuse 0x20
  else
    let n := s.get F.UPD_STAT_SLOT
    let b := s.slotState
    (s.slotCommit (slotBody n 0 (digestOf b 0) (digestOf b 1) (s.get F.UPD_LEN_L)) .none).history 3 n 0 .activated

/-- The abort key (R459). -/
def State.updAbort (s : State) : State :=
  if ¬ s.updRuns then s.updRefuse 0x20
  else if s.updBusy ∧ ¬ s.upd.held then s.setUpd { s.upd with ending := some (s.upd.ending.getD 7) }
  else if s.updBusy then s.updEnd 7
  else s.history 7 (s.get F.UPD_STAT_SLOT) 0 .failed

/-- A write to `UPD_CTRL` (R459); any other value is discarded without effect. -/
def State.updCtrlWrite (s : State) (v : Nat) : State :=
  if v = 0x0BD70000 then s.updStart 0
  else if v = 0x0BD70001 then s.updStart 1
  else if v = 0x0BD70020 then s.updVerify
  else if v = 0x0BD70030 then s.updActivate
  else if v = 0x0BD700FF then s.updAbort
  else s

def execUpdStart (slot : Fin 2) (s : State) : Out State := .next (s.bus 0x4804 fun t => t.updCtrlWrite (0x0BD70000 + slot))
def execUpdVerify (s : State) : Out State := .next (s.bus 0x4804 fun t => t.updCtrlWrite 0x0BD70020)
def execUpdActivate (s : State) : Out State := .next (s.bus 0x4804 fun t => t.updCtrlWrite 0x0BD70030)
def execUpdAbort (s : State) : Out State := .next (s.bus 0x4804 fun t => t.updCtrlWrite 0x0BD700FF)

/-- The commits of a request are made, and it acts (R459, R463). -/
def State.updAct (s : State) (a : UpdAct) : State :=
  if (s.inMode .run ∨ s.inMode .recovery) ∧ s.dev.stage = .none then
    match a with
    | .none => s
    | .started n => s.updBegin n
    | .verified => if s.updPhase = 3 then s.set F.UPD_STAT_PHASE 4 else s
    | .failed =>
      if s.updBusy ∧ ¬ s.upd.held then s.setUpd { s.upd with ending := some 0 }
      else if s.updRuns ∨ s.updPhase = 4 then s.updEnd 0
      else s
    | .activated => if s.updPhase = 4 then s.set F.UPD_STAT_PHASE 0 else s
  else s

/-- A write to `UPD_HIST_IDX` copies a history entry (R457). -/
def State.histIdxWrite (s : State) (v : Nat) : State :=
  ((s.set F.UPD_HIST_IDX_K v).injCheck 12 (area 4).base).copyWords 0x4830 4 (s.bodyBack 4 (v % 64))

def execUpdHistIdxWrite (v : Word) (s : State) : Out State := .next (s.bus 0x4820 fun t => t.histIdxWrite v.toNat)

end Sys2Proof.Machine
end

