-- ==== Sys2Proof/Machine/JournalCmds.lean ====
section
/-! DEFINITION. The journal controller: a commit starts, is refused, or completes, and what its producer then does (R303, R304, R351, R366,
R437, R448 to R452, R463, R467). -/

namespace Sys2Proof.Machine

/-- JRNL_MIN in mV (R450). -/
def State.jmin (s : State) : Nat :=
  let c := s.get F.JNL_CFG_CRES_UF
  3200 + ((2000 + 10 * c - 1) / (10 * c)) * 10

/-- The commits left when an update commit `c` is refused: the entry that the same request queued behind it goes with it (R463). -/
def dropPair (c : Commit) : List Commit → List Commit
  | [] => []
  | d :: r =>
    if d.producer = .update then (if c.kind = 3 ∧ c.act = .none ∧ d.kind = 4 ∧ d.act ≠ .none then r else d :: r)
    else d :: dropPair c r

/-- The first update commit of a list. -/
def firstUpdate (l : List Commit) : Option Commit := l.find? fun d => decide (d.producer = .update)

/-- What the request of R459 that commit `c` belongs to would have done; none where it belongs to no request. -/
def Commit.request (c : Commit) (rest : List Commit) : UpdAct :=
  if c.act ≠ .none then c.act
  else if dropPair c rest ≠ rest then (match firstUpdate rest with
    | some d => d.act
    | none => .none)
  else .none

/-- What the producer does on a refusal (R451). `rest` are the commits behind the refused one. -/
def State.refusedBy (s : State) (c : Commit) (rest : List Commit) : State :=
  match c.producer with
  | .gauge =>
    let s1 := (s.set F.GG_STAT_DEFER 1).incSatF F.GG_JNL_DEFER
    let r := leField c.body 0 1
    (s1.setGg { s1.gg with commitDue := some (s1.gg.commitDue.getD r) }).emit 8 3 [(r, 1), (1, 1), (s1.get F.GG_JNL_DEFER, 2)]
  | .security => s.secRefused
  | .update =>
    match c.request rest with
    | .none => s
    | .verified => if s.updPhase = 3 then (s.updRefuse 0x25).set F.UPD_STAT_PHASE 2 else s.updRefuse 0x25
    | .failed => (s.updRefuse 0x25).updResume
    | _ => s.updRefuse 0x25
  | .satellite => s.incSatF F.JNL_CNT_DROP
  | .fault => { s with flt := { s.flt with retryAt := s.now + engPerMs } }
  | .evidence => { s with wdg := { s.wdg with retryAt := some (s.now + 100 * engPerMs) } }
  | .mark => s

/-- The journal refuses the oldest commit for low reserve (R451, R467). -/
def State.jnlRefuse (s : State) (c : Commit) (r : List Commit) (vcres : Nat) : State :=
  let all := r ++ s.jnl.waiting
  let keep := if c.producer = .update then dropPair c all else all
  let s1 := ({ s with jnl := { queue := keep.take (min r.length keep.length), busy := false, waiting := keep.drop (min r.length keep.length), covered := false } } : State).jnlPump
  let s2 := ((s1.incSatF F.JNL_CNT_REFUSED).set F.JNL_STAT_REFUSED_SEEN 1).emit 0x11 1 [(c.kind, 1), (0, 1), (vcres, 2), (s.jmin, 2)]
  s2.refusedBy c all

/-- The record that a commit stores, made when it starts: the gauge's values (R303), the oldest waiting fault-log body (R351) and the
snapshot in the evidence latch (R366). -/
def State.commitBody (s : State) (c : Commit) : List Byte :=
  match c.producer with
  | .gauge => s.gaugeBody (leField c.body 0 1)
  | .fault => s.flt.bodies.headD []
  | .evidence => s.wdg.latch.getD []
  | _ => c.body

/-- The snapshot leaves the latch (R366); in a second period its counts are those so far. -/
def State.latchOut (s : State) : State := { s with wdg := { s.wdg with latch := none } }

/-- A commit of this producer has nothing left to store. -/
def State.emptyCommit (s : State) (c : Commit) : Bool :=
  match c.producer with
  | .fault => decide (s.flt.bodies = [])
  | .evidence => s.wdg.latch.isNone
  | _ => false

/-- The reads of the journal since the last command have corrected `n` errors (R449). -/
def State.jnlCorrected (s : State) (n : Nat) : State := s.addSatF F.JNL_CNT_CE n

/-- JOURNAL_COMMIT_START: the journal takes the next commit and starts it, or refuses it where V(`CRES`) = `vcres` mV is below JRNL_MIN
(R450, R451). JRNL_MIN covers two commits: the two of one update request are one decision, so that neither is stored without the other (R450, R463;
DEDUCED, log entry 21). Operations queued in BOOT wait for its end (R60). `ce` counts
the errors that reads of the journal have corrected since its last commit started (R449). -/
def execJournalCommitStart (vcres ce : Nat) (s0 : State) : Out State :=
  let s := s0.jnlCorrected ce
  match s.jnl.busy, s.jnl.queue with
  | false, c :: r =>
    .next (if s.coreRuns ∧ s.dev.vaoGood ∧ ¬ s.inMode .boot then
      let s0 := if c.producer = .evidence then s.latchCounts else s
      if s.emptyCommit c then ({ s with jnl := { s.jnl with queue := r } } : State).jnlPump
      else if vcres < s.jmin ∧ ¬ s.jnl.covered then s.jnlRefuse c r vcres
      else
        let d := { c with body := padTo (area c.kind).body (s0.commitBody c) }
        let s1 := { s0 with jnl := { s0.jnl with queue := d :: r, busy := true, covered := false } }
        if c.producer = .evidence then s1.latchOut else s1
    else s)
  | _, _ => .next s

/-- An update-history entry is made: its record, and the raising of UPDATE_FAIL by entries 0x04 to 0x09, whose colour the record then carries (R380,
R458, R467). -/
def State.historyMade (s : State) (body : List Byte) : State :=
  if failEntry (leField body 0 1) then (s.raise 39 0).emitC 0x12 1 (s.effColour 39) [(leField body 0 8, 8)]
  else s.emit 0x12 1 [(leField body 0 8, 8)]

/-- What the completion of a commit brings its producer (R303, R351, R366, R437, R463, R467). -/
def State.commitDone (s : State) (c : Commit) : State :=
  match c.producer with
  | .gauge =>
    let s1 := (s.set F.GG_JNL_DEFER 0).set F.GG_JNL_REASON (leField c.body 7 1)
    (s1.setGg { s1.gg with storedAt := s1.now }).gaugeRetry
  | .security => s.setSec { s.sec with sub := s.sec.sub.map fun x => if x.stage = 1 then { x with stage := 2 } else x }
  | .fault => { s with flt := { s.flt with bodies := s.flt.bodies.drop 1 } }
  | .evidence => s.emit 0xC 2 [(leField c.body 0 1, 1), (leField c.body 1 1, 1), (leField c.body 2 1, 1), (leField c.body 54 1, 1), (leField c.body 8 4, 4)]
  | .update => (if c.kind = 4 then s.historyMade c.body else s).updAct c.act
  | _ => s

/-- JOURNAL_COMMIT_DONE: the commit in progress has written its CRC (R448); its credit returns. Where a full reset waits for it, step 3 begins
(R30). -/
def execJournalCommitDone (s : State) : Out State :=
  match s.jnl.busy, s.jnl.queue with
  | true, c :: r =>
    let s1 := ({ s.commitBytes c.kind c.body with
      jnl := { s.jnl with queue := r, busy := false, covered := decide (c.producer = .update ∧ dropPair c (r ++ s.jnl.waiting) ≠ r ++ s.jnl.waiting) } } : State).jnlPump
    let s2 := (s1.incWrapF F.JNL_CNT_COMMITS).commitDone c
    .next (if s2.dev.stage = .commit then s2.resetStep3 else s2)
  | _, _ => .next s

end Sys2Proof.Machine
end

