-- ==== Sys2Proof/Machine/TwoWire.lean ====
section
/-! DEFINITION. The two-wire controller's transactions, the heartbeats of satellites, and satellite mode (R398 to R417). -/

namespace Sys2Proof.Machine

/-- The controller port is claimed by the sequencer or by the host (R406). -/
def State.twcOwned (s : State) : Bool := s.ownedBy 7 0 5 || s.ownedBy 7 0 hostOwner

/-- A transaction cannot run for want of an owner or of a configured satellite (cause OWNER of R407). -/
def State.txUnowned (s : State) (t : Tx) : Bool :=
  !s.twcOwned || (match t.kind with
    | .send k _ => (s.satCfg k).isNone
    | _ => false)

/-- The supply domain of satellite `k` fails with cause SAT (R239, R410, R412). -/
def State.satFail (s : State) (k : Nat) : State :=
  match s.satDomain k with
  | some d => s.domFail d 5
  | none => s

/-- Satellite `k` is lost (R412). -/
def State.satLost (s : State) (k cause : Nat) : State :=
  let s1 := (s.set (F.TWB_SAT_STAT_STATE k) 4).raise 34 k
  ((s1.emitC 0xE 2 (s1.effColour 34) [(k, 1), (cause, 1), (3, 1)]).satLog k cause 3 4).satFail k

/-- An item or the HEARTBEAT of a contact ends (R410). A contact that was discarded meanwhile is over. -/
def State.contactEnd (s : State) (k : Nat) (last : Bool) (cause : Nat) : State :=
  if s.get (F.TWB_SAT_STAT_STATE k) ≠ 2 then s
  else
    let st := F.TWB_SAT_STAT_STATE k
    let items := s.get (F.TWB_SAT_STAT_ITEMS k)
    if cause = 0 then
      if last then
        ({ ((s.set st 3).set (F.TWB_SAT_STAT_MISS k) 0) with twc := { s.twc with beats := tset s.twc.beats k 0 0 } } : State).emit
          0xE 1 [(k, 1), (0, 1), (items, 1), (0, 1)]
      else s.set (F.TWB_SAT_STAT_ITEMS k) (items + 1)
    else (((s.contactDiscard k).set st 1).emit 0xE 1 [(k, 1), (1, 1), (items, 1), (cause, 1)]).satFail k

/-- A HEARTBEAT to satellite `k` ends (R412). -/
def State.beatEnd (s : State) (k cause : Nat) : State :=
  if cause = 0 then s.set (F.TWB_SAT_STAT_MISS k) 0
  else if s.get (F.TWB_SAT_STAT_STATE k) = 3 then
    let m := incSat (s.get (F.TWB_SAT_STAT_MISS k)) 3
    let s1 := s.set (F.TWB_SAT_STAT_MISS k) m
    if m = 3 then s1.satLost k cause else s1
  else s

/-- A transaction of a SEND step with `WAIT` that is queued or waits for a credit. -/
def Tx.holdsSend (t : Tx) : Bool :=
  match t.kind with
  | .send _ true => true
  | _ => false

/-- The transaction of a SEND step with `WAIT` ends, and with it the step; a failure is one of the supply domain (R238, R239). -/
def State.sendEnd (s : State) (k cause : Nat) : State :=
  let s1 := if s.seq.stage = .sending ∧ bitOf s.seq.word 27 ∧ ¬ (s.twc.queue ++ s.twc.waiting).any Tx.holdsSend then s.setStage .ended else s
  if cause = 0 then s1 else s1.satFail k

/-- The bytes that a host transaction read, from byte 0 of its buffer on (R408). -/
def State.hxStore (s : State) (l : List Byte) : State :=
  forEach (List.range 8) (fun j t =>
    let old := leBytes 4 (t.get (F.TWB_HX_DATA_BYTES j))
    let new := (l.drop (4 * j)).take 4
    t.set (F.TWB_HX_DATA_BYTES j) (ofLe (new ++ old.drop new.length))) s

/-- A host transaction ends (R408). -/
def State.hxEnd (s : State) (t : Tx) (cause : Nat) (data : List Byte) : State :=
  (((((s.hxStore (data.take t.rlen)).set F.TWB_HX_CTRL_BUSY 0).set F.TWB_HX_CTRL_DONE 1).set F.TWB_HX_CTRL_CAUSE cause).frameDone t.frame)

/-- A transaction ends with `cause`, 0 for success: it returns its credit, and what it was for follows (R407 to R412). -/
def State.twcFinish (s : State) (t : Tx) (cause : Nat) (data : List Byte) : State :=
  let c := { s.twc with
    queue := s.twc.queue.drop 1, repeats := 0, retryWait := false,
    recover := if cause = 7 then s.twc.recover else decide (cause = 3 ∨ cause = 4 ∨ cause = 5) }
  let s1 := (({ s with twc := c } : State).set F.TWB_CTL_STAT_BUSY 0).twcPump
  let s2 := if cause = 0 then s1 else s1.set F.TWB_CTL_STAT_CAUSE cause
  let note := fun (k : Nat) (x : State) => if cause = 0 then x else x.set (F.TWB_SAT_STAT_CAUSE k) cause
  match t.kind with
  | .contact k last => (note k s2).contactEnd k last cause
  | .heartbeat k => (note k s2).beatEnd k cause
  | .send k wait => if wait then (note k s2).sendEnd k cause else note k s2
  | .cut k => note k s2
  | .host => s2.hxEnd t cause data

/-- The bytes that the controller puts on the bus for a transaction: the address, the bytes written, and the PEC after a write or the read address after a
repeated start (R396, R408, R409). -/
def Tx.bytes (t : Tx) : List Byte :=
  let w := byte (2 * t.addr) :: t.wr
  if t.rlen ≠ 0 then w ++ [byte (2 * t.addr + 1)] else if t.pec then w ++ [byte (crc8 w)] else w

/-- The bytes `l` that arrived in a read pass the check of the PEC after them, where there is one (R396, R408). -/
def Tx.pecOk (t : Tx) (l : List Byte) : Bool :=
  !t.pec || decide (t.rlen = 0) || decide (crc8 (t.bytes ++ l.take t.rlen) = (l.getD t.rlen 0).toNat)

/-- TWC_TRANSACTION: the oldest transaction starts (R398, R400, R407). `stuck` says that SDA has been low for 100 µs with SCL high; `pulses`,
`freed` and `sclLow` say how a recovery went, which ends at the pulse that frees SDA or at the ninth; `arb` counts the consecutive arbitration losses before the start went through. -/
def execTwcTransaction (stuck : Bool) (pulses : Nat) (freed sclLow : Bool) (arb : Fin 4) (s : State) : Out State :=
  match s.twc.queue with
  | [] => .next s
  | t :: _ =>
    .next (if s.inMode .run && !s.flag F.TWB_CTL_STAT_BUSY && !s.quietHolds F.FRM_QUIET_CFG_TWC_HOLD then
      if s.txUnowned t then s.twcFinish t 7 []
      else
        let s1 := s.set F.TWB_CTL_STAT_BUSY 1
        if (stuck || s.twc.recover) && !freed then
          if pulses < 9 then s
          else ((s1.set F.TWB_CTL_STAT_HUNG 1).emit 0xE 4 [(9, 1), (b2n sclLow, 1)]).twcFinish t 4 []
        else
          let s2 := (({ s1 with twc := { s1.twc with recover := false, wire := t.bytes } } : State)).addSatF F.TWB_CTL_STAT_ARB arb
          if arb.val = 3 then s2.twcFinish t 3 [] else s2
    else s)

/-- The ends that the bus itself can give a transaction in progress: every byte transferred, NACK_ADDR, NACK_DATA, TIMEOUT. -/
def busEnds (cause : Nat) : Bool := decide (cause ≤ 2) || decide (cause = 5)

/-- TWC_TRANSACTION_END: the transaction in progress succeeds or fails; a NACK is repeated up to `RETRY` times (R407). `data` holds the bytes
that arrived, with the PEC byte of a read that has one, which the controller checks (R396). -/
def execTwcTransactionEnd (cause : Fin 8) (data : List Byte) (s : State) : Out State :=
  match s.twc.queue with
  | [] => .next s
  | t :: _ =>
    .next (if s.inMode .run && s.flag F.TWB_CTL_STAT_BUSY && !s.twc.retryWait && busEnds cause then
      if (cause.val = 1 ∨ cause.val = 2) ∧ s.twc.repeats < s.get F.TWB_CTL_CFG_RETRY then
        { s with twc := { s.twc with retryWait := true, retryAt := s.now + 250 * engPerUs } }
      else s.twcFinish t (if cause.val = 0 ∧ ¬ t.pecOk data then 6 else cause) (if cause.val = 0 then padTo t.rlen data else data)
    else s)

/-- TWC_RETRY: 250 µs after a NACK the transaction is repeated from its start, under the quiet rule (R407); `arb` counts the consecutive arbitration
losses before the start went through (R398). -/
def execTwcRetry (arb : Fin 4) (s : State) : Out State :=
  match s.twc.queue with
  | [] => .next s
  | t :: _ =>
    .next (if s.inMode .run && s.twc.retryWait then
      let s1 := s.due s.twc.retryAt
      if s1.quietHolds F.FRM_QUIET_CFG_TWC_HOLD then s1
      else
        let s2 := ({ s1 with twc := { s1.twc with retryWait := false, repeats := s1.twc.repeats + 1 } } : State).incSatF F.TWB_CTL_STAT_RETRIES
        let s3 := s2.addSatF F.TWB_CTL_STAT_ARB arb
        if arb.val = 3 then s3.twcFinish t 3 [] else s3
    else s)

/-- A write to `TWB_HX_CTRL` (R408); a start while one is queued or in progress is discarded without effect. -/
def State.hxWrite (s : State) (v : Nat) (frame : Option Nat) : State :=
  if bitOf v 31 then
    if s.flag F.TWB_HX_CTRL_BUSY then s.frameDone frame
    else
      let s1 := (s.storeAcc 0x3880 v .rw).clearW1c 0x3880 v
      let buf := (List.range 8).flatMap fun j => leBytes 4 (s1.get (F.TWB_HX_DATA_BYTES j))
      (s1.set F.TWB_HX_CTRL_BUSY 1).twcPush
        ⟨.host, s1.get F.TWB_HX_CTRL_ADDR, buf.take (s1.get F.TWB_HX_CTRL_WLEN), s1.flag F.TWB_HX_CTRL_PEC, s1.get F.TWB_HX_CTRL_RLEN, frame⟩
  else ((s.storeAcc 0x3880 v .rw).clearW1c 0x3880 v).frameDone frame

/-- HEARTBEAT_TIMER: every 100 ms a HEARTBEAT is queued for each READY satellite (R412). -/
def execHeartbeatTimer (s : State) : Out State :=
  .next (if s.inMode .run && s.ownedBy 7 0 5 then
    let t := s.twc.beatAt + 100 * engPerMs
    let s1 := s.due t
    let s2 := { s1 with twc := { s1.twc with beatAt := t } }
    forEach (List.range 8) (fun k x =>
      match x.satCfg k with
      | some (a, _, _) =>
        if x.get (F.TWB_SAT_STAT_STATE k) = 3 then
          let c := (tget x.twc.beats k 0 + 1) % 256
          ({ x with twc := { x.twc with beats := tset x.twc.beats k 0 c } } : State).twcPush ⟨.heartbeat k, a, [0x20, byte c, 0], true, 0, none⟩
        else x
      | none => x) s2
  else s)

/-- The target port answers with register access and commands: RUN and BLACK (R401). -/
def State.targetOn (s : State) : Bool := s.inMode .run || s.inMode .black

/-- The master's heartbeats are watched (R413). -/
def State.watching (s : State) : Bool := s.targetOn && s.flag F.SEQ_CFG_SAT_MODE

/-- The master is lost (R240, R413). The satellite state in the journal's record is a free value: the manual gives the master none. -/
def State.masterLost (s : State) : State :=
  let (v, s0) := s.draw
  let s1 := (s0.set F.TWB_SLV_STAT_LOST 1).set F.TWB_SLV_STAT_LOST_SEEN 1
  let s2 := (s1.seqPush 6 none).raise 34 0xFF
  (s2.emitC 0xE 2 (s2.effColour 34) [(0xFF, 1), (0, 1), (3, 1)]).satLog 0xFF 0 3 v

/-- MASTER_WINDOW_END: a window ends without a HEARTBEAT; the third miss in a row loses the master (R413). -/
def execMasterWindowEnd (s : State) : Out State :=
  .next (if s.watching then
    let s1 := s.due s.twt.winEnd
    let s2 := { s1 with twt := { s1.twt with winEnd := s.twt.winEnd + 150 * engPerMs } }
    let m := incSat (s2.get F.TWB_SLV_STAT_MISS) 3
    let s3 := s2.set F.TWB_SLV_STAT_MISS m
    if m = 3 ∧ ¬ s.flag F.TWB_SLV_STAT_LOST then s3.masterLost else s3
  else s)

/-- TWO_WIRE_TIMEOUT: SCL has been low for 25 ms (R399): `target` on the target port during a transaction, `ctl` on the controller port. -/
def execTwoWireTimeout (target ctl : Bool) (s : State) : Out State :=
  let s1 := if target && s.targetOn then s.incSatF F.TWB_TGT_CNT_TOUT else s
  match s1.twc.queue with
  | [] => .next s1
  | t :: _ => .next (if ctl && s1.inMode .run && s1.flag F.TWB_CTL_STAT_BUSY && !s1.twc.retryWait then s1.twcFinish t 5 [] else s1)

/-- TWB_ALERT: an alert input has fallen (R416). -/
def execTwbAlert (k : Fin 12) (s : State) : Out State :=
  .next (if s.targetOn && decide (s.gpioCode k = 0xC) then
    (({ s with dev := { s.dev with gpioIn := clrBit s.dev.gpioIn k } } : State).set F.TWB_CTL_STAT_ALERT 1).emit 0xE 5 [(k, 1)]
  else s)

end Sys2Proof.Machine
end

