-- ==== Sys2Proof/Machine/Regs.lean ====
section
/-! DEFINITION. Reading a register (R1 to R3): the stored fields, and those that show what a block holds elsewhere. -/

namespace Sys2Proof.Machine

/-- The lowest bit of a field. -/
def FRef.lo (f : FRef) : Nat := f.key % 32

/-- A word with the value `v` in a field. -/
def putField (x : Nat) (f : FRef) (v : Nat) : Nat := x - bits x f.lo f.w * 2 ^ f.lo + (v % 2 ^ f.w) * 2 ^ f.lo

/-- A bit for every number of a range that satisfies `p`. -/
def maskBy (n : Nat) (p : Nat → Bool) : Nat := maskOf ((List.range n).filter p)

/-- The level of `GPIOk` (R41, R47, R97, R346): an output shows what the device drives; every other pin what the board drives. -/
def State.gpioLevel (s : State) (k : Nat) : Bool :=
  let c := s.gpioCode k
  let ext := bitOf s.dev.gpioIn k
  if c = 8 then s.inMode .black || s.pendingAt (s.get (fr 0x2C58 (2 * k) 2 2))
  else if s.inMode .black then ext
  else if c = 2 then s.bitF F.SYS_GPIO_OUT_OUT k
  else if c = 3 then s.bitF F.SYS_GPIO_OUT_OUT k && ext
  else if c = 6 ∨ c = 9 ∨ c = 0xA ∨ c = 0xB then bitOf s.dev.gpioDrive k
  else ext

/-- Free credits of the other queues (R10, R35). -/
def State.freeSeq (s : State) : Nat := 8 - s.seq.queue.length
def State.freeMbx (s : State) : Nat := 16 - s.mbx.length
def State.freeAdc (s : State) : Nat := 12 - s.adcUsed
def State.freeTwc (s : State) : Nat := 8 - s.twc.queue.length
def State.freeJnl (s : State) : Nat := 4 - s.jnl.queue.length
def State.freeEvp (s : State) : Nat := 4 - s.evt.pb.length
def State.freeTotal (s : State) : Nat :=
  s.freeHl + s.freeSeq + s.freeMbx + s.freeAdc + s.freeTwc + s.freeJnl + s.freeEvp

/-- The resource that `SYS_CLAIM_SEL` selects. -/
def State.selClaim (s : State) : Option (Nat × Nat) := s.claim (s.get F.SYS_CLAIM_SEL_CLASS) (s.get F.SYS_CLAIM_SEL_INDEX)

/-- The racks that hold tiles of use `u`. -/
def State.usesRack (s : State) (u r : Nat) : Bool := (s.tilesOf u).any fun t => decide (t / 8 = r)

/-- A stack spans racks `r` and `r + 1` (R132). -/
def State.spans (s : State) (r : Nat) : Bool := (List.range 16).any fun n => s.usesRack n r && s.usesRack n (r + 1)

/-- Rack `r` is the home rack of stack `n` (R133). -/
def State.isHome (s : State) (n r : Nat) : Bool :=
  match s.tileAt n 0 with
  | some t => decide (t / 8 = r)
  | none => false

/-- The registers of the system block that show other state. -/
def State.viewSys (s : State) (a : Nat) : List (FRef × Nat) :=
  if a = 0x0004 then [(F.SYS_STATE_STATE, s.dev.mode.code)]
  else if a = 0x0010 then
    [(F.SYS_CREDIT0_HL, s.freeHl), (F.SYS_CREDIT0_MBX, s.freeMbx), (F.SYS_CREDIT0_SEQ, s.freeSeq), (F.SYS_CREDIT0_ADC, s.freeAdc)]
  else if a = 0x0014 then
    [(F.SYS_CREDIT1_JNL, s.freeJnl), (F.SYS_CREDIT1_TWC, s.freeTwc), (F.SYS_CREDIT1_EVP, s.freeEvp), (F.SYS_CREDIT1_TOTAL, s.freeTotal)]
  else if a = 0x0124 then
    match s.selClaim with
    | some (o, q) => [(F.SYS_CLAIM_OWNER_CLAIMED, 1), (F.SYS_CLAIM_OWNER_OWNER, o), (F.SYS_CLAIM_OWNER_QUAL, q)]
    | none => []
  else if a = 0x0300 then [(F.SYS_GPIO_IN_LEVEL, maskBy 12 s.gpioLevel)]
  else []

/-- Those of the frame timing unit (R108, R110, R111). -/
def State.viewFrm (s : State) (a : Nat) : List (FRef × Nat) :=
  if a = 0x040C then [(F.FRM_PIP_FRAME, s.get F.FRM_FRAME_FRAME), (F.FRM_PIP_PIP, s.pip)]
  else if a = 0x0438 then [(F.FRM_BMAP_ACT_LO_SEG, s.actMap)]
  else if a = 0x043C then [(F.FRM_BMAP_ACT_HI_SEG, s.actMap / 2 ^ 32)]
  else if a = 0x0444 then
    let p := match s.frm.pendMap with
      | some m => some m
      | none => s.frm.latchMap
    [(F.FRM_BMAP_STAT_ONE_ACT, b2n (s.mapsLive && s.frm.oneFrame.isSome)), (F.FRM_BMAP_STAT_PEND, b2n p.isSome),
     (F.FRM_BMAP_STAT_PEND_ONE, match p with
       | some (one, _) => b2n one
       | none => 0)]
  else []

/-- Those of the racks, the stacks and the engine. -/
def State.viewStk (s : State) (a : Nat) : List (FRef × Nat) :=
  if 0x0B00 ≤ a ∧ a < 0x0B18 then
    let r := (a - 0x0B00) / 4
    [(F.TIL_RACK_STAT_HOME r, maskBy 16 fun n => s.isHome n r), (F.TIL_RACK_STAT_LINK_UP r, b2n (s.spans r)),
     (F.TIL_RACK_STAT_LINK_DN r, b2n (decide (r ≠ 0) && s.spans (r - 1))),
     (F.TIL_RACK_STAT_WIRED r, maskBy 8 fun j => decide (tget s.image.tileL (8 * r + j) 0 ≠ 0))]
  else if a = 0x1008 then [(F.ENG_FLAGSUM_ANY, maskBy 16 fun n => decide (s.engFlags n ≠ 0))]
  else match stackOf a with
    | some (n, 0x28) => [(F.STK_CEIL_TRIP n, s.vov n)]
    | _ => []

/-- Those of the sequencer, the guarded drivers, the power path and the gauge. -/
def State.viewPower (s : State) (a : Nat) : List (FRef × Nat) :=
  if a = 0x1564 then [(F.SEQ_STORE_DATA_STEP, s.storeWord (s.get F.SEQ_STORE_IDX_WORD))]
  else if a = 0x1890 then [(F.OUT_G_REMAIN_MS 0, s.guardRemain 0)]
  else if a = 0x1894 then [(F.OUT_G_REMAIN_MS 1, s.guardRemain 1)]
  else if a = 0x1C04 then [(F.PP_FE_STAT_LOSSES, min s.recentLosses.length 31), (F.PP_FE_STAT_TREQ_EFF, s.treqEff)]
  else if a = 0x1C58 then
    [(F.PP_CHG_STAT_IEFF, s.chgIeff s.chgState), (F.PP_CHG_STAT_CEIL, b2n s.chgCeil), (F.PP_CHG_STAT_SUSP, s.chgSusp)]
  else if a = 0x208C then [(F.GG_JNL_MIN, if s.inMode .run ∨ s.inMode .park ∨ s.inMode .black then min ((s.now - s.gg.storedAt) / (60000 * engPerMs)) 255 else 0)]
  else []

/-- Those of the fault collector and the watchdogs. -/
def State.viewFault (s : State) (a : Nat) : List (FRef × Nat) :=
  if a = 0x2C04 then [(F.FLT_STAT_ANY, b2n s.anyPending), (F.FLT_STAT_MAXCOL, s.maxColour)]
  else if 0x2C20 ≤ a ∧ a < 0x2C38 then
    let m := (a - 0x2C20) / 4
    ((List.range 8).filter fun j => decide (8 * m + j < 41)).map fun j => (fr a (4 * j + 2) 2 0, s.effColour (8 * m + j))
  else if a = 0x2C54 then
    let i := tget s.flt.info (s.get F.FLT_SRC_SEL_SRC) (0, 0)
    [(F.FLT_SRC_INFO_CNT, i.1), (F.FLT_SRC_INFO_DETAIL, i.2)]
  else if a = 0x2C68 then [(F.FLT_LOG_IDX_HELD, s.heldCount 7)]
  else if a = 0x3008 then [(F.WDG_STAT_WDX, b2n s.wdxHigh)]
  else if a = 0x3014 then [(F.WDG_CORE_STAT_LAST, match s.wdg.coreLast with
    | some t => min ((s.aoTicks - t) * 1000 / 32768) 65535
    | none => 0)]
  else if 0x3040 ≤ a ∧ a < 0x3080 ∧ a % 8 = 4 then
    let n := (a - 0x3040) / 8
    [(F.WDG_SEAT_STAT_OPEN n, b2n (s.seatOpen n)), (F.WDG_SEAT_STAT_MS n, if s.seatRuns n then s.seatT n * 1000 / 32768 else 0)]
  else if a = 0x3080 then [(F.WDG_EVID_IDX_HELD, s.heldCount 5)]
  else []

/-- Word `j` of the record in slot `k` of the event buffer. -/
def State.bufWord (s : State) (k j : Nat) : Nat :=
  match s.evt.buf[(k + 32 - s.evt.head) % 32]? with
  | some r => leField r.bytes (4 * j) 4
  | none => 0

/-- Those of the event unit and the two-wire controller. -/
def State.viewEvent (s : State) (a : Nat) : List (FRef × Nat) :=
  if a = 0x340C then
    [(F.EVT_STAT_ARMED, b2n s.evt.armed), (F.EVT_STAT_DRAIN, b2n (!s.evt.armed && decide (s.evt.pb ≠ []))), (F.EVT_STAT_BUF, s.evt.buf.length),
     (F.EVT_STAT_HEAD, s.evt.head), (F.EVT_STAT_PB, s.evt.pb.length)]
  else if a = 0x3420 then [(F.EVT_LVL_ACTIVE, s.levelBits)]
  else if a = 0x3438 then
    let c := s.irqCauses
    [(F.EVT_IRQ_STAT_RING, bits c 0 1), (F.EVT_IRQ_STAT_FAULT, bits c 2 1), (F.EVT_IRQ_STAT_BUF, bits c 3 1)]
  else if 0x3600 ≤ a ∧ a < 0x3800 then
    let k := (a - 0x3600) / 4
    [(F.EVT_BUF_BYTES k, s.bufWord (k / 4) (k % 4))]
  else if a = 0x381C then
    [(F.TWB_CTL_STAT_HB, b2n (s.inMode .run && (List.range 8).any fun k => decide (s.get (F.TWB_SAT_STAT_STATE k) = 3)))]
  else []

/-- Those of the verifier, the OTP, the journal and the update block. -/
def State.viewStore (s : State) (a : Nat) : List (FRef × Nat) :=
  if a = 0x3C04 then [(F.SEC_STAT_EPOCH_VALID, b2n s.rtcValid)]
  else if a = 0x3C2C then [(F.SEC_RTC_SEC, s.rtcSec)]
  else if a = 0x4004 then [(F.OTP_SHD_DATA_DATA, tget s.otp.shadow (s.get F.OTP_SHD_IDX_WORD) 0)]
  else if a = 0x4404 then
    [(F.JNL_STAT_JMIN, s.jmin), (F.JNL_STAT_BUSY, b2n s.jnl.busy),
     (F.JNL_STAT_QUEUED, b2n (decide (b2n s.jnl.busy < s.jnl.queue.length)))]
  else if a = 0x4810 ∨ a = 0x4814 then
    let k := (a - 0x4810) / 4
    let b := s.slotState
    [(F.UPD_SLOT_ACTIVE k, b2n (decide (leField b 0 1 = k))), (F.UPD_SLOT_WIP k, b2n (decide (leField b 1 1 % 4 = 1 + 2 * k))),
     (F.UPD_SLOT_INVALID k, b2n (decide (ofLe (digestOf b k) ≠ 0)))]
  else if a = 0x4820 then [(F.UPD_HIST_IDX_HELD, s.heldCount 4)]
  else []

/-- The fields of the register at `a` that are not stored. -/
def State.view (s : State) (a : Nat) : List (FRef × Nat) :=
  s.viewSys a ++ s.viewFrm a ++ s.viewStk a ++ s.viewPower a ++ s.viewFault a ++ s.viewEvent a ++ s.viewStore a

/-- The word that a register shows (R1 to R3). -/
def State.shownWord (s : State) (a : Nat) : Nat := (s.view a).foldl (fun w e => putField w e.1 e.2) (s.rawWord a)

/-- The position that the next commit of an area writes (R448). -/
def State.nextPos (s : State) (kind : Nat) : Nat :=
  match s.newest (area kind) with
  | none => 0
  | some p => (p + 1) % (area kind).count

/-- The journal byte at `a` lies in the record that is being committed. -/
def State.beingWritten (s : State) (a : Nat) : Bool :=
  match s.jnl.busy, s.jnl.queue with
  | true, c :: _ =>
    let x := area c.kind
    let b := x.base + s.nextPos c.kind * x.size
    decide (b ≤ a ∧ a < b + x.size)
  | _, _ => false

/-- A read of `JNL_RD_DATA` (R449, R352): in a record being committed it may be torn, and where the error correction fails it is
undefined: then the word is a free value. -/
def State.journalWord (s : State) : Nat × State :=
  let a := 4 * s.get F.JNL_RD_IDX_WORD
  let bad := s.nv.journalBad.any fun x => decide (x / 8 = a / 8)
  let (v, s1) := if bad ∨ s.beingWritten a then s.draw else (ofLe (readMem journalBlank s.nv.journal a 4), s)
  (v % 2 ^ 32, if bad ∨ s.injects 12 then s1.checkerRaise 12 a else s1)

/-- The checks that a read of the register at `a` makes, which an armed injection may flag (R353): the register bus, the step store and the OTP
shadow. -/
def State.readChecks (s : State) (a : Nat) : State :=
  let s1 := s.injCheck 4 0
  if a = 0x1564 then s1.injCheck 6 (s1.get F.SEQ_STORE_IDX_WORD)
  else if a = 0x4004 then s1.injCheck 5 (s1.get F.OTP_SHD_IDX_WORD)
  else s1

/-- A host access reads the register at `a`: its word, and what the read does (R130, R182, R449). V(`CRES`), which the device samples every
100 µs, is a free value. -/
def State.readAt (s : State) (a : Nat) : Nat × State :=
  if a = 0x1010 then (s.probeLatch.shownWord a, s.probeLatch)
  else if 0x0800 ≤ a ∧ a < 0x0B00 ∧ a % 16 = 0 then
    let s1 := s.diodeSee ((a - 0x0800) / 16)
    (s1.shownWord a, s1)
  else if a = 0x4410 then s.journalWord
  else if a = 0x4404 then
    let (v, s1) := s.draw
    (putField (s.shownWord a) F.JNL_STAT_VCRES v, s1)
  else (s.shownWord a, s)

/-- A host access reads the register at `a`, after the checks that the read makes. -/
def State.readWord (s : State) (a : Nat) : Nat × State := (s.readChecks a).readAt a

end Sys2Proof.Machine
end

