-- ==== Sys2Proof/Machine/RegWrites.lean ====
section
/-! DEFINITION. A host write to a register (R1 to R4, R86, R97, R164), and the commands that write a register with no row of its own. -/

namespace Sys2Proof.Machine

/-- The state after one word of a write, and whether another owner holds the resource that it names (RESOURCE_OWNED of R86). -/
abbrev Wrote := State × Bool

/-- A word to a register whose fields do no more than R1 says: reserved values discard it (R4); else its RW fields take it and its
write-one-to-clear bits clear. Its LK fields take it in RECOVERY only, where RUN has not been entered (R1). -/
def State.plainWrite (s : State) (a v : Nat) : State :=
  if s.wordBad a v then s.setDisc
  else
    let t := s.storeAcc a v .rw
    (if s.inMode .recovery then t.storeAcc a v .lk else t).clearW1c a v

/-- The effect `t` of a word that is taken, unless the word is reserved (R4). -/
def State.unlessBad (s : State) (a v : Nat) (t : State) : Wrote := (if s.wordBad a v then s.setDisc else t, false)

/-- A write to `SYS_GPIO_OUT` (R97): the bits of the host's outputs take it; a change of another bit is refused. -/
def State.gpioOutWrite (s : State) (v : Nat) : Wrote :=
  let mine := maskBy 12 fun k => decide (s.gpioCode k = 2 ∨ s.gpioCode k = 3)
  let old := s.get F.SYS_GPIO_OUT_OUT
  (s.set F.SYS_GPIO_OUT_OUT (andNot old mine ||| (v &&& mine)), decide (andNot ((old ^^^ v) % 4096) mine ≠ 0))

/-- Ones written to `SYS_XOVR_FLAGS` clear flags with their counts (R28). -/
def State.overrunClear (s : State) (v : Nat) : State :=
  let t := s.clearW1c 0x001C v
  forEach ((List.range 14).filter fun x => bitOf v x) (fun x y => y.set (fr (0x20 + 4 * (x / 4)) (8 * (x % 4)) 8 0) 0) t

/-- Words to the system block and the frame timing unit, by `a < 0x0800`. -/
def State.wordSys (s : State) (a v : Nat) (f : Option Nat) : Wrote :=
  if a = 0x001C then (s.overrunClear v, false)
  else if a = 0x020C then ((s.frameHold f).pwrReqWrite v f, false)
  else if a = 0x0304 then s.gpioOutWrite v
  else if a = 0x0400 then s.unlessBad a v (s.frmCfgWrite v)
  else if a = 0x0420 then (s.frmStatClear v, false)
  else if a = 0x0440 then (s.mapCtrlWrite v, false)
  else match slotOf a with
    | some n => s.unlessBad a v (s.slotWrite n v)
    | none => (s.plainWrite a v, false)

/-- Words to the tiles, by `0x0800 ≤ a < 0x0C00`: a cleared `VLIM` clears its count and lets the tile report again (R159). -/
def State.wordTile (s : State) (a v : Nat) : Wrote :=
  let t := s.plainWrite a v
  let n := (a - 0x0800) / 0x10
  (if a < 0x0B00 ∧ a % 0x10 = 0 ∧ bitOf v 3 then (t.set (F.TIL_CNT_VLIM n) 0).setTile n { t.tile n with sent := false } else t, false)

/-- Words to the W1C registers of the stacks and to the global engine registers, by `0x0C00 ≤ a < 0x1400`: a cleared `ROLL` clears its count (R146). -/
def State.wordStk (s : State) (a v : Nat) : Wrote :=
  let t := s.plainWrite a v
  (if a < 0x1000 ∧ a % 0x40 = 0x1C ∧ bitOf v 6 then t.set (F.STK_CNT_ROLL ((a - 0x0C00) / 0x40)) 0 else t, false)

/-- Words to the sequencer and the switched outputs, by `0x1400 ≤ a < 0x1C00`. -/
def State.wordSeq (s : State) (a v : Nat) (f : Option Nat) : Wrote :=
  if a = 0x1404 then ((s.frameHold f).seqReqWrite v f, false)
  else if a = 0x1414 then (s.domFailWrite v, false)
  else if a = 0x1888 ∨ a = 0x188C then
    let t := s.plainWrite a v
    (if t.guardFaulty 0 || t.guardFaulty 1 then t else t.unraise 24, false)
  else if a = 0x1898 then (s.releaseWrite v, false)
  else if 0x1800 ≤ a ∧ a < 0x1820 then (s.ldoCfgWrite ((a - 0x1800) / 4) (s.plainWrite a v), false)
  else (s.plainWrite a v, false)

/-- Words to the power path and the gauge, by `0x1C00 ≤ a < 0x2400`. V(`VBAT_SNS`), on which the charger decides, is a free value here:
CHG_ENABLE_WRITE and CHG_FAULT_CLEAR carry it. -/
def State.wordPower (s : State) (a v : Nat) : Wrote :=
  if a = 0x1C40 then
    let (x, t) := s.draw
    (t.chgCfgWrite v x, false)
  else if a = 0x1C5C then
    let (x, t) := s.draw
    (t.chgFaultWrite v x, false)
  else if a = 0x1C60 then
    let t := s.plainWrite a v
    (if t.flag F.PP_PACK_STAT_BAT_ABSENT then t else t.unraise 28, false)
  else if a = 0x1C00 then ((s.plainWrite a v).treqWrite, false)
  else if a = 0x1C4C then ((s.plainWrite a v).chgCheck, false)
  else (s.plainWrite a v, false)

/-- What becomes of a request that may be refused. -/
def State.orOwned (s : State) (r : Option State) : Wrote :=
  match r with
  | some t => (t, false)
  | none => (s, true)

/-- As `orOwned`, of an operation that holds the access's credit. -/
def State.held (s : State) (f : Option Nat) (r : State → Option State) : Wrote := s.orOwned (r (s.frameHold f))

/-- Words to the converters and the thermal block, by `0x2400 ≤ a < 0x2C00`. -/
def State.wordAdc (s : State) (a v : Nat) (f : Option Nat) : Wrote :=
  if a = 0x2420 then (if v % 128 ≤ 103 then s.held f fun t => t.adcSingle (v % 128) f else (s, false))
  else if 0x2430 ≤ a ∧ a < 0x2440 then
    (if v % 128 ≤ 103 then s.held f fun t => t.adcUrgent ((a - 0x2430) / 4) (v % 128) f else (s, false))
  else if a = 0x2440 then s.orOwned (s.dblCfgWrite v)
  else match winOf a with
    | some (n, thr) => s.orOwned (s.winWrite n thr v)
    | none =>
      if s.wordBad a v then (s.setDisc, false)
      else if s.claimBad a v then (s, true)
      else
        let t := s.plainWrite a (scanWord a v)
        (if a = 0x2800 then t.brdOff else if a = 0x2400 then s.adcCfgWrite t else t, false)

/-- Words to the fault collector and the watchdogs, by `0x2C00 ≤ a < 0x3400`. -/
def State.wordFault (s : State) (a v : Nat) : Wrote :=
  (if a = 0x2C08 then s.pendClear 0 v
   else if a = 0x2C0C then s.pendClear 1 v
   else if a = 0x2C60 then s.injWrite v
   else if a = 0x2C68 then s.logIdxWrite v
   else if a = 0x3004 then s.serviceWrite v
   else if a = 0x3080 then s.evidIdxWrite v
   else s.plainWrite a v, false)

/-- The keys of `EVT_ARM` and `EVT_CLR` (R387, R393). -/
def State.armWrite (s : State) (v : Nat) : State := if v = 0x7E5A0001 then s.armKey else if v = 0x7E5A0000 then s.disarm else s
def State.evtClrWrite (s : State) (v : Nat) : State :=
  if v = 0x7E5A0C01 then s.clearLost else if v = 0x7E5A0C02 then s.clearMasked else if v = 0x7E5A0C04 then s.clearHlCnt else s

/-- Words to the event unit and the two-wire ports, by `0x3400 ≤ a < 0x3C00`. -/
def State.wordEvent (s : State) (a v : Nat) (f : Option Nat) : Wrote :=
  if a = 0x3880 then s.unlessBad a v ((s.frameHold f).hxWrite v f)
  else
    (if a = 0x3400 then s.ringCfgWrite v
     else if a = 0x3408 then s.armWrite v
     else if a = 0x3414 then s.consWrite (v % 65536)
     else if a = 0x3418 then s.maskWrite (v % 2 ^ 19)
     else if a = 0x341C then s.lvlEnWrite (v % 256)
     else if a = 0x3424 then s.ackWrite (v % 256)
     else if a = 0x3430 then s.evtClrWrite v
     else s.plainWrite a v, false)

/-- Words to the verifier, the OTP, the journal and the update block, from 0x3C00 on. The buffers and the programming registers do not
take a word while their block is busy (R426, R435, R462). -/
def State.wordStore (s : State) (a v : Nat) (f : Option Nat) : Wrote :=
  if a = 0x4020 then ((s.frameHold f).otpProgWrite v f, false)
  else
    (if a = 0x3C08 then s.chalWrite v
     else if a = 0x3C20 then s.submitWrite v f
     else if 0x3C40 ≤ a ∧ a < 0x3CC0 ∧ s.flag F.SEC_RESULT_BUSY then s.incSatF F.SEC_CNT_BUSYW
     else if a = 0x4008 then s.otpReadWrite v
     else if (a = 0x4018 ∨ a = 0x401C) ∧ s.flag F.OTP_PROG_STAT_BUSY then s
     else if a = 0x4804 then s.updCtrlWrite v
     else if a = 0x4820 then s.histIdxWrite v
     else if 0x4900 ≤ a ∧ a < 0x4A00 ∧ s.updBusy then s.incSatF F.UPD_STAT_DISC
     else if a = 0x4A00 then s.updBlkWrite v f
     else s.plainWrite a v, false)

/-- One word of a host write to the register at `a`, other than a mailbox word of a stack and `SYS_RESET`; `f` is the access that carries
it (R1 to R4, R86). -/
def State.hostWord (s : State) (a v : Nat) (f : Option Nat) : Wrote :=
  if s.ownerBad a then (s, true)
  else if a < 0x0800 then s.wordSys a v f
  else if a < 0x0C00 then s.wordTile a v
  else if a < 0x1400 then s.wordStk a v
  else if a < 0x1C00 then s.wordSeq a v f
  else if a < 0x2400 then s.wordPower a v
  else if a < 0x2C00 then s.wordAdc a v f
  else if a < 0x3400 then s.wordFault a v
  else if a < 0x3C00 then s.wordEvent a v f
  else s.wordStore a v f

/-- A host write in progress: the state so far, whether a word was refused, the words for stacks, and a key for `SYS_RESET`. -/
structure Writing where
  st : State
  owned : Bool
  stk : List (Nat × Nat × Nat)
  reset : Option Nat

/-- The next word of a host write, which the register bus has delivered. -/
def Writing.put (w : Writing) (a v : Nat) (f : Option Nat) : Writing :=
  if a = 0x0008 then { w with reset := some v }
  else match stackOf a, hasAcc a .rw with
    | some (n, _), true =>
      if w.st.tileCount n = 0 then w
      else match w.st.stkVerdictIn w.stk n a v with
        | .ok => { w with stk := w.stk ++ [(n, a, v)] }
        | .discard => { w with st := w.st.setDisc }
        | .owned => { w with owned := true }
    | _, _ =>
      let r := w.st.hostWord a v f
      { w with st := r.1, owned := w.owned || r.2 }

/-- The next word of a host write, with the check of the register bus (R353). -/
def Writing.word (w : Writing) (a v : Nat) (f : Option Nat) : Writing := { w with st := w.st.injCheck 4 0 }.put a v f

/-- The words of a write on stack `n` make one mailbox operation (R164, R372). -/
def State.stackWords (s : State) (l : List (Nat × Nat × Nat)) (f : Option Nat) (n : Nat) : State :=
  let m := l.filterMap fun x => if x.1 = n then some x.2 else none
  if m = [] then s else (s.frameHold f).mbxPush ⟨n, m, f⟩

/-- A host write of words to registers, in the order of their addresses (R372). A key for `SYS_RESET` acts after them all. -/
def State.hostWrite (s : State) (l : List (Nat × Nat)) (f : Option Nat) : Writing :=
  let w := l.foldl (fun (w : Writing) x => w.word x.1 x.2 f) ⟨s, false, [], none⟩
  { w with st := forEach (List.range 16) (fun n t => t.stackWords w.stk f n) w.st }

/-- The state after a host write, with the reset that it commands. -/
def Writing.done (w : Writing) : State :=
  match w.reset with
  | some v => w.st.resetWrite v
  | none => w.st

/-- REGISTER_WRITE: one word is written to the register at `addr`, which is word-aligned (R1). -/
def execRegisterWrite (addr : BitVec 16) (v : Word) (s : State) : Out State :=
  .next (if s.writeOk addr.toNat ∧ addr.toNat % 4 = 0 then (s.hostWrite [(addr.toNat, v.toNat)] none).done else s)

/-- SYS_GPIO_OUT_WRITE (R97). -/
def execSysGpioOutWrite (v : Word) (s : State) : Out State :=
  .next (s.bus 0x0304 fun t => (t.gpioOutWrite v.toNat).1)

/-- TWB_HX_START: a write to `TWB_HX_CTRL` (R406, R408). -/
def execTwbHxStart (v : Word) (s : State) : Out State :=
  .next (s.bus 0x3880 fun t => if t.ownerBad 0x3880 then t else (t.unlessBad 0x3880 v.toNat (t.hxWrite v.toNat none)).1)

end Sys2Proof.Machine
end

