-- ==== Sys2Proof/Machine/HostLink.lean ====
section
/-! DEFINITION. The host link's frames (R369 to R378). -/

namespace Sys2Proof.Machine

/-- The addresses of `n` words from `a` on (R370). -/
def wordAddrs (a n : Nat) : List Nat := (List.range n).map fun k => a + 4 * k

/-- The blocks of a list of addresses, a bit per block. -/
def blocksOf (l : List Nat) : Nat := maskOf (l.map fun a => a / 0x400)

/-- An access is admitted: it takes a host-link credit, whose counter an armed injection finds in error (R11, R353, R371). -/
def State.admitFrame (s : State) (write : Bool) (l : List Nat) : State × Nat :=
  let f : Frame := ⟨s.hl.nextId, write, blocksOf l, 1, 0, none⟩
  (({ s with hl := { s.hl with frames := s.hl.frames ++ [f], nextId := s.hl.nextId + 1 } } : State).injCheck 8 0, s.hl.nextId)

/-- A READ waits for an earlier WRITE to one of its blocks (R372). -/
def State.readBlocked (s : State) (l : List Nat) : Bool :=
  s.hl.frames.any fun x => x.write && decide (x.blocks &&& blocksOf l ≠ 0)

/-- The words are aligned and inside the register space (R375). -/
def spanOk (a n : Nat) : Bool := decide (a % 4 = 0 ∧ a + 4 * (n - 1) ≤ 0xFFFC)

/-- The device state refuses the access (R375, R405, R466). -/
def State.refuses (s : State) (write : Bool) (l : List Nat) : Bool :=
  match s.dev.mode with
  | .black => write && !(l.all fun a => decide (a = 0x0008))
  | .recovery => !(l.all fun a => if write then recoveryWrite a else recoveryRead a)
  | _ => false

/-- One frame or access more has been executed (R374). -/
def State.countFrame (s : State) : State := { s with hl := { s.hl with fseq := (s.hl.fseq + 1) % 256 } }

/-- The words that a READ fetches, in order. -/
def State.fetchWords (s : State) : List Nat → List Nat × State
  | [] => ([], s)
  | a :: r =>
    let (v, s1) := s.readWord a
    let (l, s2) := s1.fetchWords r
    (v :: l, s2)

/-- An access that is not executed gives its credit back (R371). -/
def State.frameEnd (s : State) (i : Nat) : State := s.frameDone (some i)

/-- A frame in RUN, BLACK or RECOVERY finds no credit (R12, R377). -/
def State.answerBusy (s : State) (zeros : List Nat) : State :=
  ((s.incSatF F.EVT_HL_CNT_BUSY).set F.SYS_CREDIT_WAIT_HL 1).answer .busy zeros

/-- A frame whose CRC does not check (R377). -/
def State.answerCrc (s : State) (a : Nat) (zeros : List Nat) : State :=
  ((s.incSatF F.EVT_HL_CNT_CRC).raise 35 a).answer .crcError zeros

/-- The status of an admitted frame before its execution (R375): none where it is executed or, for a READ, may be LATE. `known` says that the
device knows its command byte. -/
def State.frameStatus (s : State) (write known : Bool) (a n : Nat) (crcOk : Bool) : Option Status :=
  if !known ∨ n < 1 ∨ 64 < n then some .badFrame
  else if !crcOk then some .crcError
  else if !spanOk a n then some .badFrame
  else if s.refuses write (wordAddrs a n) then some .refused
  else none

/-- The zero words with which a READ that is not executed is answered. -/
def zeroWords (n : Nat) : List Nat := if n ≤ 64 then List.replicate n 0 else []

/-- A frame that is admitted but not executed: answered, and its credit returned (R371). -/
def State.answerRefused (s : State) (i : Nat) (c : Status) (a : Nat) (zeros : List Nat) : State :=
  (if c = .crcError then s.answerCrc a zeros else s.answer c zeros).frameEnd i

/-- A READ executes, or is LATE (R371, R372). -/
def State.hlFetch (s : State) (i : Nat) (l : List Nat) : State :=
  if s.readBlocked l then ((s.incSatF F.EVT_HL_CNT_LATE).answer .late (l.map fun _ => 0)).frameEnd i
  else
    let d := s.countFrame.fetchWords l
    (d.2.answer .ok d.1).frameEnd i

/-- A WRITE executes (R371, R372). It is answered now, or when its conversion requests have entered their queue (R316). The reset that it may command
begins after that. -/
def State.hlStore (s : State) (i : Nat) (l : List (Nat × Nat)) : State :=
  let w := s.countFrame.hostWrite l (some i)
  ({ w with st := (w.st.frameAnswer i (if w.owned then .owned else .ok)).frameEnd i } : Writing).done

/-- A frame comes in a state in which the device answers at once and admits nothing, or not at all (R370, R371, R376). In PARK the falling
edge of `HL_CS_N` is wake source 7. -/
def State.hlIdle (s : State) (zeros : List Nat) (retOk : Bool) : State :=
  if s.dev.stage = .waiting then s
  else match s.dev.mode with
    | .boot => s.answer .booting zeros
    | .park => (s.answer .parked zeros).wakeFire 7 retOk
    | _ => s

/-- Frames are admitted: RUN, BLACK and RECOVERY (R371). -/
def State.hlLive (s : State) : Bool := (s.inMode .run || s.inMode .black || s.inMode .recovery) && decide (s.dev.stage ≠ .waiting)

/-- A frame comes: `t` is what it does where the device decides at its command; one that began before RUN entry, or while PARKED held, is answered
so throughout, and takes no credit (R72, R371, R376). -/
def State.frameFrom (s : State) (start : FrameStart) (zeros : List Nat) (retOk : Bool) (t : State) : State :=
  if !s.hlLive then s.hlIdle zeros retOk
  else match start with
    | .boot => s.answer .booting zeros
    | .park => s.answer .parked zeros
    | .here => t

/-- HL_READ: a frame with command 0x52 (R369 to R378), or one whose command byte `cmd` the device does not know, which is handled alike up to its
refusal; `crc` is the request CRC that arrived, and `start` says where the frame began. `retOk` says how the check of the retention data ends if the
frame wakes the device from PARK. -/
def execHlRead (start : FrameStart) (cmd : Byte) (addr : BitVec 16) (n : BitVec 8) (crc : BitVec 16) (retOk : Bool) (s : State) : Out State :=
  let a := addr.toNat
  let k := n.toNat
  let zs := if cmd = 0x52 then zeroWords k else []
  .next (s.frameFrom start zs retOk (if s.freeHl = 0 then s.answerBusy zs
    else
      let x := s.admitFrame false (wordAddrs a k)
      match x.1.frameStatus false (decide (cmd = 0x52)) a k (decide (crc16 ([cmd] ++ beBytes 2 a ++ [byte k]) = crc.toNat)) with
      | some c => x.1.answerRefused x.2 c a zs
      | none => x.1.hlFetch x.2 (wordAddrs a k)))

/-- HL_WRITE: a frame with command 0x57 (R369 to R378). `data` holds the n data words as the device clocks them; a missing one is zero. -/
def execHlWrite (start : FrameStart) (addr : BitVec 16) (n : BitVec 8) (data : List Word) (crc : BitVec 16) (retOk : Bool) (s : State) : Out State :=
  let a := addr.toNat
  let k := n.toNat
  let ws := (List.range k).map fun j => (data.getD j 0).toNat
  .next (s.frameFrom start [] retOk (if s.freeHl = 0 then s.answerBusy []
    else
      let x := s.admitFrame true (wordAddrs a k)
      match x.1.frameStatus true true a k (decide (crc16 ([0x57] ++ beBytes 2 a ++ [byte k] ++ ws.flatMap (beBytes 4)) = crc.toNat)) with
      | some c => x.1.answerRefused x.2 c a []
      | none => x.1.hlStore x.2 ((wordAddrs a k).zip ws)))

/-- The rest of the response in progress, after its first `k` bytes, is lost (R373); an answer that was still to come is lost whole. A status word that was
not sent to its end does not end `DISC` (R374). -/
def State.cutResponse (s : State) (k : Nat) : State :=
  if s.hl.frames.any fun x => x.owed.isSome then
    { s with hl := { s.hl with frames := s.hl.frames.map fun x => { x with owed := none } } }
  else
    let held := decide (k < 4) && bitOf (s.hl.response.getD 2 0).toNat 2
    { s with hl := { s.hl with response := s.hl.response.take k, disc := s.hl.disc || held } }

/-- HL_FRAME_ABORT: `HL_CS_N` rises before the end of the request CRC (R373), in PARK after its fall has been wake source 7; or, with `cut`, in the
turnaround or the response of the last frame, after that many bytes of its response. -/
def execHlFrameAbort (cut : Option Nat) (retOk : Bool) (s : State) : Out State :=
  .next (match cut with
    | some k => s.cutResponse k
    | none =>
      if s.dev.stage = .waiting then s
      else if s.hlLive ∨ s.inMode .boot then s.incSatF F.EVT_HL_CNT_ABORT
      else if s.inMode .park then (s.incSatF F.EVT_HL_CNT_ABORT).wakeFire 7 retOk
      else s)

end Sys2Proof.Machine
end

