-- ==== Sys2Proof/Machine/Device.lean ====
section
/-! DEFINITION. What BOOT decides (R62 to R68), RUN entry and RECOVERY entry (R19, R73, R458, R465). -/

namespace Sys2Proof.Machine

/-- The attached memory answers the read command of slot `k`. -/
def bootAnswers (v : BootView) (k : Nat) : Bool := if k = 0 then v.answers0 else v.answers1

/-- BOOT enters RECOVERY at once and tries no slot (R62, R63). -/
def State.noSlots (s : State) : Bool :=
  s.dev.strapSeen || s.dev.toRecovery || decide (bits (s.get F.SYS_OTP_ALARM_REGION) 0 2 ≠ 0)

/-- The slot that BOOT tries first (R63). -/
def State.firstSlot (s : State) : Nat := if leField s.slotState 0 1 = 1 then 1 else 0

/-- BOOT commits a slot-state record that marks slot `k` invalid (R60, R67), or the journal refuses it for low reserve (R451). -/
def State.markSlot (s : State) (k : Nat) (digest : List Byte) (vcres : Nat) : State :=
  if vcres < s.jmin then
    ((s.incSatF F.JNL_CNT_REFUSED).set F.JNL_STAT_REFUSED_SEEN 1).emit 0x11 1 [(3, 1), (0, 1), (vcres, 2), (s.jmin, 2)]
  else
    let b := s.slotState
    let d := fun i => if i = k then padTo 32 digest else digestOf b i
    let s1 := s.commitBytes 3 (slotBody (leField b 0 1) (leField b 1 1) (d 0) (d 1) (leField b 68 4))
    ({ s1 with image := { s1.image with marked := setBit s1.image.marked k } } : State).incWrapF F.JNL_CNT_COMMITS

/-- A slot fails with `f` (R64, R67). -/
def State.slotFailed (s : State) (k : Nat) (f : SlotFail) (v : BootView) : State :=
  let s1 := ((s.set (F.SYS_LOAD_ERR_CAUSE k) f.cause).set (F.SYS_LOAD_ERR_CLASS k) f.cls).set (F.SYS_LOAD_ERR_INDEX k) f.idx
  if 5 ≤ f.cause ∧ f.cause ≤ 0x0E then s1.markSlot k (sha256 (s1.slotBytes k 0 512)) v.vcres else s1

/-- The header's rollback count and firmware version of a slot that BOOT has read. -/
def State.slotSeen (s : State) (k : Nat) (v : BootView) : State :=
  if bootAnswers v k then
    let h := s.slotBytes k 0 512
    (s.set (F.UPD_SLOT_ROLLBACK k) (hdrRollback h)).set (F.UPD_SLOT_FW k) (leField h 15 1)
  else s

/-- The slots `l` are tried in turn: the machine after the tries, and the slot that passes with its image applied, if one does (R63, R64). -/
def State.trySlots (s : State) (v : BootView) : List Nat → State × Option Nat
  | [] => (s, none)
  | k :: r =>
    match (s.slotSeen k v).slotCheck k (bootAnswers v k) with
    | .ok t => (t, some k)
    | .error f => State.trySlots ((s.slotSeen k v).slotFailed k f v) v r

/-- The outcome of BOOT: the machine after its tries and the slot that runs; none is RECOVERY (R63, R68). -/
def State.bootChoice (s : State) (v : BootView) : State × Option Nat :=
  if s.noSlots then (s, none) else s.trySlots v [s.firstSlot, 1 - s.firstSlot]

/-- BOOT ends: it is in progress, and no word of the OTP is being programmed. -/
def State.bootEnds (s : State) : Bool := s.inMode .boot && decide (s.dev.stage = .none) && s.aoGood && s.otp.prog.isNone

/-- The code of the abort entry that R458 gives. -/
def State.abortCode (s : State) : Nat :=
  match s.wdg.latch with
  | some l => if bitOf (leField l 3 1) 4 then 4 else if s.flag F.SYS_RESET_CAUSE_POR then 5 else 6
  | none => if s.flag F.SYS_RESET_CAUSE_POR then 5 else 6

/-- The abort entry of a download that a reset ended, and the record that clears its flag (R458). The image's rollback count and firmware
version, which the manual does not say to be kept, are free values. -/
def State.catchAbort (s : State) : State :=
  let b := s.slotState
  let w := leField b 1 1
  if bitOf w 0 then
    let (r, s1) := s.draw
    let (f, s2) := s1.draw
    let s3 := s2.historyOf s.abortCode (bits w 1 1) 0 (r % 256) (f % 2 ^ 32) 0 .none
    s3.slotCommit (slotBody (leField b 0 1) 0 (digestOf b 0) (digestOf b 1) (leField b 68 4)) .none
  else s

/-- MARKED entries, slot by slot (R458). The setup section of an image that failed is not known. -/
def State.catchMarks (s : State) : State :=
  forEach [0, 1] (fun k t =>
    if bitOf t.image.marked k then
      let h := t.slotBytes k 0 512
      t.historyOf 0xB k (t.get (F.SYS_LOAD_ERR_CAUSE k)) (hdrRollback h) (hdrFw h) 0 .none
    else t) s

/-- The history entries, evidence and fault-log bodies that BOOT could not write (R60, R351, R366, R458). -/
def State.catchUp (s : State) : State :=
  let s1 := s.catchAbort.catchMarks
  let s2 := if s1.flag F.SYS_BOOT_STATUS_FALLBACK then
      s1.historyOf 0xA (s1.get F.SYS_STATE_SLOT) 0 s1.image.rollback s1.image.fwVersion s1.image.setupId .none
    else s1
  s2.evidencePush.logTokensFill

/-- Bytes as 32-bit words, least significant byte first (R6). -/
def leWords : List Byte → List Nat
  | a :: b :: c :: d :: r => ofLe [a, b, c, d] :: leWords r
  | _ => []

/-- The engine microcode of slot `k`: 4096 words from offset E of the image (R179, R453). -/
def State.microWords (s : State) (k : Nat) : List Nat := leWords (s.slotBytes k (leField (s.slotBytes k 48 4) 0 4) 16384)

/-- The image of slot `k` is the running one (R68, R76, R454): its firmware and both microcodes stand in their memories (R455), and the verifier holds
its owner key (R429). -/
def State.runImage (s : State) (k : Nat) (v : BootView) : State :=
  let h := s.slotBytes k 0 512
  let id := leField (s.slotBytes k (hdrSetup h) 16) 12 4
  let e := leField h 48 4
  let g := leField h 52 4
  let s1 := { s with
    image := { s.image with
      rollback := hdrRollback h, fwVersion := hdrFw h, setupId := id,
      firmware := s.slotBytes k 512 (e - 512), gaugeCode := s.slotBytes k g (hdrSetup h - g) },
    sec := { s.sec with ownerKey := slice h 192 64 } }
  let s2 := (((s1.set F.SYS_STATE_SLOT k).put F.SYS_BOOT_STATUS_FALLBACK (decide (k ≠ s.firstSlot))).set F.SYS_SETUP_ID_ID id).set
    F.SYS_BOOT_TIME_US (min ((s.now - s.dev.bootStart) / engPerUs) 1048575)
  let s3 := ((((s2.put F.SYS_BOOT_STATUS_OWNER_OPEN s.ownerOpen).set F.SYS_ID_FW (leField h 15 1)).set F.ENG_ID_MVER v.mver.toNat).put
    F.ENG_ID_LOADED v.microcode.isNone)
  { s3 with eng := { s3.eng with ucode := s.microWords k } }

/-- What RUN entry starts in the blocks (R73, R102, R110, R185, R266, R276, R303, R305, R438). A pack that stayed present through HIBERNATE has passed its
qualification (R307). -/
def State.runBlocks (s : State) : State :=
  let (vbat, s1) := s.draw
  let s2 := s1.chgEnable false vbat
  let s3 := forEach (List.range 16) (fun n t => if t.tileCount n = 0 then t else t.srcTake n) s2
  let s4 := s3.setFrm { s3.frm with persistent := s3.get F.FRM_BMAP_NEXT_LO_SEG + 2 ^ 32 * s3.get F.FRM_BMAP_NEXT_HI_SEG }
  let s5 := s4.runStart.secRestore.treqWrite
  (s5.setGg { s5.gg with
    ran := true, storedAt := s5.now, qualified := s5.gg.qualified || s5.flag F.PP_PACK_STAT_PRESENT,
    idMatch := s5.gg.idMatch || (s5.flag F.PP_PACK_STAT_PRESENT && s5.flag F.PP_PACK_STAT_ID_MATCH) }).gaugeStartCheck

/-- The power-up program starts, or waits for `TOFF_MIN` (R229); the level of `ON_REQ` counts as an edge (R223). `onReq` is high. -/
def State.runProgram (s : State) (onReq : Bool) : State :=
  let s1 := s.upOrDwell 0
  let s2 := if s1.get F.SEQ_CFG_ON_MODE = 0 ∧ ¬ s1.flag F.SEQ_CFG_SAT_MODE ∧ ¬ s1.onActive onReq then s1.takePower 2 else s1
  if s2.flag F.THM_STAT_LATCH then s2.pmidRequest else s2

/-- What BOOT and the tests at RUN entry found is raised together (R62, R179, R345, R431, R440). -/
def State.runRaises (s : State) (v : BootView) : State :=
  let al := s.get F.SYS_OTP_ALARM_REGION
  let s1 := if s.dev.xtalFailed then s.xtalMark else s
  let s2 := match v.microcode with
    | some a => s1.engHalt a 1
    | none => s1
  let s3 := if v.verifierOk then s2 else s2.set F.SEC_STAT_VFAIL 1
  let s4 := if v.trngOk then s3 else s3.set F.SEC_STAT_TFAIL 1
  s4.raiseAll ((if al ≠ 0 then [(0, al)] else []) ++ (match v.microcode with
      | some a => [(7, a)]
      | none => []) ++
    (if s.dev.xtalFailed && !s.active 10 then [(10, 0)] else []) ++ (if v.trngOk then [] else [(37, 0)]) ++ (if v.verifierOk then [] else [(38, 0)]))

/-- RUN_ENTRY: BOOT ends with an image applied (R19, R73), no sooner than its OTP shadowing (R61). Nothing happens where BOOT's checks do not pass a
slot. -/
def execRunEntry (v : BootView) (s : State) : Out State :=
  .next (if s.bootEnds then
    match (s.due s.dev.shadowAt).bootChoice v with
    | (t, some k) =>
      let s1 := (t.setMode .run).runImage k v
      let s2 := { s1 with dev := { s1.dev with runEntry := some s1.now, runSinceReset := true } }
      ((s2.runBlocks.runProgram v.onReq).catchUp).runRaises v
    | (_, none) => s
  else s)

/-- RECOVERY_ENTRY: BOOT ends with no image (R63, R465). `SYS_BOOT_TIME.US` is the time to RUN entry, which there is none of: it keeps its Reset
value 0 (DESIGN CHOICE, log entry 40). -/
def execRecoveryEntry (v : BootView) (s : State) : Out State :=
  .next (if s.bootEnds then
    match (s.due s.dev.shadowAt).bootChoice v with
    | (t, none) =>
      let s1 := t.setMode .recovery
      let s2 := { s1 with dev := { s1.dev with recoveryEntry := s1.now, hostRstReleased := false } }
      let s3 := s2.coreWdgRestart.catchUp
      if s3.dev.xtalFailed && !s3.active 10 then s3.xtalSet else s3
    | (_, some _) => s
  else s)

end Sys2Proof.Machine
end

