-- ==== Sys2Proof/Machine/Target.lean ====
section
/-! DEFINITION. The two-wire target port (R401 to R405, R413, R414): its register accesses and commands, and their waits for a credit. -/

namespace Sys2Proof.Machine

/-- The target port has acknowledged the transaction's address: it began in RUN or BLACK, 200 µs or more after the address match that woke the device
(R72, R74, R401). -/
def State.targetAcks (s : State) (start : FrameStart) : Bool := s.targetOn && decide (start = .here)

/-- The address byte of the target port with direction `r`. -/
def State.targetByte (s : State) (r : Nat) : Byte := byte (2 * s.get F.TWB_TGT_CFG_ADDR + r)

/-- The status word of an access is kept for STATUS (R403). -/
def State.keepStatus (s : State) (c : Status) : State := { s with twt := { s.twt with word := some (s.statusWord c) } }

/-- The target port sends `body` after the request bytes `req`, with the PEC over the whole transaction (R396, R402). -/
def State.targetSend (s : State) (req body : List Byte) : State :=
  let l := [s.targetByte 0] ++ req ++ [s.targetByte 1] ++ body
  { s with twt := { s.twt with response := body ++ [byte (crc8 l)] }, hl := { s.hl with disc := false } }

/-- The status of an access of n words on the target port before its execution (R375, R402). -/
def State.targetStatus (s : State) (write : Bool) (a n : Nat) : Option Status :=
  if n < 1 ∨ 7 < n ∨ !spanOk a n then some .badFrame
  else if s.refuses write (wordAddrs a n) then some .refused
  else none

/-- The words of an access on the target port are written (R402, R404). The reset that they may command begins after its status is kept. -/
def State.targetStore (s : State) (i : Nat) (l : List (Nat × Nat)) : State :=
  let w := s.hostWrite l (some i)
  ({ w with st := (w.st.keepStatus (if w.owned then .owned else .ok)).frameEnd i } : Writing).done

/-- The PEC byte `p` does not match the bytes `l` that follow the address byte (R396). -/
def State.pecBad (s : State) (l : List Byte) (p : Byte) : Bool := decide (crc8 (s.targetByte 0 :: l) ≠ p.toNat)

/-- The checked words of a register write, which holds credit `i`, are written, or refused (R375, R405). -/
def State.targetApply (s : State) (i a : Nat) (data : List Nat) : State :=
  match s.targetStatus true a data.length with
  | some c => (s.keepStatus c).frameEnd i
  | none => s.targetStore i ((wordAddrs a data.length).zip data)

/-- A register write that finds a credit (R402 to R405); one that is not executed returns it at the stop. Fewer words than its count gives mean an unexpected
stop. -/
def State.targetWrite (s : State) (a : Nat) (data : List Nat) (pec : Option Byte) (count : Nat) : State :=
  let x := s.admitFrame true (wordAddrs a data.length)
  let abort := (x.1.incSatF F.TWB_TGT_CNT_ABORT).frameEnd x.2
  if count < 6 ∨ 30 < count ∨ count % 4 ≠ 2 then (x.1.keepStatus .badFrame).frameEnd x.2
  else if count ≠ 2 + 4 * data.length then abort
  else match pec with
    | some p =>
      if s.pecBad ([0x10, byte count] ++ leBytes 2 a ++ data.flatMap (leBytes 4)) p then
        ((x.1.incSatF F.TWB_TGT_CNT_PEC).keepStatus .crcError).frameEnd x.2
      else x.1.targetApply x.2 a data
    | none => if s.flag F.TWB_TGT_CFG_PEC_REQ then abort else x.1.targetApply x.2 a data

/-- The answer to a read on the target port: the count, the status word and the words (R402, R403); its credit returns. -/
def State.targetAnswer (s : State) (i : Nat) (req : List Byte) (c : Status) (d : List Nat) : State :=
  ((s.keepStatus c).targetSend req (byte (4 + 4 * d.length) :: leBytes 4 (s.statusWord c) ++ d.flatMap (leBytes 4))).frameEnd i

/-- The words of a read on the target port are fetched and sent. -/
def State.targetFetch (s : State) (i : Nat) (req : List Byte) (l : List Nat) : State :=
  let d := s.fetchWords l
  d.2.targetAnswer i req .ok d.1

/-- A register read that finds a credit (R402 to R404). `late` says that the stretch of the transaction has reached 1 ms. -/
def State.targetRead (s : State) (a k : Nat) (late : Bool) : State :=
  let req := [0x11, 3] ++ leBytes 2 a ++ [byte k]
  let l := wordAddrs a k
  let x := s.admitFrame false l
  match x.1.targetStatus false a k with
  | some c => x.1.targetAnswer x.2 req c (if k ≤ 7 then List.replicate k 0 else [])
  | none =>
    if late || x.1.readBlocked l then x.1.targetAnswer x.2 req .late (l.map fun _ => 0)
    else x.1.targetFetch x.2 req l

/-- The credit that `o` asks for is free (R404, R414). -/
def State.targetFree (s : State) (o : TgtOp) : Bool :=
  match o with
  | .prog _ => decide (s.seq.queue.length < 8 ∧ s.seq.qwait = [])
  | _ => decide (s.freeHl ≠ 0)

/-- What asked for a credit has it and goes on. A request is dropped while the master is lost (R414). -/
def State.targetRun (s : State) (o : TgtOp) : State :=
  match o with
  | .write a d p c => s.targetWrite a d p c
  | .read a n late => s.targetRead a n late
  | .prog r => if s.flag F.TWB_SLV_STAT_LOST then s.incSatF F.TWB_SLV_STAT_DROP else s.seqPush r none

/-- What asks for a credit goes on at once, or waits for it with SCL held low (R404, R414). -/
def State.targetTry (s : State) (o : TgtOp) : State :=
  if s.targetFree o then s.targetRun o
  else ({ s with twt := { s.twt with wait := some (o, s.now) } } : State).set (match o with
    | .prog _ => F.SYS_CREDIT_WAIT_SEQ
    | _ => F.SYS_CREDIT_WAIT_HL) 1

/-- No credit has come free for 1 ms: the next byte is not acknowledged, and a register access ends with status BUSY (R375, R402 to R404); the PEC byte of
PROG_START is not acknowledged (R414). -/
def State.targetLate (s : State) (o : TgtOp) : State :=
  let t := s.incSatF F.TWB_TGT_CNT_NOCRED
  match o with
  | .prog _ => t
  | _ => (t.incSatF F.EVT_HL_CNT_BUSY).keepStatus .busy

/-- What waits on the target port goes on once its credit is free. -/
def State.targetGo (s : State) : State :=
  match s.twt.wait with
  | some (o, _) =>
    if s.targetOn && s.targetFree o then ({ s with twt := { s.twt with wait := none } } : State).targetRun o else s
  | none => s

/-- What waits on the target port goes on, or its millisecond ends. Nothing else happens on the port before. -/
def State.targetSettle (s : State) : State :=
  let t := s.targetGo
  match t.twt.wait with
  | some (o, at_) =>
    let u : State := { t with twt := { t.twt with wait := none } }
    if t.targetOn then (u.due (at_ + engPerMs)).targetLate o else u
  | none => t

/-- REG_WRITE: command 0x10 (R402 to R405). It asks for its credit at the command byte. `count` is the count byte that came, and `pec` the PEC byte, absent
where a stop came in its place. -/
def execRegWrite (start : FrameStart) (addr : BitVec 16) (data : List Word) (pec : Option Byte) (count : Byte) (s : State) : Out State :=
  let s0 := s.targetSettle
  .next (if s0.targetAcks start then s0.targetTry (.write addr.toNat (data.map fun d => d.toNat) pec count.toNat) else s0)

/-- REG_READ: command 0x11 (R402 to R404). `late` says that the stretch of the transaction has reached 1 ms. -/
def execRegRead (start : FrameStart) (addr : BitVec 16) (n : BitVec 8) (late : Bool) (s : State) : Out State :=
  let s0 := s.targetSettle
  .next (if s0.targetAcks start then s0.targetTry (.read addr.toNat n.toNat late) else s0)

/-- STATUS: command 0x12 (R402, R403). Before the first access the word is a free value. -/
def execStatus (start : FrameStart) (s : State) : Out State :=
  let s0 := s.targetSettle
  .next (if s0.targetAcks start then
    let (v, s1) := match s0.twt.word with
      | some w => (w, s0)
      | none => s0.draw
    s1.targetSend [0x12] (4 :: leBytes 4 v)
  else s0)

/-- HEARTBEAT: a command 0x20 on the target port with its PEC byte (R396, R402, R413). -/
def execHeartbeat (start : FrameStart) (arg : BitVec 16) (pec : Byte) (s : State) : Out State :=
  let s0 := s.targetSettle
  .next (if s0.watching ∧ start = .here then
    if s0.pecBad (0x20 :: leBytes 2 arg.toNat) pec then s0.incSatF F.TWB_TGT_CNT_PEC
    else
      let a := arg.toNat % 256
      let s1 := (((s0.set F.TWB_SLV_STAT_LAST a).set F.TWB_SLV_STAT_SEEN 1).set F.TWB_SLV_STAT_MISS 0)
      let s2 := { s1 with twt := { s1.twt with winEnd := s1.now + 150 * engPerMs } }
      if s2.flag F.TWB_SLV_STAT_LOST then (s2.set F.TWB_SLV_STAT_LOST 0).emit 0xE 3 [(a, 1)] else s2
  else s0)

/-- The request of a master's program number, as the pip scheduler's row of R222 maps it (R240). -/
def programRequest (p : Nat) : Nat :=
  match p with
  | 0 => 1
  | 1 => 2
  | 2 => 3
  | _ => 0x10 + p

/-- PROG_START: a command 0x21 on the target port with its PEC byte (R396, R402, R414). While the master is lost it is dropped. It asks for a sequencer credit
at its PEC byte. -/
def execProgStart (start : FrameStart) (arg : BitVec 16) (pec : Byte) (s : State) : Out State :=
  let s0 := s.targetSettle
  .next (if s0.watching ∧ start = .here then
    if s0.pecBad (0x21 :: leBytes 2 arg.toNat) pec then s0.incSatF F.TWB_TGT_CNT_PEC
    else if s0.flag F.TWB_SLV_STAT_LOST then s0.incSatF F.TWB_SLV_STAT_DROP
    else if 8 ≤ arg.toNat then s0
    else s0.targetTry (.prog (programRequest arg.toNat))
  else s0)

/-- TARGET_CREDIT_TIMEOUT: what waits on the target port has found no credit for 1 ms (R404, R414). -/
def execTargetCreditTimeout (s : State) : Out State := .next s.targetSettle

/-- TARGET_TRANSACTION_ABORT: a target transaction ends in an unexpected stop or start, and is not executed (R405). -/
def execTargetTransactionAbort (s : State) : Out State :=
  let s0 := s.targetSettle
  .next (if s0.targetOn then s0.incSatF F.TWB_TGT_CNT_ABORT else s0)

/-- The block idles for one period of 6.25 ns, in which the pip counter goes on (DESIGN CHOICE, log entry 1); what waits on the target port for a credit that
has come free goes on. -/
def State.idle (s : State) : State := (s.pass 1).targetGo

end Sys2Proof.Machine
end

