-- ==== Sys2Proof/Machine/Dispatch.lean ====
section
/-! DEFINITION. The dispatch: one arm per command. -/

namespace Sys2Proof.Machine

def exec (i : Instr) (s : State) : Host.Outcome State Fault Refusal :=
  match i with
  | .vaoGood strap pack => Sys2Proof.Machine.execVaoGood strap pack s
  | .vaoGoodLoss => Sys2Proof.Machine.execVaoGoodLoss s
  | .pmidCoreReady strap => Sys2Proof.Machine.execPmidCoreReady strap s
  | .pmidCoreReadyLoss => Sys2Proof.Machine.execPmidCoreReadyLoss s
  | .runEntry v => Sys2Proof.Machine.execRunEntry v s
  | .recoveryEntry v => Sys2Proof.Machine.execRecoveryEntry v s
  | .recoveryHostrstRelease => Sys2Proof.Machine.execRecoveryHostrstRelease s
  | .resetNLow => Sys2Proof.Machine.execResetNLow s
  | .powerDownTimeout => Sys2Proof.Machine.execPowerDownTimeout s
  | .resetNRelease strap => Sys2Proof.Machine.execResetNRelease strap s
  | .sysResetImage => Sys2Proof.Machine.execSysResetImage s
  | .sysResetRecovery => Sys2Proof.Machine.execSysResetRecovery s
  | .parkRequest => Sys2Proof.Machine.execParkRequest s
  | .hibernateRequest => Sys2Proof.Machine.execHibernateRequest s
  | .parkRequestGpio k => Sys2Proof.Machine.execParkRequestGpio k s
  | .parkEntry => Sys2Proof.Machine.execParkEntry s
  | .wakeSource k retOk strap => Sys2Proof.Machine.execWakeSource k retOk strap s
  | .sysGpioOutWrite v => Sys2Proof.Machine.execSysGpioOutWrite v s
  | .registerWrite addr v => Sys2Proof.Machine.execRegisterWrite addr v s
  | .fsyncEdge wait rising width => Sys2Proof.Machine.execFsyncEdge wait rising width s
  | .frameMiss => Sys2Proof.Machine.execFrameMiss s
  | .holdoverLimit => Sys2Proof.Machine.execHoldoverLimit s
  | .xtalFail => Sys2Proof.Machine.execXtalFail s
  | .frameWrap => Sys2Proof.Machine.execFrameWrap s
  | .bmapLatch => Sys2Proof.Machine.execBmapLatch s
  | .bmapCommitPersistent => Sys2Proof.Machine.execBmapCommitPersistent s
  | .bmapCommitOneFrame => Sys2Proof.Machine.execBmapCommitOneFrame s
  | .frmCfgWrite v => Sys2Proof.Machine.execFrmCfgWrite v s
  | .slotFire n => Sys2Proof.Machine.execSlotFire n s
  | .gpioPulseEnd k => Sys2Proof.Machine.execGpioPulseEnd k s
  | .frameStrobeEnd => Sys2Proof.Machine.execFrameStrobeEnd s
  | .probeDeferredFire => Sys2Proof.Machine.execProbeDeferredFire s
  | .turn u vpmid held off zero nlim => Sys2Proof.Machine.execTurn u vpmid held off zero nlim s
  | .tilVlim t vbat => Sys2Proof.Machine.execTilVlim t vbat s
  | .fullRoll n vpmid held off => Sys2Proof.Machine.execFullRoll n vpmid held off s
  | .fullRollLockoutEnd n => Sys2Proof.Machine.execFullRollLockoutEnd n s
  | .stkRoll n => Sys2Proof.Machine.execStkRoll n s
  | .shedDwellDone n => Sys2Proof.Machine.execShedDwellDone n s
  | .addDwellDone n => Sys2Proof.Machine.execAddDwellDone n s
  | .tileShed n => Sys2Proof.Machine.execTileShed n s
  | .tileAdd n => Sys2Proof.Machine.execTileAdd n s
  | .softStartEnd n => Sys2Proof.Machine.execSoftStartEnd n s
  | .stackPgAssert n => Sys2Proof.Machine.execStackPgAssert n s
  | .stackPgWithdraw n => Sys2Proof.Machine.execStackPgWithdraw n s
  | .parkPgLoss n => Sys2Proof.Machine.execParkPgLoss n s
  | .dischargeEnd n => Sys2Proof.Machine.execDischargeEnd n s
  | .stkDisTimeout n vout => Sys2Proof.Machine.execStkDisTimeout n vout s
  | .stkOvTrip n => Sys2Proof.Machine.execStkOvTrip n s
  | .ovTripRelease n => Sys2Proof.Machine.execOvTripRelease n s
  | .measWindowEnd imean iout vout vpmid => Sys2Proof.Machine.execMeasWindowEnd imean iout vout vpmid s
  | .engineSlot n e cur corr => Sys2Proof.Machine.execEngineSlot n e cur corr s
  | .stackMailboxWrite n w => Sys2Proof.Machine.execStackMailboxWrite n w s
  | .engLimit n => Sys2Proof.Machine.execEngLimit n s
  | .engHalt addr => Sys2Proof.Machine.execEngHalt addr s
  | .engProbe0Read => Sys2Proof.Machine.execEngProbe0Read s
  | .trackConversion m code => Sys2Proof.Machine.execTrackConversion m code s
  | .pulsePeriodEnd k p h => Sys2Proof.Machine.execPulsePeriodEnd k p h s
  | .manualHold n => Sys2Proof.Machine.execManualHold n s
  | .sourceReturn n => Sys2Proof.Machine.execSourceReturn n s
  | .profileDone n => Sys2Proof.Machine.execProfileDone n s
  | .pgTransition d => Sys2Proof.Machine.execPgTransition d s
  | .domainStable d => Sys2Proof.Machine.execDomainStable d s
  | .failTier => Sys2Proof.Machine.execFailTier s
  | .nextStep => Sys2Proof.Machine.execNextStep s
  | .stepEnable vos => Sys2Proof.Machine.execStepEnable vos s
  | .stepDisable => Sys2Proof.Machine.execStepDisable s
  | .stepWait => Sys2Proof.Machine.execStepWait s
  | .waitEnd => Sys2Proof.Machine.execWaitEnd s
  | .stepCheck => Sys2Proof.Machine.execStepCheck s
  | .checkPass => Sys2Proof.Machine.execCheckPass s
  | .checkTimeout => Sys2Proof.Machine.execCheckTimeout s
  | .offCheckPass => Sys2Proof.Machine.execOffCheckPass s
  | .stepJump => Sys2Proof.Machine.execStepJump s
  | .stepSend => Sys2Proof.Machine.execStepSend s
  | .stepMark => Sys2Proof.Machine.execStepMark s
  | .stepEnd => Sys2Proof.Machine.execStepEnd s
  | .seqRunaway => Sys2Proof.Machine.execSeqRunaway s
  | .onReqEdge rising => Sys2Proof.Machine.execOnReqEdge rising s
  | .seqOn => Sys2Proof.Machine.execSeqOn s
  | .seqOff => Sys2Proof.Machine.execSeqOff s
  | .seqProgramStart p => Sys2Proof.Machine.execSeqProgramStart p s
  | .seqRequestTaken => Sys2Proof.Machine.execSeqRequestTaken s
  | .reversal => Sys2Proof.Machine.execReversal s
  | .offDwellEnd => Sys2Proof.Machine.execOffDwellEnd s
  | .programStart => Sys2Proof.Machine.execProgramStart s
  | .domainFailClear mask => Sys2Proof.Machine.execDomainFailClear mask s
  | .ldoPgAssert n => Sys2Proof.Machine.execLdoPgAssert n s
  | .ldoPgWithdraw n => Sys2Proof.Machine.execLdoPgWithdraw n s
  | .ldoOcpTrip n => Sys2Proof.Machine.execLdoOcpTrip n s
  | .lswPgAssert n => Sys2Proof.Machine.execLswPgAssert n s
  | .lswOcpTrip n => Sys2Proof.Machine.execLswOcpTrip n s
  | .lswReverse n => Sys2Proof.Machine.execLswReverse n s
  | .guardDurationEnd n => Sys2Proof.Machine.execGuardDurationEnd n s
  | .guardRelease v => Sys2Proof.Machine.execGuardRelease v s
  | .guardFault n bit vsrc => Sys2Proof.Machine.execGuardFault n bit vsrc s
  | .vinLoss causes vin => Sys2Proof.Machine.execVinLoss causes vin s
  | .vinQualified vin rise retOk strap => Sys2Proof.Machine.execVinQualified vin rise retOk strap s
  | .feStartDone => Sys2Proof.Machine.execFeStartDone s
  | .feStartTimeout vin => Sys2Proof.Machine.execFeStartTimeout vin s
  | .feClamp => Sys2Proof.Machine.execFeClamp s
  | .feClampRelease => Sys2Proof.Machine.execFeClampRelease s
  | .feClampTimeout vin => Sys2Proof.Machine.execFeClampTimeout vin s
  | .unstableEnd => Sys2Proof.Machine.execUnstableEnd s
  | .idealDiodeOn => Sys2Proof.Machine.execIdealDiodeOn s
  | .idealDiodeOff => Sys2Proof.Machine.execIdealDiodeOff s
  | .pmidSourceChange low => Sys2Proof.Machine.execPmidSourceChange low s
  | .pmidShutdown v => Sys2Proof.Machine.execPmidShutdown v s
  | .pmidUv v => Sys2Proof.Machine.execPmidUv v s
  | .pmidUvRelease => Sys2Proof.Machine.execPmidUvRelease s
  | .chgEnableWrite v vbat => Sys2Proof.Machine.execChgEnableWrite v vbat s
  | .chgSuspend headroom => Sys2Proof.Machine.execChgSuspend headroom s
  | .chgResume vbat => Sys2Proof.Machine.execChgResume vbat s
  | .chgPrechargeDone => Sys2Proof.Machine.execChgPrechargeDone s
  | .chgCcToPrecharge => Sys2Proof.Machine.execChgCcToPrecharge s
  | .chgCcToCv => Sys2Proof.Machine.execChgCcToCv s
  | .chgCvToCc => Sys2Proof.Machine.execChgCvToCc s
  | .chgTermination => Sys2Proof.Machine.execChgTermination s
  | .chgTopoffEnd => Sys2Proof.Machine.execChgTopoffEnd s
  | .chgRecharge vbat => Sys2Proof.Machine.execChgRecharge vbat s
  | .chgPrechargeTimeout vbat => Sys2Proof.Machine.execChgPrechargeTimeout vbat s
  | .chgSafetyTimeout vbat => Sys2Proof.Machine.execChgSafetyTimeout vbat s
  | .batOv vbat => Sys2Proof.Machine.execBatOv vbat s
  | .chgFaultClear v vbat => Sys2Proof.Machine.execChgFaultClear v vbat s
  | .probeEnd => Sys2Proof.Machine.execProbeEnd s
  | .chgTileCount => Sys2Proof.Machine.execChgTileCount s
  | .chgStatusToggle => Sys2Proof.Machine.execChgStatusToggle s
  | .packPresent hold => Sys2Proof.Machine.execPackPresent hold s
  | .packQualified id vbat => Sys2Proof.Machine.execPackQualified id vbat s
  | .packRestEnd vbat => Sys2Proof.Machine.execPackRestEnd vbat s
  | .packRemoval sign => Sys2Proof.Machine.execPackRemoval sign s
  | .parkPackCheck ntcOpen idOpen => Sys2Proof.Machine.execParkPackCheck ntcOpen idOpen s
  | .gaugeWindow cur v => Sys2Proof.Machine.execGaugeWindow cur v s
  | .gaugeUpdate => Sys2Proof.Machine.execGaugeUpdate s
  | .gaugeSnapshot cur v => Sys2Proof.Machine.execGaugeSnapshot cur v s
  | .captureTrigger probe => Sys2Proof.Machine.execCaptureTrigger probe s
  | .captureComplete => Sys2Proof.Machine.execCaptureComplete s
  | .gaugePeriodicCommit => Sys2Proof.Machine.execGaugePeriodicCommit s
  | .gaugeStart => Sys2Proof.Machine.execGaugeStart s
  | .conversionStart cv => Sys2Proof.Machine.execConversionStart cv s
  | .conversionEnd cv code => Sys2Proof.Machine.execConversionEnd cv code s
  | .adcUrg n v => Sys2Proof.Machine.execAdcUrg n v s
  | .adcReq v => Sys2Proof.Machine.execAdcReq v s
  | .scanRoundStart => Sys2Proof.Machine.execScanRoundStart s
  | .dblCaptureStart => Sys2Proof.Machine.execDblCaptureStart s
  | .adcDblDone => Sys2Proof.Machine.execAdcDblDone s
  | .adcDblCfgWrite v => Sys2Proof.Machine.execAdcDblCfgWrite v s
  | .adcWinConfig n thr v => Sys2Proof.Machine.execAdcWinConfig n thr v s
  | .thermalEval => Sys2Proof.Machine.execThermalEval s
  | .thermalShutdown sensor => Sys2Proof.Machine.execThermalShutdown sensor s
  | .hibTs6Check below => Sys2Proof.Machine.execHibTs6Check below s
  | .faultRaise src detail => Sys2Proof.Machine.execFaultRaise src detail s
  | .fltPendClear m v => Sys2Proof.Machine.execFltPendClear m v s
  | .memoryScrub mem err addr => Sys2Proof.Machine.execMemoryScrub mem err addr s
  | .faultLogRetry => Sys2Proof.Machine.execFaultLogRetry s
  | .fltInjArm v => Sys2Proof.Machine.execFltInjArm v s
  | .injFail => Sys2Proof.Machine.execInjFail s
  | .fltLogIdxWrite v => Sys2Proof.Machine.execFltLogIdxWrite v s
  | .wdgService v => Sys2Proof.Machine.execWdgService v s
  | .seatFirstPeriodEnd n pc => Sys2Proof.Machine.execSeatFirstPeriodEnd n pc s
  | .seatPeriodEnd n pc => Sys2Proof.Machine.execSeatPeriodEnd n pc s
  | .secondPeriodEnd => Sys2Proof.Machine.execSecondPeriodEnd s
  | .coreWdgService => Sys2Proof.Machine.execCoreWdgService s
  | .coreWdgExpiry pc => Sys2Proof.Machine.execCoreWdgExpiry pc s
  | .wdxPulseEnd => Sys2Proof.Machine.execWdxPulseEnd s
  | .evidenceRetry => Sys2Proof.Machine.execEvidenceRetry s
  | .wdgEvidIdxWrite v => Sys2Proof.Machine.execWdgEvidIdxWrite v s
  | .hlRead start cmd addr n crc retOk => Sys2Proof.Machine.execHlRead start cmd addr n crc retOk s
  | .hlWrite start addr n data crc retOk => Sys2Proof.Machine.execHlWrite start addr n data crc retOk s
  | .hlFrameAbort cut retOk => Sys2Proof.Machine.execHlFrameAbort cut retOk s
  | .eventRequest => Sys2Proof.Machine.execEventRequest s
  | .recordCommit => Sys2Proof.Machine.execRecordCommit s
  | .pushDone => Sys2Proof.Machine.execPushDone s
  | .evtConsWrite v => Sys2Proof.Machine.execEvtConsWrite v s
  | .evtArm => Sys2Proof.Machine.execEvtArm s
  | .evtDisarm => Sys2Proof.Machine.execEvtDisarm s
  | .evtMaskWrite v => Sys2Proof.Machine.execEvtMaskWrite v s
  | .evtAck v => Sys2Proof.Machine.execEvtAck v s
  | .evtLevel k => Sys2Proof.Machine.execEvtLevel k s
  | .clearLost => Sys2Proof.Machine.execClearLost s
  | .clearMasked => Sys2Proof.Machine.execClearMasked s
  | .clearHlCnt => Sys2Proof.Machine.execClearHlCnt s
  | .ringHoldoff => Sys2Proof.Machine.execRingHoldoff s
  | .regWrite start addr data pec count => Sys2Proof.Machine.execRegWrite start addr data pec count s
  | .regRead start addr n late => Sys2Proof.Machine.execRegRead start addr n late s
  | .status start => Sys2Proof.Machine.execStatus start s
  | .heartbeat start arg pec => Sys2Proof.Machine.execHeartbeat start arg pec s
  | .progStart start arg pec => Sys2Proof.Machine.execProgStart start arg pec s
  | .twoWireTimeout target ctl => Sys2Proof.Machine.execTwoWireTimeout target ctl s
  | .targetCreditTimeout => Sys2Proof.Machine.execTargetCreditTimeout s
  | .twcTransaction stuck pulses freed sclLow arb => Sys2Proof.Machine.execTwcTransaction stuck pulses freed sclLow arb s
  | .twcTransactionEnd cause data => Sys2Proof.Machine.execTwcTransactionEnd cause data s
  | .twcRetry arb => Sys2Proof.Machine.execTwcRetry arb s
  | .twbHxStart v => Sys2Proof.Machine.execTwbHxStart v s
  | .heartbeatTimer => Sys2Proof.Machine.execHeartbeatTimer s
  | .masterWindowEnd => Sys2Proof.Machine.execMasterWindowEnd s
  | .twbAlert k => Sys2Proof.Machine.execTwbAlert k s
  | .otpRead v => Sys2Proof.Machine.execOtpRead v s
  | .otpReadDone err => Sys2Proof.Machine.execOtpReadDone err s
  | .otpProgram => Sys2Proof.Machine.execOtpProgram s
  | .otpProgramDone ok => Sys2Proof.Machine.execOtpProgramDone ok s
  | .otpAdvance => Sys2Proof.Machine.execOtpAdvance s
  | .challengeRequest => Sys2Proof.Machine.execChallengeRequest s
  | .nonceExpiry => Sys2Proof.Machine.execNonceExpiry s
  | .grantSubmit => Sys2Proof.Machine.execGrantSubmit s
  | .anchorSubmit => Sys2Proof.Machine.execAnchorSubmit s
  | .verifyDone => Sys2Proof.Machine.execVerifyDone s
  | .submissionCommitDone => Sys2Proof.Machine.execSubmissionCommitDone s
  | .trngHealth => Sys2Proof.Machine.execTrngHealth s
  | .rtcSecond retOk strap => Sys2Proof.Machine.execRtcSecond retOk strap s
  | .journalCommitStart vcres ce => Sys2Proof.Machine.execJournalCommitStart vcres ce s
  | .journalCommitDone => Sys2Proof.Machine.execJournalCommitDone s
  | .updStart slot => Sys2Proof.Machine.execUpdStart slot s
  | .updEraseDone ok => Sys2Proof.Machine.execUpdEraseDone ok s
  | .updBlock v => Sys2Proof.Machine.execUpdBlock v s
  | .updBlockDone ok => Sys2Proof.Machine.execUpdBlockDone ok s
  | .updVerify => Sys2Proof.Machine.execUpdVerify s
  | .updVerifyDone => Sys2Proof.Machine.execUpdVerifyDone s
  | .updActivate => Sys2Proof.Machine.execUpdActivate s
  | .updAbort => Sys2Proof.Machine.execUpdAbort s
  | .receiveQuietEnd => Sys2Proof.Machine.execReceiveQuietEnd s
  | .lswPgWithdraw n => Sys2Proof.Machine.execLswPgWithdraw n s
  | .ldoRampEnd n => Sys2Proof.Machine.execLdoRampEnd n s
  | .lswRampEnd n => Sys2Proof.Machine.execLswRampEnd n s
  | .ldoCurrentLimit n => Sys2Proof.Machine.execLdoCurrentLimit n s
  | .lswCurrentLimit n => Sys2Proof.Machine.execLswCurrentLimit n s
  | .ldoUvin n => Sys2Proof.Machine.execLdoUvin n s
  | .externalPgInput k level => Sys2Proof.Machine.execExternalPgInput k level s
  | .crystalReturn => Sys2Proof.Machine.execCrystalReturn s
  | .faultConditionEnd src => Sys2Proof.Machine.execFaultConditionEnd src s
  | .targetTransactionAbort => Sys2Proof.Machine.execTargetTransactionAbort s
  | .updHistIdxWrite v => Sys2Proof.Machine.execUpdHistIdxWrite v s

end Sys2Proof.Machine
end

