-- ==== Sys2Proof/Safety.lean ====
section
/-! DEFINITION. What counts as a safe state and a safe step, in the terms that claims use. -/

namespace Sys2Proof.Machine

/-- No credited queue holds more operations than the credits that R10 gives it; the mailboxes have one credit for each stack. -/
structure State.Credited (s : State) : Prop where
  hostLink : s.hl.frames.length ≤ 12
  sequencer : s.seq.queue.length ≤ 8
  mailbox : (s.mbx.map MbxOp.stack).Nodup
  converter : s.adc.queue.length ≤ 12
  twoWire : s.twc.queue.length ≤ 8
  journal : s.jnl.queue.length ≤ 4
  push : s.evt.pb.length ≤ 4

/-- What every command keeps from state `s` to state `t`: the queue of commands, the canonical form of the memories, the sense of
time, and the bound that the credits set on every queue. -/
structure State.Keeps (s t : State) : Prop where
  queue : t.pending = s.pending
  memory : Memory.wf s.nv → Memory.wf t.nv
  clock : s.now ≤ t.now
  credits : s.Credited → t.Credited

/-- A step that does not stop. -/
def State.advances (s : State) : Prop := ∃ t, step s = .next t

end Sys2Proof.Machine
end

