-- ==== Sys2Proof/WellFormed.lean ====
section
/-! DEFINITION. Which commands are well formed: the operands whose type is wider than what the hardware can report or send. -/

namespace Sys2Proof

/-- V(`CRES`) fits `JNL_STAT.VCRES`, and a word address of the microcode memory is one of its 4096 (R179). -/
def BootView.wf (v : BootView) : Bool :=
  decide (v.vcres < 65536) && (match v.microcode with
    | some a => decide (a < 4096)
    | none => true)

/-- A value that a 16-bit signed field holds. -/
def within16 (x : Int) : Bool := decide (-32768 ≤ x ∧ x ≤ 32767)

/-- A converter's result before it is limited to its field (R136, R137). -/
def within17 (x : Int) : Bool := decide (-65536 ≤ x ∧ x ≤ 65535)

/-- The operands of a command lie in the ranges that the hardware can report or a sender can send. Codes, voltages in mV and lengths
are bounded by the widths of the fields that carry them. -/
def Instr.wf (i : Instr) : Bool :=
  match i with
  | .vaoGood _ _ => true
  | .vaoGoodLoss => true
  | .pmidCoreReady _ => true
  | .pmidCoreReadyLoss => true
  | .runEntry v => v.wf
  | .recoveryEntry v => v.wf
  | .recoveryHostrstRelease => true
  | .resetNLow => true
  | .powerDownTimeout => true
  | .resetNRelease _ => true
  | .sysResetImage => true
  | .sysResetRecovery => true
  | .parkRequest => true
  | .hibernateRequest => true
  | .parkRequestGpio _ => true
  | .parkEntry => true
  | .wakeSource _ _ _ => true
  | .sysGpioOutWrite _ => true
  | .registerWrite _ _ => true
  | .fsyncEdge _ _ _ => true
  | .frameMiss => true
  | .holdoverLimit => true
  | .xtalFail => true
  | .frameWrap => true
  | .bmapLatch => true
  | .bmapCommitPersistent => true
  | .bmapCommitOneFrame => true
  | .frmCfgWrite _ => true
  | .slotFire _ => true
  | .gpioPulseEnd _ => true
  | .frameStrobeEnd => true
  | .probeDeferredFire => true
  | .turn _ vpmid _ _ _ _ => decide (vpmid < 65536)
  | .tilVlim _ vbat => decide (vbat < 65536)
  | .fullRoll _ vpmid _ _ => decide (vpmid < 65536)
  | .fullRollLockoutEnd _ => true
  | .stkRoll _ => true
  | .shedDwellDone _ => true
  | .addDwellDone _ => true
  | .tileShed _ => true
  | .tileAdd _ => true
  | .softStartEnd _ => true
  | .stackPgAssert _ => true
  | .stackPgWithdraw _ => true
  | .parkPgLoss _ => true
  | .dischargeEnd _ => true
  | .stkDisTimeout _ vout => decide (vout < 65536)
  | .stkOvTrip _ => true
  | .ovTripRelease _ => true
  | .measWindowEnd imean iout vout vpmid => decide (imean.length = 48 ∧ iout.length = 16 ∧ vout.length = 16 ∧ vpmid < 65536) && (imean ++ iout ++ vout).all within16
  | .engineSlot _ e i corr => within17 e && within17 i && decide (corr < 256)
  | .stackMailboxWrite _ w => decide (1 ≤ w.length ∧ w.length ≤ 64) && w.all fun p => decide (p.1.toNat % 4 = 0)
  | .engLimit _ => true
  | .engHalt addr => decide (addr < 4096)
  | .engProbe0Read => true
  | .trackConversion _ _ => true
  | .pulsePeriodEnd _ p h => decide (h ≤ p)
  | .manualHold _ => true
  | .sourceReturn _ => true
  | .profileDone _ => true
  | .pgTransition _ => true
  | .domainStable _ => true
  | .failTier => true
  | .nextStep => true
  | .stepEnable vos => decide (vos.length = 16) && vos.all fun x => decide (x < 32768)
  | .stepDisable => true
  | .stepWait => true
  | .waitEnd => true
  | .stepCheck => true
  | .checkPass => true
  | .checkTimeout => true
  | .offCheckPass => true
  | .stepJump => true
  | .stepSend => true
  | .stepMark => true
  | .stepEnd => true
  | .seqRunaway => true
  | .onReqEdge _ => true
  | .seqOn => true
  | .seqOff => true
  | .seqProgramStart _ => true
  | .seqRequestTaken => true
  | .reversal => true
  | .offDwellEnd => true
  | .programStart => true
  | .domainFailClear _ => true
  | .ldoPgAssert _ => true
  | .ldoPgWithdraw _ => true
  | .ldoOcpTrip _ => true
  | .lswPgAssert _ => true
  | .lswOcpTrip _ => true
  | .lswReverse _ => true
  | .guardDurationEnd _ => true
  | .guardRelease _ => true
  | .guardFault _ _ vsrc => decide (vsrc < 65536)
  | .vinLoss _ vin => decide (vin < 65536)
  | .vinQualified vin _ _ _ => decide (vin < 65536)
  | .feStartDone => true
  | .feStartTimeout vin => decide (vin < 65536)
  | .feClamp => true
  | .feClampRelease => true
  | .feClampTimeout vin => decide (vin < 65536)
  | .unstableEnd => true
  | .idealDiodeOn => true
  | .idealDiodeOff => true
  | .pmidSourceChange _ => true
  | .pmidShutdown v => decide (v < 65536)
  | .pmidUv v => decide (v < 65536)
  | .pmidUvRelease => true
  | .chgEnableWrite _ vbat => decide (vbat < 65536)
  | .chgSuspend _ => true
  | .chgResume vbat => decide (vbat < 65536)
  | .chgPrechargeDone => true
  | .chgCcToPrecharge => true
  | .chgCcToCv => true
  | .chgCvToCc => true
  | .chgTermination => true
  | .chgTopoffEnd => true
  | .chgRecharge vbat => decide (vbat < 65536)
  | .chgPrechargeTimeout vbat => decide (vbat < 65536)
  | .chgSafetyTimeout vbat => decide (vbat < 65536)
  | .batOv vbat => decide (vbat < 65536)
  | .chgFaultClear _ vbat => decide (vbat < 65536)
  | .probeEnd => true
  | .chgTileCount => true
  | .chgStatusToggle => true
  | .packPresent _ => true
  | .packQualified id vbat => decide (id < 65536 ∧ vbat < 65536)
  | .packRestEnd vbat => decide (vbat < 65536)
  | .packRemoval _ => true
  | .parkPackCheck _ _ => true
  | .gaugeWindow i v => decide (v < 131072) && decide (i.natAbs < 262144)
  | .gaugeUpdate => true
  | .gaugeSnapshot i v => decide (v < 131072) && decide (i.natAbs < 262144)
  | .captureTrigger _ => true
  | .captureComplete => true
  | .gaugePeriodicCommit => true
  | .gaugeStart => true
  | .conversionStart _ => true
  | .conversionEnd _ _ => true
  | .adcUrg _ _ => true
  | .adcReq _ => true
  | .scanRoundStart => true
  | .dblCaptureStart => true
  | .adcDblDone => true
  | .adcDblCfgWrite _ => true
  | .adcWinConfig _ _ _ => true
  | .thermalEval => true
  | .thermalShutdown _ => true
  | .hibTs6Check _ => true
  | .faultRaise _ _ => true
  | .fltPendClear _ _ => true
  | .memoryScrub _ _ _ => true
  | .faultLogRetry => true
  | .fltInjArm _ => true
  | .injFail => true
  | .fltLogIdxWrite _ => true
  | .wdgService _ => true
  | .seatFirstPeriodEnd _ _ => true
  | .seatPeriodEnd _ _ => true
  | .secondPeriodEnd => true
  | .coreWdgService => true
  | .coreWdgExpiry _ => true
  | .wdxPulseEnd => true
  | .evidenceRetry => true
  | .wdgEvidIdxWrite _ => true
  | .hlRead _ cmd _ _ _ _ => decide (cmd ≠ 0x57)
  | .hlWrite _ _ n data _ _ => decide (data.length = n.toNat)
  | .hlFrameAbort _ _ => true
  | .eventRequest => true
  | .recordCommit => true
  | .pushDone => true
  | .evtConsWrite _ => true
  | .evtArm => true
  | .evtDisarm => true
  | .evtMaskWrite _ => true
  | .evtAck _ => true
  | .evtLevel _ => true
  | .clearLost => true
  | .clearMasked => true
  | .clearHlCnt => true
  | .ringHoldoff => true
  | .regWrite _ _ data _ _ => decide (data.length ≤ 7)
  | .regRead _ _ _ _ => true
  | .status _ => true
  | .heartbeat _ _ _ => true
  | .progStart _ _ _ => true
  | .twoWireTimeout _ _ => true
  | .targetCreditTimeout => true
  | .twcTransaction _ pulses _ _ _ => decide (pulses ≤ 9)
  | .twcTransactionEnd _ data => decide (data.length ≤ 64)
  | .twcRetry _ => true
  | .twbHxStart _ => true
  | .heartbeatTimer => true
  | .masterWindowEnd => true
  | .twbAlert _ => true
  | .otpRead _ => true
  | .otpReadDone _ => true
  | .otpProgram => true
  | .otpProgramDone _ => true
  | .otpAdvance => true
  | .challengeRequest => true
  | .nonceExpiry => true
  | .grantSubmit => true
  | .anchorSubmit => true
  | .verifyDone => true
  | .submissionCommitDone => true
  | .trngHealth => true
  | .rtcSecond _ _ => true
  | .journalCommitStart vcres ce => decide (vcres < 65536 ∧ ce < 65536)
  | .journalCommitDone => true
  | .updStart _ => true
  | .updEraseDone _ => true
  | .updBlock _ => true
  | .updBlockDone _ => true
  | .updVerify => true
  | .updVerifyDone => true
  | .updActivate => true
  | .updAbort => true
  | .receiveQuietEnd => true
  | .lswPgWithdraw _ => true
  | .ldoRampEnd _ => true
  | .lswRampEnd _ => true
  | .ldoCurrentLimit _ => true
  | .lswCurrentLimit _ => true
  | .ldoUvin _ => true
  | .externalPgInput _ _ => true
  | .crystalReturn => true
  | .faultConditionEnd _ => true
  | .targetTransactionAbort => true
  | .updHistIdxWrite _ => true

end Sys2Proof
end

