-- ==== Sys2Proof/Certificates/Slice0/Obligations.lean ====
section
/-! DEFINITION. The statements for the provers, about the commands of every family and about every kind of state. A clause of the form
`exec c s = .next t` says that command `c` completes and what it leaves: `t` is written as `s` with what changes, so all else is kept. -/

open Sys2Proof Sys2Proof.Machine

/-- A step runs the command in front of the queue. Rests on 01_device_architecture.md. -/
def Obligations.StepRunsFront : Prop :=
  ∀ (c : Instr) (r : List Instr) (s : State), step { s with pending := c :: r } = exec c { s with pending := r }

/-- On an empty queue one ENG period passes. The model's readings and choices: that the tick is what an empty queue does (log entry 1),
that the counter waits at its end (entry 2), and when what waits on the target port goes on (entry 16). Rests on
01_device_architecture.md, 04_frame_time_and_pips.md, 16_host_link_and_events.md, 17_two_wire_and_satellites.md. -/
def Obligations.StepIdles : Prop :=
  (∀ s : State, s.pending = [] → s.overflowOwed = false → s.twt.wait = none → s.counting = false → step s = .next { s with now := s.now + 1 }) ∧
  (∀ s : State, s.pending = [] → s.overflowOwed = false → s.twt.wait = none → s.counting = true →
    step s = .next { s with now := s.now + 1, frm := { s.frm with phase := min (s.frm.phase + s.advance 1) (2 ^ 48 - 1) } }) ∧
  (∀ (s t : State) (o : TgtOp) (a : Nat), s.pending = [] → s.pass 1 = t → t.twt.wait = some (o, a) → t.targetOn = true → t.targetFree o = true →
    step s = .next (({ t with twt := { t.twt with wait := none } } : State).targetRun o)) ∧
  (∀ s t : State, s.overflowOwed = true → s.evt.ovfAt = some s.coreClk → s.now < 2 * (s.coreClk + 1) → 2 * (s.coreClk + 1) = s.now + 1 → s.clockOn 1 = t →
    s.pass 1 = t.fillOverflow)

/-- Every command answers a next state in every state. Rests on 01_device_architecture.md, 95_what_each_step_holds.md. -/
def Obligations.EveryCommandAnswers : Prop :=
  ∀ (c : Instr) (s : State), ∃ t : State, exec c s = .next t

/-- No command changes the queue of commands. Rests on 01_device_architecture.md. -/
def Obligations.QueueUntouched : Prop :=
  ∀ (c : Instr) (s t : State), exec c s = .next t → t.pending = s.pending

/-- Time does not run backwards. Rests on 01_device_architecture.md. -/
def Obligations.ClockForward : Prop :=
  ∀ s t : State, step s = .next t → s.now ≤ t.now

/-- Every step keeps the memories in canonical form. Rests on 19_journal_and_update.md. -/
def Obligations.MemoriesStayCanonical : Prop :=
  ∀ s t : State, Memory.wf s.nv → step s = .next t → Memory.wf t.nv

/-- No step puts more operations into a queue than its credits. Rests on 01_device_architecture.md. -/
def Obligations.CreditsHold : Prop :=
  ∀ s t : State, s.Credited → step s = .next t → t.Credited

/-- The machine right after a power-on reset. The model's readings: the point of the power-up at which reset stands (log entry 6), and the
clock's start at 0 (log entry 1). Rests on 01_device_architecture.md, 03_startup_setup_image.md, 14_fault_colours.md. -/
def Obligations.ResetHolds : Prop :=
  (State.reset.pending = [] ∧ State.reset.dev.mode = .boot ∧ State.reset.dev.vaoGood = true ∧ State.reset.dev.pmidGood = true ∧ State.reset.now = 0) ∧
  (Memory.wf State.reset.nv ∧ State.reset.Credited) ∧
  (State.reset.hl.frames = [] ∧ State.reset.seq.queue = [] ∧ State.reset.mbx = [] ∧ State.reset.adc.queue = [] ∧ State.reset.twc.queue = [] ∧
    State.reset.jnl.queue = [] ∧ State.reset.evt.pb = [] ∧ State.reset.evt.armed = false) ∧
  (State.reset.get F.FLT_PEND0_PEND = 0 ∧ State.reset.get F.FLT_PEND1_PEND = 0 ∧ State.reset.get F.SEQ_DOM_STATE_EN = 0 ∧
    (∀ n : Fin 16, State.reset.get (F.STK_STAT_EN n) = 0) ∧ ∀ d : Fin 12, (State.reset.dom d).st = .off)

/-- The supplies come and go, and the causes of a full reset. The model's readings and choices: that always-on good with RESET_N low only
records the strap (log entry 31), that the crystal's failure outlasts VAO (entry 36), and what a torn memory command (entry 21) and a torn
OTP word (entry 22) leave. Rests on 02_pins_package_ratings.md, 03_startup_setup_image.md, 01_device_architecture.md. -/
def Obligations.SuppliesAndResets : Prop :=
  (∀ (strap pack : Bool) (s : State), s.dev.mode = .off → s.dev.vaoGood = false →
    exec (.vaoGood strap pack) s = .next ((({ s with
      dev := { s.dev with gpioIn := putBit s.dev.gpioIn 0 strap, vaoGood := true }, rtcAt := s.aoTicks,
      pp := { s.pp with firstQual := pack, presAt := s.now, feOut := s.now, handAt := s.now, treqs := [(s.now, 20)] } } : State).put F.PP_PACK_STAT_QUAL pack).onAoGood)) ∧
  (∀ s : State, s.aoGood = true → s.dev.mode = .off → s.onAoGood = ({ s with dev := { s.dev with aoAt := s.now } } : State).enterBoot) ∧
  (∀ s : State, s.aoGood = true → s.dev.mode = .boot → s.dev.stage = .waiting → s.dev.resetNLow = false →
    s.onAoGood = ({ s with dev := { s.dev with aoAt := s.now } } : State).enterBoot) ∧
  (∀ s : State, s.aoGood = true → s.dev.mode = .boot → s.dev.stage = .waiting → s.dev.resetNLow = true →
    s.onAoGood = { s with dev := { s.dev with strapSeen := s.dev.strapSeen || bitOf s.dev.gpioIn 0 } }) ∧
  (∀ s : State, s.aoGood = false → s.onAoGood = s) ∧
  (∀ (strap : Bool) (s : State), s.dev.pmidGood = false → exec (.pmidCoreReady strap) s = .next (({ s with
      dev := { s.dev with gpioIn := putBit s.dev.gpioIn 0 strap, pmidGood := true },
      pp := { s.pp with uvArmed := false } } : State).onAoGood)) ∧
  (∀ s : State, s.dev.vaoGood = true → s.otp.prog = none →
    exec .vaoGoodLoss s = .next { State.blank with
      pending := s.pending, now := s.now, draws := s.jnlFlush.updTear.draws, nv := s.jnlFlush.updTear.nv,
      dev := { Dev.init with pmidGood := s.dev.pmidGood, gpioIn := s.dev.gpioIn, xtalFailed := s.dev.xtalFailed } }) ∧
  (∀ (s : State), s.dev.pmidGood = true → s.dev.mode ≠ .off → s.dev.mode ≠ .hibernate →
    exec .pmidCoreReadyLoss s = .next (({ s with dev := { s.dev with pmidGood := false } } : State).startReset F.SYS_RESET_CAUSE_PMID_LOSS)) ∧
  (∀ (s : State), s.dev.pmidGood = true → s.dev.mode = .off ∨ s.dev.mode = .hibernate →
    exec .pmidCoreReadyLoss s = .next ({ s with dev := { s.dev with pmidGood := false } })) ∧
  (∀ (s : State), s.dev.vaoGood = true →
    exec .resetNLow s = .next (({ s with dev := { s.dev with resetNLow := true } } : State).startReset F.SYS_RESET_CAUSE_PIN)) ∧
  (∀ (s : State), s.writeOk 0x0008 = true → s.injects 4 = false → exec .sysResetImage s = .next (s.startReset F.SYS_RESET_CAUSE_CMD)) ∧
  (∀ (s : State), s.writeOk 0x0008 = true → s.injects 4 = false →
    exec .sysResetRecovery s = .next (s.startReset F.SYS_RESET_CAUSE_CMD_RCV)) ∧
  (∀ (s : State), s.dev.stage = .powerDown → exec .powerDownTimeout s = .next ((s.due (s.dev.resetAt + 250 * engPerMs)).resetFinish)) ∧
  (∀ (strap : Bool) (s : State), s.dev.stage = .waiting → s.aoGood = true →
    exec (.resetNRelease strap) s = .next (({ s with dev := { s.dev with gpioIn := putBit s.dev.gpioIn 0 strap, resetNLow := false } } : State).enterBoot)) ∧
  (∀ (strap : Bool) (s : State), s.dev.stage ≠ .waiting →
    exec (.resetNRelease strap) s = .next ({ s with dev := { s.dev with gpioIn := putBit s.dev.gpioIn 0 strap, resetNLow := false } })) ∧
  (∀ (strap : Bool) (s : State), s.dev.stage = .waiting → s.aoGood = false →
    exec (.resetNRelease strap) s = .next ({ s with dev := { s.dev with gpioIn := putBit s.dev.gpioIn 0 strap, resetNLow := false } })) ∧
  (∀ (w d : Nat) (t : State) (s : State), s.dev.vaoGood = true → s.otp.prog = some (w, d) → t = s.jnlFlush.updTear.otpTorn w d →
    exec .vaoGoodLoss s = .next ({ State.blank with
      pending := s.pending, now := s.now, draws := t.draws, nv := t.nv,
      dev := { Dev.init with pmidGood := s.dev.pmidGood, gpioIn := s.dev.gpioIn, xtalFailed := s.dev.xtalFailed } })) ∧
  (∀ (strap : Bool) (s : State), s.dev.pmidGood = true → exec (.pmidCoreReady strap) s = .next (s)) ∧
  (∀ (strap pack : Bool) (s : State), s.dev.mode ≠ .off ∨ s.dev.vaoGood = true → exec (.vaoGood strap pack) s = .next (s))

/-- What the start of a full reset does. The model's readings and choices: that a loss of PMID during the power-down of another reset ends
that power-down (log entry 31, from R32 and R56). Rests on 01_device_architecture.md, 15_watchdogs_and_seats.md. -/
def Obligations.FullResetStarts : Prop :=
  (∀ (s : State) (c : FRef), s.dev.mode = .off → s.startReset c = s) ∧
  (∀ (s : State) (c : FRef), s.dev.stage = .none → s.dev.mode = .boot ∨ s.dev.mode = .black ∨ s.dev.mode = .recovery →
    s.startReset c = ({ (s.set c 1).seatsStop.updAbandon with
      dev := { s.dev with toRecovery := decide (c = F.SYS_RESET_CAUSE_CMD_RCV) } } : State).resetFinish) ∧
  (∀ (s : State) (c : FRef), s.dev.stage = .none → s.dev.mode = .run ∨ s.dev.mode = .park → c ≠ F.SYS_RESET_CAUSE_PMID_LOSS →
    (s.set c 1).seatsStop.updAbandon.jnl.busy = false →
    s.startReset c = ({ (s.set c 1).seatsStop.updAbandon with
      dev := { s.dev with toRecovery := decide (c = F.SYS_RESET_CAUSE_CMD_RCV) } } : State).resetStep3) ∧
  (∀ (s : State) (c : FRef), s.dev.stage = .none → s.dev.mode = .run ∨ s.dev.mode = .park → c ≠ F.SYS_RESET_CAUSE_PMID_LOSS →
    (s.set c 1).seatsStop.updAbandon.jnl.busy = true →
    s.startReset c = { (s.set c 1).seatsStop.updAbandon with
      dev := { s.dev with toRecovery := decide (c = F.SYS_RESET_CAUSE_CMD_RCV), stage := .commit } }) ∧
  (∀ s : State, s.resetStep3 = ({ s with dev := { s.dev with stage := .powerDown, resetAt := s.now } } : State).resetProgram) ∧
  (∀ s : State, s.dev.stage = .powerDown → s.dev.mode ≠ .off →
    s.startReset F.SYS_RESET_CAUSE_PMID_LOSS = (s.set F.SYS_RESET_CAUSE_PMID_LOSS 1).resetFinish) ∧
  (∀ s : State, s.dev.stage = .powerDown → s.dev.mode ≠ .off →
    s.startReset F.SYS_RESET_CAUSE_HOST_WDG = s.set F.SYS_RESET_CAUSE_HOST_WDG 1)

/-- A full reset returns the registers to their Reset values and keeps the memories. The model's readings and choices: that hidden state
is at rest after a reset (log entry 8). Rests on 01_device_architecture.md. -/
def Obligations.FullResetRestores : Prop :=
  (∀ (s : State) (f : FRef), f.key ∉ keptKeys → s.resetDomains.get f = f.reset) ∧
  (∀ s : State, s.resetDomains.nv = s.nv ∧ s.resetDomains.now = s.now ∧ s.resetDomains.rtcSec = s.rtcSec ∧ s.resetDomains.rtcValid = s.rtcValid ∧
    s.resetDomains.wdg.latch = s.wdg.latch ∧ s.resetDomains.pending = s.pending) ∧
  (∀ s : State, s.resetDomains.hl.frames = [] ∧ s.resetDomains.seq.queue = [] ∧ s.resetDomains.mbx = [] ∧ s.resetDomains.adc.queue = [] ∧
    s.resetDomains.twc.queue = [] ∧ s.resetDomains.jnl.queue = [] ∧ s.resetDomains.evt.buf = [] ∧ s.resetDomains.evt.pb = [])

/-- BOOT ends in RUN with the first slot that passes, or in RECOVERY with none. The model's readings and choices: that a failed crystal is
marked at RUN and RECOVERY entry (log entry 36), the records that these make (entry 20), the order of the slots' checks (entry 19), and
when OTP shadowing ends (entry 11). Rests on 03_startup_setup_image.md, 19_journal_and_update.md. -/
def Obligations.BootChoosesAndEnds : Prop :=
  (∀ (v : BootView) (s t : State) (k : Nat), s.bootEnds = true → (s.due s.dev.shadowAt).bootChoice v = (t, some k) →
    exec (.runEntry v) s = .next (((({ (t.setMode .run).runImage k v with
      dev := { ((t.setMode .run).runImage k v).dev with
        runEntry := some ((t.setMode .run).runImage k v).now, runSinceReset := true } } : State).runBlocks.runProgram v.onReq).catchUp).runRaises v)) ∧
  (∀ (v : BootView) (s t u : State), s.bootEnds = true → (s.due s.dev.shadowAt).bootChoice v = (t, none) →
    u = ({ t with dev := { t.dev with mode := .recovery, recoveryEntry := t.now, hostRstReleased := false } } : State).coreWdgRestart.catchUp →
    exec (.recoveryEntry v) s = .next (if u.dev.xtalFailed && !u.active 10 then u.xtalSet else u)) ∧
  (∀ (v : BootView) (s : State), s.dev.strapSeen = true ∨ s.dev.toRecovery = true → s.bootChoice v = (s, none)) ∧
  (∀ (s : State), s.dev.mode = .recovery → s.dev.hostRstReleased = false →
    exec .recoveryHostrstRelease s = .next ({ s.due (s.dev.recoveryEntry + 10 * engPerMs) with
      dev := { (s.due (s.dev.recoveryEntry + 10 * engPerMs)).dev with hostRstReleased := true } })) ∧
  (∀ (v : BootView) (s t : State) (k : Nat), s.noSlots = false → (s.bootChoice v = (t, some k) ↔
    (k = s.firstSlot ∧ (s.slotSeen k v).slotCheck k (bootAnswers v k) = .ok t) ∨
    (∃ f, k = 1 - s.firstSlot ∧ (s.slotSeen s.firstSlot v).slotCheck s.firstSlot (bootAnswers v s.firstSlot) = .error f ∧
      (((s.slotSeen s.firstSlot v).slotFailed s.firstSlot f v).slotSeen k v).slotCheck k (bootAnswers v k) = .ok t)))

/-- Park and hibernate, the wake sources and the seconds count. The model's readings and choices: when a wake is latched, and the alarm's
tick (log entry 30). Rests on 01_device_architecture.md, 03_startup_setup_image.md, 18_security_grants_otp.md. -/
def Obligations.ParkWakesAndSeconds : Prop :=
  (∀ (s : State), s.writeOk 0x020C = true → s.injects 4 = false → exec .parkRequest s = .next (s.seqPush 3 none)) ∧
  (∀ (s : State), s.writeOk 0x020C = true → s.injects 4 = false → exec .hibernateRequest s = .next (s.seqPush 4 none)) ∧
  (∀ (k : Fin 12) (s : State), s.dev.mode = .run ∨ s.dev.mode = .park ∨ s.dev.mode = .black → s.gpioCode k = 7 →
    bitOf s.dev.parkPinTaken k = false →
    exec (.parkRequestGpio k) s = .next (({ s with dev := { s.dev with parkPinTaken := setBit s.dev.parkPinTaken k, gpioIn := setBit s.dev.gpioIn k } } : State).seqPush 3 none)) ∧
  (∀ (s : State), s.dev.mode = .run → s.dev.stage = .none → s.phase = 6 → s.progRuns = false → s.seq.shut = none →
    s.seq.failQueue = [] → s.updRuns = false → s.queuesEmpty = true → s.dblAct = false ∨ s.adc.dblHeld = true →
    exec .parkEntry s = .next (s.parkEnter)) ∧
  (∀ (s : State), s.dev.mode = .run → s.dev.stage = .none → s.phase = 6 → s.progRuns = false → s.seq.shut = none →
    s.seq.failQueue = [] → s.updRuns = false → s.queuesEmpty = true → s.dblAct = true → s.adc.dblHeld = false →
    exec .parkEntry s = .next (s.dblHold)) ∧
  (∀ (s : State), s.dev.mode = .run → s.dev.stage = .none → s.phase = 6 → s.progRuns = false → s.seq.shut = none →
    s.seq.failQueue = [] → s.updRuns = true →
    exec .parkEntry s = .next (s.updStop 8)) ∧
  (∀ (k : Fin 8) (retOk strap : Bool) (s : State),
    s.dev.vaoGood = true → (k.val = 5 → s.rtcSec = s.get F.SYS_WAKE_ALARM_SEC ∧ s.rtcSec ≠ 0) → (k.val = 6 → s.get F.PP_FE_STAT_STATE ≠ 0) → s.dev.mode = .run → k.val ≠ 7 → s.dev.stage = .none → s.phase ≠ 6 → s.hibGoing = false →
    exec (.wakeSource k retOk strap) s = .next ((s.cross 11 k).putBitF F.SYS_WAKE_STATUS_FIRED k true)) ∧
  (∀ (k : Fin 8) (retOk strap : Bool) (t : State) (s : State),
    s.dev.vaoGood = true → (k.val = 5 → s.rtcSec = s.get F.SYS_WAKE_ALARM_SEC ∧ s.rtcSec ≠ 0) → (k.val = 6 → s.get F.PP_FE_STAT_STATE ≠ 0) → s.dev.mode = .run → k.val < 7 → s.dev.stage = .none → s.hibGoing = true → s.bitF F.SYS_WAKE_CFG_HIB_EN k = true → t = (s.cross 11 k).putBitF F.SYS_WAKE_STATUS_FIRED k true →
    exec (.wakeSource k retOk strap) s = .next (t.wakeHold k retOk)) ∧
  (∀ (k : Fin 8) (retOk strap : Bool) (s : State),
    s.dev.vaoGood = true → (k.val = 5 → s.rtcSec = s.get F.SYS_WAKE_ALARM_SEC ∧ s.rtcSec ≠ 0) → (k.val = 6 → s.get F.PP_FE_STAT_STATE ≠ 0) → s.dev.mode = .black → k.val ≤ 4 →
    exec (.wakeSource k retOk strap) s = .next (s)) ∧
  (∀ (k : Fin 8) (retOk strap : Bool) (s : State),
    s.dev.vaoGood = true → (k.val = 5 → s.rtcSec = s.get F.SYS_WAKE_ALARM_SEC ∧ s.rtcSec ≠ 0) → (k.val = 6 → s.get F.PP_FE_STAT_STATE ≠ 0) → s.dev.mode = .hibernate → k.val < 7 → s.dev.stage = .none → s.bitF F.SYS_WAKE_CFG_HIB_EN k = true → s.aoGood = true → s.flag F.THM_STAT_LATCH = false →
    exec (.wakeSource k retOk strap) s = .next ((((s.strapTo strap).cross 11 k).putBitF F.SYS_WAKE_STATUS_FIRED k true).wakeBoot)) ∧
  (∀ (k : Fin 8) (retOk strap : Bool) (t : State) (s : State),
    s.dev.vaoGood = true → (k.val = 5 → s.rtcSec = s.get F.SYS_WAKE_ALARM_SEC ∧ s.rtcSec ≠ 0) → (k.val = 6 → s.get F.PP_FE_STAT_STATE ≠ 0) → s.dev.mode = .park → s.dev.stage = .none → s.phase = 7 → s.hibGoing = false → s.bitF F.SYS_WAKE_CFG_PARK_EN k = true → s.dev.wakeLatch = 0 → t = (s.cross 11 k).putBitF F.SYS_WAKE_STATUS_FIRED k true →
    exec (.wakeSource k retOk strap) s = .next (({ t with dev := { t.dev with wakeLatch := wakeCode k retOk } } : State).parkWake)) ∧
  (∀ s : State, s.dev.mode = .park → s.dev.wakeLatch ≠ 0 → s.seq.shut = none → s.progRuns = false → s.hibGoing = false → s.dev.stage = .none →
    s.parkWake = s.parkExit (decide (s.dev.wakeLatch ≤ 8))) ∧
  (∀ (retOk strap : Bool) (s : State), s.dev.vaoGood = true → (s.rtcSec + 1) % 2 ^ 32 ≠ s.get F.SYS_WAKE_ALARM_SEC →
    exec (.rtcSecond retOk strap) s = .next ({ s.due (ofTicks (s.rtcAt + 32768)) with rtcSec := (s.rtcSec + 1) % 2 ^ 32, rtcAt := s.rtcAt + 32768 })) ∧
  (∀ (retOk strap : Bool) (s : State), s.dev.vaoGood = true → s.dev.mode ≠ .hibernate →
    (s.rtcSec + 1) % 2 ^ 32 = s.get F.SYS_WAKE_ALARM_SEC → s.get F.SYS_WAKE_ALARM_SEC ≠ 0 →
    exec (.rtcSecond retOk strap) s = .next (({ s.due (ofTicks (s.rtcAt + 32768)) with rtcSec := (s.rtcSec + 1) % 2 ^ 32, rtcAt := s.rtcAt + 32768 } : State).wakeFire 5 retOk)) ∧
  (∀ (s : State), s.dev.vaoGood = true → s.dev.xtalFailed = false → s.dev.mode ≠ .run →
    exec .xtalFail s = .next ((({ s with dev := { s.dev with xtalFailed := true }, rtcValid := false } : State).set F.SYS_STATE_XTAL_FAIL 1).raise 10 0)) ∧
  (∀ (s : State), s.dev.vaoGood = true → s.dev.xtalFailed = false → s.dev.mode = .run →
    exec .xtalFail s = .next (((({ s with dev := { s.dev with xtalFailed := true }, rtcValid := false } : State).set F.SYS_STATE_XTAL_FAIL 1).holdCheck).raise 10 0)) ∧
  (∀ (s : State), s.dev.xtalFailed = true →
    exec .crystalReturn s = .next ((({ s with dev := { s.dev with xtalFailed := false } } : State).set F.SYS_STATE_XTAL_FAIL 0).unraise 10)) ∧
  (∀ (k : Fin 8) (retOk strap : Bool) (s : State), s.dev.vaoGood = true → s.dev.mode ≠ .hibernate → (k.val = 7 → s.dev.mode = .park) → (k.val = 5 → s.rtcSec = s.get F.SYS_WAKE_ALARM_SEC ∧ s.rtcSec ≠ 0) →
    (k.val = 6 → s.get F.PP_FE_STAT_STATE ≠ 0) →
    exec (.wakeSource k retOk strap) s = .next (s.wakeFire k retOk)) ∧
  (∀ (k : Fin 8) (retOk strap : Bool) (s : State), s.dev.vaoGood = true → s.dev.mode = .hibernate → (k.val = 7 → s.dev.mode = .park) → (k.val = 5 → s.rtcSec = s.get F.SYS_WAKE_ALARM_SEC ∧ s.rtcSec ≠ 0) →
    (k.val = 6 → s.get F.PP_FE_STAT_STATE ≠ 0) →
    exec (.wakeSource k retOk strap) s = .next ((s.strapTo strap).wakeFire k retOk)) ∧
  (∀ (k : Nat) (r : Bool) (s : State), s.dev.mode ≠ .black ∨ 4 < k → s.dev.stage ≠ .none ∨ (s.dev.mode = .boot ∧ s.flag F.THM_STAT_LATCH = false) ∨ s.dev.mode = .recovery ∨ s.dev.mode = .black →
    s.wakeFire k r = (s.cross 11 k).putBitF F.SYS_WAKE_STATUS_FIRED k true) ∧
  (∀ (k : Nat) (r : Bool) (s : State), s.dev.mode = .hibernate → s.dev.stage = .none → s.bitF F.SYS_WAKE_CFG_HIB_EN k = false ∨ 7 ≤ k →
    s.wakeFire k r = (s.cross 11 k).putBitF F.SYS_WAKE_STATUS_FIRED k true) ∧
  (∀ (k : Nat) (r : Bool) (s t : State), s.dev.mode = .hibernate → s.dev.stage = .none → s.bitF F.SYS_WAKE_CFG_HIB_EN k = true → k < 7 →
    s.aoGood = false ∨ s.flag F.THM_STAT_LATCH = true → s.dev.wakeLatch = 0 → t = (s.cross 11 k).putBitF F.SYS_WAKE_STATUS_FIRED k true →
    s.wakeFire k r = { t with dev := { t.dev with wakeLatch := wakeCode k r } }) ∧
  (∀ (k : Nat) (r : Bool) (s t : State), s.dev.mode = .run → s.dev.stage = .none → (s.phase = 6 ∧ s.bitF F.SYS_WAKE_CFG_PARK_EN k = true) ∨
    (s.phase = 4 ∧ s.seq.after = 1 ∧ k < 7 ∧ s.bitF F.SYS_WAKE_CFG_HIB_EN k = true) → s.dev.wakeLatch = 0 → t = (s.cross 11 k).putBitF F.SYS_WAKE_STATUS_FIRED k true →
    s.wakeFire k r = { t with dev := { t.dev with wakeLatch := wakeCode k r } }) ∧
  (∀ (k : Nat) (r : Bool) (s : State), s.dev.mode = .park → s.dev.stage = .none → s.phase = 7 → s.hibGoing = false → s.bitF F.SYS_WAKE_CFG_PARK_EN k = false →
    s.wakeFire k r = (s.cross 11 k).putBitF F.SYS_WAKE_STATUS_FIRED k true) ∧
  (∀ (k : Nat) (r : Bool) (s : State), s.dev.stage = .none → (s.dev.mode = .boot ∧ s.flag F.THM_STAT_LATCH = true) ∨ (s.dev.mode = .park ∧ s.hibGoing = true) →
    s.bitF F.SYS_WAKE_CFG_HIB_EN k = true → k < 7 → s.wakeFire k r = ((s.cross 11 k).putBitF F.SYS_WAKE_STATUS_FIRED k true).wakeHold k r) ∧
  (∀ (retOk strap : Bool) (s : State), s.dev.vaoGood = true → s.dev.mode = .hibernate →
    (s.rtcSec + 1) % 2 ^ 32 = s.get F.SYS_WAKE_ALARM_SEC → s.get F.SYS_WAKE_ALARM_SEC ≠ 0 →
    exec (.rtcSecond retOk strap) s = .next ((({ s.due (ofTicks (s.rtcAt + 32768)) with rtcSec := (s.rtcSec + 1) % 2 ^ 32, rtcAt := s.rtcAt + 32768 } : State).strapTo strap).wakeFire 5 retOk)) ∧
  (∀ s : State, s.updRuns = false → s.queuesEmpty = false → exec .parkEntry s = .next s)

/-- Where a write takes effect, and the writes with no row of their own. The model's readings and choices: what a REGISTER_WRITE of the
charger's registers draws (log entry 28), and when an injected error of the bus is found (entry 47). Rests on 01_device_architecture.md,
03_startup_setup_image.md, 19_journal_and_update.md. -/
def Obligations.WritesAndTheirGate : Prop :=
  (∀ (a : BitVec 16) (v : Word) (s : State), s.writeOk a.toNat = true → a.toNat % 4 = 0 →
    exec (.registerWrite a v) s = .next ((s.hostWrite [(a.toNat, v.toNat)] none).done)) ∧
  (∀ (a : BitVec 16) (v : Word) (s : State), s.writeOk a.toNat = false ∨ a.toNat % 4 ≠ 0 → exec (.registerWrite a v) s = .next (s)) ∧
  (∀ (v : Word) (s : State), s.writeOk 0x0304 = true → s.injects 4 = false →
    exec (.sysGpioOutWrite v) s = .next (s.set F.SYS_GPIO_OUT_OUT (andNot (s.get F.SYS_GPIO_OUT_OUT) (maskBy 12 fun k => decide (s.gpioCode k = 2 ∨ s.gpioCode k = 3)) |||
      (v.toNat &&& maskBy 12 fun k => decide (s.gpioCode k = 2 ∨ s.gpioCode k = 3))))) ∧
  (∀ (s : State) (a : Nat), s.dev.mode = .run → s.writeOk a = true) ∧
  (∀ (s : State) (a : Nat), s.dev.mode = .black → s.writeOk a = decide (a = 0x0008)) ∧
  (∀ (s : State) (a : Nat), s.dev.mode = .recovery → s.writeOk a = true →
    a ∈ [0x0008, 0x000C, 0x2C68, 0x3080, 0x4000, 0x4008, 0x440C] ∨ (0x4800 ≤ a ∧ a < 0x4C00 ∧ (regFields a).isSome = true)) ∧
  (∀ (s : State) (a : Nat), s.dev.mode = .off ∨ s.dev.mode = .hibernate ∨ s.dev.mode = .boot ∨ s.dev.mode = .park → s.writeOk a = false)

/-- A plain write stores the RW fields and clears by ones. Rests on 01_device_architecture.md. -/
def Obligations.PlainWordsAreStored : Prop :=
  (∀ (s : State) (a v : Nat) (l : List FieldRow) (f : FieldRow), regFields a = some l → f ∈ l → f.acc = .rw → s.wordBad a v = false →
    (s.plainWrite a v).get (f.ref a) = bits v f.lo f.w) ∧
  (∀ (s : State) (a v : Nat) (l : List FieldRow) (f : FieldRow), regFields a = some l → f ∈ l → f.acc = .w1c → s.wordBad a v = false →
    (s.plainWrite a v).get (f.ref a) = andNot (s.get (f.ref a)) (bits v f.lo f.w) % 2 ^ f.w) ∧
  (∀ (s : State) (a v : Nat) (g : FRef), (∀ l f, regFields a = some l → f ∈ l → f.acc = .rw ∨ f.acc = .w1c ∨ (f.acc = .lk ∧ s.dev.mode = .recovery) → g.key ≠ a * 32 + f.lo) →
    (s.plainWrite a v).get g = s.get g) ∧
  (∀ (s : State) (a v : Nat), s.wordBad a v = true → s.plainWrite a v = { s with hl := { s.hl with disc := true } }) ∧
  (∀ (s : State) (a v : Nat) (l : List FieldRow) (f : FieldRow), regFields a = some l → f ∈ l → f.acc = .lk → s.dev.mode = .recovery → s.wordBad a v = false →
    (s.plainWrite a v).get (f.ref a) = bits v f.lo f.w)

/-- Requests reach the sequencer, and the pending request. The model's readings and choices: in which states an ON_REQ edge is a request,
and what becomes of a lost master's OFF (log entry 47, from R41, R75, R222 and R240), and a request that replaces a pending ON in
OFF_DWELL (entry 29). Rests on 08_sequencer_and_domains.md, 03_startup_setup_image.md, 02_pins_package_ratings.md. -/
def Obligations.SequencerTakesRequests : Prop :=
  (∀ (rising : Bool) (s : State), s.dev.mode = .run ∨ s.dev.mode = .park ∨ s.dev.mode = .recovery → s.flag F.SEQ_CFG_ON_MODE = false →
    s.flag F.SEQ_CFG_SAT_MODE = false → s.seq.queue.length < 8 → s.seq.qwait = [] → s.injects 8 = false →
    exec (.onReqEdge rising) s = .next ({ s with seq := { s.seq with queue := s.seq.queue ++ [(if xor rising (s.bitF F.SYS_WAKE_CFG_POL 0) then 1 else 2, none)] } })) ∧
  (∀ (rising : Bool) (s : State), s.dev.mode = .boot →
    exec (.onReqEdge rising) s = .next ((s.cross 11 0).putBitF F.SYS_WAKE_STATUS_FIRED 0 true)) ∧
  (∀ (rising : Bool) (s : State),
    s.dev.mode = .black ∨ s.dev.mode = .off ∨ s.dev.mode = .hibernate ∨ s.flag F.SEQ_CFG_ON_MODE = true ∨ s.flag F.SEQ_CFG_SAT_MODE = true →
    s.dev.mode ≠ .boot →
    exec (.onReqEdge rising) s = .next (s)) ∧
  (∀ (s : State), s.writeOk 0x1404 = true → s.seq.queue.length < 8 → s.seq.qwait = [] → s.injects 8 = false → s.injects 4 = false →
    exec .seqOn s = .next ({ s with seq := { s.seq with queue := s.seq.queue ++ [(1, none)] } })) ∧
  (∀ (s : State), s.writeOk 0x1404 = true → s.seq.queue.length < 8 → s.seq.qwait = [] → s.injects 8 = false → s.injects 4 = false →
    exec .seqOff s = .next ({ s with seq := { s.seq with queue := s.seq.queue ++ [(2, none)] } })) ∧
  (∀ (p : Fin 4) (s : State), s.writeOk 0x1404 = true → s.seq.queue.length < 8 → s.seq.qwait = [] → s.injects 8 = false →
    s.injects 4 = false →
    exec (.seqProgramStart p) s = .next ({ s with seq := { s.seq with queue := s.seq.queue ++ [(0x14 + p.val, none)] } })) ∧
  (∀ (s : State) (code : Nat) (f : Option Nat), 8 ≤ s.seq.queue.length ∨ s.seq.qwait ≠ [] →
    s.seqPush code f = (({ s with seq := { s.seq with qwait := s.seq.qwait ++ [(code, f)] } } : State).set F.SYS_CREDIT_WAIT_SEQ 1).injCheck 8 0) ∧
  (∀ (s : State), s.writeOk 0x1404 = true → 8 ≤ s.seq.queue.length ∨ s.seq.qwait ≠ [] → s.injects 4 = false →
    exec .seqOn s = .next (s.seqPush 1 none)) ∧
  (∀ (s : State), s.writeOk 0x1404 = true → 8 ≤ s.seq.queue.length ∨ s.seq.qwait ≠ [] → s.injects 4 = false →
    exec .seqOff s = .next (s.seqPush 2 none)) ∧
  (∀ (p : Fin 4) (s : State), s.writeOk 0x1404 = true → 8 ≤ s.seq.queue.length ∨ s.seq.qwait ≠ [] → s.injects 4 = false →
    exec (.seqProgramStart p) s = .next (s.seqPush (0x14 + p) none)) ∧
  (∀ (s t : State) (code : Nat) (f : Option Nat) (r : List (Nat × Option Nat)), s.coreRuns = true → s.seq.queue = (code, f) :: r →
    t = ({ s with seq := { s.seq with queue := r ++ s.seq.qwait.take 1, qwait := s.seq.qwait.drop 1 } } : State).frameDone f →
    exec .seqRequestTaken s = .next (
      if t.phase = 9 then t.reqDrop (if code = 6 then 2 else code) 0
      else if t.pmidGoing = true then t.reqDrop (if code = 6 then 2 else code) 5
      else if code = 5 then t.pmidRequest
      else if code = 6 then t.takeMasterOff
      else if code < 0x10 then t.takePower code else t.takeStart (code - 0x10))) ∧
  (∀ (s t : State) (p : Nat) (r : List (Nat × Option Nat)), s.coreRuns = true → s.seq.queue = (0x10 + p, none) :: r → 4 ≤ p →
    t = { s with seq := { s.seq with queue := r ++ s.seq.qwait.take 1, qwait := s.seq.qwait.drop 1 } } →
    s.phase ≠ 9 → s.pmidGoing = false → s.bitF F.SEQ_STAT_START (p - 4) = false →
    exec .seqRequestTaken s = .next (t.set F.SEQ_STAT_START (setBit (s.get F.SEQ_STAT_START) (p - 4)))) ∧
  (∀ (s : State) (code b : Nat), s.reqDrop code b = (s.incSatF F.SEQ_CNT_DROP).emit 5 7 [(code, 1), (b, 1)]) ∧
  (∀ (s : State) (p : Nat), s.absorbs p = true → s.takePower p = s) ∧
  (∀ (s : State) (p : Nat), s.absorbs p = false → s.seq.masterOff = true → s.get F.SEQ_STAT_PEND = 2 → s.takePower p = s.reqDrop p 2) ∧
  (∀ s : State, s.takeMasterOff = { s.takePower 2 with seq := { (s.takePower 2).seq with masterOff := decide ((s.takePower 2).get F.SEQ_STAT_PEND = 2) } }) ∧
  (∀ s : State, s.get F.SEQ_STAT_PEND = 0 → s.phase = 1 ∨ s.phase = 2 ∨ s.phase = 5 → s.absorbs 1 = true) ∧
  (∀ s : State, s.get F.SEQ_STAT_PEND = 0 → s.phase = 0 ∨ s.phase = 3 ∨ s.phase = 4 → s.absorbs 2 = true) ∧
  (∀ s : State, s.get F.SEQ_STAT_PEND = 0 → s.phase = 6 ∨ s.phase = 7 → s.absorbs 3 = true) ∧
  (∀ (s : State) (p : Nat), s.progRuns = true → s.phase ≠ 5 → s.get F.SEQ_STAT_PEND ≠ 0 → 1 ≤ p → p ≤ 4 →
    s.seq.masterOff = false → s.seq.stage = .fetched → s.seq.shut = none → s.seq.failQueue = [] → s.seq.failAct = false → s.seq.pmidShut = false →
    (s.takePower p).get F.SEQ_STAT_PEND = p ∧
    (s.takePower p).get F.SEQ_CNT_DROP = incSat (s.get F.SEQ_CNT_DROP) F.SEQ_CNT_DROP.top % 2 ^ F.SEQ_CNT_DROP.w ∧ (s.takePower p).get F.SEQ_STAT_RUN = 1) ∧
  (∀ (s : State) (p : Nat), 4 ≤ p → p < 8 → s.bitF F.SEQ_STAT_START (p - 4) = false →
    s.takeStart p = s.set F.SEQ_STAT_START (setBit (s.get F.SEQ_STAT_START) (p - 4))) ∧
  (∀ (s : State) (p : Nat), p < 4 ∨ s.bitF F.SEQ_STAT_START (p - 4) = true →
    s.takeStart p = (s.incSatF F.SEQ_CNT_DROP).emit 5 7 [(0x10 + p, 1), (0, 1)])

/-- The steps of a program. The model's readings and choices: that program 1 skips an off-CHECK of a domain that is OFF without a DISABLE
of this run (log entry 47), and the sample point of a PMID shutdown and the waits of SEND (entry 29). Rests on
08_sequencer_and_domains.md, 13_thermal.md. -/
def Obligations.SequencerSteps : Prop :=
  (∀ (vos : List Nat) (s : State), s.runs 1 = true → s.operand = 12 →
    exec (.stepEnable vos) s = .next (({ s with dev := { s.dev with hostRstReleased := true } } : State).setStage .ended)) ∧
  (∀ (vos : List Nat) (s : State), s.runs 1 = true → s.operand < 12 → (s.dom s.operand).st = .on ∨ (s.dom s.operand).st = .ramp →
    exec (.stepEnable vos) s = .next (s.setStage .ended)) ∧
  (∀ (vos : List Nat) (s : State),
    s.runs 1 = true → s.operand < 12 → (s.dom s.operand).st = .off ∨ (s.dom s.operand).st = .stopping → (∀ k : Nat, k < 12 → s.reaches s.operand k = true → (s.dom k).st ≠ .failed) → (∀ k : Nat, k < 12 → s.depends s.operand k = true → (s.dom k).st = .on) →
    exec (.stepEnable vos) s = .next ((s.domEnable s.operand vos).setStage .ended)) ∧
  (∀ (vos : List Nat) (k : Nat) (s : State),
    s.runs 1 = true → s.operand < 12 → (s.dom s.operand).st = .off ∨ (s.dom s.operand).st = .stopping → (∀ j : Nat, j < 12 → s.reaches s.operand j = true → (s.dom j).st ≠ .failed) → k < 12 → s.depends s.operand k = true → (s.dom k).st ≠ .on →
    exec (.stepEnable vos) s = .next ((s.setStage .ended).domFail s.operand 4)) ∧
  (∀ (s : State), s.runs 2 = true → s.operand = 12 → exec .stepDisable s = .next (s.assertHostRst.setStage .ended)) ∧
  (∀ (s : State), s.runs 2 = true → s.operand < 12 → (s.dom s.operand).st = .off ∨ (s.dom s.operand).st = .failed →
    exec .stepDisable s = .next (s.setStage .ended)) ∧
  (∀ (s : State), s.runs 2 = true → s.operand < 12 → (s.dom s.operand).st = .on ∨ (s.dom s.operand).st = .ramp →
    ((s.dependants s.operand).filter fun m => s.domEnabled m) = [] → s.get F.SEQ_STAT_PROG ≠ 1 →
    exec .stepDisable s = .next (((s.setStage .idle).shutBegin (.cascade s.operand) 0 (setBit 0 s.operand)).settled)) ∧
  (∀ (s : State), s.runs 2 = true → s.operand < 12 → (s.dom s.operand).st = .on ∨ (s.dom s.operand).st = .ramp →
    ((s.dependants s.operand).filter fun m => s.domEnabled m) = [] → s.get F.SEQ_STAT_PROG = 1 →
    exec .stepDisable s = .next (((({ s with seq := { s.seq with downMask := s.seq.downMask ||| setBit 0 s.operand } } : State).setStage .idle).shutBegin
      (.cascade s.operand) 0 (setBit 0 s.operand)).settled)) ∧
  (∀ (s : State), s.runs 3 = true → exec .stepWait s = .next (s.setStage .waiting)) ∧
  (∀ (s : State), s.seqOn = true → s.progRuns = true → s.seq.stage = .waiting → s.seq.shut = none →
    exec .waitEnd s = .next ((s.due (s.seq.since + s.waitLength)).setStage .ended)) ∧
  (∀ (s : State), s.runs 4 = true → (s.dom s.operand).st = .ramp ∨ (s.dom s.operand).st = .on ∨ (s.dom s.operand).st = .stopping →
    exec .stepCheck s = .next ((({ s with seq := { s.seq with chat := 0 } } : State).set (F.SEQ_DOM_STAT_CHAT s.operand) 0).setStage .checking)) ∧
  (∀ (s : State), s.runs 4 = true → (s.dom s.operand).st = .failed → exec .stepCheck s = .next (s.setStage .ended)) ∧
  (∀ (t : Nat) (s : State), s.seqOn = true → s.progRuns = true → s.seq.stage = .checking → s.seq.shut = none → s.checkOff = false →
    s.passIn = some t → s.domEnabled s.operand = true →
    exec .checkPass s = .next ((((s.due t).setDomState s.operand .on).contactAll s.operand).setStage .ended)) ∧
  (∀ (t : Nat) (s : State), s.seqOn = true → s.progRuns = true → s.seq.stage = .checking → s.seq.shut = none → s.checkOff = true →
    s.passIn = some t →
    exec .offCheckPass s = .next ((s.due t).setStage .ended)) ∧
  (∀ (s : State), s.seqOn = true → s.progRuns = true → s.seq.stage = .checking → s.seq.shut = none → s.passIn = none →
    s.checkOff = false →
    exec .checkTimeout s = .next ((s.due s.windowEnd).checkFail s.operand 1)) ∧
  (∀ (s : State), s.runs 5 = true → s.jumps = true →
    exec .stepJump s = .next (({ s with seq := { s.seq with pc := bits s.seq.word 10 10 } } : State).setStage .ended)) ∧
  (∀ (s : State), s.runs 5 = true → s.jumps = false → exec .stepJump s = .next (s.setStage .ended)) ∧
  (∀ (s : State), s.runs 7 = true → s.get F.SEQ_STAT_PROG ≠ 0 → bitOf s.seq.word 8 = false → exec .stepMark s = .next (s.setStage .ended)) ∧
  (∀ (s : State), s.runs 7 = true → s.get F.SEQ_STAT_PROG = 0 → bitOf s.seq.word 8 = true →
    exec .stepMark s = .next (((({ s with seq := { s.seq with tagged := true } } : State).set F.SEQ_STAT_TAG (s.seq.word % 256)).emit 5 5 [(0, 1), (s.seq.word % 256, 1)]).setStage .ended)) ∧
  (∀ (a d : Nat) (p : List Byte) (s : State), s.runs 6 = true → bitOf s.seq.word 27 = false → (s.dom d).st = .on →
    s.get (F.TWB_SAT_STAT_STATE (bits s.seq.word 24 3)) ≠ 2 → s.satCfg (bits s.seq.word 24 3) = some (a, d, p) →
    s.twc.queue.length < 8 → s.twc.waiting = [] →
    exec .stepSend s = .next ((s.twcPush ⟨.send (bits s.seq.word 24 3) false, a,
      [byte (bits s.seq.word 16 8), byte (bits s.seq.word 0 8), byte (bits s.seq.word 8 8)], true, 0, none⟩).setStage .ended)) ∧
  (∀ (s : State), s.runs 0 = true → exec .stepEnd s = .next ((s.progEnd 0).settled)) ∧
  (∀ (s : State), s.sampleDue = true → s.seq.pmidShut = false → s.get F.SEQ_STAT_PEND = 0 →
    exec .nextStep s = .next ((s.due s.seq.since).fetchChecked)) ∧
  (∀ (s : State), s.sampleDue = true → s.seq.pmidShut = true → s.phase = 4 →
    exec .nextStep s = .next (((s.due s.seq.since).pmidTake).fetchChecked)) ∧
  (∀ s : State, s.injCheck 6 s.nextWord = s → s.sampleDue = true → s.fetchChecked = s.fetch) ∧
  (∀ (s : State), s.sampleDue = true → s.seq.pmidShut = false → s.phase = 1 → s.get F.SEQ_STAT_PEND = 2 ∨ s.get F.SEQ_STAT_PEND = 4 →
    exec .nextStep s = .next ((s.due s.seq.since).reverse)) ∧
  (∀ (s : State), s.sampleDue = true → s.seq.pmidShut = false → s.phase ≠ 1 → 4 ≤ s.get F.SEQ_STAT_PROG → s.get F.SEQ_STAT_PEND ≠ 0 →
    exec .nextStep s = .next ((s.due s.seq.since).abandon)) ∧
  (∀ (s : State), s.seqOn = true → s.progRuns = true → s.seq.stage = .ended → s.seq.shut = none → 256 ≤ s.seq.steps →
    ((s.set F.SEQ_FLAGS_RUNAWAY 1).raise 22 (s.get F.SEQ_STAT_PROG)).progRuns = true →
    exec .seqRunaway s = .next ((((s.set F.SEQ_FLAGS_RUNAWAY 1).raise 22 (s.get F.SEQ_STAT_PROG)).progEnd 3).settled)) ∧
  (∀ (l : List Nat) (a b s : State), s.runs 2 = true → s.operand < 12 → (s.dom s.operand).st ≠ .off → (s.dom s.operand).st ≠ .failed →
    l = ((s.dependants s.operand).filter fun m => s.domEnabled m) → l ≠ [] →
    a = forEach (s.operand :: l) (fun m t => t.setDomState m .stopping) (s.set F.SEQ_FLAGS_CASCADE 1) →
    b = (if s.get F.SEQ_STAT_PROG = 1 then { a with seq := { a.seq with downMask := a.seq.downMask ||| maskOf (s.operand :: l) } } else a) →
    exec .stepDisable s = .next (((b.setStage .idle).shutBegin (.cascade s.operand) (maskOf l) (setBit (maskOf l) s.operand)).settled)) ∧
  (∀ (a s : State), s.runs 2 = true → s.operand < 12 → (s.dom s.operand).st = .stopping →
    ((s.dependants s.operand).filter fun m => s.domEnabled m) = [] →
    a = (if s.get F.SEQ_STAT_PROG = 1 then { s with seq := { s.seq with downMask := s.seq.downMask ||| setBit 0 s.operand } } else s) →
    exec .stepDisable s = .next (((a.setStage .idle).shutBegin (.cascade s.operand) 0 (setBit 0 s.operand)).settled)) ∧
  (∀ (s : State), s.runs 4 = true → (s.dom s.operand).st = .off → (s.dom s.operand).skipped = true →
    exec .stepCheck s = .next (s.setStage .ended)) ∧
  (∀ (s : State), s.runs 4 = true → (s.dom s.operand).st = .off → s.checkOff = true → s.get F.SEQ_STAT_PROG = 1 →
    bitOf s.seq.downMask s.operand = false →
    exec .stepCheck s = .next (s.setStage .ended)) ∧
  (∀ (s : State), s.runs 4 = true → (s.dom s.operand).st = .off → (s.dom s.operand).skipped = false →
    s.checkOff = false ∨ s.get F.SEQ_STAT_PROG ≠ 1 ∨ bitOf s.seq.downMask s.operand = true →
    exec .stepCheck s = .next ((({ s with seq := { s.seq with chat := 0 } } : State).set (F.SEQ_DOM_STAT_CHAT s.operand) 0).setStage .checking)) ∧
  (∀ (t : Nat) (s : State), s.seqOn = true → s.progRuns = true → s.seq.stage = .checking → s.seq.shut = none → s.checkOff = false →
    s.passIn = some t → s.domEnabled s.operand = false →
    exec .checkPass s = .next ((((s.due t).contactAll s.operand).setStage .ended))) ∧
  (∀ a s : State, s.seqOn = true → s.progRuns = true → s.seq.stage = .checking → s.seq.shut = none → s.passIn = none → s.checkOff = true →
    a = ((s.due s.windowEnd).failRecord s.operand 6 0).setStage .idle →
    exec .checkTimeout s = .next (({ a with seq := { a.seq with failAct := a.progRuns } } : State).settled)) ∧
  (∀ (d : Nat) (s : State), s.runs 6 = true → s.satDomain (bits s.seq.word 24 3) = some d → (s.dom d).st ≠ .on →
    exec .stepSend s = .next ((s.set F.SEQ_FLAGS_SKIP 1).setStage .ended)) ∧
  (∀ (d : Nat) (s : State), s.runs 6 = true → s.satDomain (bits s.seq.word 24 3) = some d → (s.dom d).st = .on →
    s.get (F.TWB_SAT_STAT_STATE (bits s.seq.word 24 3)) = 2 →
    exec .stepSend s = .next (s)) ∧
  (∀ (a d : Nat) (p : List Byte) (s : State), s.runs 6 = true → (s.dom d).st = .on →
    s.get (F.TWB_SAT_STAT_STATE (bits s.seq.word 24 3)) ≠ 2 → s.satCfg (bits s.seq.word 24 3) = some (a, d, p) →
    bitOf s.seq.word 27 = true ∨ 8 ≤ s.twc.queue.length ∨ s.twc.waiting ≠ [] →
    exec .stepSend s = .next ((s.twcPush ⟨.send (bits s.seq.word 24 3) (bitOf s.seq.word 27), a,
      [byte (bits s.seq.word 16 8), byte (bits s.seq.word 0 8), byte (bits s.seq.word 8 8)], true, 0, none⟩).setStage .sending)) ∧
  (∀ (s : State), s.runs 7 = true → s.get F.SEQ_STAT_PROG = 0 → bitOf s.seq.word 8 = false →
    exec .stepMark s = .next (((({ s with seq := { s.seq with tagged := true } } : State).set F.SEQ_STAT_TAG (s.seq.word % 256)).setStage .ended))) ∧
  (∀ (s : State), s.runs 7 = true → s.get F.SEQ_STAT_PROG ≠ 0 → bitOf s.seq.word 8 = true →
    exec .stepMark s = .next (((s.emit 5 5 [(s.get F.SEQ_STAT_PROG, 1), (s.seq.word % 256, 1)]).setStage .ended))) ∧
  (∀ (s : State), s.sampleDue = true → s.seq.pmidShut = true → s.phase ≠ 4 → exec .nextStep s = .next ((s.due s.seq.since).pmidProgram)) ∧
  (∀ (s : State), s.seqOn = true → s.progRuns = true → s.seq.stage = .ended → s.seq.shut = none → 256 ≤ s.seq.steps →
    ((s.set F.SEQ_FLAGS_RUNAWAY 1).raise 22 (s.get F.SEQ_STAT_PROG)).progRuns = false →
    exec .seqRunaway s = .next ((s.set F.SEQ_FLAGS_RUNAWAY 1).raise 22 (s.get F.SEQ_STAT_PROG)))

/-- Programs start, reverse and wait out TOFF_MIN. The model's readings and choices: the residue and the waits of a program (log entry
29). Rests on 08_sequencer_and_domains.md. -/
def Obligations.ProgramsStart : Prop :=
  (∀ (s : State), s.seqOn = true → s.phase = 3 → s.anyRamp = false → s.seq.shut = none →
    exec .reversal s = .next ((s.set F.SEQ_STAT_PHASE 4).progStart 1 s.seq.reason s.mirror)) ∧
  (∀ (t : Nat) (s : State), s.dev.mode = .run → s.phase = 5 → s.dwellEnd = some t → s.get F.SEQ_STAT_PEND = 0 →
    exec .offDwellEnd s = .next (((({ s.due (ofTicks t) with seq := { s.seq with afterOn := false } } : State)).setPhase 1).progStart 0 s.seq.reason 0)) ∧
  (∀ (s : State), s.dev.mode = .run → s.phase = 5 → s.dwellEnd = none → s.get F.SEQ_STAT_PEND ≠ 0 →
    exec .offDwellEnd s = .next ((({ s with seq := { s.seq with afterOn := false } } : State).setPhase 0).settled)) ∧
  (∀ (k : Nat) (s : State),
    s.dev.mode = .run → s.phase = 0 ∨ s.phase = 2 → s.progRuns = false → s.get F.SEQ_STAT_PEND = 0 → s.seq.shut = none → k < 4 → s.bitF F.SEQ_STAT_START k = true → (∀ j, j < k → s.bitF F.SEQ_STAT_START j = false) → s.get (F.SEQ_PROG_LEN (k + 4)) ≠ 0 →
    exec .programStart s = .next ((s.putBitF F.SEQ_STAT_START k false).progStart (k + 4) 6 0)) ∧
  (∀ (k : Nat) (s : State),
    s.dev.mode = .run → s.phase = 0 ∨ s.phase = 2 → s.progRuns = false → s.get F.SEQ_STAT_PEND = 0 → s.seq.shut = none → k < 4 → s.bitF F.SEQ_STAT_START k = true → (∀ j, j < k → s.bitF F.SEQ_STAT_START j = false) → s.get (F.SEQ_PROG_LEN (k + 4)) = 0 →
    exec .programStart s = .next (s.putBitF F.SEQ_STAT_START k false)) ∧
  (∀ (t : Nat) (s : State), s.dev.mode = .run → s.phase = 5 → s.dwellEnd = some t → s.get F.SEQ_STAT_PEND ≠ 0 →
    exec .offDwellEnd s = .next (((({ s.due (ofTicks t) with seq := { s.seq with afterOn := false } } : State)).setPhase 0).settled)) ∧
  (∀ (s : State), s.dev.mode = .run → s.phase = 5 → s.dwellEnd = none → s.get F.SEQ_STAT_PEND = 0 →
    exec .offDwellEnd s = .next (((({ s with seq := { s.seq with afterOn := false } } : State)).setPhase 1).progStart 0 s.seq.reason 0)) ∧
  (∀ (s : State), s.progRuns = true ∨ s.get F.SEQ_STAT_PEND ≠ 0 → exec .programStart s = .next (s))

/-- What a program's start sets. Rests on 08_sequencer_and_domains.md. -/
def Obligations.ProgramStartSets : Prop :=
  (∀ (s : State) (p r o : Nat), 4 ≤ p → p < 8 → (s.progStart p r o).get F.SEQ_STAT_RUN = 1 ∧ (s.progStart p r o).get F.SEQ_STAT_PROG = p ∧
    (s.progStart p r o).seq.pc = o ∧ (s.progStart p r o).seq.steps = 0 ∧ (s.progStart p r o).seq.stage = .ended ∧ (s.progStart p r o).seq.since = s.now) ∧
  (∀ (s : State) (p r o : Nat) (g : FRef), 4 ≤ p → g.key ≠ F.SEQ_STAT_RUN.key → g.key ≠ F.SEQ_STAT_PROG.key → (s.progStart p r o).get g = s.get g) ∧
  (∀ (s : State) (r o : Nat), (s.progStart 0 r o).get F.SEQ_STAT_TAG = 0 ∧ (s.progStart 0 r o).seq.tagged = false) ∧
  (∀ (s : State) (p r o : Nat), p ≠ 1 → (s.progStart p r o).doms = s.doms ∧ (s.progStart p r o).dev = s.dev)

/-- Domains follow their power-good, and a FAILED domain cannot be enabled. The model's readings and choices: which losses of power-good
the thermal latch causes (log entry 47, from R336). Rests on 08_sequencer_and_domains.md, 13_thermal.md. -/
def Obligations.DomainsFollowAndLockOut : Prop :=
  (∀ (d : Fin 12) (s : State), s.seqOn = true → (s.dom d).raw ≠ (s.dom d).pg → s.checks d = false →
    (s.dom d).st ≠ .on ∨ (s.dom d).raw = true →
    exec (.pgTransition d) s = .next ((((s.due ((s.dom d).rawSince + s.get (F.SEQ_DOM_PG_PG_FILT d) * engPerUs)).setDom d { s.dom d with
        pg := (s.dom d).raw, lastChange := (s.due ((s.dom d).rawSince + s.get (F.SEQ_DOM_PG_PG_FILT d) * engPerUs)).now }).putBitF
      F.SEQ_DOM_STATE_PG d (s.dom d).raw).put (F.SEQ_DOM_STAT_PG d) (s.dom d).raw)) ∧
  (∀ (d : Fin 12) (s t : State), s.seqOn = true → (s.dom d).raw = false → (s.dom d).pg = true → (s.dom d).st = .on →
    s.latchCut d = false → s.checks d = false →
    t = ((((s.due ((s.dom d).rawSince + s.get (F.SEQ_DOM_PG_PG_FILT d) * engPerUs)).setDom d { s.dom d with
      pg := false, lastChange := (s.due ((s.dom d).rawSince + s.get (F.SEQ_DOM_PG_PG_FILT d) * engPerUs)).now }).putBitF
      F.SEQ_DOM_STATE_PG d false).put (F.SEQ_DOM_STAT_PG d) false).domFail d 3 →
    exec (.pgTransition d) s = .next (if t.checks d = true ∧ t.get (F.SEQ_DOM_PG_CHATTER_MAX d) < t.seq.chat then t.checkFail d 2 else t)) ∧
  (∀ (d : Fin 12) (s : State), s.seqOn = true → (s.dom d).raw = false → (s.dom d).pg = true → s.latchCut d = true → s.checks d = false →
    exec (.pgTransition d) s = .next ((((s.due ((s.dom d).rawSince + s.get (F.SEQ_DOM_PG_PG_FILT d) * engPerUs)).setDom d { s.dom d with
        pg := false, lastChange := (s.due ((s.dom d).rawSince + s.get (F.SEQ_DOM_PG_PG_FILT d) * engPerUs)).now }).putBitF
      F.SEQ_DOM_STATE_PG d false).put (F.SEQ_DOM_STAT_PG d) false)) ∧
  (∀ (d : Fin 12) (s : State), s.seqOn = true → (s.dom d).st = .ramp → (s.dom d).pg = true →
    exec (.domainStable d) s = .next ((s.due ((s.dom d).lastChange + s.get (F.SEQ_DOM_PG_PG_STABLE d) * 100 * engPerUs)).setDomState d .on)) ∧
  (∀ (x : Shutdown) (s : State), s.seqOn = true → s.seq.shut = some x → x.left ≠ 0 →
    exec .failTier s = .next ((s.due (x.at_ + s.get F.SEQ_CFG_FAIL_GAP * 10 * engPerUs)).tier.settled.parkWake)) ∧
  (∀ (m : BitVec 12) (s : State), s.writeOk 0x1414 = true → s.injects 4 = false →
    exec (.domainFailClear m) s = .next ((forBits 12 (s.get F.SEQ_DOM_FAIL_FAILED &&& m.toNat) (fun d t => if (t.dom d).st = .failed then t.setDomState d .off else t) s).set
      F.SEQ_DOM_FAIL_FAILED (andNot (s.get F.SEQ_DOM_FAIL_FAILED) (s.get F.SEQ_DOM_FAIL_FAILED &&& m.toNat)))) ∧
  (∀ (vos : List Nat) (s t : State), s.runs 1 = true → s.operand < 12 → (s.dom s.operand).st ≠ .on → (s.dom s.operand).st ≠ .ramp →
    ((s.dom s.operand).st = .failed ∨ ∃ k, k < 12 ∧ s.reaches s.operand k = true ∧ (s.dom k).st = .failed) → exec (.stepEnable vos) s = .next t →
    t.get F.SEQ_FLAGS_SKIP = 1 ∧ t.get F.SEQ_DOM_STATE_EN = s.get F.SEQ_DOM_STATE_EN ∧ t.seq.stage = .ended ∧
    (∀ m, (t.dom m).st = (s.dom m).st ∧ (t.dom m).pg = (s.dom m).pg) ∧ (∀ g : FRef, g.key ≠ F.SEQ_FLAGS_SKIP.key → t.get g = s.get g) ∧
    t.dev = s.dev ∧ t.nv = s.nv) ∧
  (∀ (d : Fin 12) (a b s : State), s.seqOn = true → (s.dom d).raw ≠ (s.dom d).pg → (s.dom d).st ≠ .on ∨ (s.dom d).raw = true →
    a = (((s.due ((s.dom d).rawSince + s.get (F.SEQ_DOM_PG_PG_FILT d) * engPerUs)).setDom d { s.dom d with
        pg := (s.dom d).raw, lastChange := (s.due ((s.dom d).rawSince + s.get (F.SEQ_DOM_PG_PG_FILT d) * engPerUs)).now }).putBitF
      F.SEQ_DOM_STATE_PG d (s.dom d).raw).put (F.SEQ_DOM_STAT_PG d) (s.dom d).raw → a.checks d = true →
    b = ({ a with seq := { a.seq with chat := a.seq.chat + 1 } } : State).set (F.SEQ_DOM_STAT_CHAT d) (min (a.seq.chat + 1) 15) →
    exec (.pgTransition d) s = .next (if b.checks d = true ∧ b.get (F.SEQ_DOM_PG_CHATTER_MAX d) < b.seq.chat then b.checkFail d 2 else b))

/-- Checkers, injections and the fault log. The model's readings and choices: the order of raisings and of an injection in one clock (log
entry 47). Rests on 14_fault_colours.md, 06_control_engine.md. -/
def Obligations.FaultCommands : Prop :=
  (∀ (src : Fin 41) (d : BitVec 16) (s : State),
    s.coreRuns = true → s.flag F.FLT_INJ_STAT_ARMED = false → s.levelHolds src = true → src.val ≠ 12 → src.val ≠ 13 → src.val ≠ 37 → (src.val = 7 → s.dev.mode ≠ .run) →
    exec (.faultRaise src d) s = .next (s.raise src d.toNat)) ∧
  (∀ (d : BitVec 16) (s : State), s.dev.mode = .run → s.flag F.FLT_INJ_STAT_ARMED = false → s.flag F.ENG_STAT_HALT = true →
    exec (.faultRaise 7 d) s = .next (s.raise 7 d.toNat)) ∧
  (∀ (d : BitVec 16) (s : State), s.dev.mode = .run → s.coreRuns = true → s.flag F.FLT_INJ_STAT_ARMED = false →
    s.flag F.ENG_STAT_HALT = false →
    exec (.faultRaise 7 d) s = .next ((s.engHalt d.toNat 0).raise 7 d.toNat)) ∧
  (∀ (src : Fin 41) (d : BitVec 16) (s : State), s.levelHolds src = false → exec (.faultRaise src d) s = .next (s)) ∧
  (∀ (d : BitVec 16) (s : State), s.coreRuns = true → s.flag F.FLT_INJ_STAT_ARMED = false →
    exec (.faultRaise 12 d) s = .next ((s.journalBadAt d.toNat).raise 12 d.toNat)) ∧
  (∀ (d : BitVec 16) (s : State), s.coreRuns = true → s.flag F.FLT_INJ_STAT_ARMED = false → s.levelHolds 13 = true →
    exec (.faultRaise 13 d) s = .next ((s.put F.JNL_STAT_LOW true).raise 13 d.toNat)) ∧
  (∀ (d : BitVec 16) (s : State), s.coreRuns = true → s.flag F.FLT_INJ_STAT_ARMED = false →
    exec (.faultRaise 37 d) s = .next ((s.put F.SEC_STAT_TFAIL true).raise 37 d.toNat)) ∧
  (∀ (src : Fin 41) (s : State), src.val = 9 ∨ src.val = 11 → exec (.faultConditionEnd src) s = .next (s.setActive src false)) ∧
  (∀ (s : State), exec (.faultConditionEnd 13) s = .next ((s.put F.JNL_STAT_LOW false).setActive 13 false)) ∧
  (∀ (s : State), exec (.faultConditionEnd 37) s = .next ((s.put F.SEC_STAT_TFAIL false).setActive 37 false)) ∧
  (∀ (v : Word) (s : State), s.writeOk 0x2C08 = true → s.injects 4 = false →
    exec (.fltPendClear 0 v) s = .next (s.set F.FLT_PEND0_PEND (andNot (s.get F.FLT_PEND0_PEND) (andNot (v.toNat % 2 ^ F.FLT_PEND0_PEND.w) (s.get F.FLT_ACT0_ACT))))) ∧
  (∀ (v : Word) (s : State), s.writeOk 0x2C0C = true → s.injects 4 = false →
    exec (.fltPendClear 1 v) s = .next (s.set F.FLT_PEND1_PEND (andNot (s.get F.FLT_PEND1_PEND) (andNot (v.toNat % 2 ^ F.FLT_PEND1_PEND.w) (s.get F.FLT_ACT1_ACT))))) ∧
  (∀ (a : Nat) (s : State), s.dev.mode = .run → s.flag F.ENG_STAT_HALT = false →
    exec (.engHalt a) s = .next ((((s.set F.ENG_STAT_HALT 1).set F.ENG_STAT_ACTIVE 0).emitX 3 16 4 4 (s.effColour 7) [(0, 1), (a, 2)]).checkerRaise 7 a)) ∧
  (∀ (mem : Fin 4) (e : Fin 3) (a : BitVec 16) (s : State), s.dev.mode = .run →
    exec (.memoryScrub mem e a) s = .next ((s.scrubDue mem).scrubWord mem e a.toNat)) ∧
  (∀ (s : State) (a : Nat), s.flag F.FLT_INJ_STAT_ARMED = false → s.scrubWord 0 1 a = s.raise 3 a ∧ s.scrubWord 0 2 a = s.raise 2 a ∧
    s.scrubWord 1 2 a = s.raise 6 a ∧ s.scrubWord 2 1 a = s.raise 5 a ∧ s.scrubWord 2 2 a = s.raise 5 a ∧ s.scrubWord 3 1 a = s.incSatF F.ENG_STAT_CORR ∧
    ∀ mem, s.scrubWord mem 0 a = s) ∧
  (∀ (s : State) (mem : Nat), (s.scrubDue mem).regs = s.regs ∧ (s.scrubDue mem).dev = s.dev ∧ (s.scrubDue mem).nv = s.nv) ∧
  (∀ (s : State) (src a : Nat), s.injects src = false → s.injCheck src a = s) ∧
  (∀ (s : State) (src a : Nat), s.injects src = true → (s.raiseI src a true).injects src = true →
    s.injCheck src a = ((s.raiseI src a true).set F.FLT_INJ_STAT_DONE 1).set F.FLT_INJ_STAT_ARMED 0) ∧
  (∀ (s : State) (src a : Nat), s.injects src = true → (s.raiseI src a true).injects src = false → s.injCheck src a = s.raiseI src a true) ∧
  (∀ (s : State) (a : Nat) (f : State → State), s.writeOk a = true → s.injects 4 = true → (s.checkerRaise 4 0).dev.stage = s.dev.stage →
    s.bus a f = f (s.checkerRaise 4 0)) ∧
  (∀ (s : State), s.coreRuns = true → s.dev.mode ≠ .boot → s.logTokens < s.flt.bodies.length →
    exec .faultLogRetry s = .next ((s.due s.flt.retryAt).logTokensFill)) ∧
  (∀ (v : Word) (s : State), s.writeOk 0x2C60 = true → bits v.toNat 16 16 = 0x1F3C → v.toNat % 256 ∈ [2, 3, 4, 5, 6, 7, 8, 12] →
    s.flag F.FLT_CFG_INJ_EN = true → s.dev.mode = .run → s.flag F.FLT_INJ_STAT_ARMED = false → s.flag (F.OUT_G_STAT_ON 0) = false →
    s.flag (F.OUT_G_STAT_ON 1) = false → s.injects 4 = false →
    exec (.fltInjArm v) s = .next ((({ s with flt := { s.flt with armedAt := s.now } } : State).set F.FLT_INJ_STAT_ARMED 1).set F.FLT_INJ_STAT_SRC (v.toNat % 256))) ∧
  (∀ (v : Word) (s : State), s.writeOk 0x2C60 = true → bits v.toNat 16 16 = 0x1F3C →
    s.flag F.FLT_CFG_INJ_EN = false ∨ s.flag F.FLT_INJ_STAT_ARMED = true ∨ v.toNat % 256 ∉ [2, 3, 4, 5, 6, 7, 8, 12] →
    s.injects 4 = false →
    exec (.fltInjArm v) s = .next (s.set F.FLT_INJ_STAT_REFUSED 1)) ∧
  (∀ (s : State), s.flag F.FLT_INJ_STAT_ARMED = true →
    exec .injFail s = .next (((s.due (s.flt.armedAt + engPerMs)).set F.FLT_INJ_STAT_ARMED 0).raise 40 (s.get F.FLT_INJ_STAT_SRC))) ∧
  (∀ (v : Word) (s : State), s.writeOk 0x2C68 = true → s.injects 4 = false →
    exec (.fltLogIdxWrite v) s = .next (((s.set F.FLT_LOG_IDX_K v.toNat).injCheck 12 (area 7).base).copyWords 0x2C70 4 (s.bodyBack 7 (v.toNat % 256)))) ∧
  (∀ (src : Fin 41) (d : BitVec 16) (s : State), s.coreRuns = true → s.levelHolds src = true → src.val ≠ 12 → src.val ≠ 13 →
    src.val ≠ 37 →
    exec (.faultRaise src d) s = .next (s.checkerRaise src d.toNat)) ∧
  (∀ (s : State) (src d : Nat), s.injects src = true → (s.raiseI src d true).injects src = true →
    s.checkerRaise src d = (((s.raiseI src d true).set F.FLT_INJ_STAT_DONE 1).set F.FLT_INJ_STAT_ARMED 0)) ∧
  (∀ (s : State) (src d : Nat), s.injects src = false → s.checkerRaise src d = s.raise src d) ∧
  (∀ (v : Word) (s : State), s.writeOk 0x2C60 = true → bits v.toNat 16 16 ≠ 0x1F3C → s.injects 4 = false →
    exec (.fltInjArm v) s = .next (s)) ∧
  (∀ (v : Word) (s : State), s.writeOk 0x2C60 = true → bits v.toNat 16 16 = 0x1F3C →
    s.dev.mode ≠ .run ∨ s.flag (F.OUT_G_STAT_ON 0) = true ∨ s.flag (F.OUT_G_STAT_ON 1) = true → s.injects 4 = false →
    exec (.fltInjArm v) s = .next (s.set F.FLT_INJ_STAT_REFUSED 1)) ∧
  (∀ (a : Nat) (s : State), s.dev.mode ≠ .run ∨ s.flag F.ENG_STAT_HALT = true → exec (.engHalt a) s = .next (s))

/-- Every raising is pended and counted, and a Black one alone leads to BLACK. Rests on 14_fault_colours.md. -/
def Obligations.RaisingsAndTheirColour : Prop :=
  (∀ (s : State) (src d : Nat), src < 41 → s.coreRuns = true → s.dev.stage = .none → s.injects 8 = false →
    (s.raise src d).pended src = true ∧
    tget (s.raise src d).flt.info src (0, 0) = (incSat (tget s.flt.info src (0, 0)).1 65535, d % 65536) ∧
    (levelSource src = true → (s.raise src d).active src = true)) ∧
  (∀ (s : State) (src d : Nat), src < 41 → s.effColour src = 3 → s.pended src = false → s.dev.stage = .none →
    s.dev.mode = .run ∨ s.dev.mode = .boot ∨ s.dev.mode = .park → (s.raise src d).dev.mode = .black) ∧
  (∀ (s : State) (src d : Nat), s.effColour src < 3 → s.injects 8 = false → (s.raise src d).dev = s.dev)

/-- Entering BLACK turns every output off and halts what runs. Rests on 14_fault_colours.md. -/
def Obligations.BlackTurnsOutputsOff : Prop :=
  (∀ (s : State) (src : Nat), src < 41 → (s.enterBlack src).dev.mode = .black ∧ (s.enterBlack src).get F.FLT_STAT_BLACK_SRC = src ∧
    (∀ n, n < 16 → (s.enterBlack src).get (F.STK_STAT_EN n) = 0) ∧
    (∀ k, k < 48 → (s.enterBlack src).get (F.TIL_STAT_HIZ k) = 1 ∧ (s.enterBlack src).get (F.TIL_STAT_ACTIVE k) = 0) ∧
    (∀ n, n < 8 → (s.enterBlack src).get (F.OUT_LDO_STAT_EN n) = 0) ∧ (∀ n, n < 6 → (s.enterBlack src).get (F.OUT_LSW_STAT_EN n) = 0) ∧
    (∀ g, g < 2 → (s.enterBlack src).flag (F.OUT_G_STAT_ON g) = false)) ∧
  (∀ (s : State) (src : Nat), (s.enterBlack src).dev.hostRstReleased = false ∧ (s.enterBlack src).evt.armed = false ∧
    (s.enterBlack src).get F.SEQ_STAT_PHASE = 9 ∧ (s.enterBlack src).get F.SEQ_STAT_RUN = 0 ∧ (s.enterBlack src).get F.FRM_STATE_STATE = 0 ∧
    (s.enterBlack src).sec.nonces = [] ∧ (s.enterBlack src).now = s.now ∧ (s.enterBlack src).nv.journal = s.nv.journal ∧
    (s.enterBlack src).get F.FLT_PEND0_PEND = s.get F.FLT_PEND0_PEND ∧ (s.enterBlack src).get F.FLT_PEND1_PEND = s.get F.FLT_PEND1_PEND)

/-- Services, periods, expiries and the WDX pulse. The model's readings and choices: the core's program counter at a violation by service
is a free value, Config.freeWord of the draw counter (log entries 5 and 32), and seats that violate at one tick (entry 32). Rests on
15_watchdogs_and_seats.md. -/
def Obligations.WatchdogCommands : Prop :=
  (∀ (v : Word) (s : State), s.writeOk 0x3004 = true → bits v.toNat 16 16 = 0x5EA7 → bits v.toNat 8 8 < 8 →
    s.seatRuns (bits v.toNat 8 8) = true → s.wdg.stage2 = none → s.vioNow = false → (s.seat (bits v.toNat 8 8)).first = true →
    s.injects 4 = false →
    exec (.wdgService v) s = .next ((({ s with draws := s.draws + 1 } : State).set (F.WDG_SEAT_STAT_TAG (bits v.toNat 8 8)) (v.toNat % 256)).putSeat (bits v.toNat 8 8)
      ⟨false, false, s.aoTicks, some s.aoTicks⟩)) ∧
  (∀ (v : Word) (s : State), s.writeOk 0x3004 = true → bits v.toNat 16 16 = 0x5EA7 → bits v.toNat 8 8 < 8 →
    s.seatRuns (bits v.toNat 8 8) = true → s.wdg.stage2 = none → s.vioNow = false → (s.seat (bits v.toNat 8 8)).first = false →
    s.seatOp (bits v.toNat 8 8) ≤ s.seatT (bits v.toNat 8 8) → (s.seat (bits v.toNat 8 8)).served = false → s.injects 4 = false →
    exec (.wdgService v) s = .next ((({ s with draws := s.draws + 1 } : State).set (F.WDG_SEAT_STAT_TAG (bits v.toNat 8 8)) (v.toNat % 256)).putSeat (bits v.toNat 8 8)
      { s.seat (bits v.toNat 8 8) with served := true, lastGood := some s.aoTicks })) ∧
  (∀ (v : Word) (s : State), s.writeOk 0x3004 = true →
    bits v.toNat 16 16 ≠ 0x5EA7 ∨ 8 ≤ bits v.toNat 8 8 ∨ s.flag (F.WDG_SEAT_CFG_EN (bits v.toNat 8 8)) = false →
    s.injects 4 = false →
    exec (.wdgService v) s = .next (s.incSatF F.WDG_STAT_BADKEY)) ∧
  (∀ (n : Fin 8) (pc : Word) (s : State),
    s.seatRuns n = true → (s.seat n).first = true → (∀ m, m < 8 → s.seatRuns m = true → s.seatEnd n ≤ s.seatEnd m) →
    exec (.seatFirstPeriodEnd n pc) s = .next ((s.due (ofTicks (s.seatEnd n))).seatsRoll (s.seatEnd n) pc.toNat)) ∧
  (∀ (n : Fin 8) (pc : Word) (s : State),
    s.seatRuns n = true → (s.seat n).first = false → (∀ m, m < 8 → s.seatRuns m = true → s.seatEnd n ≤ s.seatEnd m) →
    exec (.seatPeriodEnd n pc) s = .next ((s.due (ofTicks (s.seatEnd n))).seatsRoll (s.seatEnd n) pc.toNat)) ∧
  (∀ (k len : Nat) (s : State), s.wdg.stage2 = some (k, len) → exec .secondPeriodEnd s = .next ((s.due (ofTicks (k + len))).hostExpiry)) ∧
  (∀ (p : Nat) (u : State) (s : State), s.corePeriod = some p → s.dev.mode ≠ .black ∨ s.dev.blackFromBoot = false →
    u = s.due (ofTicks (s.wdg.coreServed + msTicks p / 4)) →
    exec .coreWdgService s = .next ({ u with wdg := { u.wdg with coreServed := u.aoTicks, coreLast := some u.aoTicks } })) ∧
  (∀ (pc : Word) (p : Nat) (s : State), s.corePeriod = some p →
    exec (.coreWdgExpiry pc) s = .next ((((s.due (ofTicks (s.wdg.coreServed + msTicks p))).evidenceLatch 2 0xFF 4 pc.toNat []).wdxStart).startReset F.SYS_RESET_CAUSE_CORE_WDG)) ∧
  (∀ (s : State), s.dev.wdxPulse = true → exec .wdxPulseEnd s = .next ({ s.due s.dev.wdxAt with
      dev := { (s.due s.dev.wdxAt).dev with wdxPulse := false } })) ∧
  (∀ (t : Nat) (s : State), s.dev.mode = .run ∨ s.dev.mode = .black ∨ s.dev.mode = .recovery → s.wdg.latch.isSome = true →
    s.evidenceQueued = false → s.wdg.retryAt = some t →
    exec .evidenceRetry s = .next ((s.due t).evidencePush)) ∧
  (∀ (s : State), s.wdg.retryAt = none → exec .evidenceRetry s = .next (s)) ∧
  (∀ (v : Word) (s : State), s.writeOk 0x3080 = true → s.injects 4 = false →
    exec (.wdgEvidIdxWrite v) s = .next (((s.set F.WDG_EVID_IDX_K v.toNat).injCheck 12 (area 5).base).copyWords 0x3090 16 (s.bodyBack 5 (v.toNat % 16)))) ∧
  (∀ (v : Word) (c : Nat) (a s : State), s.writeOk 0x3004 = true → bits v.toNat 16 16 = 0x5EA7 → bits v.toNat 8 8 < 8 → s.seatRuns (bits v.toNat 8 8) = true →
    s.wdg.stage2 = none → s.vioNow = false → s.injects 4 = false → a = ({ s with draws := s.draws + 1 } : State).set (F.WDG_SEAT_STAT_TAG (bits v.toNat 8 8)) (v.toNat % 256) →
    c = a.serviceCause (bits v.toNat 8 8) → c ≠ 0 → exec (.wdgService v) s = .next (a.violate [(bits v.toNat 8 8)] c ((Config.freeWord s.draws).toNat % 2 ^ 32))) ∧
  (∀ (v : Word) (a s : State), s.writeOk 0x3004 = true → bits v.toNat 16 16 = 0x5EA7 → bits v.toNat 8 8 < 8 → s.seatRuns (bits v.toNat 8 8) = true →
    s.wdg.stage2.isSome = true → s.vioNow = false → s.injects 4 = false → a = ({ s with draws := s.draws + 1 } : State).set (F.WDG_SEAT_STAT_TAG (bits v.toNat 8 8)) (v.toNat % 256) →
    exec (.wdgService v) s = .next ({ a with wdg := { a.wdg with s2Services := incSat a.wdg.s2Services 255 } })) ∧
  (∀ (s : State) (n : Nat), (s.seat n).first = true → s.serviceCause n = 0) ∧
  (∀ (s : State) (n : Nat), (s.seat n).first = false → s.seatT n < s.seatOp n → s.serviceCause n = 2) ∧
  (∀ (s : State) (n : Nat), (s.seat n).first = false → s.seatOp n ≤ s.seatT n → (s.seat n).served = true → s.serviceCause n = 3) ∧
  (∀ (v : Word) (s : State), s.writeOk 0x3004 = true → bits v.toNat 16 16 = 0x5EA7 → bits v.toNat 8 8 < 8 →
    s.flag (F.WDG_SEAT_CFG_EN (bits v.toNat 8 8)) = true → s.seatRuns (bits v.toNat 8 8) = false → s.vioNow = false →
    s.injects 4 = false →
    exec (.wdgService v) s = .next (s)) ∧
  (∀ (pc : Word) (s : State), s.corePeriod = none → exec (.coreWdgExpiry pc) s = .next (s)) ∧
  (∀ (s : State), s.corePeriod = none ∨ (s.dev.mode = .black ∧ s.dev.blackFromBoot = true) → exec .coreWdgService s = .next (s)) ∧
  (∀ (s : State), s.wdg.stage2 = none → exec .secondPeriodEnd s = .next (s))

/-- Seats left unserved violate together, the lowest first. The model's readings and choices: seats that violate at one tick (log entry
32). Rests on 15_watchdogs_and_seats.md. -/
def Obligations.SeatsExpireTogether : Prop :=
  (∀ (s : State) (k pc n : Nat) (r : List Nat),
    (((List.range 8).filter fun n => s.seatRuns n && decide (s.seatEnd n ≤ k)).filter fun n => (s.seat n).first || !(s.seat n).served) = n :: r →
    s.wdg.stage2 = none → s.flag F.WDG_CFG_COMPAT = false →
    s.violate (((List.range 8).filter fun n => s.seatRuns n && decide (s.seatEnd n ≤ k)).filter fun n => (s.seat n).first || !(s.seat n).served) 1 pc
      = (({ s with wdg := { s.wdg with vioTick := some s.aoTicks } } : State).evidenceLatch 0 n 1 pc (n :: r)).wdxStart.startReset F.SYS_RESET_CAUSE_HOST_WDG) ∧
  (∀ (s : State) (k pc : Nat), s.flag F.WDG_STAT_RUN = true →
    (∀ n, n < 8 → s.seatRuns n = true → s.seatEnd n ≤ k → (s.seat n).first = false ∧ (s.seat n).served = true) →
    ∀ n, n < 8 → s.seatRuns n = true → s.seatEnd n ≤ k →
      ((s.seatsRoll k pc).seat n).start = s.seatEnd n ∧ ((s.seatsRoll k pc).seat n).served = false ∧ (s.seatsRoll k pc).dev = s.dev)

/-- Which records the internal buffer takes, and which are lost. The bytes of EVT_OVERFLOW are those of R393. Formalises R382, R383. -/
def Obligations.BufferAdmission : Prop :=
  (∀ (s u v : State) (q : Req) (l : List Req), s.coreRuns = true → s.dev.mode ≠ .boot ∨ s.otp.prog = none →
    s.evt.reqs = q :: l → s.due (2 * q.clk) = u → u.masked q.block q.code = false →
    ({ u with evt := { u.evt with reqs := l } } : State).fillOverflow = v →
    (q.colour < 2 ∧ v.evt.buf.length < 28 ∧ v.evt.ovfAt ≠ some v.coreClk) ∨ (2 ≤ q.colour ∧ v.evt.buf.length < 32) →
    exec .eventRequest s = .next { v with evt := { v.evt with buf := v.evt.buf ++ [u.record 1 q.colour q.block q.code q.payload] } }) ∧
  (∀ (s u v : State) (q : Req) (l : List Req), s.coreRuns = true → s.dev.mode ≠ .boot ∨ s.otp.prog = none →
    s.evt.reqs = q :: l → s.due (2 * q.clk) = u → u.masked q.block q.code = false →
    ({ u with evt := { u.evt with reqs := l } } : State).fillOverflow = v → q.colour < 2 → v.evt.ovfAt = some v.coreClk →
    exec .eventRequest s = .next (v.loseRecord q.colour)) ∧
  (∀ (s u : State) (q : Req) (l : List Req), s.coreRuns = true → s.dev.mode ≠ .boot ∨ s.otp.prog = none →
    s.evt.reqs = q :: l → s.due (2 * q.clk) = u → u.masked q.block q.code = false →
    q.colour = 0 → 28 ≤ u.evt.buf.length →
    exec .eventRequest s = .next { (u.set F.EVT_IRQ_STAT_LOST 1).incSatF F.EVT_LOST_GREEN with
      evt := { u.evt with reqs := l, lostG := incSat u.evt.lostG 65535 } }) ∧
  (∀ (s u : State) (q : Req) (l : List Req), s.coreRuns = true → s.dev.mode ≠ .boot ∨ s.otp.prog = none →
    s.evt.reqs = q :: l → s.due (2 * q.clk) = u → u.masked q.block q.code = false →
    q.colour = 1 → 28 ≤ u.evt.buf.length →
    exec .eventRequest s = .next { (u.set F.EVT_IRQ_STAT_LOST 1).incSatF F.EVT_LOST_AMBER with
      evt := { u.evt with reqs := l, lostA := incSat u.evt.lostA 65535 } }) ∧
  (∀ (s u : State) (q : Req) (l : List Req), s.coreRuns = true → s.dev.mode ≠ .boot ∨ s.otp.prog = none →
    s.evt.reqs = q :: l → s.due (2 * q.clk) = u → u.masked q.block q.code = false →
    2 ≤ q.colour → 32 ≤ u.evt.buf.length →
    exec .eventRequest s = .next { (u.set F.EVT_IRQ_STAT_LOST 1).incSatF F.EVT_LOST_RB with
      evt := { u.evt with reqs := l, lostR := incSat u.evt.lostR 65535 } }) ∧
  (∀ s : State, s.evt.lostG ≠ 0 ∨ s.evt.lostA ≠ 0 ∨ s.evt.lostR ≠ 0 → s.evt.buf.length < 28 → s.evt.ovfAt ≠ some s.coreClk →
    s.fillOverflow = { s with evt := { s.evt with
      buf := s.evt.buf ++ [s.record 2 (if s.evt.lostA ≠ 0 then 1 else 0) 0xD 1
        (leBytes 2 s.evt.lostG ++ leBytes 2 s.evt.lostA ++ leBytes 2 s.evt.lostR)], lostG := 0, lostA := 0, lostR := 0, ovfAt := some s.coreClk } }) ∧
  (∀ s : State, (s.evt.lostG = 0 ∧ s.evt.lostA = 0 ∧ s.evt.lostR = 0) ∨ 28 ≤ s.evt.buf.length ∨ s.evt.ovfAt = some s.coreClk → s.fillOverflow = s) ∧
  (∀ (s t : State) (v : Word), (s.overflowOwed = true → s.evt.ovfAt = some s.coreClk) →
    exec .eventRequest s = .next t ∨ exec .recordCommit s = .next t ∨ exec (.evtMaskWrite v) s = .next t →
    t.overflowOwed = true → t.evt.ovfAt = some t.coreClk) ∧
  (∀ s : State, s.masked 0xD 1 = false) ∧
  (∀ (s t : State) (v : Word), s.evt.buf.length ≤ 32 →
    exec .eventRequest s = .next t ∨ exec .recordCommit s = .next t ∨ exec (.evtMaskWrite v) s = .next t → t.evt.buf.length ≤ 32)

/-- Commits, deliveries, masks and the ring's registers. The model's readings and choices: an arm key that waits while HOSTRST_N is
asserted (log entry 47), and the order of one clock's requests (entry 35). Rests on 16_host_link_and_events.md. -/
def Obligations.RingCommands : Prop :=
  (∀ (s : State) (r : Rec) (l : List Rec), s.dev.mode = .run → s.evt.armed = true → s.evt.pushHeld = false → 0 < s.ringFree → s.evt.pb.length < 4 →
    s.evt.buf = r :: l → exec .recordCommit s = .next ((({ s with evt := { s.evt with
      buf := l, head := (s.evt.head + 1) % 32, pb := s.evt.pb ++ [r] } } : State).cross 9 0 |>.incWrapF F.EVT_PROD_PROD).fillOverflow.pushTry)) ∧
  (∀ (s t : State) (k : Nat) (r : Rec) (l : List Rec), s.dev.mode = .run → s.evt.pushAt = some k → s.evt.pb = r :: l →
    t = ({ s.due (k + 162 * s.epPeriod5 / 5) with evt := { s.evt with
      pb := l, lastPush := beBytes 2 (s.get F.EVT_PROD_DONE) ++ r.bytes ++ beBytes 2 (crc16 (beBytes 2 (s.get F.EVT_PROD_DONE) ++ r.bytes)),
      pushAt := none, pushFree := k + 164 * s.epPeriod5 / 5, delivered := s.evt.delivered ++ [(s.due (k + 162 * s.epPeriod5 / 5)).now] } } : State).incWrapF F.EVT_PROD_DONE →
    exec .pushDone s = .next (if l = [] ∧ s.evt.armWaiting = true then t.arm else t.pushTry)) ∧
  (∀ s : State, s.evt.pb ≠ [] → s.evt.pushAt = none → s.quietIn F.FRM_QUIET_CFG_EP_HOLD (s.evt.pushFree - s.now) = false →
    s.pushTry = { s with evt := { s.evt with pushAt := some (max s.now s.evt.pushFree) } }) ∧
  (∀ s : State, s.quietIn F.FRM_QUIET_CFG_EP_HOLD (s.evt.pushFree - s.now) = true → s.pushTry = s) ∧
  (∀ (v : Word) (s : State), s.writeOk 0x3414 = true →
    wrap16 ((↑(v.toNat % 65536) : Int) - s.get F.EVT_CONS_CONS) ≤ wrap16 ((s.get F.EVT_PROD_DONE : Int) - s.get F.EVT_CONS_CONS) →
    s.injects 4 = false →
    exec (.evtConsWrite v) s = .next ({ s.set F.EVT_CONS_CONS (v.toNat % 65536) with evt := { s.evt with
      delivered := s.evt.delivered.drop (wrap16 ((↑(v.toNat % 65536) : Int) - s.get F.EVT_CONS_CONS)) } })) ∧
  (∀ (v : Word) (s : State), s.writeOk 0x3414 = true →
    wrap16 ((s.get F.EVT_PROD_DONE : Int) - s.get F.EVT_CONS_CONS) < wrap16 ((↑(v.toNat % 65536) : Int) - s.get F.EVT_CONS_CONS) →
    s.injects 4 = false →
    exec (.evtConsWrite v) s = .next ((s.set F.EVT_IRQ_STAT_CONS_BAD 1).setDisc)) ∧
  (∀ (s : State), s.writeOk 0x3408 = true → s.evt.armed = false → s.evt.pb = [] → s.injects 4 = false →
    exec .evtArm s = .next (((({ s with evt := { s.evt with armed := true, armWaiting := false, delivered := [] } } : State).set F.EVT_PROD_PROD 0).set F.EVT_PROD_DONE 0).set F.EVT_CONS_CONS 0)) ∧
  (∀ (s : State), s.writeOk 0x3408 = true → s.evt.armed = false → s.evt.pb ≠ [] → s.injects 4 = false →
    exec .evtArm s = .next ({ s with evt := { s.evt with armWaiting := true } })) ∧
  (∀ (s : State), s.writeOk 0x3408 = true → s.injects 4 = false →
    exec .evtDisarm s = .next ({ s with evt := { s.evt with armed := false } })) ∧
  (∀ (v : Word) (s : State), s.writeOk 0x3418 = true → s.injects 4 = false →
    exec (.evtMaskWrite v) s = .next (s.maskWrite (v.toNat % 2 ^ 19))) ∧
  (∀ (v : Word) (s : State), s.writeOk 0x3424 = true → s.injects 4 = false →
    exec (.evtAck v) s = .next (forEach (List.range 8) (fun k t =>
      if bitOf (v.toNat % 256) k = true ∧ t.bitF F.EVT_LVL_REPORTED k = true then
        if t.levelActive k = true then t.emitLevel k 1 else t.putBitF F.EVT_LVL_REPORTED k false
      else t) s)) ∧
  (∀ (k : Fin 8) (s : State), s.coreRuns = true → s.bitF F.EVT_LVL_EN_EN k = true → s.bitF F.EVT_LVL_REPORTED k = false →
    s.levelActive k = true →
    exec (.evtLevel k) s = .next ((s.emitC 0xD 2 (levelColour k) [(k, 1), (s.levelBits, 1), (0, 1)]).putBitF F.EVT_LVL_REPORTED k true)) ∧
  (∀ (s : State), s.writeOk 0x3430 = true → s.injects 4 = false →
    exec .clearLost s = .next (((s.set F.EVT_LOST_RB 0).set F.EVT_LOST_AMBER 0).set F.EVT_LOST_GREEN 0)) ∧
  (∀ (s : State), s.writeOk 0x3430 = true → s.injects 4 = false → exec .clearMasked s = .next (s.set F.EVT_MASKED_CNT 0)) ∧
  (∀ (s : State), s.writeOk 0x3430 = true → s.injects 4 = false →
    exec .clearHlCnt s = .next ((((s.set F.EVT_HL_CNT_LATE 0).set F.EVT_HL_CNT_ABORT 0).set F.EVT_HL_CNT_BUSY 0).set F.EVT_HL_CNT_CRC 0)) ∧
  (∀ (t : Nat) (s : State), s.ringDue = some t → exec .ringHoldoff s = .next (s.due t)) ∧
  (∀ (s : State), s.ringDue = none → exec .ringHoldoff s = .next (s)) ∧
  (∀ (s : State) (t : Nat) (l : List Nat), s.get F.EVT_IRQ_CFG_HOLDOFF ≠ 0 → s.evt.delivered = t :: l →
    s.ringDue = some (t + s.get F.EVT_IRQ_CFG_HOLDOFF * 100 * engPerUs)) ∧
  (∀ (s u : State) (q : Req) (l : List Req), s.coreRuns = true → s.dev.mode ≠ .boot ∨ s.otp.prog = none → s.evt.reqs = q :: l →
    s.due (2 * q.clk) = u → u.masked q.block q.code = true →
    exec .eventRequest s = .next (({ u with evt := { u.evt with reqs := l } } : State).incSatF F.EVT_MASKED_CNT)) ∧
  (∀ s : State, s.evt.reqs = [] → exec .eventRequest s = .next s) ∧
  (∀ (s : State) (p : Nat × Nat), s.dev.mode = .boot → s.otp.prog = some p → exec .eventRequest s = .next s) ∧
  (∀ (r : Rec) (l : List Rec) (s : State), s.dev.mode = .run → s.evt.armed = true → s.evt.pushHeld = false → 0 < s.ringFree →
    4 ≤ s.evt.pb.length → s.evt.buf = r :: l →
    exec .recordCommit s = .next (s.set F.SYS_CREDIT_WAIT_EVP 1)) ∧
  (∀ (r : Rec) (l : List Rec) (s : State), s.evt.buf = r :: l →
    s.dev.mode ≠ .run ∨ s.evt.armed = false ∨ s.evt.pushHeld = true ∨ s.ringFree ≤ 0 →
    exec .recordCommit s = .next (s)) ∧
  (∀ (s : State), s.evt.buf = [] → exec .recordCommit s = .next (s)) ∧
  (∀ (s : State), s.writeOk 0x3408 = true → s.evt.armed = true → s.injects 4 = false →
    exec .evtArm s = .next ({ s with hl := { s.hl with disc := true } })) ∧
  (∀ (s : State), s.dev.mode ≠ .run ∨ s.pushTry.evt.pushAt = none → exec .pushDone s = .next (s)) ∧
  (∀ (k : Fin 8) (s : State),
    s.coreRuns = false ∨ s.bitF F.EVT_LVL_EN_EN k = false ∨ s.bitF F.EVT_LVL_REPORTED k = true ∨ s.levelActive k = false →
    exec (.evtLevel k) s = .next (s))

/-- Commits take ring slots, deliveries do not, and consumption gives them back. Rests on 16_host_link_and_events.md. -/
def Obligations.RingCounts : Prop :=
  (∀ s t : State, s.evt.buf ≠ [] → s.dev.mode = .run → s.evt.armed = true → s.evt.pushHeld = false → 0 < s.ringFree → s.evt.pb.length < 4 →
    s.get F.EVT_RING_CFG_LOG2N ≤ 12 →
    exec .recordCommit s = .next t → t.ringFree = s.ringFree - 1) ∧
  (∀ s t : State, s.evt.armWaiting = false → exec .pushDone s = .next t → t.ringFree = s.ringFree) ∧
  (∀ s t : State, s.writeOk 0x3408 = true → s.injects 4 = false → s.evt.armed = false → s.evt.pb = [] → exec .evtArm s = .next t → t.ringFree = 2 ^ s.get F.EVT_RING_CFG_LOG2N) ∧
  (∀ s t : State, s.evt.buf ≠ [] → s.dev.mode = .run → s.evt.armed = true → s.evt.pushHeld = false → 0 < s.ringFree → s.evt.pb.length < 4 →
    s.get F.EVT_RING_CFG_LOG2N ≤ 12 → exec .recordCommit s = .next t → 0 ≤ t.ringFree) ∧
  (∀ (v : Word) (s t : State), s.writeOk 0x3414 = true →
    wrap16 ((↑(v.toNat % 65536) : Int) - s.get F.EVT_CONS_CONS) ≤ wrap16 ((s.get F.EVT_PROD_DONE : Int) - s.get F.EVT_CONS_CONS) →
    wrap16 ((↑(v.toNat % 65536) : Int) - s.get F.EVT_CONS_CONS) ≤ wrap16 ((s.get F.EVT_PROD_PROD : Int) - s.get F.EVT_CONS_CONS) →
    exec (.evtConsWrite v) s = .next t → t.ringFree = s.ringFree + (wrap16 ((↑(v.toNat % 65536) : Int) - s.get F.EVT_CONS_CONS) : Int))

/-- Frames of the host link, their status word and what a read leaves. The model's readings and choices: what ABORT and DISC count (log
entry 14), the operand for where a frame began and the order of the checks (entry 12), and LATE by whole frames (entry 13). Rests on
16_host_link_and_events.md, 06_control_engine.md, 19_journal_and_update.md. -/
def Obligations.HostFrames : Prop :=
  (∀ (a : BitVec 16) (n : BitVec 8) (crc : BitVec 16) (b : Bool) (t : State) (i : Nat) (s : State), s.hlLive = true → s.freeHl ≠ 0 →
    s.admitFrame false (wordAddrs a.toNat n.toNat) = (t, i) → 1 ≤ n.toNat → n.toNat ≤ 64 → spanOk a.toNat n.toNat = true →
    crc16 ([0x52] ++ beBytes 2 a.toNat ++ [byte n.toNat]) = crc.toNat → t.refuses false (wordAddrs a.toNat n.toNat) = false →
    t.readBlocked (wordAddrs a.toNat n.toNat) = false →
    exec (.hlRead .here 0x52 a n crc b) s = .next (((t.countFrame.fetchWords (wordAddrs a.toNat n.toNat)).2.answer .ok (t.countFrame.fetchWords (wordAddrs a.toNat n.toNat)).1).frameEnd i)) ∧
  (∀ (a : BitVec 16) (n : BitVec 8) (crc : BitVec 16) (b : Bool) (t : State) (i : Nat) (s : State), s.hlLive = true → s.freeHl ≠ 0 →
    s.admitFrame false (wordAddrs a.toNat n.toNat) = (t, i) → 1 ≤ n.toNat → n.toNat ≤ 64 → spanOk a.toNat n.toNat = true →
    crc16 ([0x52] ++ beBytes 2 a.toNat ++ [byte n.toNat]) = crc.toNat → t.refuses false (wordAddrs a.toNat n.toNat) = false →
    t.readBlocked (wordAddrs a.toNat n.toNat) = true →
    exec (.hlRead .here 0x52 a n crc b) s = .next (((t.incSatF F.EVT_HL_CNT_LATE).answer .late ((wordAddrs a.toNat n.toNat).map fun _ => 0)).frameEnd i)) ∧
  (∀ (a : BitVec 16) (n : BitVec 8) (crc : BitVec 16) (b : Bool) (t : State) (i : Nat) (s : State), s.hlLive = true → s.freeHl ≠ 0 →
    s.admitFrame false (wordAddrs a.toNat n.toNat) = (t, i) → 1 ≤ n.toNat → n.toNat ≤ 64 → spanOk a.toNat n.toNat = true →
    crc16 ([0x52] ++ beBytes 2 a.toNat ++ [byte n.toNat]) = crc.toNat → t.refuses false (wordAddrs a.toNat n.toNat) = true →
    exec (.hlRead .here 0x52 a n crc b) s = .next ((t.answer .refused (zeroWords n.toNat)).frameEnd i)) ∧
  (∀ (a : BitVec 16) (n : BitVec 8) (crc : BitVec 16) (b : Bool) (t : State) (i : Nat) (s : State), s.hlLive = true → s.freeHl ≠ 0 →
    s.admitFrame false (wordAddrs a.toNat n.toNat) = (t, i) → 1 ≤ n.toNat → n.toNat ≤ 64 →
    crc16 ([0x52] ++ beBytes 2 a.toNat ++ [byte n.toNat]) ≠ crc.toNat →
    exec (.hlRead .here 0x52 a n crc b) s = .next ((((t.incSatF F.EVT_HL_CNT_CRC).raise 35 a.toNat).answer .crcError (zeroWords n.toNat)).frameEnd i)) ∧
  (∀ (cmd : Byte) (a : BitVec 16) (n : BitVec 8) (crc : BitVec 16) (b : Bool) (t : State) (i : Nat) (s : State), s.hlLive = true →
    s.freeHl ≠ 0 → s.admitFrame false (wordAddrs a.toNat n.toNat) = (t, i) →
    cmd ≠ 0x52 ∨ n.toNat < 1 ∨ 64 < n.toNat ∨ (spanOk a.toNat n.toNat = false ∧ crc16 ([cmd] ++ beBytes 2 a.toNat ++ [byte n.toNat]) = crc.toNat) →
    exec (.hlRead .here cmd a n crc b) s = .next ((t.answer .badFrame (if cmd = 0x52 then zeroWords n.toNat else [])).frameEnd i)) ∧
  (∀ (a : BitVec 16) (n : BitVec 8) (d : List Word) (crc : BitVec 16) (b : Bool) (t : State) (i : Nat) (s : State), s.hlLive = true →
    s.freeHl ≠ 0 → s.admitFrame true (wordAddrs a.toNat n.toNat) = (t, i) → 1 ≤ n.toNat → n.toNat ≤ 64 → d.length = n.toNat →
    spanOk a.toNat n.toNat = true →
    crc16 ([0x57] ++ beBytes 2 a.toNat ++ [byte n.toNat] ++ (d.map fun x => x.toNat).flatMap (beBytes 4)) = crc.toNat →
    t.refuses true (wordAddrs a.toNat n.toNat) = false →
    exec (.hlWrite .here a n d crc b) s = .next (t.hlStore i ((wordAddrs a.toNat n.toNat).zip (d.map fun x => x.toNat)))) ∧
  (∀ (a : BitVec 16) (n : BitVec 8) (d : List Word) (crc : BitVec 16) (b : Bool) (t : State) (i : Nat) (s : State), s.hlLive = true →
    s.freeHl ≠ 0 → s.admitFrame true (wordAddrs a.toNat n.toNat) = (t, i) → 1 ≤ n.toNat → n.toNat ≤ 64 → d.length = n.toNat →
    spanOk a.toNat n.toNat = true →
    crc16 ([0x57] ++ beBytes 2 a.toNat ++ [byte n.toNat] ++ (d.map fun x => x.toNat).flatMap (beBytes 4)) = crc.toNat →
    t.refuses true (wordAddrs a.toNat n.toNat) = true →
    exec (.hlWrite .here a n d crc b) s = .next ((t.answer .refused []).frameEnd i)) ∧
  (∀ (a : BitVec 16) (n : BitVec 8) (d : List Word) (crc : BitVec 16) (b : Bool) (t : State) (i : Nat) (s : State), s.hlLive = true →
    s.freeHl ≠ 0 → s.admitFrame true (wordAddrs a.toNat n.toNat) = (t, i) → 1 ≤ n.toNat → n.toNat ≤ 64 → d.length = n.toNat →
    crc16 ([0x57] ++ beBytes 2 a.toNat ++ [byte n.toNat] ++ (d.map fun x => x.toNat).flatMap (beBytes 4)) ≠ crc.toNat →
    exec (.hlWrite .here a n d crc b) s = .next ((((t.incSatF F.EVT_HL_CNT_CRC).raise 35 a.toNat).answer .crcError []).frameEnd i)) ∧
  (∀ (a : BitVec 16) (n : BitVec 8) (d : List Word) (crc : BitVec 16) (b : Bool) (t : State) (i : Nat) (s : State), s.hlLive = true →
    s.freeHl ≠ 0 → s.admitFrame true (wordAddrs a.toNat n.toNat) = (t, i) → d.length = n.toNat →
    n.toNat < 1 ∨ 64 < n.toNat ∨ (spanOk a.toNat n.toNat = false ∧ crc16 ([0x57] ++ beBytes 2 a.toNat ++ [byte n.toNat] ++ (d.map fun x => x.toNat).flatMap (beBytes 4)) = crc.toNat) →
    exec (.hlWrite .here a n d crc b) s = .next ((t.answer .badFrame []).frameEnd i)) ∧
  (∀ (cmd : Byte) (a : BitVec 16) (n : BitVec 8) (crc : BitVec 16) (b : Bool) (s : State), s.hlLive = true → s.freeHl = 0 →
    exec (.hlRead .here cmd a n crc b) s = .next (((s.incSatF F.EVT_HL_CNT_BUSY).set F.SYS_CREDIT_WAIT_HL 1).answer .busy (if cmd = 0x52 then zeroWords n.toNat else []))) ∧
  (∀ (a : BitVec 16) (n : BitVec 8) (d : List Word) (crc : BitVec 16) (b : Bool) (s : State), s.hlLive = true → s.freeHl = 0 →
    exec (.hlWrite .here a n d crc b) s = .next (((s.incSatF F.EVT_HL_CNT_BUSY).set F.SYS_CREDIT_WAIT_HL 1).answer .busy [])) ∧
  (∀ (x : FrameStart) (cmd : Byte) (a : BitVec 16) (n : BitVec 8) (crc : BitVec 16) (b : Bool) (s : State), s.dev.mode = .boot →
    s.dev.stage ≠ .waiting →
    exec (.hlRead x cmd a n crc b) s = .next (s.answer .booting (if cmd = 0x52 then zeroWords n.toNat else []))) ∧
  (∀ (x : FrameStart) (a : BitVec 16) (n : BitVec 8) (d : List Word) (crc : BitVec 16) (b : Bool) (s : State), s.dev.mode = .boot →
    s.dev.stage ≠ .waiting →
    exec (.hlWrite x a n d crc b) s = .next (s.answer .booting [])) ∧
  (∀ (cmd : Byte) (a : BitVec 16) (n : BitVec 8) (crc : BitVec 16) (b : Bool) (s : State), s.hlLive = true →
    exec (.hlRead .boot cmd a n crc b) s = .next (s.answer .booting (if cmd = 0x52 then zeroWords n.toNat else []))) ∧
  (∀ (cmd : Byte) (a : BitVec 16) (n : BitVec 8) (crc : BitVec 16) (b : Bool) (s : State), s.hlLive = true →
    exec (.hlRead .park cmd a n crc b) s = .next (s.answer .parked (if cmd = 0x52 then zeroWords n.toNat else []))) ∧
  (∀ (a : BitVec 16) (n : BitVec 8) (d : List Word) (crc : BitVec 16) (b : Bool) (s : State), s.hlLive = true →
    exec (.hlWrite .boot a n d crc b) s = .next (s.answer .booting [])) ∧
  (∀ (a : BitVec 16) (n : BitVec 8) (d : List Word) (crc : BitVec 16) (b : Bool) (s : State), s.hlLive = true →
    exec (.hlWrite .park a n d crc b) s = .next (s.answer .parked [])) ∧
  (∀ (x : FrameStart) (cmd : Byte) (a : BitVec 16) (n : BitVec 8) (crc : BitVec 16) (b : Bool) (s : State), s.dev.mode = .park →
    s.dev.stage ≠ .waiting →
    exec (.hlRead x cmd a n crc b) s = .next ((s.answer .parked (if cmd = 0x52 then zeroWords n.toNat else [])).wakeFire 7 b)) ∧
  (∀ (x : FrameStart) (a : BitVec 16) (n : BitVec 8) (d : List Word) (crc : BitVec 16) (b : Bool) (s : State), s.dev.mode = .park →
    s.dev.stage ≠ .waiting →
    exec (.hlWrite x a n d crc b) s = .next ((s.answer .parked []).wakeFire 7 b)) ∧
  (∀ (b : Bool) (s : State), s.hlLive = true ∨ s.dev.mode = .boot → s.dev.stage ≠ .waiting →
    exec (.hlFrameAbort none b) s = .next (s.incSatF F.EVT_HL_CNT_ABORT)) ∧
  (∀ (b : Bool) (s : State), s.dev.mode = .park → s.dev.stage ≠ .waiting →
    exec (.hlFrameAbort none b) s = .next ((s.incSatF F.EVT_HL_CNT_ABORT).wakeFire 7 b)) ∧
  (∀ (b : Bool) (s : State), s.dev.stage = .waiting → exec (.hlFrameAbort none b) s = .next (s)) ∧
  (∀ (k : Nat) (b : Bool) (s : State), (∀ x ∈ s.hl.frames, x.owed = none) → 4 ≤ k →
    exec (.hlFrameAbort (some k) b) s = .next ({ s with hl := { s.hl with response := s.hl.response.take k } })) ∧
  (∀ (k : Nat) (b : Bool) (s : State), (∀ x ∈ s.hl.frames, x.owed = none) → k < 4 →
    exec (.hlFrameAbort (some k) b) s = .next ({ s with hl := { s.hl with
      response := s.hl.response.take k, disc := s.hl.disc || bitOf (s.hl.response.getD 2 0).toNat 2 } })) ∧
  (∀ (x : Frame) (k : Nat) (b : Bool) (s : State), x ∈ s.hl.frames → x.owed.isSome = true →
    exec (.hlFrameAbort (some k) b) s = .next ({ s with hl := { s.hl with frames := s.hl.frames.map fun x => { x with owed := none } } })) ∧
  (∀ (s : State) (w : Bool) (l : List Nat), s.injects 8 = false → s.admitFrame w l = ({ s with hl := { s.hl with
    frames := s.hl.frames ++ [⟨s.hl.nextId, w, blocksOf l, 1, 0, none⟩], nextId := s.hl.nextId + 1 } }, s.hl.nextId)) ∧
  (∀ (s : State) (c : Status), bits (s.statusWord c) 24 8 = 0x5A ∧ bits (s.statusWord c) 16 4 = c.code ∧
    bits (s.statusWord c) 20 4 = if c = .booting then Mode.boot.code else if c = .parked then Mode.park.code else s.dev.mode.code) ∧
  (∀ (s : State) (c : Status), c ≠ .booting → c ≠ .parked → bits (s.statusWord c) 12 4 = s.freeHl ∧ bits (s.statusWord c) 11 1 = b2n s.irqLow ∧
    bits (s.statusWord c) 10 1 = b2n s.hl.disc ∧ bits (s.statusWord c) 9 1 = b2n (s.levelActive 7) ∧ bits (s.statusWord c) 8 1 = b2n s.anyPending ∧ bits (s.statusWord c) 0 8 = s.hl.fseq % 256) ∧
  (∀ (s : State) (c : Status), c = .booting ∨ c = .parked → s.statusWord c % 65536 = 0) ∧
  (∀ (s : State) (l : List Nat), s.flag F.FLT_INJ_STAT_ARMED = false → (∀ a ∈ l, a ≠ 0x1010 ∧ a ≠ 0x4410 ∧ a ≠ 0x4404) → s.fetchWords l = (l.map s.shownWord, s))

/-- Edges, misses, holdover, wraps and the burst maps. The model's readings and choices: which events the clock waits for (log entry 2),
the operand of an edge and the end of its level (entry 27), and HELD at entry to FREE and the edges of holdover (entry 44). Rests on
04_frame_time_and_pips.md. -/
def Obligations.FrameTimingCommands : Prop :=
  (∀ (w n : Nat) (r : Bool) (s : State), s.dev.mode = .run → s.frmState ≠ 0 →
    exec (.fsyncEdge w r n) s = .next (((s.pass w).due s.frm.levelEnd).fsyncJudge r n)) ∧
  (∀ (w n : Nat) (r : Bool) (s : State), s.dev.mode ≠ .run ∨ s.frmState = 0 → exec (.fsyncEdge w r n) s = .next (s)) ∧
  (∀ (s : State) (r : Bool) (n : Nat), r = s.flag F.FRM_CFG_POL ∨ n < 50 →
    s.fsyncJudge r n = s.setFrm { s.frm with levelEnd := s.now + (n * 4 + 24) / 25 }) ∧
  (∀ (s : State) (r : Bool) (n : Nat), r ≠ s.flag F.FRM_CFG_POL → 100 ≤ n →
    s.fsyncJudge r n = (s.setFrm { s.frm with levelEnd := s.now + (n * 4 + 24) / 25 }).frmEdge) ∧
  (∀ (p : Nat) (s : State), s.frmState = 3 → p = (s.get F.FRM_SYNC_SYNC_PIP + s.get F.FRM_CFG_WIN + 1) % 65536 → s.pip < p →
    32768 ≤ (s.pip + 65536 - p) % 65536 ∨ s.missDue = false → (s.toPip p).missDue = true →
    exec .frameMiss s = .next ((s.toPip p).frmMiss)) ∧
  (∀ s : State, s.missDue = decide (2 ^ 47 / s.get F.FRM_INC_INC ≤ s.now - s.frm.lastWin)) ∧
  (∀ (s : State), s.frmState = 4 → s.flag F.SYS_STATE_XTAL_FAIL = false → s.get F.FRM_SYNC_HOLD_MAX ≤ s.get F.FRM_STATE_HELD →
    exec .holdoverLimit s = .next (((s.set F.FRM_STATE_STATE 5).set F.FRM_STATE_HELD 0).emit 1 3 [(0, 1)])) ∧
  (∀ (s : State), s.counting = true → exec .frameWrap s = .next (s.frameWrap)) ∧
  (∀ (s : State), s.counting = true → exec .bmapLatch s = .next ((s.toPip 61440).mapLatch)) ∧
  (∀ (s : State), s.writeOk 0x0440 = true → s.injects 4 = false → exec .bmapCommitPersistent s = .next (s.mapCommit false)) ∧
  (∀ (s : State), s.writeOk 0x0440 = true → s.injects 4 = false → exec .bmapCommitOneFrame s = .next (s.mapCommit true)) ∧
  (∀ (v : Word) (s t : State), s.writeOk 0x0400 = true → 16 ≤ bits v.toNat 16 12 → bits v.toNat 16 12 ≤ 2048 → 1 ≤ bits v.toNat 8 8 →
    bits v.toNat 8 8 ≤ bits v.toNat 16 12 → s.injects 4 = false →
    t = ((((s.set F.FRM_CFG_WIN (bits v.toNat 16 12)).set F.FRM_CFG_LOCK_TOL (bits v.toNat 8 8)).set F.FRM_CFG_MISS (bits v.toNat 4 3)).set
      F.FRM_CFG_POL (bits v.toNat 1 1)).set F.FRM_CFG_EN (v.toNat % 2) →
    exec (.frmCfgWrite v) s = .next (if v.toNat % 2 = 0 then t.frmStop else if s.inMode .run = true then t.frmStart else t)) ∧
  (∀ (s : State) (r : Bool) (n : Nat), r ≠ s.flag F.FRM_CFG_POL → 50 ≤ n → n < 100 →
    s.fsyncJudge r n = if (Config.freeWord s.draws).toNat % 2 = 1 then ({ s with draws := s.draws + 1, frm := { s.frm with levelEnd := s.now + (n * 4 + 24) / 25 } } : State).frmEdge
      else ({ s with draws := s.draws + 1, frm := { s.frm with levelEnd := s.now + (n * 4 + 24) / 25 } } : State)) ∧
  (∀ (p : Nat) (s : State), s.frmState = 3 → p = (s.get F.FRM_SYNC_SYNC_PIP + s.get F.FRM_CFG_WIN + 1) % 65536 → (s.pip + 65536 - p) % 65536 < 32768 → 2 ^ 47 / s.get F.FRM_INC_INC ≤ s.now - s.frm.lastWin →
    exec .frameMiss s = .next s.frmMiss) ∧
  (∀ (p : Nat) (s : State), s.frmState = 3 → p = (s.get F.FRM_SYNC_SYNC_PIP + s.get F.FRM_CFG_WIN + 1) % 65536 → 32768 ≤ (s.pip + 65536 - p) % 65536 ∨ s.missDue = false →
    p ≤ s.pip ∨ (s.toPip p).missDue = false → exec .frameMiss s = .next s) ∧
  (∀ (s : State), s.frmState ≠ 3 → exec .frameMiss s = .next (s)) ∧
  (∀ (s : State), s.frmState = 4 → s.flag F.SYS_STATE_XTAL_FAIL = true →
    exec .holdoverLimit s = .next (((s.set F.FRM_STATE_STATE 5).set F.FRM_STATE_HELD 0).emit 1 3 [(1, 1)])) ∧
  (∀ (s : State), s.frmState ≠ 4 ∨ (s.flag F.SYS_STATE_XTAL_FAIL = false ∧ s.get F.FRM_STATE_HELD < s.get F.FRM_SYNC_HOLD_MAX) →
    exec .holdoverLimit s = .next (s)) ∧
  (∀ (v : Word) (s : State), s.writeOk 0x0400 = true →
    bits v.toNat 16 12 < 16 ∨ 2048 < bits v.toNat 16 12 ∨ bits v.toNat 8 8 = 0 ∨ bits v.toNat 16 12 < bits v.toNat 8 8 →
    s.injects 4 = false →
    exec (.frmCfgWrite v) s = .next ({ s with hl := { s.hl with disc := true } })) ∧
  (∀ (s : State), s.counting = false → exec .frameWrap s = .next (s)) ∧
  (∀ (s : State), s.counting = false → exec .bmapLatch s = .next (s)) ∧
  (∀ s : State, s.flag F.FRM_CFG_EN = true → s.frmState = 0 → s.frmStart = s.frmSearch none)

/-- A miss is counted, and the last of the run enters HOLDOVER. The model's readings and choices: that an edge before HOLDOVER is none of
those that leave it, and HELD at entry to FREE (log entry 44). Rests on 04_frame_time_and_pips.md. -/
def Obligations.MissesEnterHoldover : Prop :=
  (∀ s : State, s.frm.misses + 1 ≤ s.get F.FRM_CFG_MISS →
    s.frmMiss.frm.misses = s.frm.misses + 1 ∧ s.frmMiss.frm.phase = s.frm.phase ∧ s.frmMiss.get F.FRM_STATE_STATE = s.get F.FRM_STATE_STATE ∧
    s.frmMiss.get F.FRM_STAT_MISSED = 1 ∧ s.frmMiss.get F.FRM_CNT_MISS = incSat (s.get F.FRM_CNT_MISS) F.FRM_CNT_MISS.top % 2 ^ F.FRM_CNT_MISS.w) ∧
  (∀ s : State, s.get F.FRM_CFG_MISS ≤ s.frm.misses → s.flag F.SYS_STATE_XTAL_FAIL = false → 1 ≤ s.get F.FRM_SYNC_HOLD_MAX →
    s.frmMiss.frm.misses = 0 ∧ s.frmMiss.frm.lastEdge = none ∧ s.frmMiss.get F.FRM_STATE_STATE = 4 ∧ s.frmMiss.get F.FRM_STATE_HELD = 0 ∧
    s.frmMiss.get F.FRM_STAT_MISSED = 1 ∧ s.frmMiss.frm.phase = s.frm.phase) ∧
  (∀ s : State, s.get F.FRM_CFG_MISS ≤ s.frm.misses → s.flag F.SYS_STATE_XTAL_FAIL = true ∨ s.get F.FRM_SYNC_HOLD_MAX = 0 →
    s.frmMiss.frm.misses = 0 ∧ s.frmMiss.frm.lastEdge = none ∧ s.frmMiss.get F.FRM_STATE_STATE = 5 ∧ s.frmMiss.get F.FRM_STATE_HELD = 0 ∧
    s.frmMiss.get F.FRM_STAT_MISSED = 1 ∧ s.frmMiss.frm.phase = s.frm.phase)

/-- A committed map applies from the next frame on, a one-frame map for one frame. The model's readings and choices: what becomes of a
one-frame map at the first pip 0 in LOCKED, and of a latched map that never applied (log entry 44). Rests on 04_frame_time_and_pips.md. -/
def Obligations.MapsTakeTheirFrame : Prop :=
  (∀ (s : State) (one : Bool), s.pip ≤ 61440 → (s.mapCommit one).frm.pendMap =
    some (one, s.get F.FRM_BMAP_NEXT_LO_SEG + 2 ^ 32 * s.get F.FRM_BMAP_NEXT_HI_SEG)) ∧
  (∀ (s : State) (m : Bool × Nat), s.frm.latched = false → s.frm.pendMap = some m →
    s.mapLatch.frm.latchMap = some m ∧ s.mapLatch.frm.pendMap = none ∧ s.mapLatch.mapLatch = s.mapLatch) ∧
  (∀ (s : State) (x : Nat), s.frm.latchMap = some (true, x) →
    s.frameBegin.frm.oneFrame = some x ∧ s.frameBegin.frm.persistent = s.frm.persistent ∧ s.frameBegin.frm.latchMap = none) ∧
  (∀ (s : State) (x : Nat), s.frm.latchMap = some (false, x) →
    s.frameBegin.frm.persistent = x ∧ s.frameBegin.frm.oneFrame = none ∧ s.frameBegin.frm.latchMap = none) ∧
  (∀ s : State, s.frm.latchMap = none → s.frameBegin.frm.persistent = s.frm.persistent ∧ s.frameBegin.frm.oneFrame = none ∧
    s.frameBegin.get F.FRM_FRAME_FRAME = (s.get F.FRM_FRAME_FRAME + 1) % 2 ^ F.FRM_FRAME_FRAME.w) ∧
  (∀ (s : State) (x : Nat), s.frm.firstLock = true → s.frmState = 3 →
    (s.frm.latchMap = some (true, x) → s.firstPipZero.frm.latchMap = none) ∧
    (s.frm.latchMap = some (false, x) → s.firstPipZero.frm.latchMap = some (false, x)) ∧ s.firstPipZero.frm.persistent = s.frm.persistent) ∧
  (∀ (s : State) (one : Bool), s.counting = true → 61440 < s.pip → s.frm.latched = false →
    (s.mapCommit one).frm.latchMap = (if s.frm.pendMap.isSome = true then s.frm.pendMap else s.frm.latchMap) ∧
    (s.mapCommit one).frm.pendMap = some (one, s.get F.FRM_BMAP_NEXT_LO_SEG + 2 ^ 32 * s.get F.FRM_BMAP_NEXT_HI_SEG)) ∧
  (∀ (s : State) (one : Bool), s.pip ≤ 61440 ∨ s.frm.latched = true → s.frm.pendMap.isSome = true → (s.mapCommit one).get F.FRM_STAT_REPLACED = 1)

/-- Slot fires, pulse ends, strobes and deferred probes. The model's readings and choices: which events the clock waits for (log entry 2),
that several deferred probe steps fire one after the other (entry 27), and what RECEIVE_QUIET_END starts (entry 18). Rests on
04_frame_time_and_pips.md. -/
def Obligations.SchedulerCommands : Prop :=
  (∀ (n : Fin 32) (p : Nat) (t : State) (s : State), p = s.get (F.FRM_SLOT_CFG_PIP n) → s.firing = true → s.lateFire n = none →
    s.duePip n p = true → s.pip ≤ p + (s.lowerDue n p).length → s.lowerWaits false n p = false → t = s.toPip p →
    exec (.slotFire n) s = .next ((t.setFrm { t.frm with fired := tset t.frm.fired n 0 (p + 1) }).slotFire n (s.slotWord n))) ∧
  (∀ (n : Fin 32) (w : Nat) (s : State), s.firing = true → s.lateFire n = some (true, w) → s.lowerWaits true n (w % 65536) = false →
    exec (.slotFire n) s = .next ((s.setFrm { s.frm with late := tset s.frm.late n none none }).slotFire n w)) ∧
  (∀ (n : Fin 32) (w : Nat) (s : State), s.firing = true → s.lateFire n = some (false, w) → s.lowerWaits false n (w % 65536) = false →
    exec (.slotFire n) s = .next ((s.setFrm { s.frm with
      late := tset s.frm.late n none none, fired := tset s.frm.fired n 0 (w % 65536 + 1) }).slotFire n w)) ∧
  (∀ (k : Fin 12) (e d : Nat) (t : State) (s : State), tget s.frm.pulses k 0 = e + 1 →
    d = (e + 2 ^ 48 - pipCount (s.get F.FRM_FRAME_FRAME) 0) % 2 ^ 48 → d < 65536 → t = s.toPip d →
    exec (.gpioPulseEnd k) s = .next ({ t with
      dev := { t.dev with gpioDrive := clrBit t.dev.gpioDrive k }, frm := { t.frm with pulses := tset t.frm.pulses k 0 0 } })) ∧
  (∀ (k : Fin 12) (e d : Nat) (s : State), tget s.frm.pulses k 0 = e + 1 →
    d = (e + 2 ^ 48 - pipCount (s.get F.FRM_FRAME_FRAME) 0) % 2 ^ 48 → 2 ^ 47 ≤ d →
    exec (.gpioPulseEnd k) s = .next ({ s with
      dev := { s.dev with gpioDrive := clrBit s.dev.gpioDrive k }, frm := { s.frm with pulses := tset s.frm.pulses k 0 0 } })) ∧
  (∀ (s : State), s.counting = true → exec .frameStrobeEnd s = .next ((s.toPip 128).strobe)) ∧
  (∀ (s : State), s.counting = false → exec .frameStrobeEnd s = .next (s.strobe)) ∧
  (∀ (s : State), s.firing = true → s.frm.probeDefer ≠ 0 → s.segAt s.seg = 0 →
    exec .probeDeferredFire s = .next (forEach (List.range s.frm.probeDefer) (fun _ x => x.probeFire) (s.setFrm { s.frm with probeDefer := 0 }))) ∧
  (∀ (k : Nat) (t : State) (s : State), s.firing = true → s.frm.probeDefer ≠ 0 → s.segAt s.seg ≠ 0 → s.nextFree s.seg = some k →
    t = s.toPip (2048 * k) →
    exec .probeDeferredFire s = .next (forEach (List.range t.frm.probeDefer) (fun _ x => x.probeFire) (t.setFrm { t.frm with probeDefer := 0 }))) ∧
  (∀ (k : Nat) (s : State), s.mapsLive = true → s.segAt s.seg = 2 →
    ((List.range 32).find? fun j => decide (s.seg < j) && decide (s.segAt j ≠ 2)) = some k →
    exec .receiveQuietEnd s = .next ((s.toPip (2048 * k)).pushTry.nvmRetry)) ∧
  (∀ (s : State), s.mapsLive = true → s.segAt s.seg = 2 →
    ((List.range 32).find? fun j => decide (s.seg < j) && decide (s.segAt j ≠ 2)) = none →
    exec .receiveQuietEnd s = .next (s.frameWrap.pushTry.nvmRetry))

/-- What the actions of a slot do. The model's readings and choices: a once-only slot whose register has been written since it fell due
keeps its enable (log entry 44), and what merges on a crossing (entry 42). Rests on 04_frame_time_and_pips.md. -/
def Obligations.SlotActions : Prop :=
  (∀ (s : State) (n w : Nat), bits w 24 4 = 1 →
    s.slotAct n w = s.emitX 0 n 1 6 0 [(bits w 16 8, 1), (n, 1)]) ∧
  (∀ (s : State) (n w : Nat), bits w 24 4 = 2 → s.gpioCode (bits w 16 8 % 16) = 0xA →
    bitOf (s.slotAct n w).dev.gpioDrive (bits w 16 8 % 16) = true ∧
    tget (s.slotAct n w).frm.pulses (bits w 16 8 % 16) 0 =
      (s.get F.FRM_FRAME_FRAME * 65536 + s.pip + 2 ^ (bits w 16 8 / 16)) % 2 ^ 48 + 1) ∧
  (∀ (s : State) (n w x : Nat), bits w 24 4 = 3 ∧ x = 1 ∨ bits w 24 4 ∈ [4, 6, 7] ∧ x = 0 → (s.crossing x n).1 = true →
    s.slotAct n w = (s.crossing x n).2) ∧
  (∀ (s t : State) (n w : Nat), bits w 24 4 = 3 → s.crossing 1 n = (false, t) → s.slotAct n w = t.adcPip (bits w 16 8) s.pip) ∧
  (∀ (s t : State) (n w : Nat), bits w 24 4 = 4 → s.crossing 0 n = (false, t) →
    s.slotAct n w = t.seqPush (programRequest (bits w 16 8)) none) ∧
  (∀ (s : State) (n w : Nat), bits w 24 4 = 5 → ((s.slotAct n w).stk (bits w 16 8)).fired = true ∧
    (s.slotAct n w).regs = s.regs) ∧
  (∀ (s t : State) (n w : Nat), bits w 24 4 = 6 → s.crossing 0 n = (false, t) → s.slotAct n w = t.probeSlot) ∧
  (∀ (s t : State) (n w : Nat), bits w 24 4 = 7 → s.crossing 0 n = (false, t) →
    (s.slotAct n w).gg.snap = some (s.get F.FRM_FRAME_FRAME % 65536, s.pip)) ∧
  (∀ (s : State) (n w : Nat), n < 32 → bits w 24 4 = 5 →
    (s.slotFire n w).bitF F.FRM_SLOT_FIRED_FIRED n = true ∧
    (bits w 28 2 = 3 → s.slotWord n = w → (s.slotFire n w).get (F.FRM_SLOT_CFG_EN n) = 0) ∧
    (bits w 28 2 ≠ 3 → (s.slotFire n w).get (F.FRM_SLOT_CFG_EN n) = s.get (F.FRM_SLOT_CFG_EN n)))

/-- Register accesses and commands on the two-wire target port. The model's readings and choices: PROG_START of 8 or more, a bad count and
an access that waits for its credit (log entry 16), and the free word of STATUS before the first access (entry 14). Rests on
17_two_wire_and_satellites.md. -/
def Obligations.TargetPort : Prop :=
  (∀ s : State, s.twt.wait = none → s.targetSettle = s) ∧
  (∀ (o : TgtOp) (k : Nat) (s t : State), s.twt.wait = some (o, k) → s.targetOn = true → s.targetFree o = true →
    t = ({ s with twt := { s.twt with wait := none } } : State).targetRun o → t.twt.wait = none → s.targetSettle = t) ∧
  (∀ (o : TgtOp) (k : Nat) (s : State), s.twt.wait = some (o, k) → s.targetOn = true → s.targetFree o = false →
    s.targetSettle = (({ s with twt := { s.twt with wait := none } } : State).due (k + engPerMs)).targetLate o) ∧
  (∀ (o : TgtOp) (k : Nat) (s : State), s.twt.wait = some (o, k) → s.targetOn = false → s.targetSettle = { s with twt := { s.twt with wait := none } }) ∧
  (∀ (r : Nat) (s : State), s.targetLate (.prog r) = s.incSatF F.TWB_TGT_CNT_NOCRED) ∧
  (∀ (o : TgtOp) (s : State), (∀ r, o ≠ .prog r) → s.targetLate o = ((s.incSatF F.TWB_TGT_CNT_NOCRED).incSatF F.EVT_HL_CNT_BUSY).keepStatus .busy) ∧
  (∀ (l : List Byte) (p : Byte) (s : State), s.pecBad l p = decide (crc8 (s.targetByte 0 :: l) ≠ p.toNat)) ∧
  (∀ (a : BitVec 16) (d : List Word) (pec : Option Byte) (count : Byte) (s u t : State) (i : Nat), s.targetSettle = u → u.targetOn = true → u.freeHl ≠ 0 →
    1 ≤ d.length → d.length ≤ 7 → count.toNat = 2 + 4 * d.length →
    (pec = none ∧ u.flag F.TWB_TGT_CFG_PEC_REQ = false) ∨ (∃ p, pec = some p ∧ u.pecBad ([0x10, count] ++ leBytes 2 a.toNat ++ (d.map fun x => x.toNat).flatMap (leBytes 4)) p = false) →
    u.admitFrame true (wordAddrs a.toNat d.length) = (t, i) →
    t.targetStatus true a.toNat d.length = none →
    exec (.regWrite .here a d pec count) s = .next (t.targetStore i ((wordAddrs a.toNat d.length).zip (d.map fun x => x.toNat)))) ∧
  (∀ (a : BitVec 16) (d : List Word) (pec : Option Byte) (count : Byte) (s u t : State) (i : Nat) (c : Status), s.targetSettle = u → u.targetOn = true → u.freeHl ≠ 0 →
    1 ≤ d.length → d.length ≤ 7 → count.toNat = 2 + 4 * d.length →
    (pec = none ∧ u.flag F.TWB_TGT_CFG_PEC_REQ = false) ∨ (∃ p, pec = some p ∧ u.pecBad ([0x10, count] ++ leBytes 2 a.toNat ++ (d.map fun x => x.toNat).flatMap (leBytes 4)) p = false) →
    u.admitFrame true (wordAddrs a.toNat d.length) = (t, i) →
    t.targetStatus true a.toNat d.length = some c →
    exec (.regWrite .here a d pec count) s = .next ((t.keepStatus c).frameEnd i)) ∧
  (∀ (a : BitVec 16) (d : List Word) (pec : Option Byte) (count : Byte) (s u t : State) (i : Nat), s.targetSettle = u → u.targetOn = true → u.freeHl ≠ 0 →
    u.admitFrame true (wordAddrs a.toNat d.length) = (t, i) →
    count.toNat < 6 ∨ 30 < count.toNat ∨ count.toNat % 4 ≠ 2 →
    exec (.regWrite .here a d pec count) s = .next ((t.keepStatus .badFrame).frameEnd i)) ∧
  (∀ (a : BitVec 16) (d : List Word) (pec : Option Byte) (count : Byte) (s u t : State) (i : Nat), s.targetSettle = u → u.targetOn = true → u.freeHl ≠ 0 →
    u.admitFrame true (wordAddrs a.toNat d.length) = (t, i) →
    6 ≤ count.toNat → count.toNat ≤ 30 → count.toNat % 4 = 2 →
    count.toNat ≠ 2 + 4 * d.length ∨ (pec = none ∧ u.flag F.TWB_TGT_CFG_PEC_REQ = true) →
    exec (.regWrite .here a d pec count) s = .next ((t.incSatF F.TWB_TGT_CNT_ABORT).frameEnd i)) ∧
  (∀ (a : BitVec 16) (d : List Word) (pec : Option Byte) (count : Byte) (s u t : State) (i : Nat) (p : Byte), s.targetSettle = u → u.targetOn = true → u.freeHl ≠ 0 →
    1 ≤ d.length → d.length ≤ 7 → count.toNat = 2 + 4 * d.length → pec = some p → u.pecBad ([0x10, count] ++ leBytes 2 a.toNat ++ (d.map fun x => x.toNat).flatMap (leBytes 4)) p = true →
    u.admitFrame true (wordAddrs a.toNat d.length) = (t, i) →
    exec (.regWrite .here a d pec count) s = .next (((t.incSatF F.TWB_TGT_CNT_PEC).keepStatus .crcError).frameEnd i)) ∧
  (∀ (a : BitVec 16) (n : BitVec 8) (s u t : State) (i : Nat), s.targetSettle = u → u.targetOn = true → u.freeHl ≠ 0 →
    u.admitFrame false (wordAddrs a.toNat n.toNat) = (t, i) → t.targetStatus false a.toNat n.toNat = none → t.readBlocked (wordAddrs a.toNat n.toNat) = false →
    exec (.regRead .here a n false) s = .next (t.targetFetch i ([0x11, 3] ++ leBytes 2 a.toNat ++ [byte n.toNat]) (wordAddrs a.toNat n.toNat))) ∧
  (∀ (a : BitVec 16) (n : BitVec 8) (k : Bool) (s u t : State) (i : Nat) (c : Status), s.targetSettle = u → u.targetOn = true → u.freeHl ≠ 0 →
    u.admitFrame false (wordAddrs a.toNat n.toNat) = (t, i) → t.targetStatus false a.toNat n.toNat = some c →
    exec (.regRead .here a n k) s = .next (t.targetAnswer i ([0x11, 3] ++ leBytes 2 a.toNat ++ [byte n.toNat]) c (if n.toNat ≤ 7 then List.replicate n.toNat 0 else []))) ∧
  (∀ (a : BitVec 16) (n : BitVec 8) (k : Bool) (s u t : State) (i : Nat), s.targetSettle = u → u.targetOn = true → u.freeHl ≠ 0 →
    u.admitFrame false (wordAddrs a.toNat n.toNat) = (t, i) → t.targetStatus false a.toNat n.toNat = none → t.readBlocked (wordAddrs a.toNat n.toNat) = true ∨ k = true →
    exec (.regRead .here a n k) s = .next (t.targetAnswer i ([0x11, 3] ++ leBytes 2 a.toNat ++ [byte n.toNat]) .late ((wordAddrs a.toNat n.toNat).map fun _ => 0))) ∧
  (∀ (a : BitVec 16) (d : List Word) (pec : Option Byte) (count : Byte) (s u : State), s.targetSettle = u → u.targetOn = true → u.freeHl = 0 →
    exec (.regWrite .here a d pec count) s =
      .next (({ u with twt := { u.twt with wait := some (.write a.toNat (d.map fun x => x.toNat) pec count.toNat, u.now) } } : State).set F.SYS_CREDIT_WAIT_HL 1)) ∧
  (∀ (a : BitVec 16) (n : BitVec 8) (k : Bool) (s u : State), s.targetSettle = u → u.targetOn = true → u.freeHl = 0 →
    exec (.regRead .here a n k) s = .next (({ u with twt := { u.twt with wait := some (.read a.toNat n.toNat k, u.now) } } : State).set F.SYS_CREDIT_WAIT_HL 1)) ∧
  (∀ (f : FrameStart) (a : BitVec 16) (d : List Word) (n : BitVec 8) (pec : Option Byte) (count : Byte) (k : Bool) (s u : State), s.targetSettle = u →
    u.targetOn = false ∨ f ≠ .here → exec (.regWrite f a d pec count) s = .next u ∧ exec (.regRead f a n k) s = .next u ∧ exec (.status f) s = .next u) ∧
  (∀ (w : Nat) (s u : State), s.targetSettle = u → u.targetOn = true → u.twt.word = some w → exec (.status .here) s = .next (u.targetSend [0x12] (4 :: leBytes 4 w))) ∧
  (∀ s u : State, s.targetSettle = u → u.targetOn = true → u.twt.word = none →
    exec (.status .here) s = .next (({ u with draws := u.draws + 1 } : State).targetSend [0x12] (4 :: leBytes 4 (Config.freeWord u.draws).toNat))) ∧
  (∀ (arg : BitVec 16) (p : Byte) (s u : State), s.targetSettle = u → u.watching = true →
    u.flag F.TWB_SLV_STAT_LOST = false → u.pecBad (0x20 :: leBytes 2 arg.toNat) p = false →
    exec (.heartbeat .here arg p) s = .next { ((u.set F.TWB_SLV_STAT_LAST (arg.toNat % 256)).set F.TWB_SLV_STAT_SEEN 1).set F.TWB_SLV_STAT_MISS 0 with
      twt := { u.twt with winEnd := u.now + 150 * engPerMs } }) ∧
  (∀ (arg : BitVec 16) (p : Byte) (s u : State), s.targetSettle = u → u.watching = true →
    u.flag F.TWB_SLV_STAT_LOST = true → u.pecBad (0x20 :: leBytes 2 arg.toNat) p = false →
    exec (.heartbeat .here arg p) s = .next (({ (((u.set F.TWB_SLV_STAT_LAST (arg.toNat % 256)).set F.TWB_SLV_STAT_SEEN 1).set F.TWB_SLV_STAT_MISS 0).set
      F.TWB_SLV_STAT_LOST 0 with twt := { u.twt with winEnd := u.now + 150 * engPerMs } } : State).emit 0xE 3 [(arg.toNat % 256, 1)])) ∧
  (∀ (arg : BitVec 16) (p : Byte) (s u : State), s.targetSettle = u → u.watching = true →
    u.pecBad (0x20 :: leBytes 2 arg.toNat) p = true → exec (.heartbeat .here arg p) s = .next (u.incSatF F.TWB_TGT_CNT_PEC)) ∧
  (∀ (arg : BitVec 16) (p : Byte) (s u : State), s.targetSettle = u → u.watching = true →
    u.pecBad (0x21 :: leBytes 2 arg.toNat) p = true → exec (.progStart .here arg p) s = .next (u.incSatF F.TWB_TGT_CNT_PEC)) ∧
  (∀ (arg : BitVec 16) (p : Byte) (s u : State), s.targetSettle = u → u.watching = true →
    u.pecBad (0x21 :: leBytes 2 arg.toNat) p = false → u.flag F.TWB_SLV_STAT_LOST = true →
    exec (.progStart .here arg p) s = .next (u.incSatF F.TWB_SLV_STAT_DROP)) ∧
  (∀ (arg : BitVec 16) (p : Byte) (s u : State), s.targetSettle = u → u.watching = true →
    u.pecBad (0x21 :: leBytes 2 arg.toNat) p = false → u.flag F.TWB_SLV_STAT_LOST = false → 8 ≤ arg.toNat →
    exec (.progStart .here arg p) s = .next u) ∧
  (∀ (arg : BitVec 16) (p : Byte) (s u : State), s.targetSettle = u → u.watching = true →
    u.pecBad (0x21 :: leBytes 2 arg.toNat) p = false → u.flag F.TWB_SLV_STAT_LOST = false → arg.toNat < 8 →
    u.seq.queue.length < 8 → u.seq.qwait = [] →
    exec (.progStart .here arg p) s = .next (u.seqPush (programRequest arg.toNat) none)) ∧
  (∀ (arg : BitVec 16) (p : Byte) (s u : State), s.targetSettle = u → u.watching = true →
    u.pecBad (0x21 :: leBytes 2 arg.toNat) p = false → u.flag F.TWB_SLV_STAT_LOST = false → arg.toNat < 8 →
    8 ≤ u.seq.queue.length ∨ u.seq.qwait ≠ [] →
    exec (.progStart .here arg p) s = .next (({ u with twt := { u.twt with wait := some (.prog (programRequest arg.toNat), u.now) } } : State).set F.SYS_CREDIT_WAIT_SEQ 1)) ∧
  (∀ (f : FrameStart) (arg : BitVec 16) (p : Byte) (s u : State), s.targetSettle = u → u.watching = false ∨ f ≠ .here →
    exec (.progStart f arg p) s = .next u ∧ exec (.heartbeat f arg p) s = .next u) ∧
  (∀ (s : State), s.watching = true → s.get F.TWB_SLV_STAT_MISS < 2 →
    exec .masterWindowEnd s = .next (({ s.due s.twt.winEnd with
      twt := { (s.due s.twt.winEnd).twt with winEnd := s.twt.winEnd + 150 * engPerMs } } : State).set F.TWB_SLV_STAT_MISS (s.get F.TWB_SLV_STAT_MISS + 1))) ∧
  (∀ (s t : State), s.watching = true → 2 ≤ s.get F.TWB_SLV_STAT_MISS → s.flag F.TWB_SLV_STAT_LOST = false →
    t = ({ s.due s.twt.winEnd with twt := { (s.due s.twt.winEnd).twt with winEnd := s.twt.winEnd + 150 * engPerMs } } : State).set F.TWB_SLV_STAT_MISS 3 →
    exec .masterWindowEnd s = .next t.masterLost) ∧
  (∀ (s t : State), s.watching = true → 2 ≤ s.get F.TWB_SLV_STAT_MISS → s.flag F.TWB_SLV_STAT_LOST = true →
    t = ({ s.due s.twt.winEnd with twt := { (s.due s.twt.winEnd).twt with winEnd := s.twt.winEnd + 150 * engPerMs } } : State).set F.TWB_SLV_STAT_MISS 3 →
    exec .masterWindowEnd s = .next t) ∧
  (∀ (s : State), s.targetOn = true → exec (.twoWireTimeout true false) s = .next (s.incSatF F.TWB_TGT_CNT_TOUT)) ∧
  (∀ (t : Tx) (r : List Tx) (s : State), s.twc.queue = t :: r → s.dev.mode = .run → s.flag F.TWB_CTL_STAT_BUSY = true →
    s.twc.retryWait = false →
    exec (.twoWireTimeout false true) s = .next (s.twcFinish t 5 [])) ∧
  (∀ (a b : Bool) (s : State), s.targetOn = false ∨ a = false →
    s.twc.queue = [] ∨ b = false ∨ s.dev.mode ≠ .run ∨ s.flag F.TWB_CTL_STAT_BUSY = false ∨ s.twc.retryWait = true →
    exec (.twoWireTimeout a b) s = .next (s)) ∧
  (∀ (s : State), exec .targetCreditTimeout s = .next (s.targetSettle)) ∧
  (∀ s u : State, s.targetSettle = u → u.targetOn = true → exec .targetTransactionAbort s = .next (u.incSatF F.TWB_TGT_CNT_ABORT)) ∧
  (∀ s u : State, s.targetSettle = u → u.targetOn = false → exec .targetTransactionAbort s = .next u)

/-- An alert input sets ALERT and makes its record. Formalises R416. -/
def Obligations.AlertInputs : Prop :=
  (∀ (k : Fin 12) (s t : State), s.targetOn = true → s.coreRuns = true → s.gpioCode k = 0xC → exec (.twbAlert k) s = .next t →
    t.get F.TWB_CTL_STAT_ALERT = 1 ∧ (∀ g : FRef, g.key ≠ F.TWB_CTL_STAT_ALERT.key → t.get g = s.get g) ∧
    t.evt.reqs = insReq ⟨0xE, 5, 0, payload [(k, 1)], none, s.coreClk⟩ s.evt.reqs ∧ t.evt.buf = s.evt.buf ∧
    t.dev = { s.dev with gpioIn := clrBit s.dev.gpioIn k } ∧ t.seq = s.seq ∧ t.twc = s.twc ∧ t.nv = s.nv ∧ t.now = s.now) ∧
  (∀ (k : Fin 12) (s : State), s.targetOn = true → s.gpioCode k = 0xC → exec (.twbAlert k) s =
    .next ((({ s with dev := { s.dev with gpioIn := clrBit s.dev.gpioIn k } } : State).set F.TWB_CTL_STAT_ALERT 1).emit 0xE 5 [(k, 1)])) ∧
  (∀ (k : Fin 12) (s : State), s.gpioCode k ≠ 0xC → exec (.twbAlert k) s = .next s)

/-- Transactions of the two-wire controller. The model's readings and choices: that a recovery is made only before a start, that BUSY
stands through repeats, and that the arbitration losses of a repeat come with TWC_RETRY (log entry 17). Rests on
17_two_wire_and_satellites.md, 04_frame_time_and_pips.md. -/
def Obligations.ControllerCommands : Prop :=
  (∀ (t : Tx) (r : List Tx) (p : Nat) (b : Bool) (c : Bool) (s : State), s.twc.queue = t :: r → s.dev.mode = .run →
    s.flag F.TWB_CTL_STAT_BUSY = false → s.quietHolds F.FRM_QUIET_CFG_TWC_HOLD = false → s.txUnowned t = false →
    s.twc.recover = false →
    exec (.twcTransaction false p b c 0) s = .next (({ s.set F.TWB_CTL_STAT_BUSY 1 with twc := { s.twc with recover := false, wire := t.bytes } } : State).addSatF F.TWB_CTL_STAT_ARB 0)) ∧
  (∀ (t : Tx) (r : List Tx) (d : List Byte) (s : State), s.twc.queue = t :: r → s.dev.mode = .run → s.flag F.TWB_CTL_STAT_BUSY = true →
    s.twc.retryWait = false → t.pecOk d = true →
    exec (.twcTransactionEnd 0 d) s = .next (s.twcFinish t 0 (padTo t.rlen d))) ∧
  (∀ (t : Tx) (r : List Tx) (d : List Byte) (s : State), s.twc.queue = t :: r → s.dev.mode = .run → s.flag F.TWB_CTL_STAT_BUSY = true →
    s.twc.retryWait = false → t.pecOk d = false →
    exec (.twcTransactionEnd 0 d) s = .next (s.twcFinish t 6 (padTo t.rlen d))) ∧
  (∀ (t : Tx) (r : List Tx) (d : List Byte) (s : State), s.twc.queue = t :: r → s.dev.mode = .run → s.flag F.TWB_CTL_STAT_BUSY = true →
    s.twc.retryWait = false → s.twc.repeats < s.get F.TWB_CTL_CFG_RETRY →
    exec (.twcTransactionEnd 1 d) s = .next ({ s with twc := { s.twc with retryWait := true, retryAt := s.now + 250 * engPerUs } })) ∧
  (∀ (t : Tx) (r : List Tx) (arb : Fin 4) (s : State), s.twc.queue = t :: r → s.dev.mode = .run → s.twc.retryWait = true →
    (s.due s.twc.retryAt).quietHolds F.FRM_QUIET_CFG_TWC_HOLD = false → arb.val ≠ 3 →
    exec (.twcRetry arb) s = .next ((({ s.due s.twc.retryAt with
      twc := { (s.due s.twc.retryAt).twc with retryWait := false, repeats := (s.due s.twc.retryAt).twc.repeats + 1 } } : State).incSatF F.TWB_CTL_STAT_RETRIES).addSatF F.TWB_CTL_STAT_ARB arb)) ∧
  (∀ (v : Word) (s : State), s.writeOk 0x3880 = true → s.ownerBad 0x3880 = false → s.wordBad 0x3880 v.toNat = false →
    s.injects 4 = false →
    exec (.twbHxStart v) s = .next (s.hxWrite v.toNat none)) ∧
  (∀ (s : State), s.dev.mode = .run → s.ownedBy 7 0 5 = true → (∀ k, k < 8 → s.get (F.TWB_SAT_STAT_STATE k) ≠ 3) →
    exec .heartbeatTimer s = .next ({ s.due (s.twc.beatAt + 100 * engPerMs) with
      twc := { (s.due (s.twc.beatAt + 100 * engPerMs)).twc with beatAt := s.twc.beatAt + 100 * engPerMs } })) ∧
  (∀ (k : Nat) (a d : Nat) (p : List Byte) (s : State),
    s.dev.mode = .run → s.ownedBy 7 0 5 = true → k < 8 → s.get (F.TWB_SAT_STAT_STATE k) = 3 → s.satCfg k = some (a, d, p) → (∀ j, j < 8 → j ≠ k → s.get (F.TWB_SAT_STAT_STATE j) ≠ 3) →
    exec .heartbeatTimer s = .next (({ s.due (s.twc.beatAt + 100 * engPerMs) with
      twc := { (s.due (s.twc.beatAt + 100 * engPerMs)).twc with
        beatAt := s.twc.beatAt + 100 * engPerMs, beats := tset s.twc.beats k 0 ((tget s.twc.beats k 0 + 1) % 256) } } : State).twcPush
      ⟨.heartbeat k, a, [0x20, byte ((tget s.twc.beats k 0 + 1) % 256), 0], true, 0, none⟩)) ∧
  (∀ (t : Tx) (r : List Tx) (s : State), s.twc.queue = t :: r → s.dev.mode = .run → s.twc.retryWait = true →
    (s.due s.twc.retryAt).quietHolds F.FRM_QUIET_CFG_TWC_HOLD = false →
    exec (.twcRetry 3) s = .next (((({ s.due s.twc.retryAt with
      twc := { (s.due s.twc.retryAt).twc with retryWait := false, repeats := (s.due s.twc.retryAt).twc.repeats + 1 } } : State).incSatF F.TWB_CTL_STAT_RETRIES).addSatF F.TWB_CTL_STAT_ARB 3).twcFinish t 3 [])) ∧
  (∀ (t : Tx) (r : List Tx) (b : Bool) (p : Nat) (f c : Bool) (arb : Fin 4) (s : State), s.twc.queue = t :: r → s.dev.mode = .run →
    s.flag F.TWB_CTL_STAT_BUSY = false → s.quietHolds F.FRM_QUIET_CFG_TWC_HOLD = false → s.txUnowned t = true →
    exec (.twcTransaction b p f c arb) s = .next (s.twcFinish t 7 [])) ∧
  (∀ (t : Tx) (r : List Tx) (b : Bool) (p : Nat) (c : Bool) (arb : Fin 4) (s : State), s.twc.queue = t :: r → s.dev.mode = .run →
    s.flag F.TWB_CTL_STAT_BUSY = false → s.quietHolds F.FRM_QUIET_CFG_TWC_HOLD = false → s.txUnowned t = false →
    s.twc.recover = true ∨ b = true → 9 ≤ p →
    exec (.twcTransaction b p false c arb) s = .next ((((s.set F.TWB_CTL_STAT_BUSY 1).set F.TWB_CTL_STAT_HUNG 1).emit 0xE 4 [(9, 1), (b2n c, 1)]).twcFinish t 4 [])) ∧
  (∀ (t : Tx) (r : List Tx) (b : Bool) (p : Nat) (c : Bool) (arb : Fin 4) (s : State), s.twc.queue = t :: r → s.dev.mode = .run →
    s.flag F.TWB_CTL_STAT_BUSY = false → s.quietHolds F.FRM_QUIET_CFG_TWC_HOLD = false → s.txUnowned t = false →
    s.twc.recover = true ∨ b = true → p < 9 →
    exec (.twcTransaction b p false c arb) s = .next (s)) ∧
  (∀ (t : Tx) (r : List Tx) (b : Bool) (p : Nat) (c : Bool) (arb : Fin 4) (s : State), s.twc.queue = t :: r → s.dev.mode = .run →
    s.flag F.TWB_CTL_STAT_BUSY = false → s.quietHolds F.FRM_QUIET_CFG_TWC_HOLD = false → s.txUnowned t = false → arb.val ≠ 3 →
    exec (.twcTransaction b p true c arb) s = .next (({ s.set F.TWB_CTL_STAT_BUSY 1 with twc := { s.twc with recover := false, wire := t.bytes } } : State).addSatF F.TWB_CTL_STAT_ARB arb)) ∧
  (∀ (t : Tx) (r : List Tx) (b : Bool) (p : Nat) (c : Bool) (s : State), s.twc.queue = t :: r → s.dev.mode = .run →
    s.flag F.TWB_CTL_STAT_BUSY = false → s.quietHolds F.FRM_QUIET_CFG_TWC_HOLD = false → s.txUnowned t = false →
    exec (.twcTransaction b p true c 3) s = .next ((({ s.set F.TWB_CTL_STAT_BUSY 1 with twc := { s.twc with recover := false, wire := t.bytes } } : State).addSatF F.TWB_CTL_STAT_ARB 3).twcFinish t 3 [])) ∧
  (∀ (b : Bool) (p : Nat) (f c : Bool) (arb : Fin 4) (s : State),
    s.twc.queue = [] ∨ s.dev.mode ≠ .run ∨ s.flag F.TWB_CTL_STAT_BUSY = true ∨ s.quietHolds F.FRM_QUIET_CFG_TWC_HOLD = true →
    exec (.twcTransaction b p f c arb) s = .next (s)) ∧
  (∀ (t : Tx) (r : List Tx) (d : List Byte) (c : Fin 8) (s : State), s.twc.queue = t :: r → s.dev.mode = .run →
    s.flag F.TWB_CTL_STAT_BUSY = true → s.twc.retryWait = false → busEnds c = true → c.val ≠ 0 →
    c.val ≠ 1 ∧ c.val ≠ 2 ∨ s.get F.TWB_CTL_CFG_RETRY ≤ s.twc.repeats →
    exec (.twcTransactionEnd c d) s = .next (s.twcFinish t c d)) ∧
  (∀ (d : List Byte) (c : Fin 8) (s : State), c.val = 3 ∨ c.val = 4 ∨ c.val = 6 ∨ c.val = 7 → exec (.twcTransactionEnd c d) s = .next (s)) ∧
  (∀ (t : Tx) (r : List Tx) (arb : Fin 4) (s : State), s.twc.queue = t :: r → s.dev.mode = .run → s.twc.retryWait = true →
    (s.due s.twc.retryAt).quietHolds F.FRM_QUIET_CFG_TWC_HOLD = true →
    exec (.twcRetry arb) s = .next (s.due s.twc.retryAt)) ∧
  (∀ (s : State) (t : Tx) (c : Nat) (d : List Byte), s.twc.waiting = [] → t.kind = .host → 0 < c → c < 8 →
    (s.twcFinish t c d).get F.TWB_HX_CTRL_CAUSE = c ∧ (s.twcFinish t c d).get F.TWB_HX_CTRL_BUSY = 0 ∧ (s.twcFinish t c d).get F.TWB_HX_CTRL_DONE = 1 ∧
    (s.twcFinish t c d).get F.TWB_CTL_STAT_CAUSE = c ∧ (s.twcFinish t c d).get F.TWB_CTL_STAT_BUSY = 0)

/-- Commits start, are refused and counted, and complete. The model's readings and choices: that corrected words are counted by the
operand of JOURNAL_COMMIT_START (log entry 34), the counts of a snapshot in a second period (entry 32), and that the two commits of one
update request are one decision (entry 21). Rests on 19_journal_and_update.md. -/
def Obligations.JournalCommands : Prop :=
  (∀ (v ce : Nat) (c : Commit) (r : List Commit) (t : State) (s : State), t = s.jnlCorrected ce → t.jnl.busy = false →
    t.jnl.queue = c :: r → t.coreRuns = true → t.dev.vaoGood = true → t.dev.mode ≠ .boot → c.producer ≠ .evidence →
    t.emptyCommit c = false → t.jmin ≤ v ∨ t.jnl.covered = true →
    exec (.journalCommitStart v ce) s = .next ({ t with jnl := { t.jnl with queue := { c with body := padTo (area c.kind).body (t.commitBody c) } :: r, busy := true, covered := false } })) ∧
  (∀ (v ce : Nat) (c : Commit) (r : List Commit) (t u : State) (s : State), t = s.jnlCorrected ce → t.jnl.busy = false →
    t.jnl.queue = c :: r → t.coreRuns = true → t.dev.vaoGood = true → t.dev.mode ≠ .boot → c.producer = .evidence →
    t.emptyCommit c = false → t.jmin ≤ v ∨ t.jnl.covered = true → u = t.latchCounts →
    exec (.journalCommitStart v ce) s = .next (({ u with jnl := { u.jnl with queue := { c with body := padTo (area c.kind).body (u.commitBody c) } :: r, busy := true, covered := false } } : State).latchOut)) ∧
  (∀ (v ce : Nat) (c : Commit) (r : List Commit) (t : State) (s : State), t = s.jnlCorrected ce → t.jnl.busy = false →
    t.jnl.queue = c :: r → t.coreRuns = true → t.dev.vaoGood = true → t.dev.mode ≠ .boot → t.emptyCommit c = false → v < t.jmin →
    t.jnl.covered = false →
    exec (.journalCommitStart v ce) s = .next (t.jnlRefuse c r v)) ∧
  (∀ (v ce : Nat) (c : Commit) (r : List Commit) (t : State) (s : State), t = s.jnlCorrected ce → t.jnl.busy = false →
    t.jnl.queue = c :: r → t.coreRuns = true → t.dev.vaoGood = true → t.dev.mode ≠ .boot → t.emptyCommit c = true →
    exec (.journalCommitStart v ce) s = .next (({ t with jnl := { t.jnl with queue := r } } : State).jnlPump)) ∧
  (∀ (v ce : Nat) (t : State) (s : State), t = s.jnlCorrected ce →
    t.dev.mode = .boot ∨ t.coreRuns = false ∨ t.dev.vaoGood = false ∨ t.jnl.busy = true ∨ t.jnl.queue = [] →
    exec (.journalCommitStart v ce) s = .next (t)) ∧
  (∀ (c : Commit) (r : List Commit) (u : State) (s : State), s.jnl.busy = true → s.jnl.queue = c :: r →
    u = (({ s.commitBytes c.kind c.body with jnl := { s.jnl with
      queue := r, busy := false, covered := decide (c.producer = .update ∧ dropPair c (r ++ s.jnl.waiting) ≠ r ++ s.jnl.waiting) } } : State).jnlPump.incWrapF F.JNL_CNT_COMMITS).commitDone c →
    u.dev.stage ≠ .commit →
    exec .journalCommitDone s = .next (u)) ∧
  (∀ (c : Commit) (r : List Commit) (u : State) (s : State), s.jnl.busy = true → s.jnl.queue = c :: r →
    u = (({ s.commitBytes c.kind c.body with jnl := { s.jnl with
      queue := r, busy := false, covered := decide (c.producer = .update ∧ dropPair c (r ++ s.jnl.waiting) ≠ r ++ s.jnl.waiting) } } : State).jnlPump.incWrapF F.JNL_CNT_COMMITS).commitDone c →
    u.dev.stage = .commit →
    exec .journalCommitDone s = .next (u.resetStep3)) ∧
  (∀ (s : State) (c : Commit) (r : List Commit) (v : Nat), c.producer = .satellite ∨ c.producer = .fault ∨ c.producer = .evidence →
    (s.jnlRefuse c r v).get F.JNL_STAT_REFUSED_SEEN = 1 ∧
    (s.jnlRefuse c r v).get F.JNL_CNT_REFUSED = incSat (s.get F.JNL_CNT_REFUSED) F.JNL_CNT_REFUSED.top % 2 ^ F.JNL_CNT_REFUSED.w ∧
    (s.jnlRefuse c r v).jnl.busy = false ∧ (s.jnlRefuse c r v).nv = s.nv ∧
    (s.jnlRefuse c r v).jnl.queue ++ (s.jnlRefuse c r v).jnl.waiting = r ++ s.jnl.waiting ∧
    (c.producer = .satellite → (s.jnlRefuse c r v).get F.JNL_CNT_DROP = incSat (s.get F.JNL_CNT_DROP) F.JNL_CNT_DROP.top % 2 ^ F.JNL_CNT_DROP.w))

/-- A commit writes its position and no other byte. Rests on 19_journal_and_update.md. -/
def Obligations.JournalReadBack : Prop :=
  (∀ (s : State) (k : Nat) (b : List Byte), 1 ≤ k → k ≤ 7 → s.newest (area k) = none →
    readMem journalBlank (s.commitBytes k b).nv.journal (area k).base (area k).size = recordBytes (area k) 1 b) ∧
  (∀ (s : State) (k p : Nat) (b : List Byte), 1 ≤ k → k ≤ 7 → s.newest (area k) = some p →
    readMem journalBlank (s.commitBytes k b).nv.journal ((area k).base + (p + 1) % (area k).count * (area k).size) (area k).size =
      recordBytes (area k) ((s.posSeq (area k) p + 1) % 2 ^ 32) b) ∧
  (∀ (s : State) (k p a : Nat) (b : List Byte), 1 ≤ k → k ≤ 7 →
    p = (match s.newest (area k) with | none => 0 | some q => (q + 1) % (area k).count) →
    a < (area k).base + p * (area k).size ∨ (area k).base + (p + 1) * (area k).size ≤ a →
    tget (s.commitBytes k b).nv.journal a journalBlank = tget s.nv.journal a journalBlank ∧ (s.commitBytes k b).nv.flash = s.nv.flash ∧
    (s.commitBytes k b).nv.otp = s.nv.otp ∧ (s.commitBytes k b).regs = s.regs)

/-- The queues of the journal, of the two-wire controller and of the sequencer are first in, first out. Rests on
01_device_architecture.md. -/
def Obligations.QueuesAreFifo : Prop :=
  (∀ (s : State) (c : Commit), (s.jnlPush c).jnl.queue ++ (s.jnlPush c).jnl.waiting = s.jnl.queue ++ s.jnl.waiting ++ [c] ∧
    s.jnlPump.jnl.queue ++ s.jnlPump.jnl.waiting = s.jnl.queue ++ s.jnl.waiting) ∧
  (∀ (s : State) (t : Tx), (s.twcPush t).twc.queue ++ (s.twcPush t).twc.waiting = s.twc.queue ++ s.twc.waiting ++ [t] ∧
    s.twcPump.twc.queue ++ s.twcPump.twc.waiting = s.twc.queue ++ s.twc.waiting) ∧
  (∀ (s : State) (c : Nat) (f : Option Nat), (s.seqPush c f).seq.queue ++ (s.seqPush c f).seq.qwait = s.seq.queue ++ s.seq.qwait ++ [(c, f)]) ∧
  (∀ (s : State) (t : Tx), 8 ≤ s.twc.queue.length → (s.twcPush t).get F.SYS_CREDIT_WAIT_TWC = 1 ∧ (s.twcPush t).twc.queue = s.twc.queue)

/-- Requests, conversions, scan rounds, Doubles captures and windows. The model's readings and choices: a reserved channel in ADC_REQ and
ADC_URGn discards the write without DISC, and what ends an active Doubles pair (log entry 25), and what a receive-quiet segment holds
(entry 18). Rests on 12_adc_subsystem.md. -/
def Obligations.ConverterCommands : Prop :=
  (∀ (v : Word) (s : State), s.writeOk 0x2420 = true → v.toNat % 128 ≤ 103 → s.ainRefused (v.toNat % 128) = false →
    s.injects 4 = false →
    exec (.adcReq v) s = .next (s.adcPush ⟨1, v.toNat % 128, 0, 0, false, none⟩)) ∧
  (∀ (n : Fin 4) (v : Word) (s : State), s.writeOk (0x2430 + 4 * n) = true → v.toNat % 128 ≤ 103 →
    s.ainRefused (v.toNat % 128) = false → s.dblMember n = false → s.injects 4 = false →
    exec (.adcUrg n v) s = .next (s.adcPush ⟨3, v.toNat % 128, n, 0, false, none⟩)) ∧
  (∀ (c : Fin 4) (q : AdcReq) (r : List AdcReq) (s : State), s.dev.mode = .run → tget s.adc.cvs c none = none →
    takeFirst (fun q => decide (q.kind = 3 ∧ q.cv = c.val)) s.adc.queue = some (q, r) →
    exec (.conversionStart c) s = .next ({ s with adc := { s.adc with queue := r, cvs := tset s.adc.cvs c none (some ⟨3, q.ch, s.now, q.frame⟩) } })) ∧
  (∀ (c : Fin 4) (x : Nat × Nat) (r : List (Nat × Nat)) (s : State), s.dev.mode = .run → tget s.adc.cvs c none = none →
    s.dblMember c = false → s.adc.queue = [] → s.adcHeld = false →
    takeFirst (fun x => decide (x.2 = c.val)) s.adc.scan = some (x, r) →
    exec (.conversionStart c) s = .next ({ s with adc := { s.adc with scan := r, cvs := tset s.adc.cvs c none (some ⟨0, x.1, s.now, none⟩) } })) ∧
  (∀ (c : Fin 4) (code : BitVec 12) (v : Conv) (s : State), s.dev.mode = .run → tget s.adc.cvs c none = some v → v.kind ≠ 3 →
    v.kind ≠ 4 →
    exec (.conversionEnd c code) s = .next (((({ s.due (v.start + 40) with
      adc := { (s.due (v.start + 40)).adc with cvs := tset (s.due (v.start + 40)).adc.cvs c none none } } : State).adcResult v.kind v.ch c code.toNat).frameDone v.frame).adcPump)) ∧
  (∀ (c : Fin 4) (code : BitVec 12) (v : Conv) (s : State), s.dev.mode = .run → tget s.adc.cvs c none = some v → v.kind = 3 →
    exec (.conversionEnd c code) s = .next ((((({ s.due (v.start + 40) with
      adc := { (s.due (v.start + 40)).adc with cvs := tset (s.due (v.start + 40)).adc.cvs c none none } } : State).adcResult v.kind v.ch c code.toNat).frameDone v.frame).adcPump).thmResult v.ch)) ∧
  (∀ (c : Fin 4) (code : BitVec 12) (v : Conv) (s : State), s.dev.mode = .run → tget s.adc.cvs c none = some v → v.kind = 4 →
    exec (.conversionEnd c code) s = .next (((((({ s.due (v.start + 40) with
      adc := { (s.due (v.start + 40)).adc with cvs := tset (s.due (v.start + 40)).adc.cvs c none none } } : State).adcResult 4 v.ch c code.toNat).set F.ADC_DBL_STAT_LAST code.toNat).frameDone v.frame)).adcPump)) ∧
  (∀ (c : Fin 4) (code : BitVec 12) (s : State), s.dev.mode = .run → tget s.adc.cvs c none = none → s.dblMember c = true →
    c.val % 2 = (if s.adc.dblOdd = true then 1 else 0) → s.adc.dblHeld = false ∨ s.get F.SEQ_STAT_PHASE ≠ 6 →
    exec (.conversionEnd c code) s = .next (s.dblSample c code.toNat)) ∧
  (∀ s : State, s.dev.mode = .run → s.flag F.ADC_CFG_SCAN = true → s.adc.scan = [] → s.adc.roundAt = none →
    (∀ c v, c < 4 → tget s.adc.cvs c none = some v → v.kind ≠ 0) →
    ∃ t, exec .scanRoundStart s = .next t ∧ t.adc.scan.map Prod.fst = s.dblTake.scanList ∧ t.adc.roundAt = some s.now ∧ t.adc.queue = s.adc.queue ∧
      t.get F.ADC_STAT_ROUNDS = (s.get F.ADC_STAT_ROUNDS + 1) % 2 ^ F.ADC_STAT_ROUNDS.w ∧ t.nv = s.nv ∧ t.now = s.now ∧ t.pending = s.pending) ∧
  (∀ (q : AdcReq) (r : List AdcReq) (s : State), s.dev.mode = .run → s.dblAct = true → s.adc.capture = none →
    takeFirst (fun q => decide (q.kind = 2 ∧ q.ch = s.adc.dblCh)) s.adc.queue = some (q, r) → q.late = false →
    exec .dblCaptureStart s = .next ((({ s with adc := { s.adc with queue := r, capture := some (q.pip, []) } } : State).set F.ADC_DBL_STAT_BUSY 1).set F.ADC_DBL_STAT_PIP q.pip)) ∧
  (∀ (p : Nat) (l : List Nat) (s : State), s.adc.capture = some (p, l) → l.length = 64 →
    exec .adcDblDone s = .next ((((({ s with adc := { s.adc with capture := none } } : State).set F.ADC_DBL_STAT_BUSY 0).set F.ADC_DBL_STAT_DONE 1).emit 9 3
      [(s.adc.dblCh, 1), (0, 1), (p, 2), (l.foldl min 4095, 2), (l.foldl max 0, 2)]).adcPump)) ∧
  (∀ (v : Word) (s : State), s.writeOk 0x2440 = true → bitOf v.toNat 31 = false ∨ s.flag F.ADC_DBL_CFG_CLAIMED = true →
    v.toNat % 128 ≤ 103 → s.ainRefused (v.toNat % 128) = false → s.injects 4 = false →
    exec (.adcDblCfgWrite v) s = .next ((s.put F.ADC_DBL_CFG_EN (bitOf v.toNat 31)).set F.ADC_DBL_CFG_CH (v.toNat % 128))) ∧
  (∀ (n : Fin 32) (v : Word) (s : State), s.writeOk (0x2500 + 8 * n) = true → s.ownedBy 5 n hostOwner = true →
    bits v.toNat 0 12 ≤ bits v.toNat 16 12 → s.injects 4 = false →
    exec (.adcWinConfig n true v) s = .next ((({ s with adc := { s.adc with win := tset s.adc.win n (0, 0) (0, 0) } } : State).set (F.ADC_WIN_THR_HI n) (bits v.toNat 16 12)).set (F.ADC_WIN_THR_LO n) (bits v.toNat 0 12))) ∧
  (∀ (c : Fin 4) (q : AdcReq) (r : List AdcReq) (s : State), s.dev.mode = .run → tget s.adc.cvs c none = none → s.dblMember c = false →
    takeFirst (fun q => decide (q.kind = 3 ∧ q.cv = c.val)) s.adc.queue = none →
    takeFirst (fun q => decide (q.kind = 2) && !s.onDoubles q) s.adc.queue = some (q, r) → q.late = false →
    exec (.conversionStart c) s = .next ({ s with adc := { s.adc with queue := r, cvs := tset s.adc.cvs c none (some ⟨2, q.ch, s.now, q.frame⟩) } })) ∧
  (∀ (c : Fin 4) (q : AdcReq) (r : List AdcReq) (s : State), s.dev.mode = .run → tget s.adc.cvs c none = none → s.dblMember c = false →
    takeFirst (fun q => decide (q.kind = 3 ∧ q.cv = c.val)) s.adc.queue = none →
    takeFirst (fun q => decide (q.kind = 2) && !s.onDoubles q) s.adc.queue = some (q, r) → q.late = true →
    exec (.conversionStart c) s = .next (({ s with adc := { s.adc with queue := r, cvs := tset s.adc.cvs c none (some ⟨2, q.ch, s.now, q.frame⟩) } } : State).set F.ADC_STAT_PIP_LATE 1)) ∧
  (∀ (c : Fin 4) (q : AdcReq) (r : List AdcReq) (s : State), s.dev.mode = .run → tget s.adc.cvs c none = none → s.dblMember c = false →
    takeFirst (fun q => decide (q.kind = 3 ∧ q.cv = c.val)) s.adc.queue = none →
    takeFirst (fun q => decide (q.kind = 2) && !s.onDoubles q) s.adc.queue = none → s.adcHeld = false →
    takeFirst (fun (q : AdcReq) => decide (q.kind = 1) && !s.onDoubles q) s.adc.queue = some (q, r) →
    exec (.conversionStart c) s = .next ({ s with adc := { s.adc with queue := r, cvs := tset s.adc.cvs c none (some ⟨1, q.ch, s.now, q.frame⟩) } })) ∧
  (∀ (c : Fin 4) (s : State), s.dev.mode = .run → tget s.adc.cvs c none = none → s.dblMember c = false →
    takeFirst (fun q => decide (q.kind = 3 ∧ q.cv = c.val)) s.adc.queue = none →
    takeFirst (fun q => decide (q.kind = 2) && !s.onDoubles q) s.adc.queue = none → s.adcHeld = true → s.adc.scan ≠ [] →
    exec (.conversionStart c) s = .next (s.set F.ADC_STAT_HELD 1)) ∧
  (∀ (c : Fin 4) (s : State), s.dev.mode = .run → tget s.adc.cvs c none = none → s.dblMember c = true →
    takeFirst (fun q => decide (q.kind = 3 ∧ q.cv = c.val)) s.adc.queue = none →
    exec (.conversionStart c) s = .next (s)) ∧
  (∀ (c : Fin 4) (s : State), s.dev.mode ≠ .run ∨ (tget s.adc.cvs c none).isSome = true → exec (.conversionStart c) s = .next (s)) ∧
  (∀ (v : Word) (s : State), s.writeOk 0x2420 = true → 103 < v.toNat % 128 ∨ s.ainRefused (v.toNat % 128) = true → s.injects 4 = false →
    exec (.adcReq v) s = .next (s)) ∧
  (∀ (n : Fin 4) (v : Word) (s : State), s.writeOk (0x2430 + 4 * n) = true →
    103 < v.toNat % 128 ∨ s.ainRefused (v.toNat % 128) = true ∨ s.dblMember n = true → s.injects 4 = false →
    exec (.adcUrg n v) s = .next (s)) ∧
  (∀ (q : AdcReq) (r : List AdcReq) (s : State), s.dev.mode = .run → s.dblAct = true → s.adc.capture = none →
    takeFirst (fun q => decide (q.kind = 2 ∧ q.ch = s.adc.dblCh)) s.adc.queue = some (q, r) → q.late = true →
    exec .dblCaptureStart s = .next (((({ s with adc := { s.adc with queue := r, capture := some (q.pip, []) } } : State).set F.ADC_DBL_STAT_BUSY 1).set F.ADC_DBL_STAT_PIP q.pip).set
      F.ADC_STAT_PIP_LATE 1)) ∧
  (∀ (p : Nat) (l : List Nat) (s : State), s.adc.capture = some (p, l) → l.length ≠ 64 → exec .adcDblDone s = .next (s)) ∧
  (∀ (s : State), s.adc.capture = none → exec .adcDblDone s = .next (s)) ∧
  (∀ (n : Fin 32) (v : Word) (t : Bool) (s : State), s.writeOk (0x2500 + 8 * n) = true → s.ownedBy 5 n hostOwner = true →
    winReserved t v.toNat = true → s.injects 4 = false →
    exec (.adcWinConfig n t v) s = .next ({ s with hl := { s.hl with disc := true } })) ∧
  (∀ (n : Fin 32) (v : Word) (t : Bool) (s : State), s.writeOk (0x2500 + 8 * n) = true → s.ownedBy 5 n hostOwner = false →
    s.injects 4 = false →
    exec (.adcWinConfig n t v) s = .next (s)) ∧
  (∀ (n : Fin 32) (v : Word) (s : State), s.writeOk (0x2500 + 8 * n) = true → s.ownedBy 5 n hostOwner = true →
    winReserved false v.toNat = false → s.ainRefused (bits v.toNat 0 7) = false → s.injects 4 = false →
    exec (.adcWinConfig n false v) s = .next (s.winConfig n false v.toNat)) ∧
  (∀ (v : Word) (s : State), s.writeOk 0x2440 = true →
    (bitOf v.toNat 31 = true ∧ s.flag F.ADC_DBL_CFG_CLAIMED = false) ∨ 103 < v.toNat % 128 ∨ s.ainRefused (v.toNat % 128) = true →
    s.injects 4 = false →
    exec (.adcDblCfgWrite v) s = .next (s)) ∧
  (∀ (c : Fin 4) (code : BitVec 12) (s : State), s.dev.mode ≠ .run → exec (.conversionEnd c code) s = .next (s)) ∧
  (∀ (s : State), s.dev.mode ≠ .run ∨ s.flag F.ADC_CFG_SCAN = false ∨ s.scanBusy = true → exec .scanRoundStart s = .next (s))

/-- What a conversion's result leaves, and how a window filters it. Rests on 12_adc_subsystem.md. -/
def Obligations.ResultsAndWindows : Prop :=
  (∀ (s : State) (k ch cv c : Nat), ch < 64 → (∀ n, n < 32 → s.flag (F.ADC_WIN_CFG_EN n) = false) →
    (s.adcResult k ch cv c).get (F.ADC_RES_CODE ch) = c % 2 ^ (F.ADC_RES_CODE ch).w ∧ (s.adcResult k ch cv c).get (F.ADC_RES_VALID ch) = 1 ∧
    (s.adcResult k ch cv c).get (F.ADC_RES_CV ch) = cv % 2 ^ (F.ADC_RES_CV ch).w ∧ (s.adcResult k ch cv c).get (F.ADC_RES_KIND ch) = k % 2 ^ (F.ADC_RES_KIND ch).w ∧
    (s.adcResult k ch cv c).get (F.ADC_RES_CNT ch) = (s.get (F.ADC_RES_CNT ch) + 1) % 2 ^ (F.ADC_RES_CNT ch).w ∧
    (∀ j, j < 104 → j ≠ ch → (s.adcResult k ch cv c).get (F.ADC_RES_CODE j) = s.get (F.ADC_RES_CODE j)) ∧
    (s.adcResult k ch cv c).adc.queue = s.adc.queue ∧ (s.adcResult k ch cv c).nv = s.nv ∧ (s.adcResult k ch cv c).dev = s.dev) ∧
  (∀ (s : State) (n ch c : Nat), n < 32 → s.bitF F.ADC_WIN_STATE_ALARM n = false → s.winAlarm n c = true →
    (tget s.adc.win n (0, 0)).1 + 1 < s.get (F.ADC_WIN_CFG_FILT n) →
    s.winEval n ch c = { s with adc := { s.adc with win := tset s.adc.win n (0, 0) ((tget s.adc.win n (0, 0)).1 + 1, 0) } }) ∧
  (∀ (s : State) (n ch c : Nat), n < 32 → s.bitF F.ADC_WIN_STATE_ALARM n = false → s.winAlarm n c = true →
    s.get (F.ADC_WIN_CFG_FILT n) ≤ (tget s.adc.win n (0, 0)).1 + 1 → s.winOwner n ≠ fltOwner →
    (s.winEval n ch c).bitF F.ADC_WIN_STATE_ALARM n = true ∧ (s.winEval n ch c).bitF F.ADC_WIN_FLAG_ENTERED n = true ∧
    tget (s.winEval n ch c).adc.win n (0, 0) = (0, 0)) ∧
  (∀ (s : State) (n ch c : Nat), n < 32 → s.bitF F.ADC_WIN_STATE_ALARM n = false → s.winAlarm n c = false →
    s.winEval n ch c = { s with adc := { s.adc with win := tset s.adc.win n (0, 0) (0, 0) } })

/-- The thermal evaluation, its warnings, the shutdown and its release. The model's readings and choices: what a stale input and an
evaluation that falls due meanwhile do (log entry 25), and the board states (entry 26). Rests on 13_thermal.md. -/
def Obligations.ThermalCommands : Prop :=
  (∀ (t : State) (s : State), s.dev.mode = .run → s.thm.waits = [] →
    t = { s.due s.thm.next with
      thm := { (s.due s.thm.next).thm with next := (s.due s.thm.next).now + 100 * engPerUs } } →
    (t.thmInputs.filter fun ch => t.stale ch) = [] →
    exec .thermalEval s = .next (t.thmEval)) ∧
  (∀ (ch : Nat) (s : State), s.thmInputs.filter (fun c => s.stale c) = [ch] →
    s.thmTry = ({ s with thm := { s.thm with waits := [ch] } } : State).adcPush ⟨3, ch, s.pool.headD 0, 0, false, none⟩) ∧
  (∀ (ch : Nat) (t : State) (s : State), s.dev.mode = .run → s.thm.waits = [] →
    t = { s.due s.thm.next with
      thm := { (s.due s.thm.next).thm with next := (s.due s.thm.next).now + 100 * engPerUs } } →
    (t.thmInputs.filter fun c => t.stale c) = [ch] →
    exec .thermalEval s = .next (({ t with thm := { t.thm with waits := [ch] } } : State).adcPush ⟨3, ch, t.pool.headD 0, 0, false, none⟩)) ∧
  (∀ (s : State) (ch : Nat), s.thm.waits = [ch] → s.thmResult ch = ({ s with thm := { s.thm with waits := [] } } : State).thmTry) ∧
  (∀ (s : State) (ch : Nat), ch ∉ s.thm.waits → s.thmResult ch = s) ∧
  (∀ (k : Fin 10) (s t : State), s.dev.mode = .black ∨ s.dev.mode = .boot → s.dev.stage ≠ .waiting →
    t = ((s.set F.THM_STAT_LATCH 1).thermalOff).set F.THM_STAT_SD 1 →
    exec (.thermalShutdown k) s = .next (let u := (t.emitC 0xA 3 (t.effColour 32) [(k, 1), (s.dev.mode.code, 1), (s.get F.THM_TJ_TJ, 2)]).raise 32 0
      if u.inMode .run = true ∨ u.inMode .park = true then u.pmidRequest else u)) ∧
  (∀ (k : Fin 10) (s t : State), s.dev.mode = .run ∨ s.dev.mode = .park → s.dev.stage ≠ .waiting →
    t = ((s.set F.THM_STAT_LATCH 1).thermalOff).set F.THM_STAT_SD 1 →
    exec (.thermalShutdown k) s = .next (let u := (t.emitC 0xA 3 (t.effColour 32) [(k, 1), (s.dev.mode.code, 1), (s.get F.THM_TJ_TJ, 2)]).raise 32 0
      if u.inMode .run = true ∨ u.inMode .park = true then u.pmidRequest else u)) ∧
  (∀ (s : State), s.dev.mode = .hibernate → s.flag F.THM_STAT_LATCH = true → s.dev.wakeLatch = 0 ∨ s.aoGood = false →
    exec (.hibTs6Check true) s = .next (s.set F.THM_STAT_LATCH 0)) ∧
  (∀ (s : State), s.dev.mode = .hibernate → s.flag F.THM_STAT_LATCH = true → s.dev.wakeLatch ≠ 0 → s.aoGood = true →
    exec (.hibTs6Check true) s = .next ((s.set F.THM_STAT_LATCH 0).wakeBoot)) ∧
  (∀ (s : State) (t w : Int) (k : Nat), s.thm.jWarn = false → t < w → s.warnEval false t w k = s) ∧
  (∀ (s : State) (t w : Int) (k : Nat), s.thm.jWarn = true → w - 8 * s.get F.THM_CFG_HYST ≤ t → s.warnEval false t w k = s) ∧
  (∀ (s : State) (t w : Int) (k : Nat), s.thm.jWarn = false → w ≤ t →
    (s.warnEval false t w k).thm.jWarn = true ∧ (s.warnEval false t w k).get F.THM_STAT_WARN = 1 ∧ (s.warnEval false t w k).get F.THM_STAT_WARN_SEEN = 1) ∧
  (∀ x y : Thm, ((30, 0) ∈ thmRaises x y ↔ (x.jWarn = false ∧ y.jWarn = true) ∨ (x.bWarn = false ∧ y.bWarn = true)) ∧
    ((31, 0) ∈ thmRaises x y ↔ (x.jThr = false ∧ y.jThr = true) ∨ (x.bThr = false ∧ y.bThr = true))) ∧
  (∀ (s : State) (t w : Int) (k : Nat), s.thm.jWarn = true → s.thm.bWarn = false → t < w - 8 * s.get F.THM_CFG_HYST →
    (s.warnEval false t w k).thm.jWarn = false ∧ (s.warnEval false t w k).get F.THM_STAT_WARN = 0 ∧ (s.warnEval false t w k).active 30 = false)

/-- Array reads, programmings and the rollback counter. The model's readings and choices: the record of each word of an advance, what is
left of a torn word and which cells of an aged one have changed (log entry 22). Rests on 18_security_grants_otp.md. -/
def Obligations.OtpCommands : Prop :=
  (∀ (v : Word) (s : State), s.writeOk 0x4008 = true → s.flag F.OTP_RD_STAT_BUSY = false → s.injects 4 = false →
    exec (.otpRead v) s = .next (({ s with otp := { s.otp with reading := some (v.toNat % 512) } } : State).set F.OTP_RD_STAT_BUSY 1)) ∧
  (∀ (w : Nat) (s : State), s.otp.reading = some w → exec (.otpReadDone 0) s = .next (
    (((((({ s with otp := { s.otp with reading := none } } : State).set F.OTP_RD_DATA_DATA (s.otpWord w).value).set F.OTP_RD_STAT_SLOT (s.otpWord w).checks.length).put
      F.OTP_RD_STAT_UE (s.otpWord w).bad).put F.OTP_RD_STAT_CE (s.otpWord w).ce).set F.OTP_RD_STAT_BUSY 0))) ∧
  (∀ (s : State), s.writeOk 0x4020 = true → s.flag F.OTP_PROG_STAT_BUSY = false →
    s.otpRefusal (s.get F.OTP_PROG_ADDR_WORD) (s.get F.OTP_PROG_DATA_DATA) = 0 → s.injects 4 = false →
    exec .otpProgram s = .next (({ s with otp := { s.otp with
        frame := none, advancing := false, prog := some (s.get F.OTP_PROG_ADDR_WORD, s.get F.OTP_PROG_DATA_DATA) } } : State).set F.OTP_PROG_STAT_BUSY 1)) ∧
  (∀ (s : State), s.writeOk 0x4020 = true → s.flag F.OTP_PROG_STAT_BUSY = false → s.advanceRefusal = 0 → s.injects 4 = false →
    exec .otpAdvance s = .next (({ s with otp := { s.otp with
        frame := none, advancing := true, prog := some (0x20 + s.otpCounter, 0xFFFFFFFF) } } : State).set F.OTP_PROG_STAT_BUSY 1)) ∧
  (∀ (w d n k : Nat) (s : State), s.otp.prog = some (w, d) → n = (s.otpWord w).next d → k = (s.otpWord w).checks.length + 1 →
    (s.otpBurn w d).otpVerified w n = true →
    exec (.otpProgramDone true) s = .next (((s.otpBurn w d).otpShadowSet w n).otpEnds w 0 k)) ∧
  (∀ (w d n k : Nat) (s : State), s.otp.prog = some (w, d) → n = (s.otpWord w).next d → k = (s.otpWord w).checks.length + 1 →
    exec (.otpProgramDone false) s = .next (if (s.otpTorn w d).otpVerified w n = true then ((s.otpTorn w d).otpShadowSet w n).otpEnds w 0 k else (s.otpTorn w d).otpEnds w 7 k)) ∧
  (∀ (w c k : Nat) (s : State), s.coreRuns = true → s.dev.mode ≠ .boot → c ≠ 0 ∨ s.otp.advancing = false ∨ s.otpReport.image.rollback ≤ s.otpReport.otpCounter →
    s.otpEnds w c k = s.otpReport.otpResult w c k) ∧
  (∀ (w k : Nat) (s : State), s.coreRuns = true → s.dev.mode ≠ .boot → s.otp.advancing = true → s.otpReport.otpCounter < s.otpReport.image.rollback →
    s.otpEnds w 0 k = (s.otpReport.emit 0x10 1 [(0, 1), (k, 1), (w, 2)]).otpStep) ∧
  (∀ (w c k : Nat) (s : State), s.coreRuns = false → s.otpEnds w c k = { s with otp := { s.otp with prog := none, result := some (c, k, w) } }) ∧
  (∀ (s : State), s.writeOk 0x4020 = true → s.flag F.OTP_PROG_STAT_BUSY = false →
    s.otpRefusal (s.get F.OTP_PROG_ADDR_WORD) (s.get F.OTP_PROG_DATA_DATA) ≠ 0 → s.injects 4 = false →
    exec .otpProgram s = .next (({ s with otp := { s.otp with frame := none, advancing := false } } : State).otpResult (s.get F.OTP_PROG_ADDR_WORD)
      (s.otpRefusal (s.get F.OTP_PROG_ADDR_WORD) (s.get F.OTP_PROG_DATA_DATA)) 0)) ∧
  (∀ (s : State), s.writeOk 0x4020 = true → s.flag F.OTP_PROG_STAT_BUSY = false → s.advanceRefusal ≠ 0 → s.injects 4 = false →
    exec .otpAdvance s = .next (({ s with otp := { s.otp with frame := none, advancing := true } } : State).otpResult (0x20 + s.otpCounter) s.advanceRefusal 0)) ∧
  (∀ (s : State), s.writeOk 0x4020 = true → s.flag F.OTP_PROG_STAT_BUSY = true → s.injects 4 = false → exec .otpProgram s = .next (s)) ∧
  (∀ (s : State), s.writeOk 0x4020 = true → s.flag F.OTP_PROG_STAT_BUSY = true → s.injects 4 = false → exec .otpAdvance s = .next (s)) ∧
  (∀ (v : Word) (s : State), s.writeOk 0x4008 = true → s.flag F.OTP_RD_STAT_BUSY = true → s.injects 4 = false →
    exec (.otpRead v) s = .next (s)) ∧
  (∀ (s : State) (w c k : Nat), 1 ≤ c → c ≤ 8 → (s.otpResult w c k).get F.OTP_PROG_STAT_CAUSE = c ∧ (s.otpResult w c k).get F.OTP_PROG_STAT_BUSY = 0 ∧
    (c ≠ 7 → (s.otpResult w c k).get F.OTP_PROG_STAT_REFUSED = 1) ∧ (s.otpResult w c k).otp.prog = none) ∧
  (∀ (w : Nat) (e : Fin 3) (t : State) (x : OtpWord) (s : State), s.otp.reading = some w →
    t = ({ s with otp := { s.otp with reading := none } } : State).otpAge w e → x = t.otpWord w →
    exec (.otpReadDone e) s = .next (((((t.set F.OTP_RD_DATA_DATA x.value).set F.OTP_RD_STAT_SLOT x.checks.length).put F.OTP_RD_STAT_UE x.bad).put F.OTP_RD_STAT_CE x.ce).set F.OTP_RD_STAT_BUSY 0)) ∧
  (∀ (e : Fin 3) (s : State), s.otp.reading = none → exec (.otpReadDone e) s = .next (s)) ∧
  (∀ (ok : Bool) (s : State), s.otp.prog = none → exec (.otpProgramDone ok) s = .next (s))

/-- OTP programming sets bits and clears none. The model's readings and choices: the columns of the code and what is left of a torn word
(log entry 22). Rests on 18_security_grants_otp.md. -/
def Obligations.OtpBitsOnlySet : Prop :=
  (∀ (s : State) (w d : Nat), (s.otpBurn w d).otpWord w = (s.otpWord w).burnt d (2 ^ 32 - 1) 255 true ∧
    ((s.otpBurn w d).otpWord w).checks.length = (s.otpWord w).checks.length + 1 ∧ (∀ v, v ≠ w → (s.otpBurn w d).otpWord v = s.otpWord v)) ∧
  (∀ (s : State) (w d : Nat), (s.otpWord w).data < 2 ^ 32 → d < 2 ^ 32 → (s.otpWord w).value = (s.otpWord w).data → (s.otpWord w).spare = 0 →
    ((s.otpBurn w d).otpWord w).data = (s.otpWord w).data ||| d ∧ ((s.otpBurn w d).otpWord w).value = (s.otpWord w).data ||| d ∧
    ((s.otpBurn w d).otpWord w).ce = false ∧ ((s.otpBurn w d).otpWord w).bad = false) ∧
  (∀ (s : State) (w d i : Nat), (s.otpWord w).data.testBit i = true → ((s.otpTorn w d).otpWord w).data.testBit i = true) ∧
  (∀ (s : State) (w d i : Nat), (s.otpWord w).data.testBit i = false → (s.otpWord w).value.testBit i = false → d.testBit i = false → ((s.otpTorn w d).otpWord w).data.testBit i = false) ∧
  (∀ (s : State) (w d v : Nat), v ≠ w → (s.otpTorn w d).otpWord v = s.otpWord v)

/-- Challenges, submissions and what their records do. The model's readings and choices: that a submission in the verifier ends with its
result in BLACK, where guarded actions are blocked, and whether one waits for an update's verification (log entry 23); the words of a
nonce are free values, on which nothing depends (entry 5). Rests on 18_security_grants_otp.md, 19_journal_and_update.md. -/
def Obligations.VerifierCommands : Prop :=
  (∀ (s : State), s.writeOk 0x3C08 = true → s.flag F.SEC_STAT_TFAIL = false → s.injects 4 = false →
    exec .challengeRequest s = .next ((s.evict.drawWords 4).2.nonceAdd s.evict.freeSlot (s.evict.drawWords 4).1)) ∧
  (∀ (s : State), s.writeOk 0x3C08 = true → s.flag F.SEC_STAT_TFAIL = true → s.injects 4 = false →
    exec .challengeRequest s = .next (s.set F.SEC_CHAL_STAT_REFUSED 1)) ∧
  (∀ (n : Nonce) (r : List Nonce) (t : State) (s : State), s.sec.nonces = n :: r →
    t = s.due (ofTicks (n.at_ + s.get F.SEC_CFG_CHAL_LIFE * 32768)) →
    exec .nonceExpiry s = .next (({ t with sec := { t.sec with nonces := r } } : State).set F.SEC_CHAL_STAT_OUT r.length)) ∧
  (∀ (s : State), s.sec.nonces = [] → exec .nonceExpiry s = .next (s)) ∧
  (∀ (s : State), s.writeOk 0x3C20 = true → s.flag F.SEC_RESULT_BUSY = false → s.updVerifying = false → s.injects 4 = false →
    exec .grantSubmit s = .next ((({ s with sec := { s.sec with
        sub := some ⟨false, (List.range 32).flatMap fun k => leBytes 4 (s.get (F.SEC_BUF_BYTES k)), 0, none⟩ } } : State).set F.SEC_RESULT_BUSY 1).put F.SEC_RESULT_KIND false)) ∧
  (∀ s t : State, s.writeOk 0x3C20 = true → s.injects 4 = false → s.flag F.SEC_RESULT_BUSY = false → s.updVerifying = true →
    exec .grantSubmit s = .next t → ∃ x, t.sec.sub = some x ∧ (s.draw.1 % 2 = 0 → x.stage = 0 ∧ x.frame = none) ∧ (s.draw.1 % 2 = 1 → x.stage = 3)) ∧
  (∀ (s : State), s.writeOk 0x3C20 = true → s.flag F.SEC_RESULT_BUSY = true → s.injects 4 = false →
    exec .grantSubmit s = .next (s.incSatF F.SEC_CNT_BUSYW)) ∧
  (∀ (s : State), s.writeOk 0x3C20 = true → s.flag F.SEC_RESULT_BUSY = false → s.updVerifying = false → s.injects 4 = false →
    exec .anchorSubmit s = .next ((({ s with sec := { s.sec with
        sub := some ⟨true, (List.range 32).flatMap fun k => leBytes 4 (s.get (F.SEC_BUF_BYTES k)), 0, none⟩ } } : State).set F.SEC_RESULT_BUSY 1).put F.SEC_RESULT_KIND true)) ∧
  (∀ (s : State), s.writeOk 0x3C20 = true → s.flag F.SEC_RESULT_BUSY = true → s.injects 4 = false →
    exec .anchorSubmit s = .next (s.incSatF F.SEC_CNT_BUSYW)) ∧
  (∀ (x : Submission) (s : State), s.sec.sub = some x → x.stage = 0 → s.dev.mode = .run ∨ s.dev.mode = .black → s.subChecks x ≠ 0 →
    exec .verifyDone s = .next (s.secResult x (s.subChecks x) s.rtcValid)) ∧
  (∀ (x : Submission) (t : State) (k : Bool) (s : State), s.sec.sub = some x → x.stage = 0 → s.dev.mode = .run ∨ s.dev.mode = .black →
    s.subChecks x = 0 → k = s.sec.nonces.any (fun n => decide (n.words = nonceOf x.bytes)) →
    t = (if x.window = true then s else s.consume x.bytes) → t.lateChecks x k = 0 →
    exec .verifyDone s = .next (({ t with sec := { t.sec with sub := some { x with stage := 1 } } } : State).jnlTake ⟨.security, 2, t.secBody x, .none⟩)) ∧
  (∀ (x : Submission) (t : State) (k : Bool) (s : State), s.sec.sub = some x → x.stage = 0 → s.dev.mode = .run ∨ s.dev.mode = .black →
    s.subChecks x = 0 → k = s.sec.nonces.any (fun n => decide (n.words = nonceOf x.bytes)) →
    t = (if x.window = true then s else s.consume x.bytes) → t.lateChecks x k ≠ 0 →
    exec .verifyDone s = .next (t.secResult x (t.lateChecks x k) s.rtcValid)) ∧
  (∀ (s : State), ((s.dev.mode ≠ .run ∧ s.dev.mode ≠ .black) ∨ s.sec.sub = none ∨ ∃ x, s.sec.sub = some x ∧ x.stage ≠ 0) →
    exec .verifyDone s = .next (s)) ∧
  (∀ (x : Submission) (s : State), s.sec.sub = some x → x.stage = 2 → x.anchor = true →
    exec .submissionCommitDone s = .next (((s.secTake (s.secBody x)).rtcStep (leField x.bytes 52 4)).secResult x 0 s.rtcValid)) ∧
  (∀ (x : Submission) (t : State) (s : State), s.sec.sub = some x → x.stage = 2 → x.anchor = false → t = s.secTake (s.secBody x) →
    t.guardBlocked (leField x.bytes 24 1) = false →
    exec .submissionCommitDone s = .next ((t.guardAction (leField x.bytes 24 1) (leField x.bytes 25 1) (leField x.bytes 28 4)).secResult x 0 s.rtcValid)) ∧
  (∀ (x : Submission) (t : State) (s : State), s.sec.sub = some x → x.stage = 2 → x.anchor = false → t = s.secTake (s.secBody x) →
    t.guardBlocked (leField x.bytes 24 1) = true →
    exec .submissionCommitDone s = .next (t.secResult x 0x0A s.rtcValid)) ∧
  (∀ (s : State), (s.sec.sub = none ∨ ∃ x, s.sec.sub = some x ∧ x.stage ≠ 2) → exec .submissionCommitDone s = .next (s)) ∧
  (∀ (s : State), s.coreRuns = true → s.flag F.SEC_STAT_TFAIL = false → exec .trngHealth s = .next ((s.set F.SEC_STAT_TFAIL 1).raise 37 0)) ∧
  (∀ (s : State), s.coreRuns = false ∨ s.flag F.SEC_STAT_TFAIL = true → exec .trngHealth s = .next (s))

/-- At most four nonces are outstanding, and a submission uses its own up. The model's readings and choices: the words of a nonce are free
values, on which nothing depends (log entry 5). Rests on 18_security_grants_otp.md. -/
def Obligations.NoncesServeOnce : Prop :=
  (∀ s t : State, s.writeOk 0x3C08 = true → s.injects 4 = false → s.flag F.SEC_STAT_TFAIL = false → s.sec.nonces.length ≤ 4 → exec .challengeRequest s = .next t →
    t.sec.nonces.length ≤ 4 ∧ t.get F.SEC_CHAL_STAT_READY = 1 ∧ t.get F.SEC_CHAL_STAT_OUT = t.sec.nonces.length ∧
    (s.sec.nonces.length = 4 → t.sec.nonces.take 3 = s.sec.nonces.drop 1 ∧ t.get F.SEC_CHAL_STAT_EVICT = incSat (s.get F.SEC_CHAL_STAT_EVICT) F.SEC_CHAL_STAT_EVICT.top % 2 ^ F.SEC_CHAL_STAT_EVICT.w)) ∧
  (∀ (s : State) (b : List Byte), (∀ n ∈ (s.consume b).sec.nonces, n.words ≠ nonceOf b) ∧
    (∀ n ∈ s.sec.nonces, n.words ≠ nonceOf b → n ∈ (s.consume b).sec.nonces)) ∧
  (∀ s t : State, s.writeOk 0x3C08 = true → s.injects 4 = false → s.flag F.SEC_STAT_TFAIL = false → exec .challengeRequest s = .next t →
    t.sec.nonces.getLast?.map Nonce.words = some ((List.range 4).map fun j => t.get (F.SEC_CHAL_W_BYTES j))) ∧
  (∀ (s : State), s.writeOk 0x3C08 = true → s.flag F.SEC_STAT_TFAIL = true → s.injects 4 = false →
    exec .challengeRequest s = .next (s.set F.SEC_CHAL_STAT_REFUSED 1))

/-- Downloads: start, erase, blocks, verification, activation and abort. The model's readings and choices: the zeros of a START entry,
what is left of a command that failed, and a refused abort (log entry 21). Rests on 19_journal_and_update.md. -/
def Obligations.UpdateCommands : Prop :=
  (∀ (n : Fin 2) (s : State), s.writeOk 0x4804 = true → s.injects 4 = false → s.updPhase = 0 ∨ s.updPhase = 4 ∨ s.updPhase = 5 →
    bits (s.get F.SYS_OTP_ALARM_REGION) 0 2 = 0 → s.dev.mode ≠ .run ∨ s.get F.SYS_STATE_SLOT ≠ n →
    exec (.updStart n) s = .next ((s.slotCommit (slotBody (leField s.slotState 0 1) (1 + 2 * n) (digestOf s.slotState 0) (digestOf s.slotState 1)
      (leField s.slotState 68 4)) .none).historyOf 1 n 0 0 0 0 (.started n))) ∧
  (∀ (s : State), s.updPhase = 1 → s.updBusy = true → s.upd.held = false → s.upd.ending = none →
    exec (.updEraseDone true) s = .next (((s.updErase 8).set F.UPD_STAT_PHASE 2).set F.UPD_STAT_BUSY 0)) ∧
  (∀ (v : Word) (s : State), s.writeOk 0x4A00 = true → s.injects 4 = false → s.updBusy = false → s.updPhase = 2 → s.upd.seen ≠ [] →
    v.toNat % 2 ^ 19 % 256 = 0 → v.toNat % 2 ^ 19 < s.get F.UPD_LEN_L → (v.toNat % 2 ^ 19) ∉ s.upd.seen → s.quietHolds F.FRM_QUIET_CFG_NVM_HOLD = false →
    exec (.updBlock v) s = .next (({ s with upd := { s.upd with
      seen := (v.toNat % 2 ^ 19) :: s.upd.seen, block := some (v.toNat % 2 ^ 19), held := false } } : State).set F.UPD_STAT_BUSY 1)) ∧
  (∀ (o : Nat) (s : State), s.upd.block = some o → s.updPhase = 2 → s.updBusy = true → s.upd.held = false → s.upd.ending = none →
    exec (.updBlockDone true) s = .next (({ (s.updWrite o (min 256 (s.get F.UPD_LEN_L - o))).incSatF F.UPD_STAT_BLOCKS with
      upd := { s.upd with block := none } } : State).set F.UPD_STAT_BUSY 0)) ∧
  (∀ (s : State), s.writeOk 0x4804 = true → s.updBusy = false → s.updPhase = 2 → s.upd.seen ≠ [] →
    s.get F.UPD_LEN_L ≤ s.get F.UPD_STAT_BLOCKS * 256 → s.injects 4 = false →
    exec .updVerify s = .next (((s.set F.UPD_STAT_PHASE 3).set F.UPD_STAT_BUSY 1).nvmTry)) ∧
  (∀ (s t u : State) (n : Nat), s.updPhase = 3 → s.updBusy = true → s.upd.held = false → s.upd.ending = none → n = s.get F.UPD_STAT_SLOT →
    s.bootBase.bodyCheck n (s.slotBytes n 0 512) = .ok u → s.marked n (s.slotBytes n 0 512) = false → s.invalidDigest n = none →
    t = ((s.set (F.UPD_SLOT_ROLLBACK n) (hdrRollback (s.slotBytes n 0 512))).set (F.UPD_SLOT_FW n) (leField (s.slotBytes n 0 512) 15 1)) →
    exec .updVerifyDone s = .next (((({ t with upd := { t.upd with
      setupId := leField (s.slotBytes n (hdrSetup (s.slotBytes n 0 512)) 16) 12 4 } } : State).set F.UPD_STAT_BUSY 0).history 2 n 0 .verified).secTry)) ∧
  (∀ (s : State), s.writeOk 0x4804 = true → s.updPhase = 4 → s.injects 4 = false →
    exec .updActivate s = .next ((s.slotCommit (slotBody (s.get F.UPD_STAT_SLOT) 0 (digestOf s.slotState 0) (digestOf s.slotState 1) (s.get F.UPD_LEN_L)) .none).history 3 (s.get F.UPD_STAT_SLOT) 0 .activated)) ∧
  (∀ (s : State), s.writeOk 0x4804 = true → s.updRuns = true → s.updBusy = false → s.injects 4 = false →
    exec .updAbort s = .next (s.history 7 (s.get F.UPD_STAT_SLOT) 0 .failed)) ∧
  (∀ (s : State), s.writeOk 0x4804 = true → s.updRuns = true → s.updBusy = true → s.upd.held = true → s.injects 4 = false →
    exec .updAbort s = .next (((({ s with upd := { s.upd with block := none, ending := none, ended := true, held := false, frame := none } } : State).set F.UPD_STAT_BUSY 0).frameDone s.upd.frame).history 7 (s.get F.UPD_STAT_SLOT) 0 .failed)) ∧
  (∀ (s : State), s.writeOk 0x4804 = true → s.updRuns = true → s.updBusy = true → s.upd.held = false → s.injects 4 = false →
    exec .updAbort s = .next ({ s with upd := { s.upd with ending := some (s.upd.ending.getD 7) } })) ∧
  (∀ s : State, (s.dev.mode = .run ∨ s.dev.mode = .recovery) → s.dev.stage = .none → s.updRuns = true → s.updBusy = false →
    s.updAct .failed = ((({ s with upd := { s.upd with block := none, ending := none, ended := false } } : State).set F.UPD_STAT_PHASE 5).set F.UPD_STAT_BUSY 0)) ∧
  (∀ (v : Word) (s : State), s.writeOk 0x4820 = true → s.injects 4 = false →
    exec (.updHistIdxWrite v) s = .next (((s.set F.UPD_HIST_IDX_K v.toNat).injCheck 12 (area 4).base).copyWords 0x4830 4 (s.bodyBack 4 (v.toNat % 64)))) ∧
  (∀ (v : Word) (t : State) (s : State), s.writeOk 0x4A00 = true → s.updBusy = false → s.updPhase = 2 → s.upd.seen = [] →
    v.toNat % 2 ^ 19 = 0 → s.headerCheck s.updBuf = 0 →
    t = { s with upd := { s.upd with rollback := hdrRollback s.updBuf, fw := hdrFw s.updBuf } } → s.injects 4 = false →
    exec (.updBlock v) s = .next ((t.set F.UPD_LEN_L (hdrLength s.updBuf)).updProgram 0 none)) ∧
  (∀ (v : Word) (t : State) (s : State), s.writeOk 0x4A00 = true → s.updBusy = false → s.updPhase = 2 → s.upd.seen = [] →
    v.toNat % 2 ^ 19 = 0 → s.headerCheck s.updBuf ≠ 0 →
    t = { s with upd := { s.upd with rollback := hdrRollback s.updBuf, fw := hdrFw s.updBuf } } → s.injects 4 = false →
    exec (.updBlock v) s = .next (t.updFail 9 (s.headerCheck s.updBuf))) ∧
  (∀ (v : Word) (s : State), s.writeOk 0x4A00 = true → s.updBusy = false → s.updPhase = 2 → s.upd.seen = [] → v.toNat % 2 ^ 19 ≠ 0 →
    s.injects 4 = false →
    exec (.updBlock v) s = .next ((s.set F.UPD_STAT_CAUSE 0x22))) ∧
  (∀ (v : Word) (s : State), s.writeOk 0x4A00 = true → s.updBusy = false → s.updPhase = 2 → s.upd.seen ≠ [] →
    v.toNat % 2 ^ 19 % 256 ≠ 0 ∨ s.get F.UPD_LEN_L ≤ v.toNat % 2 ^ 19 ∨ (v.toNat % 2 ^ 19) ∈ s.upd.seen → s.injects 4 = false →
    exec (.updBlock v) s = .next ((s.set F.UPD_STAT_CAUSE 0x22))) ∧
  (∀ (v : Word) (s : State), s.writeOk 0x4A00 = true → s.updBusy = true → s.injects 4 = false →
    exec (.updBlock v) s = .next (s.incSatF F.UPD_STAT_DISC)) ∧
  (∀ (v : Word) (s : State), s.writeOk 0x4A00 = true → s.updBusy = false → s.updPhase ≠ 2 → s.injects 4 = false →
    exec (.updBlock v) s = .next ((s.set F.UPD_STAT_CAUSE 0x20))) ∧
  (∀ (v : Word) (s : State), s.writeOk 0x4A00 = true → s.updBusy = false → s.updPhase = 2 → s.upd.seen ≠ [] →
    v.toNat % 2 ^ 19 % 256 = 0 → v.toNat % 2 ^ 19 < s.get F.UPD_LEN_L → (v.toNat % 2 ^ 19) ∉ s.upd.seen →
    s.quietHolds F.FRM_QUIET_CFG_NVM_HOLD = true → s.injects 4 = false →
    exec (.updBlock v) s = .next (({ s with upd := { s.upd with
      seen := (v.toNat % 2 ^ 19) :: s.upd.seen, block := some (v.toNat % 2 ^ 19), held := true, frame := none } } : State).set F.UPD_STAT_BUSY 1)) ∧
  (∀ (s : State), s.updPhase = 1 → s.updBusy = true → s.upd.held = false → s.upd.ending = none →
    exec (.updEraseDone false) s = .next (s.updTear.updFail 9 0x23)) ∧
  (∀ (o : Nat) (s : State), s.upd.block = some o → s.updPhase = 2 → s.updBusy = true → s.upd.held = false → s.upd.ending = none →
    exec (.updBlockDone false) s = .next (s.updTear.updFail 9 0x23)) ∧
  (∀ (c : Nat) (s : State), s.updPhase = 1 → s.updBusy = true → s.upd.held = false → s.upd.ending = some c → c ≠ 7 →
    exec (.updEraseDone true) s = .next ((s.updErase 8).updFail c 0)) ∧
  (∀ (c o : Nat) (s : State), s.upd.block = some o → s.updPhase = 2 → s.updBusy = true → s.upd.held = false → s.upd.ending = some c →
    c ≠ 7 →
    exec (.updBlockDone true) s = .next (((s.updWrite o (min 256 (s.get F.UPD_LEN_L - o))).incSatF F.UPD_STAT_BLOCKS).updFail c 0)) ∧
  (∀ (s t : State) (n : Nat) (f : SlotFail), s.updPhase = 3 → s.updBusy = true → s.upd.held = false → s.upd.ending = none → n = s.get F.UPD_STAT_SLOT →
    s.bootBase.bodyCheck n (s.slotBytes n 0 512) = .error f →
    t = ((s.set (F.UPD_SLOT_ROLLBACK n) (hdrRollback (s.slotBytes n 0 512))).set (F.UPD_SLOT_FW n) (leField (s.slotBytes n 0 512) 15 1)) →
    exec .updVerifyDone s = .next (t.updFail 9 f.cause).secTry) ∧
  (∀ (n : Fin 2) (s : State), s.writeOk 0x4804 = true → s.injects 4 = false → s.updPhase ≠ 0 ∧ s.updPhase ≠ 4 ∧ s.updPhase ≠ 5 →
    exec (.updStart n) s = .next (s.set F.UPD_STAT_CAUSE 0x20)) ∧
  (∀ (n : Fin 2) (s : State), s.writeOk 0x4804 = true → s.injects 4 = false → s.updPhase = 0 ∨ s.updPhase = 4 ∨ s.updPhase = 5 →
    bits (s.get F.SYS_OTP_ALARM_REGION) 0 2 ≠ 0 → exec (.updStart n) s = .next (s.set F.UPD_STAT_CAUSE 0x24)) ∧
  (∀ (n : Fin 2) (s : State), s.writeOk 0x4804 = true → s.injects 4 = false → s.updPhase = 0 ∨ s.updPhase = 4 ∨ s.updPhase = 5 →
    bits (s.get F.SYS_OTP_ALARM_REGION) 0 2 = 0 → s.dev.mode = .run → s.get F.SYS_STATE_SLOT = n →
    exec (.updStart n) s = .next (s.set F.UPD_STAT_CAUSE 0x21)) ∧
  (∀ (s : State), s.writeOk 0x4804 = true →
    s.updBusy = true ∨ s.updPhase ≠ 2 ∨ s.upd.seen = [] ∨ s.get F.UPD_STAT_BLOCKS * 256 < s.get F.UPD_LEN_L → s.injects 4 = false →
    exec .updVerify s = .next ((s.set F.UPD_STAT_CAUSE 0x20))) ∧
  (∀ (s : State), s.writeOk 0x4804 = true → s.updPhase ≠ 4 → s.injects 4 = false →
    exec .updActivate s = .next ((s.set F.UPD_STAT_CAUSE 0x20))) ∧
  (∀ (s : State), s.writeOk 0x4804 = true → s.updRuns = false → s.injects 4 = false →
    exec .updAbort s = .next ((s.set F.UPD_STAT_CAUSE 0x20))) ∧
  (∀ (s : State) (n : Nat), s.dev.mode = .run ∨ s.dev.mode = .recovery → s.dev.stage = .none → s.updAct (.started n) = s.updBegin n) ∧
  (∀ s : State, s.dev.mode = .run ∨ s.dev.mode = .recovery → s.dev.stage = .none → s.updPhase = 4 → s.updAct .activated = s.set F.UPD_STAT_PHASE 0) ∧
  (∀ s : State, s.dev.mode = .run ∨ s.dev.mode = .recovery → s.dev.stage = .none → s.updPhase = 3 → s.updAct .verified = s.set F.UPD_STAT_PHASE 4) ∧
  (∀ s : State, s.dev.mode = .run ∨ s.dev.mode = .recovery → s.dev.stage = .none → s.updBusy = true → s.upd.held = false →
    s.updAct .failed = { s with upd := { s.upd with ending := some 0 } }) ∧
  (∀ s : State, s.upd.ended = true → s.updPhase = 1 → s.updResume = ({ s with upd := { s.upd with ended := false } } : State).set F.UPD_STAT_PHASE 2) ∧
  (∀ s : State, s.upd.ended = true → s.updPhase = 3 → s.updResume = ({ s with upd := { s.upd with ended := false } } : State).updJudge) ∧
  (∀ s : State, s.upd.ended = false → s.updResume = s)

/-- Erasing and programming change the download's slot alone. The model's readings and choices: how an erased byte reads (log entry 7).
Rests on 19_journal_and_update.md. -/
def Obligations.MemoryWritesStayInTheirSlot : Prop :=
  (∀ (s : State) (o k a : Nat), a < s.get F.UPD_STAT_SLOT * 0x80000 + o ∨ s.get F.UPD_STAT_SLOT * 0x80000 + o + k ≤ a →
    tget (s.updWrite o k).nv.flash a flashBlank = tget s.nv.flash a flashBlank ∧ (s.updWrite o k).nv.journal = s.nv.journal ∧ (s.updWrite o k).regs = s.regs) ∧
  (∀ (s : State) (a : Nat), s.get F.UPD_STAT_SLOT * 0x80000 ≤ a → a < (s.get F.UPD_STAT_SLOT + 1) * 0x80000 →
    tget (s.updErase 8).nv.flash a flashBlank = flashBlank) ∧
  (∀ (s : State) (a k : Nat), Memory.wf s.nv → a < s.get F.UPD_STAT_SLOT * 0x80000 ∨ s.get F.UPD_STAT_SLOT * 0x80000 + k * 0x10000 ≤ a →
    tget (s.updErase k).nv.flash a flashBlank = tget s.nv.flash a flashBlank ∧ (s.updErase k).nv.journal = s.nv.journal ∧ (s.updErase k).nv.otp = s.nv.otp) ∧
  (∀ (s : State) (o k : Nat), (s.updWrite o k).nv.otp = s.nv.otp ∧ (s.updErase k).regs = s.regs)

/-- The commands of stacks and tiles. The model's readings and choices: a turn for which every tile is held, the taker whose off-time
alone keeps it, the marks of TOFF_MIN and TON_MIN, and what a trip leaves in the turn order (log entry 37). Rests on
05_tiles_racks_stacks.md. -/
def Obligations.StackCommands : Prop :=
  (∀ (p held off : Nat) (r : List Nat), bitOf held p = false → turnTaker (p :: r) held off = some p) ∧
  (∀ (p q held off : Nat) (r : List Nat), bitOf held p = true →
    (r.find? (fun q => !bitOf held q && !bitOf off q) = some q → turnTaker (p :: r) held off = some q) ∧
    (r.find? (fun q => !bitOf held q && !bitOf off q) = none → turnTaker (p :: r) held off = r.find? fun q => !bitOf held q)) ∧
  (∀ (u : Fin 17) (vpmid : Nat) (held off zero : BitVec 16) (nlim : Bool) (p k : Nat) (o : List Nat) (a b : State) (s : State),
    s.turns u = true → o = (List.range (s.activeCount u)).map (fun j => (s.turnPtr u + j) % s.activeCount u) →
    turnTaker o held.toNat off.toNat = some p → s.tileAt u p = some k →
    a = forEach ((o.takeWhile fun q => decide (q ≠ p)).filter fun q => bitOf held.toNat q) (fun q t => t.withhold u q) (s.diodeRest u zero.toNat) →
    b = ((a.takeTurn u p).setTurnPtr u ((p + 1) % s.activeCount u)).turnMarks u p (s.onTimeShort u vpmid) (bitOf off.toNat p) →
    exec (.turn u vpmid held off zero nlim) s = .next (if nlim ∧ s.forcedContinuous u then b.set (F.TIL_STAT_NLIM k) 1 else b)) ∧
  (∀ (u : Fin 17) (vpmid : Nat) (held off zero : BitVec 16) (nlim : Bool) (o : List Nat) (s : State), s.turns u = true →
    o = (List.range (s.activeCount u)).map (fun j => (s.turnPtr u + j) % s.activeCount u) → turnTaker o held.toNat off.toNat = none →
    exec (.turn u vpmid held off zero nlim) s = .next (forEach o (fun p t => match t.tileAt u p with
      | some k => (if u.val = 16 then t else t.set (F.STK_STAT_VLIM u) 1).set (F.TIL_STAT_VLIM k) 1
      | none => t) (s.diodeRest u zero.toNat))) ∧
  (∀ (n : Fin 16) (vpmid : Nat) (held off : BitVec 16) (t : State) (s : State), s.rollArmed n = true →
    t = (forEach ((List.range (s.tileCount n)).filter fun p => !bitOf held.toNat p) (fun p x =>
      (x.takeTurn n p).turnMarks n p (s.onTimeShort n vpmid) (bitOf off.toNat p)) s).setTurnPtr n
      ((s.turnPtr n + 1) % (max 1 (s.get (F.STK_STAT_NACT n)))) →
    exec (.fullRoll n vpmid held off) s = .next ((((t.setStk n { t.stk n with
      shedDwell := 0, addDwell := 0, rolls := incSat (t.stk n).rolls 65535, lockAt := s.now }).set (F.STK_STAT_LOCK n) 1).set (F.STK_STAT_ROLL n) 1).incSatF (F.STK_CNT_ROLL n))) ∧
  (∀ (n : Fin 16) (s : State), s.flag (F.STK_STAT_LOCK n) = true →
    exec (.fullRollLockoutEnd n) s = .next ((s.due ((s.stk n).lockAt + 2 * engPerUs)).set (F.STK_STAT_LOCK n) 0)) ∧
  (∀ (n : Fin 16) (t : State) (s : State), s.dev.mode = .run → (s.stk n).rolls ≠ 0 →
    t = (match (s.stk n).rollAt with
      | some k => s.due (k + engPerMs)
      | none => s) →
    exec (.stkRoll n) s = .next ((t.setStk n { t.stk n with rolls := 0, rollAt := some t.now }).emitX 3 n 3 2 0 [(n, 1), ((s.stk n).rolls, 2)])) ∧
  (∀ (n : Fin 16) (s : State), s.shedArmed n = true → (s.stk n).due = 0 →
    max 1 (s.get (F.STK_SHED_TIME_SHED_DWELL n)) ≤ (s.stk n).shedDwell →
    exec (.shedDwellDone n) s = .next ((s.setStk n { s.stk n with due := 1, deferred := false }).phaseWait n)) ∧
  (∀ (n : Fin 16) (s : State), s.shedArmed n = true → (s.stk n).due = 0 →
    max 1 (s.get (F.STK_SHED_TIME_ADD_DWELL n)) ≤ (s.stk n).addDwell →
    exec (.addDwellDone n) s = .next ((s.setStk n { s.stk n with due := 2, deferred := false }).phaseWait n)) ∧
  (∀ (n : Fin 16) (a k : Nat) (t : State) (s : State), (s.stk n).due = 1 → s.shedCond n = true → s.phaseGate n = true →
    a = s.get (F.STK_STAT_NACT n) → s.tileAt n (a - 1) = some k →
    t = ((s.tileOff k).set (F.STK_STAT_NACT n) (a - 1)).incWrapF (F.STK_CNT_SHED n) →
    exec (.tileShed n) s = .next (((if a - 1 ≤ s.get (F.STK_STAT_PTR n) then t.set (F.STK_STAT_PTR n) 0 else t).shedRest n).emitPhase n (a - 1) a 0)) ∧
  (∀ (n : Fin 16) (a k : Nat) (s : State), (s.stk n).due = 2 → s.addCond n = true → s.phaseGate n = true →
    a = s.get (F.STK_STAT_NACT n) → s.tileAt n a = some k →
    exec (.tileAdd n) s = .next (((((s.tileOn k).set (F.STK_STAT_NACT n) (a + 1)).incWrapF (F.STK_CNT_ADD n)).shedRest n).emitPhase n (a + 1) a 1)) ∧
  (∀ (n : Fin 16) (s : State), s.flag (F.STK_STAT_SS n) = true → (s.stk n).preEnable = false → (s.stk n).ssTo ≤ (s.stk n).tLast →
    (s.stk n).tripped = false →
    exec (.softStartEnd n) s = .next ((s.set (F.STK_STAT_SS n) 0).setStk n { s.stk n with
      pgIn := 0, pgOut := 0, profInit := decide (s.get (F.STK_SRC_STAT_ACT n) = 3) })) ∧
  (∀ (n : Fin 16) (s : State), s.dev.mode = .run → s.flag (F.STK_STAT_EN n) = true → s.flag (F.STK_STAT_SS n) = false →
    s.flag (F.STK_STAT_PG n) = false → (s.stk n).tripped = false → 8 ≤ (s.stk n).pgIn →
    exec (.stackPgAssert n) s = .next ((s.set (F.STK_STAT_PG n) 1).refreshRaw)) ∧
  (∀ (n : Fin 16) (s : State), s.dev.mode = .run → 2 ≤ (s.stk n).pgOut → exec (.stackPgWithdraw n) s = .next (s.stackPgOff n true)) ∧
  (∀ (n : Fin 16) (s : State), s.dev.mode = .park → exec (.parkPgLoss n) s = .next (s.stackPgOff n true)) ∧
  (∀ (n : Fin 16) (s : State), s.flag (F.STK_STAT_DIS n) = true → exec (.dischargeEnd n) s = .next (s.dischargeOff n)) ∧
  (∀ (n : Fin 16) (vout : Nat) (s : State), s.flag (F.STK_STAT_DIS n) = true →
    exec (.stkDisTimeout n vout) s = .next (((((s.due ((s.stk n).disAt + 50 * engPerMs)).dischargeOff n).set (F.STK_STAT_DIS_TO n) 1).emitX 3 n 3 4 (s.effColour 18) [(n, 1), (vout, 2)]).raise 18 n)) ∧
  (∀ (n : Fin 16) (t : State) (s : State), s.dev.mode = .run ∨ s.dev.mode = .park ∨ s.dev.mode = .black → s.tileCount n ≠ 0 →
    (s.stk n).tripped = false →
    t = (((((s.stackPgOff n true).dischargeOff n).set (F.STK_STAT_SS n) 0).set (F.STK_STAT_LOCK n) 0).set (F.STK_STAT_OV_TRIP n) 1).shedRest n →
    exec (.stkOvTrip n) s = .next (((t.setStk n { t.stk n with tripped := true }).emitX 4 n 3 1 (s.effColour 17)
      [(n, 1), (s.get (F.STK_STAT_EN n), 1), (s.vov n, 2)]).raise 17 n)) ∧
  (∀ (n : Fin 16) (s : State), (s.stk n).tripped = true → s.get (F.STK_STAT_EN n) = 0 →
    (s.setStk n { s.stk n with tripped := false }).anyTripped = false →
    exec (.ovTripRelease n) s = .next ((s.setStk n { s.stk n with tripped := false }).unraise 17)) ∧
  (∀ (n : Fin 16) (s : State), (s.stk n).tripped = true → s.get (F.STK_STAT_EN n) = 0 →
    (s.setStk n { s.stk n with tripped := false }).anyTripped = true →
    exec (.ovTripRelease n) s = .next (s.setStk n { s.stk n with tripped := false })) ∧
  (∀ (t : Fin 48) (vbat : Nat) (s : State), 64 ≤ (s.tile t).held → (s.tile t).sent = false → s.get (F.TIL_STAT_USE t) ≠ 16 →
    exec (.tilVlim t vbat) s = .next (((s.setTile t { s.tile t with sent := true }).emitC 2 1 (s.effColour 16)
      [(t, 1), (s.get (F.TIL_STAT_USE t), 1), (s.get (F.TIL_IMEAN_I t), 2)]).raise 16 t)) ∧
  (∀ (t : Fin 48) (vbat : Nat) (s : State), 64 ≤ (s.tile t).held → (s.tile t).sent = false → s.get (F.TIL_STAT_USE t) = 16 →
    exec (.tilVlim t vbat) s = .next ((((s.setTile t { s.tile t with sent := true }).emitC 2 1 (s.effColour 16)
      [(t, 1), (16, 1), (s.get (F.TIL_IMEAN_I t), 2)]).raise 16 t).chgFault F.PP_CHG_FAULT_TILE vbat)) ∧
  (∀ (imean iout vout : List Int) (vpmid : Nat) (a b : State) (s : State), s.dev.mode = .run →
    a = s.due (s.eng.measAt + 256 * engPerUs) →
    b = { a with eng := { a.eng with measAt := s.eng.measAt + (a.now - s.eng.measAt) / (256 * engPerUs) * (256 * engPerUs) } } →
    exec (.measWindowEnd imean iout vout vpmid) s = .next ((forEach (List.range 16) (fun n x => if s.tileCount n = 0 then x else
      (x.setS (F.STK_MEAS_IOUT n) (iout.getD n 0)).setS (F.STK_MEAS_VOUT n) (vout.getD n 0))
      (forEach (List.range 48) (fun t x => if s.get (F.TIL_STAT_USE t) = 0x1F then x else x.setS (F.TIL_IMEAN_I t) (imean.getD t 0)) b)).set
      F.PP_PMID_V vpmid)) ∧
  (∀ (imean iout vout : List Int) (vpmid : Nat) (s : State), s.dev.mode = .black →
    exec (.measWindowEnd imean iout vout vpmid) s = .next (s.set F.PP_PMID_V vpmid))

/-- A tripped stack computes nothing and gives no turn, whatever enables it. The model's readings and choices: that a trip takes the tiles
out of the turn order (log entry 37). Rests on 05_tiles_racks_stacks.md, 06_control_engine.md. -/
def Obligations.TripsHold : Prop :=
  (∀ (n : Fin 16) (s t : State), s.dev.mode = .run → s.dev.stage = .none → s.tileCount n ≠ 0 → (s.stk n).tripped = false →
    exec (.stkOvTrip n) s = .next t → (t.stk n).tripped = true ∧ t.slotComputes n = false) ∧
  (∀ (n : Fin 16) (s t : State), s.dev.mode = .run → s.dev.stage = .none → s.tileCount n ≠ 0 → (s.stk n).tripped = false →
    exec (.stkOvTrip n) s = .next t → t.turns n = false) ∧
  (∀ (n : Fin 16) (v : Nat) (s : State), s.stackHeldOff n = true → s.tileCount n ≠ 0 → s.flag (F.STK_STAT_EN n) = false → s.pp.cut = false →
    s.flag F.THM_STAT_LATCH = false → (s.stackEnable n v).turns n = false) ∧
  (∀ (n : Fin 16) (v k : Nat) (s : State), s.stackHeldOff n = true → s.tileCount n ≠ 0 → s.flag (F.STK_STAT_EN n) = false → s.pp.cut = false →
    s.flag F.THM_STAT_LATCH = false → k ∈ s.tilesOf n → (s.stackEnable n v).get (F.TIL_STAT_HIZ k) = 1)

/-- The engine, its mailboxes and the set-point sources. The model's readings and choices: the place of a slot (log entry 37), the fetches
that correct an error (entry 34), and the staged or the generator's value and the slot that does not compute (entry 46). Rests on
06_control_engine.md, 07_setpoint_sources.md. -/
def Obligations.EngineCommands : Prop :=
  (∀ (n : Fin 16) (e i : Int) (k : Nat) (z a b c d : State) (s : State), s.dev.mode = .run → z = s.slotTime n → z.tileCount n ≠ 0 →
    a = (if sat e (-2048) 2047 ≠ e then z.set (F.STK_STAT_ESAT n) 1 else z) →
    b = (if sat i (-32767) 32767 ≠ i then a.set (F.STK_STAT_ISAT n) 1 else a) →
    c = (b.setStk n { b.stk n with iNow := sat i (-32767) 32767 }).mbxApply n ((b.setStk n { b.stk n with iNow := sat i (-32767) 32767 }).slotComputes n) →
    c.slotComputes n = true → d = c.slotFetch k → d.slotComputes n = true →
    exec (.engineSlot n e i k) s = .next (((d.slotCompute n (sat e (-2048) 2047) (sat i (-32767) 32767)).pgSlot n (sat e (-2048) 2047) (decide (sat e (-2048) 2047 ≠ e))).shedSlot n)) ∧
  (∀ (n : Fin 16) (e i : Int) (k : Nat) (z a b c d f g : State) (s : State), s.dev.mode = .run → z = s.slotTime n → z.tileCount n ≠ 0 →
    a = (if sat e (-2048) 2047 ≠ e then z.set (F.STK_STAT_ESAT n) 1 else z) →
    b = (if sat i (-32767) 32767 ≠ i then a.set (F.STK_STAT_ISAT n) 1 else a) →
    c = (b.setStk n { b.stk n with iNow := sat i (-32767) 32767 }).mbxApply n ((b.setStk n { b.stk n with iNow := sat i (-32767) 32767 }).slotComputes n) →
    d = (if c.slotComputes n = true then c.slotFetch k else c) → d.slotComputes n = false →
    f = (if (d.stk n).srcDue ∧ ¬ d.flag (F.STK_STAT_SS n) then d.srcTake n else d) →
    g = (if (f.stk n).ant ∧ ¬ f.mapsLive then f.antEnd n else f) →
    exec (.engineSlot n e i k) s = .next (((((g.stagedApply n false).putBitF F.ENG_STAT_ACTIVE n false).pgSlot n (sat e (-2048) 2047)
      (decide (sat e (-2048) 2047 ≠ e))).shedSlot n))) ∧
  (∀ (n : Fin 16) (e i : Int) (k : Nat) (s : State), s.dev.mode = .run → (s.slotTime n).tileCount n = 0 →
    exec (.engineSlot n e i k) s = .next (s.slotTime n)) ∧
  (∀ (n : Fin 16) (w : List (BitVec 16 × Word)) (l : List (Nat × Nat)) (s : State), s.tileCount n ≠ 0 → l ≠ [] →
    l = ((w.map fun p => (p.1.toNat, p.2.toNat)).filter fun p =>
      decide ((stackOf p.1).map Prod.fst = some n.val) && hasAcc p.1 .rw && decide (s.stkVerdict n p.1 p.2 = .ok) && s.writeOk p.1) →
    s.injects 4 = false →
    exec (.stackMailboxWrite n w) s = .next (s.mbxPush ⟨n, l, none⟩)) ∧
  (∀ (n : Fin 16) (s : State), (s.stk n).limOpen = false ∨ (s.stk n).limCount = 0 → exec (.engLimit n) s = .next (s)) ∧
  (∀ (s : State) (n k : Nat) (r : Int), (s.stk n).limOpen = true → s.now ≤ (s.stk n).limAt + engPerMs →
    s.takeover n k r = s.setStk n { s.stk n with
      limCount := incSat (s.stk n).limCount 65535, limLoop := if (s.stk n).limCount = 0 then k else (s.stk n).limLoop,
      limRef := if (s.stk n).limCount = 0 then r else (s.stk n).limRef }) ∧
  (∀ (s : State) (n k : Nat) (r : Int), (s.stk n).limOpen = false ∨ ((s.stk n).limCount = 0 ∧ (s.stk n).limAt + engPerMs < s.now) →
    s.takeover n k r = (s.setStk n { s.stk n with limOpen := true, limCount := 0, limAt := s.now }).emitX 3 n 4 1 0
      [(n, 1), (k, 1), (1, 2), (unsigned r 16, 2)]) ∧
  (∀ (n : Fin 16) (t : State) (s : State), (s.stk n).limOpen = true → (s.stk n).limCount ≠ 0 → t = s.due ((s.stk n).limAt + engPerMs) →
    exec (.engLimit n) s = .next ((t.setStk n { t.stk n with limCount := 0, limAt := t.now }).emitX 3 n 4 1 0
      [(n, 1), ((t.stk n).limLoop, 1), ((t.stk n).limCount, 2), (unsigned (t.stk n).limRef 16, 2)])) ∧
  (∀ (s : State), s.dev.mode = .run ∨ s.dev.mode = .black → exec .engProbe0Read s = .next (s.probeLatch)) ∧
  (∀ (m : Fin 4) (code : Fin 4096) (s : State), s.dev.mode = .run → s.ownedBy 3 m 3 = true →
    exec (.trackConversion m code) s = .next ({ s with track := tset s.track m [] (((code : Nat) :: tget s.track m []).take 8) })) ∧
  (∀ (k : Fin 12) (p h : Nat) (s : State), s.dev.mode = .run → exec (.pulsePeriodEnd k p h) s = .next (forEach (List.range 16) (fun n t =>
      if t.srcAct n = 2 ∧ (t.stk n).pin = k then
        t.setStk n { t.stk n with
          pulseCode := min (h * 4096 / p) 4095, pulseValid := decide (80 ≤ p ∧ p ≤ 8000 ∧ 1 ≤ h ∧ h ≤ p - 1), pulseEnd := s.now }
      else t) s)) ∧
  (∀ (n : Fin 16) (t : State) (s : State), s.tracksOn n = true → s.trackCode n = none → s.flag (F.STK_SRC_STAT_HOLD n) = false →
    s.get (F.STK_SRC_LOSS n) ≤ (s.stk n).badRun + 1 →
    t = ((s.set (F.STK_SRC_STAT_HOLD n) 1).set (F.STK_SRC_STAT_LOST n) 1).set (F.STK_SRC_STAT_LCAUSE n) (s.srcAct n - 1) →
    exec (.manualHold n) s = .next (((t.setStk n { s.stk n with preSource := true, goodRun := 0 }).emitX 3 n 3 5 (s.effColour 19)
      [(n, 1), (s.srcAct n - 1, 1), (unsigned (s.stk n).tsHold 16, 2)]).raise 19 n)) ∧
  (∀ (n : Fin 16) (t : State) (s : State), s.tracksOn n = true → s.trackCode n ≠ none → s.flag (F.STK_SRC_STAT_HOLD n) = true →
    s.flag (F.STK_SRC_RETURN n) = true → 64 ≤ (s.stk n).goodRun + 1 →
    t = (s.set (F.STK_SRC_STAT_RETURNED n) 1).holdEnd n 0 (s.stk n).tLast →
    exec (.sourceReturn n) s = .next (t.setStk n { t.stk n with preSource := true })) ∧
  (∀ (n : Fin 4) (s : State), s.flag (F.STK_SRC_STAT_MOVE n) = true → (s.stk n).moveLeft = 0 →
    exec (.profileDone n) s = .next (((s.set (F.STK_SRC_STAT_MOVE n) 0).set (F.STK_SRC_STAT_PDONE n) 1).emitProf n 1 0 (unsigned (s.stk n).dest 16) (s.stk n).moveLen)) ∧
  (∀ (s : State) (n v : Nat) (c : Bool), s.flag (F.STK_SRC_STAGE n) = true → s.vsetWrite n v c = s.setStk n { s.stk n with staged := some v }) ∧
  (∀ (s : State) (n : Nat) (c : Bool), (s.stk n).fired = false → s.stagedApply n c = s) ∧
  (∀ (s : State) (n : Nat) (c : Bool), (s.stk n).fired = true → (s.stk n).staged = none → s.stagedApply n c = s.setStk n { s.stk n with fired := false }) ∧
  (∀ (s : State) (n v : Nat), (s.stk n).fired = true → (s.stk n).staged = some v →
    s.stagedApply n true = (s.setStk n { s.stk n with fired := false, staged := none }).vsetTake n v true)

/-- A slot keeps its integrators, its comparator and its reference within their bounds. The model's readings and choices: that the
comparison DAC limits what it holds by VCEIL (log entry 46, from R174 and R202). Rests on 06_control_engine.md, 07_setpoint_sources.md. -/
def Obligations.EngineStaysInBounds : Prop :=
  (∀ (s : State) (n : Nat) (e i t aoff : Int),
    (0 ≤ ((s.slotLoops n e i t aoff).stk n).xC ∧ ((s.slotLoops n e i t aoff).stk n).xC ≤ xMax) ∧
    (0 ≤ ((s.slotLoops n e i t aoff).stk n).xT ∧ ((s.slotLoops n e i t aoff).stk n).xT ≤ xMax) ∧
    (0 ≤ ((s.slotLoops n e i t aoff).stk n).xP ∧ ((s.slotLoops n e i t aoff).stk n).xP ≤ xMax)) ∧
  (∀ (s : State) (n : Nat) (e i t aoff : Int), s.flag (F.STK_ENG_CTRL_MODE n) = false →
    0 ≤ ((s.slotLoops n e i t aoff).stk n).xV ∧ ((s.slotLoops n e i t aoff).stk n).xV ≤ xMax) ∧
  (∀ (s : State) (n : Nat) (e i t aoff : Int),
    0 ≤ ((s.slotLoops n e i t aoff).stk n).vcmpLast ∧ ((s.slotLoops n e i t aoff).stk n).vcmpLast ≤ 26000 ∧
    ((s.slotLoops n e i t aoff).stk n).vcmpDac = min ((s.slotLoops n e i t aoff).stk n).vcmpLast (s.vceil n : Int)) ∧
  (∀ (s : State) (n : Nat) (prev out : Int), s.dacWrite n prev out ≤ s.vceil n ∧ s.dacWrite n prev out ≤ prev + 16 * tget s.otp.slew n 255 ∧
    (prev - 16 * tget s.otp.slew n 255 ≤ s.dacWrite n prev out ∨ s.dacWrite n prev out = s.vceil n)) ∧
  (∀ (s : State) (n : Nat) (e i t aoff : Int), ((s.slotLoops n e i t aoff).stk n).dLast ≤ s.vceil n ∧
    ((s.slotLoops n e i t aoff).stk n).dLast ≤ (s.stk n).dLast + 16 * tget s.otp.slew n 255)

/-- Regulators, load switches and guarded drivers. The model's readings and choices: what is left of an output that went off (log entry
43), and commands of one clock (entry 47). Rests on 09_ldos_switches_guarded.md. -/
def Obligations.OutputCommands : Prop :=
  (∀ (n : Fin 8) (s : State), s.flag (F.OUT_LDO_STAT_EN n) = true → s.flag (F.OUT_LDO_STAT_SS n) = true →
    exec (.ldoRampEnd n) s = .next ((s.due (s.ldoRampEnd n)).set (F.OUT_LDO_STAT_SS n) 0)) ∧
  (∀ (n : Fin 8) (s : State), s.flag (F.OUT_LDO_STAT_EN n) = true → s.flag (F.OUT_LDO_STAT_SS n) = false → s.ldoTripped n = false →
    exec (.ldoPgAssert n) s = .next ((s.set (F.OUT_LDO_STAT_PG n) 1).refreshRaw)) ∧
  (∀ (n : Fin 8) (s : State), s.ldoTripped n = true → exec (.ldoPgAssert n) s = .next (s)) ∧
  (∀ (n : Fin 8) (s : State), exec (.ldoPgWithdraw n) s = .next ((s.set (F.OUT_LDO_STAT_PG n) 0).refreshRaw)) ∧
  (∀ (n : Fin 8) (s : State), s.flag (F.OUT_LDO_STAT_EN n) = true → s.ldoTripped n = false →
    exec (.ldoCurrentLimit n) s = .next (({ s with
      ldo := tset s.ldo n Rail.init { tget s.ldo n Rail.init with limAt := some s.now } } : State).set (F.OUT_LDO_STAT_ILIM n) 1)) ∧
  (∀ (n : Fin 8) (k : Nat) (t : State) (s : State), (tget s.ldo n Rail.init).limAt = some k → s.flag (F.OUT_LDO_STAT_EN n) = true →
    s.ldoTripped n = false → t = s.due (k + engPerMs) →
    exec (.ldoOcpTrip n) s = .next (((((((({ t with
      ldo := tset t.ldo n Rail.init { tget t.ldo n Rail.init with tripped := true, limAt := none, level := t.ldoOut n } } : State).set (F.OUT_LDO_STAT_SS n) 0).set
      (F.OUT_LDO_STAT_PG n) 0).set (F.OUT_LDO_STAT_OCP n) 1).set (F.OUT_LDO_STAT_ILIM n) 1).refreshRaw).emitOcp 0 n 0 (s.effColour 23)).raise 23 n)) ∧
  (∀ (n : Fin 6) (s : State), s.flag (F.OUT_LSW_STAT_EN n) = true → s.flag (F.OUT_LSW_STAT_SS n) = true →
    exec (.lswRampEnd n) s = .next ((s.due ((tget s.lsw n Rail.init).rampAt + s.lswSs n)).set (F.OUT_LSW_STAT_SS n) 0)) ∧
  (∀ (n : Fin 6) (s : State), s.flag (F.OUT_LSW_STAT_EN n) = true → s.flag (F.OUT_LSW_STAT_SS n) = false → s.lswTripped n = false →
    exec (.lswPgAssert n) s = .next ((s.set (F.OUT_LSW_STAT_PG n) 1).refreshRaw)) ∧
  (∀ (n : Fin 6) (s : State), s.lswTripped n = true → exec (.lswPgAssert n) s = .next (s)) ∧
  (∀ (n : Fin 6) (s : State), exec (.lswPgWithdraw n) s = .next ((s.set (F.OUT_LSW_STAT_PG n) 0).refreshRaw)) ∧
  (∀ (n : Fin 6) (s : State), s.flag (F.OUT_LSW_STAT_EN n) = true → s.lswTripped n = false →
    exec (.lswCurrentLimit n) s = .next (({ s with
      lsw := tset s.lsw n Rail.init { tget s.lsw n Rail.init with limAt := some s.now } } : State).set (F.OUT_LSW_STAT_ILIM n) 1)) ∧
  (∀ (n : Fin 6) (k : Nat) (t : State) (s : State), (tget s.lsw n Rail.init).limAt = some k → s.flag (F.OUT_LSW_STAT_EN n) = true →
    s.lswTripped n = false → t = s.due (k + s.lswTripTime n) →
    exec (.lswOcpTrip n) s = .next (((((((({ t with
      lsw := tset t.lsw n Rail.init { tget t.lsw n Rail.init with tripped := true, limAt := none } } : State).set (F.OUT_LSW_STAT_SS n) 0).set
      (F.OUT_LSW_STAT_PG n) 0).set (F.OUT_LSW_STAT_OCP n) 1).set (F.OUT_LSW_STAT_ILIM n) 1).refreshRaw).emitOcp 1 n 0 (s.effColour 23)).raise 23 n)) ∧
  (∀ (n : Fin 8) (s : State), s.flag (F.OUT_LDO_STAT_EN n) = true → exec (.ldoUvin n) s = .next (s.set (F.OUT_LDO_STAT_UVIN n) 1)) ∧
  (∀ (n : Fin 6) (s : State), s.flag (F.OUT_LSW_STAT_EN n) = true → s.lswTripped n = false →
    exec (.lswReverse n) s = .next (((((({ s with
      lsw := tset s.lsw n Rail.init { tget s.lsw n Rail.init with tripped := true, limAt := none } } : State).set (F.OUT_LSW_STAT_SS n) 0).set
      (F.OUT_LSW_STAT_PG n) 0).set (F.OUT_LSW_STAT_REV n) 1).refreshRaw).emitOcp 1 n 1 0)) ∧
  (∀ (s : State) (n : Nat), s.flag (F.OUT_LDO_STAT_EN n) = false →
    (s.ldoDischarge n = (s.dischargeForced || ((s.inMode .run || s.inMode .park) && (s.flag (F.OUT_LDO_CFG_DIS n) || bitOf s.unclaimed n)))) ∨ s.dev.mode = .hibernate) ∧
  (∀ (s : State) (n : Nat), s.flag (F.OUT_LSW_STAT_EN n) = false →
    (s.lswDischarge n = (s.dischargeForced || ((s.inMode .run || s.inMode .park) && (s.flag (F.OUT_LSW_CFG_DIS n) || bitOf s.unclaimed (8 + n))))) ∨ s.dev.mode = .hibernate) ∧
  (∀ (s : State) (n : Nat), s.dev.mode = .hibernate → s.flag (F.OUT_LDO_STAT_EN n) = false → s.ldoDischarge n = bitOf s.dev.unclaimed n) ∧
  (∀ (s : State) (n : Nat), s.dev.mode = .hibernate → s.flag (F.OUT_LSW_STAT_EN n) = false → s.lswDischarge n = bitOf s.dev.unclaimed (8 + n)) ∧
  (∀ (s : State) (k : Fin 14), bitOf s.unclaimed k = (s.claim 8 (16 + k)).isNone) ∧
  (∀ (k : Fin 12) (s : State),
    exec (.externalPgInput k true) s = .next (({ s with dev := { s.dev with gpioIn := putBit s.dev.gpioIn k true } } : State).refreshRaw)) ∧
  (∀ (k : Fin 12) (s : State), exec (.externalPgInput k false) s = .next (({ s with
      dev := { s.dev with gpioIn := putBit s.dev.gpioIn k false, parkPinTaken := clrBit s.dev.parkPinTaken k } } : State).refreshRaw)) ∧
  (∀ (n : Fin 2) (s : State), s.flag (F.OUT_G_STAT_ON n) = true →
    exec (.guardDurationEnd n) s = .next ((s.due (((tget s.guards n Guard.init).since + (tget s.guards n Guard.init).dur) * engPerMs)).guardEnd n 1 0)) ∧
  (∀ (s : State), s.writeOk 0x1898 = true → s.injects 4 = false → exec (.guardRelease 0x6A7D0000) s = .next (({ s with
      guards := tset s.guards 0 Guard.init { tget s.guards 0 Guard.init with released := some s.coreClk } } : State).guardEnd 0 2 0)) ∧
  (∀ (s : State), s.writeOk 0x1898 = true → s.injects 4 = false → exec (.guardRelease 0x6A7D0001) s = .next (({ s with
      guards := tset s.guards 1 Guard.init { tget s.guards 1 Guard.init with released := some s.coreClk } } : State).guardEnd 1 2 0)) ∧
  (∀ (v : Word) (s : State), s.writeOk 0x1898 = true → v ≠ 0x6A7D0000 → v ≠ 0x6A7D0001 → s.injects 4 = false →
    exec (.guardRelease v) s = .next (s)) ∧
  (∀ (n : Fin 2) (b : Fin 4) (vsrc : Nat) (t : State) (s : State), s.coreRuns = true →
    (if b.val = 2 then s.flag (F.OUT_G_STAT_ON n) = false else s.flag (F.OUT_G_STAT_ON n) = true) →
    t = ((s.due ((tget s.guards n Guard.init).turned + guardDelay b * engPerMs)).set (guardBit n b) 1).guardEnd n 3 (s.effColour 24) →
    exec (.guardFault n b vsrc) s = .next ((t.emitC 6 4 (s.effColour 24) [(n, 1), (t.get (F.OUT_G_STAT_GATE_LOW n) + 2 * t.get (F.OUT_G_STAT_DESAT n) +
      4 * t.get (F.OUT_G_STAT_STUCK n) + 8 * t.get (F.OUT_G_STAT_CP n), 1), (vsrc, 2)]).raise 24 n))

/-- The front end, the supply of PMID and the pack. The model's readings and choices: the bytes of the removal's record, and what
HIBERNATE keeps of the power path (log entry 28). Rests on 10_power_path_charger.md, 08_sequencer_and_domains.md. -/
def Obligations.PowerPathCommands : Prop :=
  (∀ (causes : BitVec 3) (vin k : Nat) (s : State),
    s.dev.vaoGood = true → s.fe ≠ 0 → k = 1 ∨ k = 2 ∨ k = 3 → bitOf causes.toNat (k - 1) = true → (∀ j, 1 ≤ j → j < k → bitOf causes.toNat (j - 1) = false) →
    exec (.vinLoss causes vin) s = .next (s.feLoss k vin)) ∧
  (∀ (vin rise : Nat) (retOk strap : Bool) (a b c : State) (s : State), s.dev.vaoGood = true → s.fe = 0 → 650 ≤ vin →
    (s.get F.PP_FE_CNT_CAUSE ≠ 3 ∧ s.get F.PP_FE_CNT_CAUSE ≠ 4) ∨ vin ≤ 1800 →
    a = s.setPp { s.pp with treq := s.treqOf (s.pp.handAt + rise) } → b = a.due (s.pp.handAt + rise + a.treqEff * engPerMs) →
    c = (((b.setPp { b.pp with feOut := b.now }).set F.PP_FE_STAT_STATE 1).srcRefresh).emit 7 2 [(b.treqEff, 2), (vin, 2)] →
    exec (.vinQualified vin rise retOk strap) s = .next ((if c.inMode .hibernate then c.strapTo strap else c).wakeFire 6 retOk)) ∧
  (∀ (s : State), s.fe = 1 → exec .feStartDone s = .next (s.set F.PP_FE_STAT_STATE 2)) ∧
  (∀ (vin : Nat) (s : State), s.fe = 1 → exec (.feStartTimeout vin) s = .next ((s.due (s.pp.feOut + 50 * engPerMs)).feLoss 5 vin)) ∧
  (∀ (s : State), s.fe = 2 →
    exec .feClamp s = .next (((s.setPp { s.pp with clampAt := s.now }).set F.PP_FE_STAT_STATE 3).set F.PP_FE_FLAGS_CLAMPED 1)) ∧
  (∀ (s : State), s.fe = 3 → exec .feClampRelease s = .next (s.set F.PP_FE_STAT_STATE 2)) ∧
  (∀ (vin : Nat) (s : State), s.fe = 3 → exec (.feClampTimeout vin) s = .next ((s.due (s.pp.clampAt + 1000 * engPerMs)).feLoss 4 vin)) ∧
  (∀ (t : State) (s : State), s.fe ≠ 0 → s.flag F.PP_FE_STAT_UNSTABLE = true → t = s.due (s.pp.feOut + 10000 * engPerMs) →
    exec .unstableEnd s = .next ((((t.setPp { t.pp with doublings := 0 }).set F.PP_FE_STAT_UNSTABLE 0).unraise 25).emit 7 3 [(0, 1), (s.pp.doublings, 1)])) ∧
  (∀ (s : State), s.pp.packPath = true → exec .idealDiodeOn s = .next (s.setPp { s.pp with diode := true })) ∧
  (∀ (s : State), exec .idealDiodeOff s = .next (s.setPp { s.pp with diode := false })) ∧
  (∀ (low : Bool) (s : State), s.dev.vaoGood = true →
    exec (.pmidSourceChange low) s = .next ((s.setPp { s.pp with vinLow := low }).srcRefresh)) ∧
  (∀ (v : Nat) (s : State), s.dev.mode = .run ∨ s.dev.mode = .park →
    exec (.pmidShutdown v) s = .next ((s.emit 7 4 [(v, 2)]).seqPush 5 none)) ∧
  (∀ (v : Nat) (t : State) (s : State), s.dev.vaoGood = true →
    t = (forEach (List.range 16) (fun n x => x.cutStack n) (s.setPp { s.pp with cut := true, uvArmed := false })).chgTiles →
    exec (.pmidUv v) s = .next (if s.pp.uvArmed then (t.emitC 7 5 (t.effColour 26) [(v, 2)]).raise 26 0 else t)) ∧
  (∀ (s : State), s.dev.vaoGood = true → exec .pmidUvRelease s = .next ((s.setPp { s.pp with cut := false, uvArmed := true }).chgTiles)) ∧
  (∀ (t : State) (s : State), s.dev.vaoGood = true → s.dev.mode ≠ .park → s.flag F.PP_PACK_STAT_PRESENT = false →
    t = (if s.flag F.PP_PACK_STAT_QUAL then s.setPp { s.pp with ntcOpen := false } else
      (s.setPp { s.pp with ntcOpen := false, presAt := s.now }).set F.PP_PACK_STAT_QUAL 1) →
    exec (.packPresent true) s = .next (if t.chgState = 1 then t.chgTo 2 else t)) ∧
  (∀ (t : State) (s : State), s.dev.vaoGood = true → s.dev.mode ≠ .park → s.flag F.PP_PACK_STAT_PRESENT = false →
    t = (s.setPp { s.pp with firstQual := false }).set F.PP_PACK_STAT_QUAL 0 →
    exec (.packPresent false) s = .next (if t.chgState = 2 then t.chgTo 1 else t)) ∧
  (∀ (id vbat : Nat) (a b c : State) (s : State), s.dev.vaoGood = true → s.dev.mode ≠ .park → s.flag F.PP_PACK_STAT_QUAL = true →
    s.flag F.PP_PACK_STAT_PRESENT = false → a = s.due (s.pp.presAt + (if s.pp.firstQual then 10 else 2000) * engPerMs) →
    b = (((((a.setPp { a.pp with
      packPath := true, firstQual := false, resting := !s.idMatches id, qualAt := a.now }).set F.PP_PACK_STAT_PRESENT 1).set F.PP_PACK_STAT_QUAL 0).set
      F.PP_PACK_STAT_ID (min id 1023)).put F.PP_PACK_STAT_ID_MATCH (s.idMatches id)).emit 7 9 [(b2n (s.idMatches id), 1), (min id 1023, 2)] →
    c = (b.setGg { b.gg with qualified := true, idMatch := s.idMatches id }).gaugeStartCheck →
    exec (.packQualified id vbat) s = .next (if c.chgState = 2 ∧ s.idMatches id then c.chgReset.chgTo (c.entryE vbat) else c)) ∧
  (∀ (vbat : Nat) (a b : State) (s : State), s.pp.resting = true → a = s.due (s.pp.qualAt + 1000 * engPerMs) →
    b = a.setPp { a.pp with resting := false } →
    exec (.packRestEnd vbat) s = .next (if b.chgState = 2 then b.chgReset.chgTo (b.entryE vbat) else b)) ∧
  (∀ (sign : Fin 5) (s : State),
    s.dev.vaoGood = true → s.flag F.PP_PACK_STAT_PRESENT = true → s.dev.mode ≠ .park → (sign.val = 2 → s.chgState = 5) → (sign.val = 3 → s.chgState = 6) →
    exec (.packRemoval sign) s = .next (s.packRemoval (sign + 1))) ∧
  (∀ (ntcOpen idOpen : Bool) (a b : State) (s : State), s.dev.mode = .park → a = s.due s.pp.parkChk →
    b = a.setPp { a.pp with parkChk := a.now + 1000 * engPerMs } → s.flag F.PP_PACK_STAT_PRESENT = true →
    ntcOpen = true ∨ idOpen = true → s.pp.parkSign = 0 →
    exec (.parkPackCheck ntcOpen idOpen) s = .next (b.setPp { b.pp with packPath := false, diode := false, parkSign := if ntcOpen then 1 else 2, signAt := some b.now })) ∧
  (∀ (ntcOpen idOpen : Bool) (a b : State) (s : State), s.dev.mode = .park → a = s.due s.pp.parkChk →
    b = a.setPp { a.pp with parkChk := a.now + 1000 * engPerMs } →
    s.flag F.PP_PACK_STAT_PRESENT = false ∨ (ntcOpen = false ∧ idOpen = false) ∨ s.pp.parkSign ≠ 0 →
    exec (.parkPackCheck ntcOpen idOpen) s = .next (b))

/-- The charger goes through its states. The model's readings and choices: V(VBAT_SNS) where a write does not carry it (log entry 28).
Rests on 10_power_path_charger.md. -/
def Obligations.ChargerCommands : Prop :=
  (∀ (v : Word) (vbat : Nat) (s : State), s.writeOk 0x1C40 = true → s.injects 4 = false →
    exec (.chgEnableWrite v vbat) s = .next (s.chgCfgWrite v.toNat vbat)) ∧
  (∀ (v vbat : Nat) (s : State), encodable 0x1C40 v = true → s.chgCfgBad v = false →
    s.chgCfgWrite v vbat = (s.storeAcc 0x1C40 v .rw).chgEnable (s.flag F.PP_CHG_CFG_EN) vbat) ∧
  (∀ (v vbat : Nat) (s : State), encodable 0x1C40 v = false ∨ s.chgCfgBad v = true → s.chgCfgWrite v vbat = s.setDisc) ∧
  (∀ (v : Word) (vbat : Nat) (s : State), s.writeOk 0x1C5C = true → s.injects 4 = false →
    exec (.chgFaultClear v vbat) s = .next (s.chgFaultWrite v.toNat vbat)) ∧
  (∀ (headroom : Bool) (s : State), s.dev.vaoGood = true →
    exec (.chgSuspend headroom) s = .next ((s.setChg { s.pp.chg with headroom := headroom }).chgCheck)) ∧
  (∀ s : State, chgCharging s.chgState = true → s.suspend ≠ 0 → s.chgCheck = (s.setChg { s.pp.chg with clearAt := none }).chgTo 3) ∧
  (∀ (s : State) (k : Nat), s.suspend = 0 → s.pp.chg.clearAt = some k → s.chgCheck = s) ∧
  (∀ s : State, s.suspend = 0 → s.pp.chg.clearAt = none → s.chgCheck = s.setChg { s.pp.chg with clearAt := some s.now }) ∧
  (∀ (vbat k : Nat) (t : State) (s : State), t = s.chgCheck → t.chgState = 3 → t.pp.chg.clearAt = some k →
    exec (.chgResume vbat) s = .next ((t.due (k + 100 * engPerMs)).chgTo (t.entryE vbat))) ∧
  (∀ (vbat : Nat) (t : State) (s : State), t = s.chgCheck → t.chgState ≠ 3 ∨ t.pp.chg.clearAt = none →
    exec (.chgResume vbat) s = .next (t)) ∧
  (∀ (t : State) (s : State), t = s.chgCheck → t.chgState = 4 → exec .chgPrechargeDone s = .next (t.chgTo 5)) ∧
  (∀ (t : State) (s : State), t = s.chgCheck → t.chgState ≠ 4 → exec .chgPrechargeDone s = .next (t)) ∧
  (∀ (t : State) (s : State), t = s.chgCheck → t.chgState = 5 → exec .chgCcToPrecharge s = .next (t.chgTo 4)) ∧
  (∀ (t : State) (s : State), s.flag F.PP_CHG_STAT_PROBE = false → t = s.chgCheck → t.chgState = 5 → exec .chgCcToCv s = .next (t.chgTo 6)) ∧
  (∀ (t : State) (s : State), s.flag F.PP_CHG_STAT_PROBE = false → t = s.chgCheck → t.chgState = 6 → exec .chgCvToCc s = .next (t.chgTo 5)) ∧
  (∀ (t : State) (s : State), s.flag F.PP_CHG_STAT_PROBE = false → t = s.chgCheck → t.chgState = 6 →
    exec .chgTermination s = .next ((t.setGg { t.gg with term := true }).chgTo (if t.get F.PP_CHG_TERM_TOPOFF = 0 then 8 else 7))) ∧
  (∀ (t : State) (s : State), t = s.chgCheck → t.chgState = 7 →
    exec .chgTopoffEnd s = .next ((t.due (t.pp.chg.since + t.get F.PP_CHG_TERM_TOPOFF * 60000 * engPerMs)).chgTo 8)) ∧
  (∀ (vbat : Nat) (s : State), s.chgState = 8 → exec (.chgRecharge vbat) s = .next (s.safeReset.chgTo (s.safeReset.entryE vbat))) ∧
  (∀ (vbat : Nat) (s : State), s.chgState = 4 →
    exec (.chgPrechargeTimeout vbat) s = .next ((s.due (s.pp.chg.since + (1800000 * engPerMs - s.pp.chg.pre))).chgFault F.PP_CHG_FAULT_PRE_TO vbat)) ∧
  (∀ (vbat : Nat) (s : State), s.chgState = 4 ∨ s.chgState = 5 ∨ s.chgState = 6 →
    exec (.chgSafetyTimeout vbat) s = .next ((s.due (s.pp.chg.since + (s.get F.PP_CHG_TERM_SAFETY * 3600000 * engPerMs - s.pp.chg.safe))).chgFault F.PP_CHG_FAULT_SAFETY vbat)) ∧
  (∀ (vbat : Nat) (s : State), s.flag F.PP_PACK_STAT_PRESENT = true → s.signFresh = false →
    exec (.batOv vbat) s = .next ((s.tilesOff 16).chgFault F.PP_CHG_FAULT_BAT_OV vbat)) ∧
  (∀ (s : State), s.flag F.PP_CHG_STAT_PROBE = true →
    exec .probeEnd s = .next (((s.due (s.pp.chg.probeAt + s.get F.PP_CHG_PROBE_LEN * 10 * engPerUs)).set F.PP_CHG_STAT_PROBE 0).captureEnded)) ∧
  (∀ (i k : Nat) (s : State), chgCharging s.chgState = true → (s.tilesOf 16).length = 2 → s.segAt s.seg = 0 →
    s.flag F.PP_CHG_STAT_PROBE = false → i = s.chgIeff s.chgState →
    k = (if i < 1200 then 1 else if 1500 ≤ i then 2 else s.pp.chg.count) → k ≠ s.pp.chg.count →
    exec .chgTileCount s = .next ((s.setChg { s.pp.chg with count := k }).chgTiles)) ∧
  (∀ (a b : State) (s : State), s.chgState = 9 → a = s.due (s.pp.chg.toggled + 500 * engPerMs) →
    b = a.setChg { a.pp.chg with toggled := a.now } →
    exec .chgStatusToggle s = .next ({ b with
      dev := { b.dev with
        gpioDrive := (List.range 12).foldl (fun m k => if s.gpioCode k = 9 then putBit m k (!bitOf m k) else m) b.dev.gpioDrive } }))

/-- A latched fault and a suspend condition stop the charge. Rests on 10_power_path_charger.md. -/
def Obligations.ChargerStopsForItsFaults : Prop :=
  (∀ (s : State) (f : FRef) (vbat : Nat), f = F.PP_CHG_FAULT_TILE ∨ f = F.PP_CHG_FAULT_BAT_OV ∨ f = F.PP_CHG_FAULT_SAFETY ∨ f = F.PP_CHG_FAULT_PRE_TO →
    s.dev.stage ≠ .powerDown → s.dev.stage ≠ .commit →
    (s.chgFault f vbat).flag f = true ∧ chgCharging (s.chgFault f vbat).chgState = false) ∧
  (∀ s : State, chgCharging s.chgCheck.chgState = true → s.chgCheck.suspend = 0) ∧
  (∀ s : State, chgCharging s.chgState = false → s.chgTiles.get F.PP_CHG_STAT_TILES = 0 ∧
    ∀ t ∈ s.tilesOf 16, s.chgTiles.get (F.TIL_STAT_ACTIVE t) = 0)

/-- The windows, the updates and the captures of the fuel gauge. The model's readings and choices: a result that does not fit its register
is a free value (log entry 24), and the gauge before its start (entry 24). Rests on 11_fuel_gauge.md. -/
def Obligations.GaugeCommands : Prop :=
  (∀ (i : Int) (v : Nat) (t : State) (s : State), s.gaugeRuns = true →
    t = s.setGg { s.gg with
      sumI := s.gg.sumI + sat i (-131071) 131071, sumV := s.gg.sumV + (min v 65535 : Nat), wins := s.gg.wins + 1,
      recent := (sat i (-131071) 131071, min v 65535) :: s.gg.recent.take 3, secI := s.gg.secI + sat i (-131071) 131071,
      secWins := s.gg.secWins + 1, capture := s.gg.capture.map fun c => c.window (sat i (-131071) 131071) (min v 65535), sinceChange := incSat s.gg.sinceChange 5 } →
    s.gg.secWins + 1 < 32768 →
    exec (.gaugeWindow i v) s = .next (if 131071 < i.natAbs then t.set F.GG_STAT_ISAT 1 else t)) ∧
  (∀ (i : Int) (v : Nat) (q : Int) (t : State) (s : State), s.gaugeRuns = true → q = s.gg.secI + sat i (-131071) 131071 →
    t = s.setGg { s.gg with
      sumI := s.gg.sumI + sat i (-131071) 131071, sumV := s.gg.sumV + (min v 65535 : Nat), wins := s.gg.wins + 1,
      recent := (sat i (-131071) 131071, min v 65535) :: s.gg.recent.take 3, secI := 0,
      secWins := 0, capture := s.gg.capture.map fun c => c.window (sat i (-131071) 131071) (min v 65535), sinceChange := incSat s.gg.sinceChange 5 } →
    32768 ≤ s.gg.secWins + 1 → i.natAbs ≤ 131071 →
    exec (.gaugeWindow i v) s = .next (if (q.natAbs : Int) * 625 < 20 * 32768 * s.rsh ∧ ¬ s.flag F.GG_STAT_FROZEN then t.incSatF F.GG_RELAX_SEC else t.set F.GG_RELAX_SEC 0)) ∧
  (∀ (i : Int) (v : Nat) (q : Int) (t : State) (s : State), s.gaugeRuns = true → q = s.gg.secI + sat i (-131071) 131071 →
    t = (s.setGg { s.gg with
      sumI := s.gg.sumI + sat i (-131071) 131071, sumV := s.gg.sumV + (min v 65535 : Nat), wins := s.gg.wins + 1,
      recent := (sat i (-131071) 131071, min v 65535) :: s.gg.recent.take 3, secI := 0,
      secWins := 0, capture := s.gg.capture.map fun c => c.window (sat i (-131071) 131071) (min v 65535), sinceChange := incSat s.gg.sinceChange 5 }).set F.GG_STAT_ISAT 1 →
    32768 ≤ s.gg.secWins + 1 → 131071 < i.natAbs →
    exec (.gaugeWindow i v) s = .next (if (q.natAbs : Int) * 625 < 20 * 32768 * s.rsh ∧ ¬ s.flag F.GG_STAT_FROZEN then t.incSatF F.GG_RELAX_SEC else t.set F.GG_RELAX_SEC 0)) ∧
  (∀ (a b : Int) (n : Nat) (s : State), s.gaugeRuns = true → s.gg.handed = some (a, b, n) →
    exec .gaugeUpdate s = .next ((s.setGg { s.gg with handed := none }).gaugeUpdate a b n)) ∧
  (∀ (s : State), s.gaugeRuns = true → s.gg.handed = none → s.dev.mode ≠ .park → exec .gaugeUpdate s = .next (s.gaugeEnds 1)) ∧
  (∀ (s : State), s.dev.mode = .park → s.gg.handed = none → exec .gaugeUpdate s = .next (s.gaugeEnds (s.get F.GG_CFG_PARK_PER))) ∧
  (∀ (i : Int) (v f p : Nat) (t : State) (s : State), s.gaugeRuns = true → s.gg.snap = some (f, p) →
    t = ((s.setGg { s.gg with snap := none }).putInt F.GG_SNAP_I (tdiv (sat i (-131071) 131071 * 625) s.rsh)).putNat F.GG_SNAP_V
      (tdiv ((min v 65535 : Nat) * 5) 32) →
    exec (.gaugeSnapshot i v) s = .next (((t.set F.GG_SNAP_AT_FRAME f).set F.GG_SNAP_AT_PIP p).set F.GG_STAT_SNAP 1)) ∧
  (∀ (t : State) (s : State), s.dev.mode = .run → s.mapsLive = true → s.segAt s.seg = 1 → s.crossing 2 0 = (false, t) →
    exec (.captureTrigger false) s = .next (t.captureTrigger false)) ∧
  (∀ (t : State) (s : State), s.dev.mode = .run → s.mapsLive = true → s.segAt s.seg = 1 → s.crossing 2 0 = (true, t) →
    exec (.captureTrigger false) s = .next (t)) ∧
  (∀ (s : State), s.dev.mode = .run → s.gg.trig = true →
    exec (.captureTrigger true) s = .next ((s.setGg { s.gg with trig := false }).captureTrigger true)) ∧
  (∀ (c : Capture) (t : State) (s : State), s.gg.capture = some c → c.skip = 0 → c.left = 0 →
    t = s.setGg { s.gg with capture := none } → c.ended = true →
    exec .captureComplete s = .next (t.captureDone c.probe 5 none)) ∧
  (∀ (c : Capture) (t : State) (s : State), s.gg.capture = some c → c.skip = 0 → c.left = 0 →
    t = s.setGg { s.gg with capture := none } → c.ended = false → c.changed = true →
    exec .captureComplete s = .next (t.captureDone c.probe 6 none)) ∧
  (∀ (c : Capture) (t : State) (s : State), s.gg.capture = some c → c.skip = 0 → c.left = 0 →
    t = s.setGg { s.gg with capture := none } → c.ended = false → c.changed = false →
    ((c.postI - c.preI).natAbs : Int) * 625 < (s.get F.GG_IMP_CFG_CAP_MIN_DI : Int) * 4 * s.rsh →
    exec .captureComplete s = .next (t.captureDone c.probe 2 none)) ∧
  (∀ (c : Capture) (t : State) (r : Int) (s : State), s.gg.capture = some c → c.skip = 0 → c.left = 0 →
    t = s.setGg { s.gg with capture := none } → c.ended = false → c.changed = false →
    ¬ ((c.postI - c.preI).natAbs : Int) * 625 < (s.get F.GG_IMP_CFG_CAP_MIN_DI : Int) * 4 * s.rsh →
    r = tdiv ((c.postV - c.preV) * s.rsh * 25) (c.postI - c.preI) → r < 1 ∨ 50000 < r →
    exec .captureComplete s = .next (t.captureDone c.probe 3 (some r))) ∧
  (∀ (c : Capture) (t u : State) (r x : Int) (s : State), s.gg.capture = some c → c.skip = 0 → c.left = 0 →
    t = s.setGg { s.gg with capture := none } → c.ended = false → c.changed = false →
    ¬ ((c.postI - c.preI).natAbs : Int) * 625 < (s.get F.GG_IMP_CFG_CAP_MIN_DI : Int) * 4 * s.rsh →
    r = tdiv ((c.postV - c.preV) * s.rsh * 25) (c.postI - c.preI) → ¬ (r < 1 ∨ 50000 < r) → x = tdiv (r * 1024) s.tempFactor →
    u = (if s.bitF F.GG_LEARN_LMASK s.band then t.putNat (bandField s.band)
        ((s.get (bandField s.band) : Int) + rshr (x - (s.get (bandField s.band) : Int)) (s.get F.GG_IMP_CFG_RLRN))
      else (t.putNat (bandField s.band) x).putBitF F.GG_LEARN_LMASK s.band true) →
    exec .captureComplete s = .next ((u.setGg { u.gg with accepted := true }).captureDone c.probe 0 (some r))) ∧
  (∀ (s : State), s.gaugeRuns = true →
    exec .gaugePeriodicCommit s = .next ((s.due (s.gg.storedAt + s.get F.GG_CFG_JPER * 60000 * engPerMs)).gaugeCommit 0)) ∧
  (∀ (s : State), s.gg.startDue = true → s.newestBody 1 = none ∨ s.gg.idMatch = false →
    exec .gaugeStart s = .next (((s.setGg { s.gg with startDue := false, removedAt := none, startAnchor := none }).set F.GG_STAT_FROZEN 0).gaugeRelearn)) ∧
  (∀ (b : List Byte) (t : State) (s : State), s.gg.startDue = true → s.newestBody 1 = some b → s.gg.idMatch = true →
    s.rtcValid = false →
    t = ((s.setGg { s.gg with startDue := false, removedAt := none, startAnchor := none }).set F.GG_STAT_FROZEN 0).gaugeRestore b →
    exec .gaugeStart s = .next ((t.setGg { t.gg with startAnchor := some (0, true) }).set F.GG_STAT_AVALID 0)) ∧
  (∀ (b : List Byte) (t u w v : State) (s : State), s.gg.startDue = true → s.newestBody 1 = some b → s.gg.idMatch = true →
    s.rtcValid = true → s.flag F.GG_STAT_FROZEN = false → leField b 14 4 ≠ 0 ∧ s.rtcSec < leField b 14 4 + 1800 →
    t = ((s.setGg { s.gg with startDue := false, removedAt := none, startAnchor := none }).set F.GG_STAT_FROZEN 0).gaugeRestore b →
    u = (t.setGg { t.gg with
      qc := signed (leField b 8 6) 48, aqc := signed (leField b 18 6) 48, asoc := leField b 24 2 }).put F.GG_STAT_AVALID (bitOf (leField b 6 1) 1) →
    w = (if s.flag F.GG_STAT_VALID then u else u.setGg { u.gg with socR := u.socTarget u.ruse, tPrev := u.socTarget u.ruse }) →
    v = w.emit 8 4 [(1, 1), (1, 1), (s.get F.PP_PACK_STAT_ID, 2)] →
    exec .gaugeStart s = .next (((v.gaugeCommit 3).set F.GG_STAT_VALID 1).showSoc)) ∧
  (∀ (b : List Byte) (k : Nat) (t w v : State) (s : State), s.gg.startDue = true → s.newestBody 1 = some b → s.gg.idMatch = true →
    s.rtcValid = true → s.flag F.GG_STAT_FROZEN = true → s.gg.removedAt = some k → s.rtcSec < k + 1800 →
    t = ((s.setGg { s.gg with startDue := false, removedAt := none, startAnchor := none }).set F.GG_STAT_FROZEN 0).gaugeRestore b →
    w = (if s.flag F.GG_STAT_VALID then t else t.setGg { t.gg with socR := t.socTarget t.ruse, tPrev := t.socTarget t.ruse }) →
    v = w.emit 8 4 [(1, 1), (1, 1), (s.get F.PP_PACK_STAT_ID, 2)] →
    exec .gaugeStart s = .next (((v.gaugeCommit 3).set F.GG_STAT_VALID 1).showSoc)) ∧
  (∀ (b : List Byte) (t : State) (s : State), s.gg.startDue = true → s.newestBody 1 = some b → s.gg.idMatch = true → s.rtcValid = true →
    s.flag F.GG_STAT_FROZEN = false → leField b 14 4 = 0 ∨ leField b 14 4 + 1800 ≤ s.rtcSec →
    t = ((s.setGg { s.gg with startDue := false, removedAt := none, startAnchor := none }).set F.GG_STAT_FROZEN 0).gaugeRestore b →
    exec .gaugeStart s = .next ((t.setGg { t.gg with startAnchor := some (0, false) }).set F.GG_STAT_AVALID 0)) ∧
  (∀ (b : List Byte) (t : State) (s : State),
    s.gg.startDue = true → s.newestBody 1 = some b → s.gg.idMatch = true → s.rtcValid = true → s.flag F.GG_STAT_FROZEN = true → (∀ k, s.gg.removedAt = some k → k + 1800 ≤ s.rtcSec) → t = ((s.setGg { s.gg with startDue := false, removedAt := none, startAnchor := none }).set F.GG_STAT_FROZEN 0).gaugeRestore b →
    exec .gaugeStart s = .next ((t.setGg { t.gg with startAnchor := some (0, false) }).set F.GG_STAT_AVALID 0))

/-- No charge is lost between the updates of the gauge. Rests on 11_fuel_gauge.md. -/
def Obligations.ChargeIsConserved : Prop :=
  (∀ (x : Int) (s : State), s.flag F.GG_STAT_FROZEN = false →
    ((s.countCharge x).gg.qc - s.gg.qc) * (32768 * s.rsh) + (s.countCharge x).gg.carry = x * 625000 + s.gg.carry) ∧
  (∀ (x : Int) (s : State), 0 < s.rsh → (s.countCharge x).gg.carry.natAbs < (32768 * s.rsh).natAbs) ∧
  (∀ (x : Int) (s : State), s.flag F.GG_STAT_FROZEN = true → (s.countCharge x).gg.qc = s.gg.qc ∧ (s.countCharge x).gg.used = s.gg.used)

/-- The free slots of the ring, and what a write of EVT_CONS returns. Formalises R386. -/
def Obligations.RingSlots : Prop :=
  (∀ s : State, s.ringFree = 2 ^ s.get F.EVT_RING_CFG_LOG2N - (wrap16 ((s.get F.EVT_PROD_PROD : Int) - s.get F.EVT_CONS_CONS) : Int)) ∧
  (∀ (s : State) (v : Nat), 16 ≤ 2 ^ s.get F.EVT_RING_CFG_LOG2N → 2 ^ s.get F.EVT_RING_CFG_LOG2N ≤ 4096 →
    16 ≤ 2 ^ (s.ringCfgWrite v).get F.EVT_RING_CFG_LOG2N ∧ 2 ^ (s.ringCfgWrite v).get F.EVT_RING_CFG_LOG2N ≤ 4096) ∧
  (∀ (v : Word) (s t : State), s.writeOk 0x3414 = true →
    wrap16 ((↑(v.toNat % 65536) : Int) - s.get F.EVT_CONS_CONS) ≤ wrap16 ((s.get F.EVT_PROD_DONE : Int) - s.get F.EVT_CONS_CONS) →
    exec (.evtConsWrite v) s = .next t → t.get F.EVT_CONS_CONS = v.toNat % 65536 ∧
    (t.ringFree - s.ringFree) % 65536 = wrap16 ((↑(v.toNat % 65536) : Int) - s.get F.EVT_CONS_CONS) ∧
    (wrap16 ((↑(v.toNat % 65536) : Int) - s.get F.EVT_CONS_CONS) ≤ wrap16 ((s.get F.EVT_PROD_PROD : Int) - s.get F.EVT_CONS_CONS) →
      t.ringFree = s.ringFree + (wrap16 ((↑(v.toNat % 65536) : Int) - s.get F.EVT_CONS_CONS) : Int))) ∧
  (∀ (v : Word) (s : State), s.writeOk 0x3414 = true → s.injects 4 = false →
    wrap16 ((s.get F.EVT_PROD_DONE : Int) - s.get F.EVT_CONS_CONS) < wrap16 ((↑(v.toNat % 65536) : Int) - s.get F.EVT_CONS_CONS) →
    exec (.evtConsWrite v) s = .next { s.set F.EVT_IRQ_STAT_CONS_BAD 1 with hl := { s.hl with disc := true } })
end

