-- ==== Sys2Proof/Laws/Checkers.lean ====
section
/-! SUPPORT. What the checkers with an armed injection leave alone: with none armed, a word of the register bus is delivered and a credit is taken with no
more to it (R353). -/

namespace Sys2Proof.Machine

theorem State.injCheck_quiet (s : State) (k a : Nat) (h : s.injects k = false) : s.injCheck k a = s := by
  rw [State.injCheck, h]; rfl

theorem State.onBus_quiet (s : State) (f : State → State) (h : s.injects 4 = false) : s.onBus f = f s := by
  rw [State.onBus, State.injCheck_quiet s 4 0 h]; exact if_pos rfl

theorem State.bus_quiet (s : State) (a : Nat) (f : State → State) (w : s.writeOk a = true) (h : s.injects 4 = false) : s.bus a f = f s := by
  rw [State.bus, if_pos w, State.onBus_quiet s f h]

theorem State.bus_closed (s : State) (a : Nat) (f : State → State) (w : s.writeOk a = false) : s.bus a f = s := if_neg (by rw [w]; decide)

theorem State.bus_armed (s : State) (a : Nat) (f : State → State) (w : s.writeOk a = true) (h : s.injects 4 = true)
    (k : (s.checkerRaise 4 0).dev.stage = s.dev.stage) : s.bus a f = f (s.checkerRaise 4 0) := by
  rw [State.bus, if_pos w, State.onBus, State.injCheck, if_pos h]; exact if_pos k

theorem State.jnlTake_quiet (s : State) (c : Commit) (h : (s.jnlPush c).injects 8 = false) : s.jnlTake c = s.jnlPush c :=
  State.injCheck_quiet _ _ _ h

theorem State.seqPush_credit (s : State) (c : Nat) (f : Option Nat) (k : s.seq.queue.length < 8) (w : s.seq.qwait = []) (h : s.injects 8 = false) :
    s.seqPush c f = { s with seq := { s.seq with queue := s.seq.queue ++ [(c, f)] } } := by
  rw [State.seqPush, if_pos ⟨k, w⟩]; exact State.injCheck_quiet _ 8 0 h

end Sys2Proof.Machine
end

