-- ==== Sys2Proof/Laws/Table.lean ====
section
/-! SUPPORT. The laws of the sparse tables: what a look-up finds after an update, and that updates keep the canonical form, the
memories' among them. -/

namespace Sys2Proof.Machine

variable {α : Type} [DecidableEq α]

/-- The canonical form in the library's words. -/
theorem tcanon_iff (d : α) (m : SMap α) : tcanon d m = true ↔ m.Pairwise (fun a b => a.1 < b.1) ∧ ∀ e ∈ m, e.2 ≠ d := by
  induction m with
  | nil => simp [tcanon]
  | cons a l ih =>
    cases l with
    | nil => simp [tcanon]
    | cons b r =>
      simp only [tcanon, Bool.and_eq_true, decide_eq_true_eq, ih, List.pairwise_cons, List.mem_cons, forall_eq_or_imp]
      constructor
      · rintro ⟨⟨h1, h2⟩, ⟨h3, h4⟩, h5, h6⟩
        exact ⟨⟨⟨h2, fun x hx => Nat.lt_trans h2 (h3 x hx)⟩, h3, h4⟩, h1, h5, h6⟩
      · rintro ⟨⟨⟨h2, -⟩, h3, h4⟩, h1, h5, h6⟩
        exact ⟨⟨h1, h2⟩, ⟨h3, h4⟩, h5, h6⟩

theorem mem_tset {m : SMap α} {k : Nat} {d v : α} {e : Nat × α} (h : e ∈ tset m k d v) : e ∈ m ∨ (e = (k, v) ∧ v ≠ d) := by
  induction m with
  | nil =>
    simp only [tset] at h
    split at h
    · simp at h
    · exact .inr ⟨by simpa using h, ‹_›⟩
  | cons a r ih =>
    simp only [tset] at h
    split at h
    · split at h
      · exact .inl h
      · rcases List.mem_cons.1 h with rfl | h
        · exact .inr ⟨rfl, ‹_›⟩
        · exact .inl h
    · split at h
      · split at h
        · exact .inl (List.mem_cons_of_mem _ ((List.dropWhile_sublist _).subset h))
        · rcases List.mem_cons.1 h with rfl | h
          · exact .inr ⟨rfl, ‹_›⟩
          · exact .inl (List.mem_cons_of_mem _ h)
      · rcases List.mem_cons.1 h with rfl | h
        · exact .inl (List.mem_cons_self ..)
        · rcases ih h with h | h
          · exact .inl (List.mem_cons_of_mem _ h)
          · exact .inr h

/-- An update keeps the canonical form. -/
theorem tset_canon {m : SMap α} (k : Nat) (d v : α) (h : tcanon d m = true) : tcanon d (tset m k d v) = true := by
  rw [tcanon_iff] at h ⊢
  refine ⟨?_, fun e he => ?_⟩
  · obtain ⟨h, -⟩ := h
    induction m with
    | nil =>
      simp only [tset]
      split <;> simp
    | cons a r ih =>
      obtain ⟨h1, h2⟩ := List.pairwise_cons.1 h
      simp only [tset]
      split
      · split
        · exact h
        · refine List.pairwise_cons.2 ⟨fun x hx => ?_, h⟩
          rcases List.mem_cons.1 hx with rfl | hx
          · assumption
          · exact Nat.lt_trans ‹_› (h1 x hx)
      · split
        · split
          · exact h2.sublist (List.dropWhile_sublist _)
          · refine List.pairwise_cons.2 ⟨fun x hx => ?_, h2⟩
            have := h1 x hx
            omega
        · refine List.pairwise_cons.2 ⟨fun x hx => ?_, ih h2⟩
          rcases mem_tset hx with hx | ⟨rfl, -⟩
          · exact h1 x hx
          · show a.1 < k
            omega
  · rcases mem_tset he with he | ⟨rfl, hv⟩
    · exact h.2 e he
    · exact hv

theorem filter_canon {m : SMap α} (d : α) (p : Nat × α → Bool) (h : tcanon d m = true) : tcanon d (m.filter p) = true := by
  rw [tcanon_iff] at h ⊢
  exact ⟨h.1.sublist List.filter_sublist, fun e he => h.2 e (List.mem_filter.1 he).1⟩

theorem writeMem_canon (d : Byte) (l : List Byte) (m : SMap Byte) (a : Nat) (h : tcanon d m = true) : tcanon d (writeMem d m a l) = true := by
  induction l generalizing m a with
  | nil => exact h
  | cons b r ih => exact ih _ _ (tset_canon a d b h)

omit [DecidableEq α] in
theorem tget_dropWhile_le (r : SMap α) (k j : Nat) (d : α) (h : k < j) : tget (r.dropWhile fun e => decide (e.1 ≤ k)) j d = tget r j d := by
  induction r with
  | nil => rfl
  | cons a r ih =>
    by_cases ha : a.1 ≤ k
    · rw [List.dropWhile_cons_of_pos (by simpa using ha), ih]
      simp only [tget]
      rw [if_neg (by omega), if_neg (by omega)]
    · rw [List.dropWhile_cons_of_neg (by simpa using ha)]

omit [DecidableEq α] in
theorem tget_dropWhile_eq (r : SMap α) (k j : Nat) (d : α) (h : j ≤ k) : tget (r.dropWhile fun e => decide (e.1 ≤ k)) j d = d := by
  induction r with
  | nil => rfl
  | cons a r ih =>
    by_cases ha : a.1 ≤ k
    · rw [List.dropWhile_cons_of_pos (by simpa using ha), ih]
    · rw [List.dropWhile_cons_of_neg (by simpa using ha)]
      simp only [tget]
      rw [if_pos (by omega)]

/-- The key of an update reads as its value. -/
@[simp] theorem tget_tset_same (m : SMap α) (k : Nat) (d v : α) : tget (tset m k d v) k d = v := by
  induction m with
  | nil =>
    simp only [tset]
    split <;> simp_all [tget]
  | cons a r ih =>
    simp only [tset]
    split
    · split <;> simp_all [tget]
    · split
      · split
        · rw [tget_dropWhile_eq _ _ _ _ (Nat.le_refl _)]
          exact Eq.symm ‹_›
        · simp [tget]
      · simp only [tget]
        rw [if_neg (by omega), if_neg (by omega), ih]

/-- Every other key reads as before, whatever its own unlisted value is. -/
theorem tget_tset_other (m : SMap α) {k j : Nat} (d e v : α) (h : j ≠ k) : tget (tset m k d v) j e = tget m j e := by
  induction m with
  | nil =>
    simp only [tset]
    split
    · rfl
    · simp only [tget]
      split
      · rfl
      · rw [if_neg (fun e => h e.symm)]
  | cons a r ih =>
    simp only [tset]
    split
    · split
      · rfl
      · simp only [tget]
        by_cases hj : j < k
        · rw [if_pos hj, if_pos (by omega)]
        · rw [if_neg hj, if_neg (fun e => h e.symm)]
    · split
      · split
        · simp only [tget]
          by_cases hj : j < a.1
          · rw [if_pos hj, tget_dropWhile_eq _ _ _ _ (by omega)]
          · rw [if_neg hj, if_neg (by omega), tget_dropWhile_le _ _ _ _ (by omega)]
        · simp only [tget]
          by_cases hj : j < k
          · rw [if_pos hj, if_pos (by omega)]
          · rw [if_neg hj, if_neg (fun e => h e.symm), if_neg (by omega), if_neg (by omega)]
      · simp only [tget, ih]

end Sys2Proof.Machine
end

