-- ==== Sys2Proof/Laws/State.lean ====
section
/-! SUPPORT. What each update of the state does to each field of it, and what the readers of the updated part then read. -/

namespace Sys2Proof.Machine

/-! `State.set` -/

@[simp] theorem State.set_pending (s : State) (f : FRef) (v : Nat) : (s.set f v).pending = s.pending := rfl
@[simp] theorem State.set_now (s : State) (f : FRef) (v : Nat) : (s.set f v).now = s.now := rfl
@[simp] theorem State.set_draws (s : State) (f : FRef) (v : Nat) : (s.set f v).draws = s.draws := rfl
@[simp] theorem State.set_xpend (s : State) (f : FRef) (v : Nat) : (s.set f v).xpend = s.xpend := rfl
@[simp] theorem State.set_xtrip (s : State) (f : FRef) (v : Nat) : (s.set f v).xtrip = s.xtrip := rfl
@[simp] theorem State.set_regs (s : State) (f : FRef) (v : Nat) : (s.set f v).regs = tset s.regs f.key f.reset (v % 2 ^ f.w) := rfl
@[simp] theorem State.set_nv (s : State) (f : FRef) (v : Nat) : (s.set f v).nv = s.nv := rfl
@[simp] theorem State.set_dev (s : State) (f : FRef) (v : Nat) : (s.set f v).dev = s.dev := rfl
@[simp] theorem State.set_image (s : State) (f : FRef) (v : Nat) : (s.set f v).image = s.image := rfl
@[simp] theorem State.set_rtcSec (s : State) (f : FRef) (v : Nat) : (s.set f v).rtcSec = s.rtcSec := rfl
@[simp] theorem State.set_rtcValid (s : State) (f : FRef) (v : Nat) : (s.set f v).rtcValid = s.rtcValid := rfl
@[simp] theorem State.set_rtcAt (s : State) (f : FRef) (v : Nat) : (s.set f v).rtcAt = s.rtcAt := rfl
@[simp] theorem State.set_evt (s : State) (f : FRef) (v : Nat) : (s.set f v).evt = s.evt := rfl
@[simp] theorem State.set_ret (s : State) (f : FRef) (v : Nat) : (s.set f v).ret = s.ret := rfl
@[simp] theorem State.set_flt (s : State) (f : FRef) (v : Nat) : (s.set f v).flt = s.flt := rfl
@[simp] theorem State.set_wdg (s : State) (f : FRef) (v : Nat) : (s.set f v).wdg = s.wdg := rfl
@[simp] theorem State.set_jnl (s : State) (f : FRef) (v : Nat) : (s.set f v).jnl = s.jnl := rfl
@[simp] theorem State.set_upd (s : State) (f : FRef) (v : Nat) : (s.set f v).upd = s.upd := rfl
@[simp] theorem State.set_hl (s : State) (f : FRef) (v : Nat) : (s.set f v).hl = s.hl := rfl
@[simp] theorem State.set_frm (s : State) (f : FRef) (v : Nat) : (s.set f v).frm = s.frm := rfl
@[simp] theorem State.set_mbx (s : State) (f : FRef) (v : Nat) : (s.set f v).mbx = s.mbx := rfl
@[simp] theorem State.set_mbxWait (s : State) (f : FRef) (v : Nat) : (s.set f v).mbxWait = s.mbxWait := rfl
@[simp] theorem State.set_eng (s : State) (f : FRef) (v : Nat) : (s.set f v).eng = s.eng := rfl
@[simp] theorem State.set_stackTab (s : State) (f : FRef) (v : Nat) : (s.set f v).stackTab = s.stackTab := rfl
@[simp] theorem State.set_tiles (s : State) (f : FRef) (v : Nat) : (s.set f v).tiles = s.tiles := rfl
@[simp] theorem State.set_chgPtr (s : State) (f : FRef) (v : Nat) : (s.set f v).chgPtr = s.chgPtr := rfl
@[simp] theorem State.set_track (s : State) (f : FRef) (v : Nat) : (s.set f v).track = s.track := rfl
@[simp] theorem State.set_seq (s : State) (f : FRef) (v : Nat) : (s.set f v).seq = s.seq := rfl
@[simp] theorem State.set_doms (s : State) (f : FRef) (v : Nat) : (s.set f v).doms = s.doms := rfl
@[simp] theorem State.set_ldo (s : State) (f : FRef) (v : Nat) : (s.set f v).ldo = s.ldo := rfl
@[simp] theorem State.set_lsw (s : State) (f : FRef) (v : Nat) : (s.set f v).lsw = s.lsw := rfl
@[simp] theorem State.set_guards (s : State) (f : FRef) (v : Nat) : (s.set f v).guards = s.guards := rfl
@[simp] theorem State.set_sec (s : State) (f : FRef) (v : Nat) : (s.set f v).sec = s.sec := rfl
@[simp] theorem State.set_otp (s : State) (f : FRef) (v : Nat) : (s.set f v).otp = s.otp := rfl
@[simp] theorem State.set_pp (s : State) (f : FRef) (v : Nat) : (s.set f v).pp = s.pp := rfl
@[simp] theorem State.set_twc (s : State) (f : FRef) (v : Nat) : (s.set f v).twc = s.twc := rfl
@[simp] theorem State.set_twt (s : State) (f : FRef) (v : Nat) : (s.set f v).twt = s.twt := rfl
@[simp] theorem State.set_gg (s : State) (f : FRef) (v : Nat) : (s.set f v).gg = s.gg := rfl
@[simp] theorem State.set_adc (s : State) (f : FRef) (v : Nat) : (s.set f v).adc = s.adc := rfl
@[simp] theorem State.set_thm (s : State) (f : FRef) (v : Nat) : (s.set f v).thm = s.thm := rfl

/-! `State.setStk` -/

@[simp] theorem State.setStk_pending (s : State) (n : Nat) (x : Stack) : (s.setStk n x).pending = s.pending := rfl
@[simp] theorem State.setStk_now (s : State) (n : Nat) (x : Stack) : (s.setStk n x).now = s.now := rfl
@[simp] theorem State.setStk_draws (s : State) (n : Nat) (x : Stack) : (s.setStk n x).draws = s.draws := rfl
@[simp] theorem State.setStk_xpend (s : State) (n : Nat) (x : Stack) : (s.setStk n x).xpend = s.xpend := rfl
@[simp] theorem State.setStk_xtrip (s : State) (n : Nat) (x : Stack) : (s.setStk n x).xtrip = s.xtrip := rfl
@[simp] theorem State.setStk_regs (s : State) (n : Nat) (x : Stack) : (s.setStk n x).regs = s.regs := rfl
@[simp] theorem State.setStk_nv (s : State) (n : Nat) (x : Stack) : (s.setStk n x).nv = s.nv := rfl
@[simp] theorem State.setStk_dev (s : State) (n : Nat) (x : Stack) : (s.setStk n x).dev = s.dev := rfl
@[simp] theorem State.setStk_image (s : State) (n : Nat) (x : Stack) : (s.setStk n x).image = s.image := rfl
@[simp] theorem State.setStk_rtcSec (s : State) (n : Nat) (x : Stack) : (s.setStk n x).rtcSec = s.rtcSec := rfl
@[simp] theorem State.setStk_rtcValid (s : State) (n : Nat) (x : Stack) : (s.setStk n x).rtcValid = s.rtcValid := rfl
@[simp] theorem State.setStk_rtcAt (s : State) (n : Nat) (x : Stack) : (s.setStk n x).rtcAt = s.rtcAt := rfl
@[simp] theorem State.setStk_evt (s : State) (n : Nat) (x : Stack) : (s.setStk n x).evt = s.evt := rfl
@[simp] theorem State.setStk_ret (s : State) (n : Nat) (x : Stack) : (s.setStk n x).ret = s.ret := rfl
@[simp] theorem State.setStk_flt (s : State) (n : Nat) (x : Stack) : (s.setStk n x).flt = s.flt := rfl
@[simp] theorem State.setStk_wdg (s : State) (n : Nat) (x : Stack) : (s.setStk n x).wdg = s.wdg := rfl
@[simp] theorem State.setStk_jnl (s : State) (n : Nat) (x : Stack) : (s.setStk n x).jnl = s.jnl := rfl
@[simp] theorem State.setStk_upd (s : State) (n : Nat) (x : Stack) : (s.setStk n x).upd = s.upd := rfl
@[simp] theorem State.setStk_hl (s : State) (n : Nat) (x : Stack) : (s.setStk n x).hl = s.hl := rfl
@[simp] theorem State.setStk_frm (s : State) (n : Nat) (x : Stack) : (s.setStk n x).frm = s.frm := rfl
@[simp] theorem State.setStk_mbx (s : State) (n : Nat) (x : Stack) : (s.setStk n x).mbx = s.mbx := rfl
@[simp] theorem State.setStk_mbxWait (s : State) (n : Nat) (x : Stack) : (s.setStk n x).mbxWait = s.mbxWait := rfl
@[simp] theorem State.setStk_eng (s : State) (n : Nat) (x : Stack) : (s.setStk n x).eng = s.eng := rfl
@[simp] theorem State.setStk_stackTab (s : State) (n : Nat) (x : Stack) : (s.setStk n x).stackTab = tset s.stackTab n Stack.init x := rfl
@[simp] theorem State.setStk_tiles (s : State) (n : Nat) (x : Stack) : (s.setStk n x).tiles = s.tiles := rfl
@[simp] theorem State.setStk_chgPtr (s : State) (n : Nat) (x : Stack) : (s.setStk n x).chgPtr = s.chgPtr := rfl
@[simp] theorem State.setStk_track (s : State) (n : Nat) (x : Stack) : (s.setStk n x).track = s.track := rfl
@[simp] theorem State.setStk_seq (s : State) (n : Nat) (x : Stack) : (s.setStk n x).seq = s.seq := rfl
@[simp] theorem State.setStk_doms (s : State) (n : Nat) (x : Stack) : (s.setStk n x).doms = s.doms := rfl
@[simp] theorem State.setStk_ldo (s : State) (n : Nat) (x : Stack) : (s.setStk n x).ldo = s.ldo := rfl
@[simp] theorem State.setStk_lsw (s : State) (n : Nat) (x : Stack) : (s.setStk n x).lsw = s.lsw := rfl
@[simp] theorem State.setStk_guards (s : State) (n : Nat) (x : Stack) : (s.setStk n x).guards = s.guards := rfl
@[simp] theorem State.setStk_sec (s : State) (n : Nat) (x : Stack) : (s.setStk n x).sec = s.sec := rfl
@[simp] theorem State.setStk_otp (s : State) (n : Nat) (x : Stack) : (s.setStk n x).otp = s.otp := rfl
@[simp] theorem State.setStk_pp (s : State) (n : Nat) (x : Stack) : (s.setStk n x).pp = s.pp := rfl
@[simp] theorem State.setStk_twc (s : State) (n : Nat) (x : Stack) : (s.setStk n x).twc = s.twc := rfl
@[simp] theorem State.setStk_twt (s : State) (n : Nat) (x : Stack) : (s.setStk n x).twt = s.twt := rfl
@[simp] theorem State.setStk_gg (s : State) (n : Nat) (x : Stack) : (s.setStk n x).gg = s.gg := rfl
@[simp] theorem State.setStk_adc (s : State) (n : Nat) (x : Stack) : (s.setStk n x).adc = s.adc := rfl
@[simp] theorem State.setStk_thm (s : State) (n : Nat) (x : Stack) : (s.setStk n x).thm = s.thm := rfl

/-! `State.setTile` -/

@[simp] theorem State.setTile_pending (s : State) (n : Nat) (x : Tile) : (s.setTile n x).pending = s.pending := rfl
@[simp] theorem State.setTile_now (s : State) (n : Nat) (x : Tile) : (s.setTile n x).now = s.now := rfl
@[simp] theorem State.setTile_draws (s : State) (n : Nat) (x : Tile) : (s.setTile n x).draws = s.draws := rfl
@[simp] theorem State.setTile_xpend (s : State) (n : Nat) (x : Tile) : (s.setTile n x).xpend = s.xpend := rfl
@[simp] theorem State.setTile_xtrip (s : State) (n : Nat) (x : Tile) : (s.setTile n x).xtrip = s.xtrip := rfl
@[simp] theorem State.setTile_regs (s : State) (n : Nat) (x : Tile) : (s.setTile n x).regs = s.regs := rfl
@[simp] theorem State.setTile_nv (s : State) (n : Nat) (x : Tile) : (s.setTile n x).nv = s.nv := rfl
@[simp] theorem State.setTile_dev (s : State) (n : Nat) (x : Tile) : (s.setTile n x).dev = s.dev := rfl
@[simp] theorem State.setTile_image (s : State) (n : Nat) (x : Tile) : (s.setTile n x).image = s.image := rfl
@[simp] theorem State.setTile_rtcSec (s : State) (n : Nat) (x : Tile) : (s.setTile n x).rtcSec = s.rtcSec := rfl
@[simp] theorem State.setTile_rtcValid (s : State) (n : Nat) (x : Tile) : (s.setTile n x).rtcValid = s.rtcValid := rfl
@[simp] theorem State.setTile_rtcAt (s : State) (n : Nat) (x : Tile) : (s.setTile n x).rtcAt = s.rtcAt := rfl
@[simp] theorem State.setTile_evt (s : State) (n : Nat) (x : Tile) : (s.setTile n x).evt = s.evt := rfl
@[simp] theorem State.setTile_ret (s : State) (n : Nat) (x : Tile) : (s.setTile n x).ret = s.ret := rfl
@[simp] theorem State.setTile_flt (s : State) (n : Nat) (x : Tile) : (s.setTile n x).flt = s.flt := rfl
@[simp] theorem State.setTile_wdg (s : State) (n : Nat) (x : Tile) : (s.setTile n x).wdg = s.wdg := rfl
@[simp] theorem State.setTile_jnl (s : State) (n : Nat) (x : Tile) : (s.setTile n x).jnl = s.jnl := rfl
@[simp] theorem State.setTile_upd (s : State) (n : Nat) (x : Tile) : (s.setTile n x).upd = s.upd := rfl
@[simp] theorem State.setTile_hl (s : State) (n : Nat) (x : Tile) : (s.setTile n x).hl = s.hl := rfl
@[simp] theorem State.setTile_frm (s : State) (n : Nat) (x : Tile) : (s.setTile n x).frm = s.frm := rfl
@[simp] theorem State.setTile_mbx (s : State) (n : Nat) (x : Tile) : (s.setTile n x).mbx = s.mbx := rfl
@[simp] theorem State.setTile_mbxWait (s : State) (n : Nat) (x : Tile) : (s.setTile n x).mbxWait = s.mbxWait := rfl
@[simp] theorem State.setTile_eng (s : State) (n : Nat) (x : Tile) : (s.setTile n x).eng = s.eng := rfl
@[simp] theorem State.setTile_stackTab (s : State) (n : Nat) (x : Tile) : (s.setTile n x).stackTab = s.stackTab := rfl
@[simp] theorem State.setTile_tiles (s : State) (n : Nat) (x : Tile) : (s.setTile n x).tiles = tset s.tiles n Tile.init x := rfl
@[simp] theorem State.setTile_chgPtr (s : State) (n : Nat) (x : Tile) : (s.setTile n x).chgPtr = s.chgPtr := rfl
@[simp] theorem State.setTile_track (s : State) (n : Nat) (x : Tile) : (s.setTile n x).track = s.track := rfl
@[simp] theorem State.setTile_seq (s : State) (n : Nat) (x : Tile) : (s.setTile n x).seq = s.seq := rfl
@[simp] theorem State.setTile_doms (s : State) (n : Nat) (x : Tile) : (s.setTile n x).doms = s.doms := rfl
@[simp] theorem State.setTile_ldo (s : State) (n : Nat) (x : Tile) : (s.setTile n x).ldo = s.ldo := rfl
@[simp] theorem State.setTile_lsw (s : State) (n : Nat) (x : Tile) : (s.setTile n x).lsw = s.lsw := rfl
@[simp] theorem State.setTile_guards (s : State) (n : Nat) (x : Tile) : (s.setTile n x).guards = s.guards := rfl
@[simp] theorem State.setTile_sec (s : State) (n : Nat) (x : Tile) : (s.setTile n x).sec = s.sec := rfl
@[simp] theorem State.setTile_otp (s : State) (n : Nat) (x : Tile) : (s.setTile n x).otp = s.otp := rfl
@[simp] theorem State.setTile_pp (s : State) (n : Nat) (x : Tile) : (s.setTile n x).pp = s.pp := rfl
@[simp] theorem State.setTile_twc (s : State) (n : Nat) (x : Tile) : (s.setTile n x).twc = s.twc := rfl
@[simp] theorem State.setTile_twt (s : State) (n : Nat) (x : Tile) : (s.setTile n x).twt = s.twt := rfl
@[simp] theorem State.setTile_gg (s : State) (n : Nat) (x : Tile) : (s.setTile n x).gg = s.gg := rfl
@[simp] theorem State.setTile_adc (s : State) (n : Nat) (x : Tile) : (s.setTile n x).adc = s.adc := rfl
@[simp] theorem State.setTile_thm (s : State) (n : Nat) (x : Tile) : (s.setTile n x).thm = s.thm := rfl

/-! `State.setDom` -/

@[simp] theorem State.setDom_pending (s : State) (n : Nat) (x : Dom) : (s.setDom n x).pending = s.pending := rfl
@[simp] theorem State.setDom_now (s : State) (n : Nat) (x : Dom) : (s.setDom n x).now = s.now := rfl
@[simp] theorem State.setDom_draws (s : State) (n : Nat) (x : Dom) : (s.setDom n x).draws = s.draws := rfl
@[simp] theorem State.setDom_xpend (s : State) (n : Nat) (x : Dom) : (s.setDom n x).xpend = s.xpend := rfl
@[simp] theorem State.setDom_xtrip (s : State) (n : Nat) (x : Dom) : (s.setDom n x).xtrip = s.xtrip := rfl
@[simp] theorem State.setDom_regs (s : State) (n : Nat) (x : Dom) : (s.setDom n x).regs = s.regs := rfl
@[simp] theorem State.setDom_nv (s : State) (n : Nat) (x : Dom) : (s.setDom n x).nv = s.nv := rfl
@[simp] theorem State.setDom_dev (s : State) (n : Nat) (x : Dom) : (s.setDom n x).dev = s.dev := rfl
@[simp] theorem State.setDom_image (s : State) (n : Nat) (x : Dom) : (s.setDom n x).image = s.image := rfl
@[simp] theorem State.setDom_rtcSec (s : State) (n : Nat) (x : Dom) : (s.setDom n x).rtcSec = s.rtcSec := rfl
@[simp] theorem State.setDom_rtcValid (s : State) (n : Nat) (x : Dom) : (s.setDom n x).rtcValid = s.rtcValid := rfl
@[simp] theorem State.setDom_rtcAt (s : State) (n : Nat) (x : Dom) : (s.setDom n x).rtcAt = s.rtcAt := rfl
@[simp] theorem State.setDom_evt (s : State) (n : Nat) (x : Dom) : (s.setDom n x).evt = s.evt := rfl
@[simp] theorem State.setDom_ret (s : State) (n : Nat) (x : Dom) : (s.setDom n x).ret = s.ret := rfl
@[simp] theorem State.setDom_flt (s : State) (n : Nat) (x : Dom) : (s.setDom n x).flt = s.flt := rfl
@[simp] theorem State.setDom_wdg (s : State) (n : Nat) (x : Dom) : (s.setDom n x).wdg = s.wdg := rfl
@[simp] theorem State.setDom_jnl (s : State) (n : Nat) (x : Dom) : (s.setDom n x).jnl = s.jnl := rfl
@[simp] theorem State.setDom_upd (s : State) (n : Nat) (x : Dom) : (s.setDom n x).upd = s.upd := rfl
@[simp] theorem State.setDom_hl (s : State) (n : Nat) (x : Dom) : (s.setDom n x).hl = s.hl := rfl
@[simp] theorem State.setDom_frm (s : State) (n : Nat) (x : Dom) : (s.setDom n x).frm = s.frm := rfl
@[simp] theorem State.setDom_mbx (s : State) (n : Nat) (x : Dom) : (s.setDom n x).mbx = s.mbx := rfl
@[simp] theorem State.setDom_mbxWait (s : State) (n : Nat) (x : Dom) : (s.setDom n x).mbxWait = s.mbxWait := rfl
@[simp] theorem State.setDom_eng (s : State) (n : Nat) (x : Dom) : (s.setDom n x).eng = s.eng := rfl
@[simp] theorem State.setDom_stackTab (s : State) (n : Nat) (x : Dom) : (s.setDom n x).stackTab = s.stackTab := rfl
@[simp] theorem State.setDom_tiles (s : State) (n : Nat) (x : Dom) : (s.setDom n x).tiles = s.tiles := rfl
@[simp] theorem State.setDom_chgPtr (s : State) (n : Nat) (x : Dom) : (s.setDom n x).chgPtr = s.chgPtr := rfl
@[simp] theorem State.setDom_track (s : State) (n : Nat) (x : Dom) : (s.setDom n x).track = s.track := rfl
@[simp] theorem State.setDom_seq (s : State) (n : Nat) (x : Dom) : (s.setDom n x).seq = s.seq := rfl
@[simp] theorem State.setDom_doms (s : State) (n : Nat) (x : Dom) : (s.setDom n x).doms = tset s.doms n Dom.init x := rfl
@[simp] theorem State.setDom_ldo (s : State) (n : Nat) (x : Dom) : (s.setDom n x).ldo = s.ldo := rfl
@[simp] theorem State.setDom_lsw (s : State) (n : Nat) (x : Dom) : (s.setDom n x).lsw = s.lsw := rfl
@[simp] theorem State.setDom_guards (s : State) (n : Nat) (x : Dom) : (s.setDom n x).guards = s.guards := rfl
@[simp] theorem State.setDom_sec (s : State) (n : Nat) (x : Dom) : (s.setDom n x).sec = s.sec := rfl
@[simp] theorem State.setDom_otp (s : State) (n : Nat) (x : Dom) : (s.setDom n x).otp = s.otp := rfl
@[simp] theorem State.setDom_pp (s : State) (n : Nat) (x : Dom) : (s.setDom n x).pp = s.pp := rfl
@[simp] theorem State.setDom_twc (s : State) (n : Nat) (x : Dom) : (s.setDom n x).twc = s.twc := rfl
@[simp] theorem State.setDom_twt (s : State) (n : Nat) (x : Dom) : (s.setDom n x).twt = s.twt := rfl
@[simp] theorem State.setDom_gg (s : State) (n : Nat) (x : Dom) : (s.setDom n x).gg = s.gg := rfl
@[simp] theorem State.setDom_adc (s : State) (n : Nat) (x : Dom) : (s.setDom n x).adc = s.adc := rfl
@[simp] theorem State.setDom_thm (s : State) (n : Nat) (x : Dom) : (s.setDom n x).thm = s.thm := rfl

/-! `State.setSeat` -/

@[simp] theorem State.setSeat_pending (s : State) (n : Nat) (x : Seat) : (s.setSeat n x).pending = s.pending := rfl
@[simp] theorem State.setSeat_now (s : State) (n : Nat) (x : Seat) : (s.setSeat n x).now = s.now := rfl
@[simp] theorem State.setSeat_draws (s : State) (n : Nat) (x : Seat) : (s.setSeat n x).draws = s.draws := rfl
@[simp] theorem State.setSeat_xpend (s : State) (n : Nat) (x : Seat) : (s.setSeat n x).xpend = s.xpend := rfl
@[simp] theorem State.setSeat_xtrip (s : State) (n : Nat) (x : Seat) : (s.setSeat n x).xtrip = s.xtrip := rfl
@[simp] theorem State.setSeat_regs (s : State) (n : Nat) (x : Seat) : (s.setSeat n x).regs = s.regs := rfl
@[simp] theorem State.setSeat_nv (s : State) (n : Nat) (x : Seat) : (s.setSeat n x).nv = s.nv := rfl
@[simp] theorem State.setSeat_dev (s : State) (n : Nat) (x : Seat) : (s.setSeat n x).dev = s.dev := rfl
@[simp] theorem State.setSeat_image (s : State) (n : Nat) (x : Seat) : (s.setSeat n x).image = s.image := rfl
@[simp] theorem State.setSeat_rtcSec (s : State) (n : Nat) (x : Seat) : (s.setSeat n x).rtcSec = s.rtcSec := rfl
@[simp] theorem State.setSeat_rtcValid (s : State) (n : Nat) (x : Seat) : (s.setSeat n x).rtcValid = s.rtcValid := rfl
@[simp] theorem State.setSeat_rtcAt (s : State) (n : Nat) (x : Seat) : (s.setSeat n x).rtcAt = s.rtcAt := rfl
@[simp] theorem State.setSeat_evt (s : State) (n : Nat) (x : Seat) : (s.setSeat n x).evt = s.evt := rfl
@[simp] theorem State.setSeat_ret (s : State) (n : Nat) (x : Seat) : (s.setSeat n x).ret = s.ret := rfl
@[simp] theorem State.setSeat_flt (s : State) (n : Nat) (x : Seat) : (s.setSeat n x).flt = s.flt := rfl
@[simp] theorem State.setSeat_wdg (s : State) (n : Nat) (x : Seat) : (s.setSeat n x).wdg = { s.wdg with seats := tset s.wdg.seats n Seat.init x } := rfl
@[simp] theorem State.setSeat_jnl (s : State) (n : Nat) (x : Seat) : (s.setSeat n x).jnl = s.jnl := rfl
@[simp] theorem State.setSeat_upd (s : State) (n : Nat) (x : Seat) : (s.setSeat n x).upd = s.upd := rfl
@[simp] theorem State.setSeat_hl (s : State) (n : Nat) (x : Seat) : (s.setSeat n x).hl = s.hl := rfl
@[simp] theorem State.setSeat_frm (s : State) (n : Nat) (x : Seat) : (s.setSeat n x).frm = s.frm := rfl
@[simp] theorem State.setSeat_mbx (s : State) (n : Nat) (x : Seat) : (s.setSeat n x).mbx = s.mbx := rfl
@[simp] theorem State.setSeat_mbxWait (s : State) (n : Nat) (x : Seat) : (s.setSeat n x).mbxWait = s.mbxWait := rfl
@[simp] theorem State.setSeat_eng (s : State) (n : Nat) (x : Seat) : (s.setSeat n x).eng = s.eng := rfl
@[simp] theorem State.setSeat_stackTab (s : State) (n : Nat) (x : Seat) : (s.setSeat n x).stackTab = s.stackTab := rfl
@[simp] theorem State.setSeat_tiles (s : State) (n : Nat) (x : Seat) : (s.setSeat n x).tiles = s.tiles := rfl
@[simp] theorem State.setSeat_chgPtr (s : State) (n : Nat) (x : Seat) : (s.setSeat n x).chgPtr = s.chgPtr := rfl
@[simp] theorem State.setSeat_track (s : State) (n : Nat) (x : Seat) : (s.setSeat n x).track = s.track := rfl
@[simp] theorem State.setSeat_seq (s : State) (n : Nat) (x : Seat) : (s.setSeat n x).seq = s.seq := rfl
@[simp] theorem State.setSeat_doms (s : State) (n : Nat) (x : Seat) : (s.setSeat n x).doms = s.doms := rfl
@[simp] theorem State.setSeat_ldo (s : State) (n : Nat) (x : Seat) : (s.setSeat n x).ldo = s.ldo := rfl
@[simp] theorem State.setSeat_lsw (s : State) (n : Nat) (x : Seat) : (s.setSeat n x).lsw = s.lsw := rfl
@[simp] theorem State.setSeat_guards (s : State) (n : Nat) (x : Seat) : (s.setSeat n x).guards = s.guards := rfl
@[simp] theorem State.setSeat_sec (s : State) (n : Nat) (x : Seat) : (s.setSeat n x).sec = s.sec := rfl
@[simp] theorem State.setSeat_otp (s : State) (n : Nat) (x : Seat) : (s.setSeat n x).otp = s.otp := rfl
@[simp] theorem State.setSeat_pp (s : State) (n : Nat) (x : Seat) : (s.setSeat n x).pp = s.pp := rfl
@[simp] theorem State.setSeat_twc (s : State) (n : Nat) (x : Seat) : (s.setSeat n x).twc = s.twc := rfl
@[simp] theorem State.setSeat_twt (s : State) (n : Nat) (x : Seat) : (s.setSeat n x).twt = s.twt := rfl
@[simp] theorem State.setSeat_gg (s : State) (n : Nat) (x : Seat) : (s.setSeat n x).gg = s.gg := rfl
@[simp] theorem State.setSeat_adc (s : State) (n : Nat) (x : Seat) : (s.setSeat n x).adc = s.adc := rfl
@[simp] theorem State.setSeat_thm (s : State) (n : Nat) (x : Seat) : (s.setSeat n x).thm = s.thm := rfl

/-! `State.setMode` -/

@[simp] theorem State.setMode_pending (s : State) (m : Mode) : (s.setMode m).pending = s.pending := rfl
@[simp] theorem State.setMode_now (s : State) (m : Mode) : (s.setMode m).now = s.now := rfl
@[simp] theorem State.setMode_draws (s : State) (m : Mode) : (s.setMode m).draws = s.draws := rfl
@[simp] theorem State.setMode_xpend (s : State) (m : Mode) : (s.setMode m).xpend = s.xpend := rfl
@[simp] theorem State.setMode_xtrip (s : State) (m : Mode) : (s.setMode m).xtrip = s.xtrip := rfl
@[simp] theorem State.setMode_regs (s : State) (m : Mode) : (s.setMode m).regs = s.regs := rfl
@[simp] theorem State.setMode_nv (s : State) (m : Mode) : (s.setMode m).nv = s.nv := rfl
@[simp] theorem State.setMode_dev (s : State) (m : Mode) : (s.setMode m).dev = { s.dev with mode := m } := rfl
@[simp] theorem State.setMode_image (s : State) (m : Mode) : (s.setMode m).image = s.image := rfl
@[simp] theorem State.setMode_rtcSec (s : State) (m : Mode) : (s.setMode m).rtcSec = s.rtcSec := rfl
@[simp] theorem State.setMode_rtcValid (s : State) (m : Mode) : (s.setMode m).rtcValid = s.rtcValid := rfl
@[simp] theorem State.setMode_rtcAt (s : State) (m : Mode) : (s.setMode m).rtcAt = s.rtcAt := rfl
@[simp] theorem State.setMode_evt (s : State) (m : Mode) : (s.setMode m).evt = s.evt := rfl
@[simp] theorem State.setMode_ret (s : State) (m : Mode) : (s.setMode m).ret = s.ret := rfl
@[simp] theorem State.setMode_flt (s : State) (m : Mode) : (s.setMode m).flt = s.flt := rfl
@[simp] theorem State.setMode_wdg (s : State) (m : Mode) : (s.setMode m).wdg = s.wdg := rfl
@[simp] theorem State.setMode_jnl (s : State) (m : Mode) : (s.setMode m).jnl = s.jnl := rfl
@[simp] theorem State.setMode_upd (s : State) (m : Mode) : (s.setMode m).upd = s.upd := rfl
@[simp] theorem State.setMode_hl (s : State) (m : Mode) : (s.setMode m).hl = s.hl := rfl
@[simp] theorem State.setMode_frm (s : State) (m : Mode) : (s.setMode m).frm = s.frm := rfl
@[simp] theorem State.setMode_mbx (s : State) (m : Mode) : (s.setMode m).mbx = s.mbx := rfl
@[simp] theorem State.setMode_mbxWait (s : State) (m : Mode) : (s.setMode m).mbxWait = s.mbxWait := rfl
@[simp] theorem State.setMode_eng (s : State) (m : Mode) : (s.setMode m).eng = s.eng := rfl
@[simp] theorem State.setMode_stackTab (s : State) (m : Mode) : (s.setMode m).stackTab = s.stackTab := rfl
@[simp] theorem State.setMode_tiles (s : State) (m : Mode) : (s.setMode m).tiles = s.tiles := rfl
@[simp] theorem State.setMode_chgPtr (s : State) (m : Mode) : (s.setMode m).chgPtr = s.chgPtr := rfl
@[simp] theorem State.setMode_track (s : State) (m : Mode) : (s.setMode m).track = s.track := rfl
@[simp] theorem State.setMode_seq (s : State) (m : Mode) : (s.setMode m).seq = s.seq := rfl
@[simp] theorem State.setMode_doms (s : State) (m : Mode) : (s.setMode m).doms = s.doms := rfl
@[simp] theorem State.setMode_ldo (s : State) (m : Mode) : (s.setMode m).ldo = s.ldo := rfl
@[simp] theorem State.setMode_lsw (s : State) (m : Mode) : (s.setMode m).lsw = s.lsw := rfl
@[simp] theorem State.setMode_guards (s : State) (m : Mode) : (s.setMode m).guards = s.guards := rfl
@[simp] theorem State.setMode_sec (s : State) (m : Mode) : (s.setMode m).sec = s.sec := rfl
@[simp] theorem State.setMode_otp (s : State) (m : Mode) : (s.setMode m).otp = s.otp := rfl
@[simp] theorem State.setMode_pp (s : State) (m : Mode) : (s.setMode m).pp = s.pp := rfl
@[simp] theorem State.setMode_twc (s : State) (m : Mode) : (s.setMode m).twc = s.twc := rfl
@[simp] theorem State.setMode_twt (s : State) (m : Mode) : (s.setMode m).twt = s.twt := rfl
@[simp] theorem State.setMode_gg (s : State) (m : Mode) : (s.setMode m).gg = s.gg := rfl
@[simp] theorem State.setMode_adc (s : State) (m : Mode) : (s.setMode m).adc = s.adc := rfl
@[simp] theorem State.setMode_thm (s : State) (m : Mode) : (s.setMode m).thm = s.thm := rfl

/-! `State.setDisc` -/

@[simp] theorem State.setDisc_pending (s : State) : (s.setDisc).pending = s.pending := rfl
@[simp] theorem State.setDisc_now (s : State) : (s.setDisc).now = s.now := rfl
@[simp] theorem State.setDisc_draws (s : State) : (s.setDisc).draws = s.draws := rfl
@[simp] theorem State.setDisc_xpend (s : State) : (s.setDisc).xpend = s.xpend := rfl
@[simp] theorem State.setDisc_xtrip (s : State) : (s.setDisc).xtrip = s.xtrip := rfl
@[simp] theorem State.setDisc_regs (s : State) : (s.setDisc).regs = s.regs := rfl
@[simp] theorem State.setDisc_nv (s : State) : (s.setDisc).nv = s.nv := rfl
@[simp] theorem State.setDisc_dev (s : State) : (s.setDisc).dev = s.dev := rfl
@[simp] theorem State.setDisc_image (s : State) : (s.setDisc).image = s.image := rfl
@[simp] theorem State.setDisc_rtcSec (s : State) : (s.setDisc).rtcSec = s.rtcSec := rfl
@[simp] theorem State.setDisc_rtcValid (s : State) : (s.setDisc).rtcValid = s.rtcValid := rfl
@[simp] theorem State.setDisc_rtcAt (s : State) : (s.setDisc).rtcAt = s.rtcAt := rfl
@[simp] theorem State.setDisc_evt (s : State) : (s.setDisc).evt = s.evt := rfl
@[simp] theorem State.setDisc_ret (s : State) : (s.setDisc).ret = s.ret := rfl
@[simp] theorem State.setDisc_flt (s : State) : (s.setDisc).flt = s.flt := rfl
@[simp] theorem State.setDisc_wdg (s : State) : (s.setDisc).wdg = s.wdg := rfl
@[simp] theorem State.setDisc_jnl (s : State) : (s.setDisc).jnl = s.jnl := rfl
@[simp] theorem State.setDisc_upd (s : State) : (s.setDisc).upd = s.upd := rfl
@[simp] theorem State.setDisc_hl (s : State) : (s.setDisc).hl = { s.hl with disc := true } := rfl
@[simp] theorem State.setDisc_frm (s : State) : (s.setDisc).frm = s.frm := rfl
@[simp] theorem State.setDisc_mbx (s : State) : (s.setDisc).mbx = s.mbx := rfl
@[simp] theorem State.setDisc_mbxWait (s : State) : (s.setDisc).mbxWait = s.mbxWait := rfl
@[simp] theorem State.setDisc_eng (s : State) : (s.setDisc).eng = s.eng := rfl
@[simp] theorem State.setDisc_stackTab (s : State) : (s.setDisc).stackTab = s.stackTab := rfl
@[simp] theorem State.setDisc_tiles (s : State) : (s.setDisc).tiles = s.tiles := rfl
@[simp] theorem State.setDisc_chgPtr (s : State) : (s.setDisc).chgPtr = s.chgPtr := rfl
@[simp] theorem State.setDisc_track (s : State) : (s.setDisc).track = s.track := rfl
@[simp] theorem State.setDisc_seq (s : State) : (s.setDisc).seq = s.seq := rfl
@[simp] theorem State.setDisc_doms (s : State) : (s.setDisc).doms = s.doms := rfl
@[simp] theorem State.setDisc_ldo (s : State) : (s.setDisc).ldo = s.ldo := rfl
@[simp] theorem State.setDisc_lsw (s : State) : (s.setDisc).lsw = s.lsw := rfl
@[simp] theorem State.setDisc_guards (s : State) : (s.setDisc).guards = s.guards := rfl
@[simp] theorem State.setDisc_sec (s : State) : (s.setDisc).sec = s.sec := rfl
@[simp] theorem State.setDisc_otp (s : State) : (s.setDisc).otp = s.otp := rfl
@[simp] theorem State.setDisc_pp (s : State) : (s.setDisc).pp = s.pp := rfl
@[simp] theorem State.setDisc_twc (s : State) : (s.setDisc).twc = s.twc := rfl
@[simp] theorem State.setDisc_twt (s : State) : (s.setDisc).twt = s.twt := rfl
@[simp] theorem State.setDisc_gg (s : State) : (s.setDisc).gg = s.gg := rfl
@[simp] theorem State.setDisc_adc (s : State) : (s.setDisc).adc = s.adc := rfl
@[simp] theorem State.setDisc_thm (s : State) : (s.setDisc).thm = s.thm := rfl

/-! `State.setAdc` -/

@[simp] theorem State.setAdc_pending (s : State) (a : Adc) : (s.setAdc a).pending = s.pending := rfl
@[simp] theorem State.setAdc_now (s : State) (a : Adc) : (s.setAdc a).now = s.now := rfl
@[simp] theorem State.setAdc_draws (s : State) (a : Adc) : (s.setAdc a).draws = s.draws := rfl
@[simp] theorem State.setAdc_xpend (s : State) (a : Adc) : (s.setAdc a).xpend = s.xpend := rfl
@[simp] theorem State.setAdc_xtrip (s : State) (a : Adc) : (s.setAdc a).xtrip = s.xtrip := rfl
@[simp] theorem State.setAdc_regs (s : State) (a : Adc) : (s.setAdc a).regs = s.regs := rfl
@[simp] theorem State.setAdc_nv (s : State) (a : Adc) : (s.setAdc a).nv = s.nv := rfl
@[simp] theorem State.setAdc_dev (s : State) (a : Adc) : (s.setAdc a).dev = s.dev := rfl
@[simp] theorem State.setAdc_image (s : State) (a : Adc) : (s.setAdc a).image = s.image := rfl
@[simp] theorem State.setAdc_rtcSec (s : State) (a : Adc) : (s.setAdc a).rtcSec = s.rtcSec := rfl
@[simp] theorem State.setAdc_rtcValid (s : State) (a : Adc) : (s.setAdc a).rtcValid = s.rtcValid := rfl
@[simp] theorem State.setAdc_rtcAt (s : State) (a : Adc) : (s.setAdc a).rtcAt = s.rtcAt := rfl
@[simp] theorem State.setAdc_evt (s : State) (a : Adc) : (s.setAdc a).evt = s.evt := rfl
@[simp] theorem State.setAdc_ret (s : State) (a : Adc) : (s.setAdc a).ret = s.ret := rfl
@[simp] theorem State.setAdc_flt (s : State) (a : Adc) : (s.setAdc a).flt = s.flt := rfl
@[simp] theorem State.setAdc_wdg (s : State) (a : Adc) : (s.setAdc a).wdg = s.wdg := rfl
@[simp] theorem State.setAdc_jnl (s : State) (a : Adc) : (s.setAdc a).jnl = s.jnl := rfl
@[simp] theorem State.setAdc_upd (s : State) (a : Adc) : (s.setAdc a).upd = s.upd := rfl
@[simp] theorem State.setAdc_hl (s : State) (a : Adc) : (s.setAdc a).hl = s.hl := rfl
@[simp] theorem State.setAdc_frm (s : State) (a : Adc) : (s.setAdc a).frm = s.frm := rfl
@[simp] theorem State.setAdc_mbx (s : State) (a : Adc) : (s.setAdc a).mbx = s.mbx := rfl
@[simp] theorem State.setAdc_mbxWait (s : State) (a : Adc) : (s.setAdc a).mbxWait = s.mbxWait := rfl
@[simp] theorem State.setAdc_eng (s : State) (a : Adc) : (s.setAdc a).eng = s.eng := rfl
@[simp] theorem State.setAdc_stackTab (s : State) (a : Adc) : (s.setAdc a).stackTab = s.stackTab := rfl
@[simp] theorem State.setAdc_tiles (s : State) (a : Adc) : (s.setAdc a).tiles = s.tiles := rfl
@[simp] theorem State.setAdc_chgPtr (s : State) (a : Adc) : (s.setAdc a).chgPtr = s.chgPtr := rfl
@[simp] theorem State.setAdc_track (s : State) (a : Adc) : (s.setAdc a).track = s.track := rfl
@[simp] theorem State.setAdc_seq (s : State) (a : Adc) : (s.setAdc a).seq = s.seq := rfl
@[simp] theorem State.setAdc_doms (s : State) (a : Adc) : (s.setAdc a).doms = s.doms := rfl
@[simp] theorem State.setAdc_ldo (s : State) (a : Adc) : (s.setAdc a).ldo = s.ldo := rfl
@[simp] theorem State.setAdc_lsw (s : State) (a : Adc) : (s.setAdc a).lsw = s.lsw := rfl
@[simp] theorem State.setAdc_guards (s : State) (a : Adc) : (s.setAdc a).guards = s.guards := rfl
@[simp] theorem State.setAdc_sec (s : State) (a : Adc) : (s.setAdc a).sec = s.sec := rfl
@[simp] theorem State.setAdc_otp (s : State) (a : Adc) : (s.setAdc a).otp = s.otp := rfl
@[simp] theorem State.setAdc_pp (s : State) (a : Adc) : (s.setAdc a).pp = s.pp := rfl
@[simp] theorem State.setAdc_twc (s : State) (a : Adc) : (s.setAdc a).twc = s.twc := rfl
@[simp] theorem State.setAdc_twt (s : State) (a : Adc) : (s.setAdc a).twt = s.twt := rfl
@[simp] theorem State.setAdc_gg (s : State) (a : Adc) : (s.setAdc a).gg = s.gg := rfl
@[simp] theorem State.setAdc_adc (s : State) (a : Adc) : (s.setAdc a).adc = a := rfl
@[simp] theorem State.setAdc_thm (s : State) (a : Adc) : (s.setAdc a).thm = s.thm := rfl

/-! `State.setFrm` -/

@[simp] theorem State.setFrm_pending (s : State) (f : Frm) : (s.setFrm f).pending = s.pending := rfl
@[simp] theorem State.setFrm_now (s : State) (f : Frm) : (s.setFrm f).now = s.now := rfl
@[simp] theorem State.setFrm_draws (s : State) (f : Frm) : (s.setFrm f).draws = s.draws := rfl
@[simp] theorem State.setFrm_xpend (s : State) (f : Frm) : (s.setFrm f).xpend = s.xpend := rfl
@[simp] theorem State.setFrm_xtrip (s : State) (f : Frm) : (s.setFrm f).xtrip = s.xtrip := rfl
@[simp] theorem State.setFrm_regs (s : State) (f : Frm) : (s.setFrm f).regs = s.regs := rfl
@[simp] theorem State.setFrm_nv (s : State) (f : Frm) : (s.setFrm f).nv = s.nv := rfl
@[simp] theorem State.setFrm_dev (s : State) (f : Frm) : (s.setFrm f).dev = s.dev := rfl
@[simp] theorem State.setFrm_image (s : State) (f : Frm) : (s.setFrm f).image = s.image := rfl
@[simp] theorem State.setFrm_rtcSec (s : State) (f : Frm) : (s.setFrm f).rtcSec = s.rtcSec := rfl
@[simp] theorem State.setFrm_rtcValid (s : State) (f : Frm) : (s.setFrm f).rtcValid = s.rtcValid := rfl
@[simp] theorem State.setFrm_rtcAt (s : State) (f : Frm) : (s.setFrm f).rtcAt = s.rtcAt := rfl
@[simp] theorem State.setFrm_evt (s : State) (f : Frm) : (s.setFrm f).evt = s.evt := rfl
@[simp] theorem State.setFrm_ret (s : State) (f : Frm) : (s.setFrm f).ret = s.ret := rfl
@[simp] theorem State.setFrm_flt (s : State) (f : Frm) : (s.setFrm f).flt = s.flt := rfl
@[simp] theorem State.setFrm_wdg (s : State) (f : Frm) : (s.setFrm f).wdg = s.wdg := rfl
@[simp] theorem State.setFrm_jnl (s : State) (f : Frm) : (s.setFrm f).jnl = s.jnl := rfl
@[simp] theorem State.setFrm_upd (s : State) (f : Frm) : (s.setFrm f).upd = s.upd := rfl
@[simp] theorem State.setFrm_hl (s : State) (f : Frm) : (s.setFrm f).hl = s.hl := rfl
@[simp] theorem State.setFrm_frm (s : State) (f : Frm) : (s.setFrm f).frm = f := rfl
@[simp] theorem State.setFrm_mbx (s : State) (f : Frm) : (s.setFrm f).mbx = s.mbx := rfl
@[simp] theorem State.setFrm_mbxWait (s : State) (f : Frm) : (s.setFrm f).mbxWait = s.mbxWait := rfl
@[simp] theorem State.setFrm_eng (s : State) (f : Frm) : (s.setFrm f).eng = s.eng := rfl
@[simp] theorem State.setFrm_stackTab (s : State) (f : Frm) : (s.setFrm f).stackTab = s.stackTab := rfl
@[simp] theorem State.setFrm_tiles (s : State) (f : Frm) : (s.setFrm f).tiles = s.tiles := rfl
@[simp] theorem State.setFrm_chgPtr (s : State) (f : Frm) : (s.setFrm f).chgPtr = s.chgPtr := rfl
@[simp] theorem State.setFrm_track (s : State) (f : Frm) : (s.setFrm f).track = s.track := rfl
@[simp] theorem State.setFrm_seq (s : State) (f : Frm) : (s.setFrm f).seq = s.seq := rfl
@[simp] theorem State.setFrm_doms (s : State) (f : Frm) : (s.setFrm f).doms = s.doms := rfl
@[simp] theorem State.setFrm_ldo (s : State) (f : Frm) : (s.setFrm f).ldo = s.ldo := rfl
@[simp] theorem State.setFrm_lsw (s : State) (f : Frm) : (s.setFrm f).lsw = s.lsw := rfl
@[simp] theorem State.setFrm_guards (s : State) (f : Frm) : (s.setFrm f).guards = s.guards := rfl
@[simp] theorem State.setFrm_sec (s : State) (f : Frm) : (s.setFrm f).sec = s.sec := rfl
@[simp] theorem State.setFrm_otp (s : State) (f : Frm) : (s.setFrm f).otp = s.otp := rfl
@[simp] theorem State.setFrm_pp (s : State) (f : Frm) : (s.setFrm f).pp = s.pp := rfl
@[simp] theorem State.setFrm_twc (s : State) (f : Frm) : (s.setFrm f).twc = s.twc := rfl
@[simp] theorem State.setFrm_twt (s : State) (f : Frm) : (s.setFrm f).twt = s.twt := rfl
@[simp] theorem State.setFrm_gg (s : State) (f : Frm) : (s.setFrm f).gg = s.gg := rfl
@[simp] theorem State.setFrm_adc (s : State) (f : Frm) : (s.setFrm f).adc = s.adc := rfl
@[simp] theorem State.setFrm_thm (s : State) (f : Frm) : (s.setFrm f).thm = s.thm := rfl

/-! `State.setGg` -/

@[simp] theorem State.setGg_pending (s : State) (g : Gauge) : (s.setGg g).pending = s.pending := rfl
@[simp] theorem State.setGg_now (s : State) (g : Gauge) : (s.setGg g).now = s.now := rfl
@[simp] theorem State.setGg_draws (s : State) (g : Gauge) : (s.setGg g).draws = s.draws := rfl
@[simp] theorem State.setGg_xpend (s : State) (g : Gauge) : (s.setGg g).xpend = s.xpend := rfl
@[simp] theorem State.setGg_xtrip (s : State) (g : Gauge) : (s.setGg g).xtrip = s.xtrip := rfl
@[simp] theorem State.setGg_regs (s : State) (g : Gauge) : (s.setGg g).regs = s.regs := rfl
@[simp] theorem State.setGg_nv (s : State) (g : Gauge) : (s.setGg g).nv = s.nv := rfl
@[simp] theorem State.setGg_dev (s : State) (g : Gauge) : (s.setGg g).dev = s.dev := rfl
@[simp] theorem State.setGg_image (s : State) (g : Gauge) : (s.setGg g).image = s.image := rfl
@[simp] theorem State.setGg_rtcSec (s : State) (g : Gauge) : (s.setGg g).rtcSec = s.rtcSec := rfl
@[simp] theorem State.setGg_rtcValid (s : State) (g : Gauge) : (s.setGg g).rtcValid = s.rtcValid := rfl
@[simp] theorem State.setGg_rtcAt (s : State) (g : Gauge) : (s.setGg g).rtcAt = s.rtcAt := rfl
@[simp] theorem State.setGg_evt (s : State) (g : Gauge) : (s.setGg g).evt = s.evt := rfl
@[simp] theorem State.setGg_ret (s : State) (g : Gauge) : (s.setGg g).ret = s.ret := rfl
@[simp] theorem State.setGg_flt (s : State) (g : Gauge) : (s.setGg g).flt = s.flt := rfl
@[simp] theorem State.setGg_wdg (s : State) (g : Gauge) : (s.setGg g).wdg = s.wdg := rfl
@[simp] theorem State.setGg_jnl (s : State) (g : Gauge) : (s.setGg g).jnl = s.jnl := rfl
@[simp] theorem State.setGg_upd (s : State) (g : Gauge) : (s.setGg g).upd = s.upd := rfl
@[simp] theorem State.setGg_hl (s : State) (g : Gauge) : (s.setGg g).hl = s.hl := rfl
@[simp] theorem State.setGg_frm (s : State) (g : Gauge) : (s.setGg g).frm = s.frm := rfl
@[simp] theorem State.setGg_mbx (s : State) (g : Gauge) : (s.setGg g).mbx = s.mbx := rfl
@[simp] theorem State.setGg_mbxWait (s : State) (g : Gauge) : (s.setGg g).mbxWait = s.mbxWait := rfl
@[simp] theorem State.setGg_eng (s : State) (g : Gauge) : (s.setGg g).eng = s.eng := rfl
@[simp] theorem State.setGg_stackTab (s : State) (g : Gauge) : (s.setGg g).stackTab = s.stackTab := rfl
@[simp] theorem State.setGg_tiles (s : State) (g : Gauge) : (s.setGg g).tiles = s.tiles := rfl
@[simp] theorem State.setGg_chgPtr (s : State) (g : Gauge) : (s.setGg g).chgPtr = s.chgPtr := rfl
@[simp] theorem State.setGg_track (s : State) (g : Gauge) : (s.setGg g).track = s.track := rfl
@[simp] theorem State.setGg_seq (s : State) (g : Gauge) : (s.setGg g).seq = s.seq := rfl
@[simp] theorem State.setGg_doms (s : State) (g : Gauge) : (s.setGg g).doms = s.doms := rfl
@[simp] theorem State.setGg_ldo (s : State) (g : Gauge) : (s.setGg g).ldo = s.ldo := rfl
@[simp] theorem State.setGg_lsw (s : State) (g : Gauge) : (s.setGg g).lsw = s.lsw := rfl
@[simp] theorem State.setGg_guards (s : State) (g : Gauge) : (s.setGg g).guards = s.guards := rfl
@[simp] theorem State.setGg_sec (s : State) (g : Gauge) : (s.setGg g).sec = s.sec := rfl
@[simp] theorem State.setGg_otp (s : State) (g : Gauge) : (s.setGg g).otp = s.otp := rfl
@[simp] theorem State.setGg_pp (s : State) (g : Gauge) : (s.setGg g).pp = s.pp := rfl
@[simp] theorem State.setGg_twc (s : State) (g : Gauge) : (s.setGg g).twc = s.twc := rfl
@[simp] theorem State.setGg_twt (s : State) (g : Gauge) : (s.setGg g).twt = s.twt := rfl
@[simp] theorem State.setGg_gg (s : State) (g : Gauge) : (s.setGg g).gg = g := rfl
@[simp] theorem State.setGg_adc (s : State) (g : Gauge) : (s.setGg g).adc = s.adc := rfl
@[simp] theorem State.setGg_thm (s : State) (g : Gauge) : (s.setGg g).thm = s.thm := rfl

/-! `State.setPp` -/

@[simp] theorem State.setPp_pending (s : State) (p : Pp) : (s.setPp p).pending = s.pending := rfl
@[simp] theorem State.setPp_now (s : State) (p : Pp) : (s.setPp p).now = s.now := rfl
@[simp] theorem State.setPp_draws (s : State) (p : Pp) : (s.setPp p).draws = s.draws := rfl
@[simp] theorem State.setPp_xpend (s : State) (p : Pp) : (s.setPp p).xpend = s.xpend := rfl
@[simp] theorem State.setPp_xtrip (s : State) (p : Pp) : (s.setPp p).xtrip = s.xtrip := rfl
@[simp] theorem State.setPp_regs (s : State) (p : Pp) : (s.setPp p).regs = s.regs := rfl
@[simp] theorem State.setPp_nv (s : State) (p : Pp) : (s.setPp p).nv = s.nv := rfl
@[simp] theorem State.setPp_dev (s : State) (p : Pp) : (s.setPp p).dev = s.dev := rfl
@[simp] theorem State.setPp_image (s : State) (p : Pp) : (s.setPp p).image = s.image := rfl
@[simp] theorem State.setPp_rtcSec (s : State) (p : Pp) : (s.setPp p).rtcSec = s.rtcSec := rfl
@[simp] theorem State.setPp_rtcValid (s : State) (p : Pp) : (s.setPp p).rtcValid = s.rtcValid := rfl
@[simp] theorem State.setPp_rtcAt (s : State) (p : Pp) : (s.setPp p).rtcAt = s.rtcAt := rfl
@[simp] theorem State.setPp_evt (s : State) (p : Pp) : (s.setPp p).evt = s.evt := rfl
@[simp] theorem State.setPp_ret (s : State) (p : Pp) : (s.setPp p).ret = s.ret := rfl
@[simp] theorem State.setPp_flt (s : State) (p : Pp) : (s.setPp p).flt = s.flt := rfl
@[simp] theorem State.setPp_wdg (s : State) (p : Pp) : (s.setPp p).wdg = s.wdg := rfl
@[simp] theorem State.setPp_jnl (s : State) (p : Pp) : (s.setPp p).jnl = s.jnl := rfl
@[simp] theorem State.setPp_upd (s : State) (p : Pp) : (s.setPp p).upd = s.upd := rfl
@[simp] theorem State.setPp_hl (s : State) (p : Pp) : (s.setPp p).hl = s.hl := rfl
@[simp] theorem State.setPp_frm (s : State) (p : Pp) : (s.setPp p).frm = s.frm := rfl
@[simp] theorem State.setPp_mbx (s : State) (p : Pp) : (s.setPp p).mbx = s.mbx := rfl
@[simp] theorem State.setPp_mbxWait (s : State) (p : Pp) : (s.setPp p).mbxWait = s.mbxWait := rfl
@[simp] theorem State.setPp_eng (s : State) (p : Pp) : (s.setPp p).eng = s.eng := rfl
@[simp] theorem State.setPp_stackTab (s : State) (p : Pp) : (s.setPp p).stackTab = s.stackTab := rfl
@[simp] theorem State.setPp_tiles (s : State) (p : Pp) : (s.setPp p).tiles = s.tiles := rfl
@[simp] theorem State.setPp_chgPtr (s : State) (p : Pp) : (s.setPp p).chgPtr = s.chgPtr := rfl
@[simp] theorem State.setPp_track (s : State) (p : Pp) : (s.setPp p).track = s.track := rfl
@[simp] theorem State.setPp_seq (s : State) (p : Pp) : (s.setPp p).seq = s.seq := rfl
@[simp] theorem State.setPp_doms (s : State) (p : Pp) : (s.setPp p).doms = s.doms := rfl
@[simp] theorem State.setPp_ldo (s : State) (p : Pp) : (s.setPp p).ldo = s.ldo := rfl
@[simp] theorem State.setPp_lsw (s : State) (p : Pp) : (s.setPp p).lsw = s.lsw := rfl
@[simp] theorem State.setPp_guards (s : State) (p : Pp) : (s.setPp p).guards = s.guards := rfl
@[simp] theorem State.setPp_sec (s : State) (p : Pp) : (s.setPp p).sec = s.sec := rfl
@[simp] theorem State.setPp_otp (s : State) (p : Pp) : (s.setPp p).otp = s.otp := rfl
@[simp] theorem State.setPp_pp (s : State) (p : Pp) : (s.setPp p).pp = p := rfl
@[simp] theorem State.setPp_twc (s : State) (p : Pp) : (s.setPp p).twc = s.twc := rfl
@[simp] theorem State.setPp_twt (s : State) (p : Pp) : (s.setPp p).twt = s.twt := rfl
@[simp] theorem State.setPp_gg (s : State) (p : Pp) : (s.setPp p).gg = s.gg := rfl
@[simp] theorem State.setPp_adc (s : State) (p : Pp) : (s.setPp p).adc = s.adc := rfl
@[simp] theorem State.setPp_thm (s : State) (p : Pp) : (s.setPp p).thm = s.thm := rfl

/-! `State.setChg` -/

@[simp] theorem State.setChg_pending (s : State) (c : Chg) : (s.setChg c).pending = s.pending := rfl
@[simp] theorem State.setChg_now (s : State) (c : Chg) : (s.setChg c).now = s.now := rfl
@[simp] theorem State.setChg_draws (s : State) (c : Chg) : (s.setChg c).draws = s.draws := rfl
@[simp] theorem State.setChg_xpend (s : State) (c : Chg) : (s.setChg c).xpend = s.xpend := rfl
@[simp] theorem State.setChg_xtrip (s : State) (c : Chg) : (s.setChg c).xtrip = s.xtrip := rfl
@[simp] theorem State.setChg_regs (s : State) (c : Chg) : (s.setChg c).regs = s.regs := rfl
@[simp] theorem State.setChg_nv (s : State) (c : Chg) : (s.setChg c).nv = s.nv := rfl
@[simp] theorem State.setChg_dev (s : State) (c : Chg) : (s.setChg c).dev = s.dev := rfl
@[simp] theorem State.setChg_image (s : State) (c : Chg) : (s.setChg c).image = s.image := rfl
@[simp] theorem State.setChg_rtcSec (s : State) (c : Chg) : (s.setChg c).rtcSec = s.rtcSec := rfl
@[simp] theorem State.setChg_rtcValid (s : State) (c : Chg) : (s.setChg c).rtcValid = s.rtcValid := rfl
@[simp] theorem State.setChg_rtcAt (s : State) (c : Chg) : (s.setChg c).rtcAt = s.rtcAt := rfl
@[simp] theorem State.setChg_evt (s : State) (c : Chg) : (s.setChg c).evt = s.evt := rfl
@[simp] theorem State.setChg_ret (s : State) (c : Chg) : (s.setChg c).ret = s.ret := rfl
@[simp] theorem State.setChg_flt (s : State) (c : Chg) : (s.setChg c).flt = s.flt := rfl
@[simp] theorem State.setChg_wdg (s : State) (c : Chg) : (s.setChg c).wdg = s.wdg := rfl
@[simp] theorem State.setChg_jnl (s : State) (c : Chg) : (s.setChg c).jnl = s.jnl := rfl
@[simp] theorem State.setChg_upd (s : State) (c : Chg) : (s.setChg c).upd = s.upd := rfl
@[simp] theorem State.setChg_hl (s : State) (c : Chg) : (s.setChg c).hl = s.hl := rfl
@[simp] theorem State.setChg_frm (s : State) (c : Chg) : (s.setChg c).frm = s.frm := rfl
@[simp] theorem State.setChg_mbx (s : State) (c : Chg) : (s.setChg c).mbx = s.mbx := rfl
@[simp] theorem State.setChg_mbxWait (s : State) (c : Chg) : (s.setChg c).mbxWait = s.mbxWait := rfl
@[simp] theorem State.setChg_eng (s : State) (c : Chg) : (s.setChg c).eng = s.eng := rfl
@[simp] theorem State.setChg_stackTab (s : State) (c : Chg) : (s.setChg c).stackTab = s.stackTab := rfl
@[simp] theorem State.setChg_tiles (s : State) (c : Chg) : (s.setChg c).tiles = s.tiles := rfl
@[simp] theorem State.setChg_chgPtr (s : State) (c : Chg) : (s.setChg c).chgPtr = s.chgPtr := rfl
@[simp] theorem State.setChg_track (s : State) (c : Chg) : (s.setChg c).track = s.track := rfl
@[simp] theorem State.setChg_seq (s : State) (c : Chg) : (s.setChg c).seq = s.seq := rfl
@[simp] theorem State.setChg_doms (s : State) (c : Chg) : (s.setChg c).doms = s.doms := rfl
@[simp] theorem State.setChg_ldo (s : State) (c : Chg) : (s.setChg c).ldo = s.ldo := rfl
@[simp] theorem State.setChg_lsw (s : State) (c : Chg) : (s.setChg c).lsw = s.lsw := rfl
@[simp] theorem State.setChg_guards (s : State) (c : Chg) : (s.setChg c).guards = s.guards := rfl
@[simp] theorem State.setChg_sec (s : State) (c : Chg) : (s.setChg c).sec = s.sec := rfl
@[simp] theorem State.setChg_otp (s : State) (c : Chg) : (s.setChg c).otp = s.otp := rfl
@[simp] theorem State.setChg_pp (s : State) (c : Chg) : (s.setChg c).pp = { s.pp with chg := c } := rfl
@[simp] theorem State.setChg_twc (s : State) (c : Chg) : (s.setChg c).twc = s.twc := rfl
@[simp] theorem State.setChg_twt (s : State) (c : Chg) : (s.setChg c).twt = s.twt := rfl
@[simp] theorem State.setChg_gg (s : State) (c : Chg) : (s.setChg c).gg = s.gg := rfl
@[simp] theorem State.setChg_adc (s : State) (c : Chg) : (s.setChg c).adc = s.adc := rfl
@[simp] theorem State.setChg_thm (s : State) (c : Chg) : (s.setChg c).thm = s.thm := rfl

/-! `State.setOtp` -/

@[simp] theorem State.setOtp_pending (s : State) (x : OtpCtl) : (s.setOtp x).pending = s.pending := rfl
@[simp] theorem State.setOtp_now (s : State) (x : OtpCtl) : (s.setOtp x).now = s.now := rfl
@[simp] theorem State.setOtp_draws (s : State) (x : OtpCtl) : (s.setOtp x).draws = s.draws := rfl
@[simp] theorem State.setOtp_xpend (s : State) (x : OtpCtl) : (s.setOtp x).xpend = s.xpend := rfl
@[simp] theorem State.setOtp_xtrip (s : State) (x : OtpCtl) : (s.setOtp x).xtrip = s.xtrip := rfl
@[simp] theorem State.setOtp_regs (s : State) (x : OtpCtl) : (s.setOtp x).regs = s.regs := rfl
@[simp] theorem State.setOtp_nv (s : State) (x : OtpCtl) : (s.setOtp x).nv = s.nv := rfl
@[simp] theorem State.setOtp_dev (s : State) (x : OtpCtl) : (s.setOtp x).dev = s.dev := rfl
@[simp] theorem State.setOtp_image (s : State) (x : OtpCtl) : (s.setOtp x).image = s.image := rfl
@[simp] theorem State.setOtp_rtcSec (s : State) (x : OtpCtl) : (s.setOtp x).rtcSec = s.rtcSec := rfl
@[simp] theorem State.setOtp_rtcValid (s : State) (x : OtpCtl) : (s.setOtp x).rtcValid = s.rtcValid := rfl
@[simp] theorem State.setOtp_rtcAt (s : State) (x : OtpCtl) : (s.setOtp x).rtcAt = s.rtcAt := rfl
@[simp] theorem State.setOtp_evt (s : State) (x : OtpCtl) : (s.setOtp x).evt = s.evt := rfl
@[simp] theorem State.setOtp_ret (s : State) (x : OtpCtl) : (s.setOtp x).ret = s.ret := rfl
@[simp] theorem State.setOtp_flt (s : State) (x : OtpCtl) : (s.setOtp x).flt = s.flt := rfl
@[simp] theorem State.setOtp_wdg (s : State) (x : OtpCtl) : (s.setOtp x).wdg = s.wdg := rfl
@[simp] theorem State.setOtp_jnl (s : State) (x : OtpCtl) : (s.setOtp x).jnl = s.jnl := rfl
@[simp] theorem State.setOtp_upd (s : State) (x : OtpCtl) : (s.setOtp x).upd = s.upd := rfl
@[simp] theorem State.setOtp_hl (s : State) (x : OtpCtl) : (s.setOtp x).hl = s.hl := rfl
@[simp] theorem State.setOtp_frm (s : State) (x : OtpCtl) : (s.setOtp x).frm = s.frm := rfl
@[simp] theorem State.setOtp_mbx (s : State) (x : OtpCtl) : (s.setOtp x).mbx = s.mbx := rfl
@[simp] theorem State.setOtp_mbxWait (s : State) (x : OtpCtl) : (s.setOtp x).mbxWait = s.mbxWait := rfl
@[simp] theorem State.setOtp_eng (s : State) (x : OtpCtl) : (s.setOtp x).eng = s.eng := rfl
@[simp] theorem State.setOtp_stackTab (s : State) (x : OtpCtl) : (s.setOtp x).stackTab = s.stackTab := rfl
@[simp] theorem State.setOtp_tiles (s : State) (x : OtpCtl) : (s.setOtp x).tiles = s.tiles := rfl
@[simp] theorem State.setOtp_chgPtr (s : State) (x : OtpCtl) : (s.setOtp x).chgPtr = s.chgPtr := rfl
@[simp] theorem State.setOtp_track (s : State) (x : OtpCtl) : (s.setOtp x).track = s.track := rfl
@[simp] theorem State.setOtp_seq (s : State) (x : OtpCtl) : (s.setOtp x).seq = s.seq := rfl
@[simp] theorem State.setOtp_doms (s : State) (x : OtpCtl) : (s.setOtp x).doms = s.doms := rfl
@[simp] theorem State.setOtp_ldo (s : State) (x : OtpCtl) : (s.setOtp x).ldo = s.ldo := rfl
@[simp] theorem State.setOtp_lsw (s : State) (x : OtpCtl) : (s.setOtp x).lsw = s.lsw := rfl
@[simp] theorem State.setOtp_guards (s : State) (x : OtpCtl) : (s.setOtp x).guards = s.guards := rfl
@[simp] theorem State.setOtp_sec (s : State) (x : OtpCtl) : (s.setOtp x).sec = s.sec := rfl
@[simp] theorem State.setOtp_otp (s : State) (x : OtpCtl) : (s.setOtp x).otp = x := rfl
@[simp] theorem State.setOtp_pp (s : State) (x : OtpCtl) : (s.setOtp x).pp = s.pp := rfl
@[simp] theorem State.setOtp_twc (s : State) (x : OtpCtl) : (s.setOtp x).twc = s.twc := rfl
@[simp] theorem State.setOtp_twt (s : State) (x : OtpCtl) : (s.setOtp x).twt = s.twt := rfl
@[simp] theorem State.setOtp_gg (s : State) (x : OtpCtl) : (s.setOtp x).gg = s.gg := rfl
@[simp] theorem State.setOtp_adc (s : State) (x : OtpCtl) : (s.setOtp x).adc = s.adc := rfl
@[simp] theorem State.setOtp_thm (s : State) (x : OtpCtl) : (s.setOtp x).thm = s.thm := rfl

/-! `State.setSec` -/

@[simp] theorem State.setSec_pending (s : State) (x : Sec) : (s.setSec x).pending = s.pending := rfl
@[simp] theorem State.setSec_now (s : State) (x : Sec) : (s.setSec x).now = s.now := rfl
@[simp] theorem State.setSec_draws (s : State) (x : Sec) : (s.setSec x).draws = s.draws := rfl
@[simp] theorem State.setSec_xpend (s : State) (x : Sec) : (s.setSec x).xpend = s.xpend := rfl
@[simp] theorem State.setSec_xtrip (s : State) (x : Sec) : (s.setSec x).xtrip = s.xtrip := rfl
@[simp] theorem State.setSec_regs (s : State) (x : Sec) : (s.setSec x).regs = s.regs := rfl
@[simp] theorem State.setSec_nv (s : State) (x : Sec) : (s.setSec x).nv = s.nv := rfl
@[simp] theorem State.setSec_dev (s : State) (x : Sec) : (s.setSec x).dev = s.dev := rfl
@[simp] theorem State.setSec_image (s : State) (x : Sec) : (s.setSec x).image = s.image := rfl
@[simp] theorem State.setSec_rtcSec (s : State) (x : Sec) : (s.setSec x).rtcSec = s.rtcSec := rfl
@[simp] theorem State.setSec_rtcValid (s : State) (x : Sec) : (s.setSec x).rtcValid = s.rtcValid := rfl
@[simp] theorem State.setSec_rtcAt (s : State) (x : Sec) : (s.setSec x).rtcAt = s.rtcAt := rfl
@[simp] theorem State.setSec_evt (s : State) (x : Sec) : (s.setSec x).evt = s.evt := rfl
@[simp] theorem State.setSec_ret (s : State) (x : Sec) : (s.setSec x).ret = s.ret := rfl
@[simp] theorem State.setSec_flt (s : State) (x : Sec) : (s.setSec x).flt = s.flt := rfl
@[simp] theorem State.setSec_wdg (s : State) (x : Sec) : (s.setSec x).wdg = s.wdg := rfl
@[simp] theorem State.setSec_jnl (s : State) (x : Sec) : (s.setSec x).jnl = s.jnl := rfl
@[simp] theorem State.setSec_upd (s : State) (x : Sec) : (s.setSec x).upd = s.upd := rfl
@[simp] theorem State.setSec_hl (s : State) (x : Sec) : (s.setSec x).hl = s.hl := rfl
@[simp] theorem State.setSec_frm (s : State) (x : Sec) : (s.setSec x).frm = s.frm := rfl
@[simp] theorem State.setSec_mbx (s : State) (x : Sec) : (s.setSec x).mbx = s.mbx := rfl
@[simp] theorem State.setSec_mbxWait (s : State) (x : Sec) : (s.setSec x).mbxWait = s.mbxWait := rfl
@[simp] theorem State.setSec_eng (s : State) (x : Sec) : (s.setSec x).eng = s.eng := rfl
@[simp] theorem State.setSec_stackTab (s : State) (x : Sec) : (s.setSec x).stackTab = s.stackTab := rfl
@[simp] theorem State.setSec_tiles (s : State) (x : Sec) : (s.setSec x).tiles = s.tiles := rfl
@[simp] theorem State.setSec_chgPtr (s : State) (x : Sec) : (s.setSec x).chgPtr = s.chgPtr := rfl
@[simp] theorem State.setSec_track (s : State) (x : Sec) : (s.setSec x).track = s.track := rfl
@[simp] theorem State.setSec_seq (s : State) (x : Sec) : (s.setSec x).seq = s.seq := rfl
@[simp] theorem State.setSec_doms (s : State) (x : Sec) : (s.setSec x).doms = s.doms := rfl
@[simp] theorem State.setSec_ldo (s : State) (x : Sec) : (s.setSec x).ldo = s.ldo := rfl
@[simp] theorem State.setSec_lsw (s : State) (x : Sec) : (s.setSec x).lsw = s.lsw := rfl
@[simp] theorem State.setSec_guards (s : State) (x : Sec) : (s.setSec x).guards = s.guards := rfl
@[simp] theorem State.setSec_sec (s : State) (x : Sec) : (s.setSec x).sec = x := rfl
@[simp] theorem State.setSec_otp (s : State) (x : Sec) : (s.setSec x).otp = s.otp := rfl
@[simp] theorem State.setSec_pp (s : State) (x : Sec) : (s.setSec x).pp = s.pp := rfl
@[simp] theorem State.setSec_twc (s : State) (x : Sec) : (s.setSec x).twc = s.twc := rfl
@[simp] theorem State.setSec_twt (s : State) (x : Sec) : (s.setSec x).twt = s.twt := rfl
@[simp] theorem State.setSec_gg (s : State) (x : Sec) : (s.setSec x).gg = s.gg := rfl
@[simp] theorem State.setSec_adc (s : State) (x : Sec) : (s.setSec x).adc = s.adc := rfl
@[simp] theorem State.setSec_thm (s : State) (x : Sec) : (s.setSec x).thm = s.thm := rfl

/-! `State.setSeq` -/

@[simp] theorem State.setSeq_pending (s : State) (q : Seq) : (s.setSeq q).pending = s.pending := rfl
@[simp] theorem State.setSeq_now (s : State) (q : Seq) : (s.setSeq q).now = s.now := rfl
@[simp] theorem State.setSeq_draws (s : State) (q : Seq) : (s.setSeq q).draws = s.draws := rfl
@[simp] theorem State.setSeq_xpend (s : State) (q : Seq) : (s.setSeq q).xpend = s.xpend := rfl
@[simp] theorem State.setSeq_xtrip (s : State) (q : Seq) : (s.setSeq q).xtrip = s.xtrip := rfl
@[simp] theorem State.setSeq_regs (s : State) (q : Seq) : (s.setSeq q).regs = s.regs := rfl
@[simp] theorem State.setSeq_nv (s : State) (q : Seq) : (s.setSeq q).nv = s.nv := rfl
@[simp] theorem State.setSeq_dev (s : State) (q : Seq) : (s.setSeq q).dev = s.dev := rfl
@[simp] theorem State.setSeq_image (s : State) (q : Seq) : (s.setSeq q).image = s.image := rfl
@[simp] theorem State.setSeq_rtcSec (s : State) (q : Seq) : (s.setSeq q).rtcSec = s.rtcSec := rfl
@[simp] theorem State.setSeq_rtcValid (s : State) (q : Seq) : (s.setSeq q).rtcValid = s.rtcValid := rfl
@[simp] theorem State.setSeq_rtcAt (s : State) (q : Seq) : (s.setSeq q).rtcAt = s.rtcAt := rfl
@[simp] theorem State.setSeq_evt (s : State) (q : Seq) : (s.setSeq q).evt = s.evt := rfl
@[simp] theorem State.setSeq_ret (s : State) (q : Seq) : (s.setSeq q).ret = s.ret := rfl
@[simp] theorem State.setSeq_flt (s : State) (q : Seq) : (s.setSeq q).flt = s.flt := rfl
@[simp] theorem State.setSeq_wdg (s : State) (q : Seq) : (s.setSeq q).wdg = s.wdg := rfl
@[simp] theorem State.setSeq_jnl (s : State) (q : Seq) : (s.setSeq q).jnl = s.jnl := rfl
@[simp] theorem State.setSeq_upd (s : State) (q : Seq) : (s.setSeq q).upd = s.upd := rfl
@[simp] theorem State.setSeq_hl (s : State) (q : Seq) : (s.setSeq q).hl = s.hl := rfl
@[simp] theorem State.setSeq_frm (s : State) (q : Seq) : (s.setSeq q).frm = s.frm := rfl
@[simp] theorem State.setSeq_mbx (s : State) (q : Seq) : (s.setSeq q).mbx = s.mbx := rfl
@[simp] theorem State.setSeq_mbxWait (s : State) (q : Seq) : (s.setSeq q).mbxWait = s.mbxWait := rfl
@[simp] theorem State.setSeq_eng (s : State) (q : Seq) : (s.setSeq q).eng = s.eng := rfl
@[simp] theorem State.setSeq_stackTab (s : State) (q : Seq) : (s.setSeq q).stackTab = s.stackTab := rfl
@[simp] theorem State.setSeq_tiles (s : State) (q : Seq) : (s.setSeq q).tiles = s.tiles := rfl
@[simp] theorem State.setSeq_chgPtr (s : State) (q : Seq) : (s.setSeq q).chgPtr = s.chgPtr := rfl
@[simp] theorem State.setSeq_track (s : State) (q : Seq) : (s.setSeq q).track = s.track := rfl
@[simp] theorem State.setSeq_seq (s : State) (q : Seq) : (s.setSeq q).seq = q := rfl
@[simp] theorem State.setSeq_doms (s : State) (q : Seq) : (s.setSeq q).doms = s.doms := rfl
@[simp] theorem State.setSeq_ldo (s : State) (q : Seq) : (s.setSeq q).ldo = s.ldo := rfl
@[simp] theorem State.setSeq_lsw (s : State) (q : Seq) : (s.setSeq q).lsw = s.lsw := rfl
@[simp] theorem State.setSeq_guards (s : State) (q : Seq) : (s.setSeq q).guards = s.guards := rfl
@[simp] theorem State.setSeq_sec (s : State) (q : Seq) : (s.setSeq q).sec = s.sec := rfl
@[simp] theorem State.setSeq_otp (s : State) (q : Seq) : (s.setSeq q).otp = s.otp := rfl
@[simp] theorem State.setSeq_pp (s : State) (q : Seq) : (s.setSeq q).pp = s.pp := rfl
@[simp] theorem State.setSeq_twc (s : State) (q : Seq) : (s.setSeq q).twc = s.twc := rfl
@[simp] theorem State.setSeq_twt (s : State) (q : Seq) : (s.setSeq q).twt = s.twt := rfl
@[simp] theorem State.setSeq_gg (s : State) (q : Seq) : (s.setSeq q).gg = s.gg := rfl
@[simp] theorem State.setSeq_adc (s : State) (q : Seq) : (s.setSeq q).adc = s.adc := rfl
@[simp] theorem State.setSeq_thm (s : State) (q : Seq) : (s.setSeq q).thm = s.thm := rfl

/-! `State.setUpd` -/

@[simp] theorem State.setUpd_pending (s : State) (u : Upd) : (s.setUpd u).pending = s.pending := rfl
@[simp] theorem State.setUpd_now (s : State) (u : Upd) : (s.setUpd u).now = s.now := rfl
@[simp] theorem State.setUpd_draws (s : State) (u : Upd) : (s.setUpd u).draws = s.draws := rfl
@[simp] theorem State.setUpd_xpend (s : State) (u : Upd) : (s.setUpd u).xpend = s.xpend := rfl
@[simp] theorem State.setUpd_xtrip (s : State) (u : Upd) : (s.setUpd u).xtrip = s.xtrip := rfl
@[simp] theorem State.setUpd_regs (s : State) (u : Upd) : (s.setUpd u).regs = s.regs := rfl
@[simp] theorem State.setUpd_nv (s : State) (u : Upd) : (s.setUpd u).nv = s.nv := rfl
@[simp] theorem State.setUpd_dev (s : State) (u : Upd) : (s.setUpd u).dev = s.dev := rfl
@[simp] theorem State.setUpd_image (s : State) (u : Upd) : (s.setUpd u).image = s.image := rfl
@[simp] theorem State.setUpd_rtcSec (s : State) (u : Upd) : (s.setUpd u).rtcSec = s.rtcSec := rfl
@[simp] theorem State.setUpd_rtcValid (s : State) (u : Upd) : (s.setUpd u).rtcValid = s.rtcValid := rfl
@[simp] theorem State.setUpd_rtcAt (s : State) (u : Upd) : (s.setUpd u).rtcAt = s.rtcAt := rfl
@[simp] theorem State.setUpd_evt (s : State) (u : Upd) : (s.setUpd u).evt = s.evt := rfl
@[simp] theorem State.setUpd_ret (s : State) (u : Upd) : (s.setUpd u).ret = s.ret := rfl
@[simp] theorem State.setUpd_flt (s : State) (u : Upd) : (s.setUpd u).flt = s.flt := rfl
@[simp] theorem State.setUpd_wdg (s : State) (u : Upd) : (s.setUpd u).wdg = s.wdg := rfl
@[simp] theorem State.setUpd_jnl (s : State) (u : Upd) : (s.setUpd u).jnl = s.jnl := rfl
@[simp] theorem State.setUpd_upd (s : State) (u : Upd) : (s.setUpd u).upd = u := rfl
@[simp] theorem State.setUpd_hl (s : State) (u : Upd) : (s.setUpd u).hl = s.hl := rfl
@[simp] theorem State.setUpd_frm (s : State) (u : Upd) : (s.setUpd u).frm = s.frm := rfl
@[simp] theorem State.setUpd_mbx (s : State) (u : Upd) : (s.setUpd u).mbx = s.mbx := rfl
@[simp] theorem State.setUpd_mbxWait (s : State) (u : Upd) : (s.setUpd u).mbxWait = s.mbxWait := rfl
@[simp] theorem State.setUpd_eng (s : State) (u : Upd) : (s.setUpd u).eng = s.eng := rfl
@[simp] theorem State.setUpd_stackTab (s : State) (u : Upd) : (s.setUpd u).stackTab = s.stackTab := rfl
@[simp] theorem State.setUpd_tiles (s : State) (u : Upd) : (s.setUpd u).tiles = s.tiles := rfl
@[simp] theorem State.setUpd_chgPtr (s : State) (u : Upd) : (s.setUpd u).chgPtr = s.chgPtr := rfl
@[simp] theorem State.setUpd_track (s : State) (u : Upd) : (s.setUpd u).track = s.track := rfl
@[simp] theorem State.setUpd_seq (s : State) (u : Upd) : (s.setUpd u).seq = s.seq := rfl
@[simp] theorem State.setUpd_doms (s : State) (u : Upd) : (s.setUpd u).doms = s.doms := rfl
@[simp] theorem State.setUpd_ldo (s : State) (u : Upd) : (s.setUpd u).ldo = s.ldo := rfl
@[simp] theorem State.setUpd_lsw (s : State) (u : Upd) : (s.setUpd u).lsw = s.lsw := rfl
@[simp] theorem State.setUpd_guards (s : State) (u : Upd) : (s.setUpd u).guards = s.guards := rfl
@[simp] theorem State.setUpd_sec (s : State) (u : Upd) : (s.setUpd u).sec = s.sec := rfl
@[simp] theorem State.setUpd_otp (s : State) (u : Upd) : (s.setUpd u).otp = s.otp := rfl
@[simp] theorem State.setUpd_pp (s : State) (u : Upd) : (s.setUpd u).pp = s.pp := rfl
@[simp] theorem State.setUpd_twc (s : State) (u : Upd) : (s.setUpd u).twc = s.twc := rfl
@[simp] theorem State.setUpd_twt (s : State) (u : Upd) : (s.setUpd u).twt = s.twt := rfl
@[simp] theorem State.setUpd_gg (s : State) (u : Upd) : (s.setUpd u).gg = s.gg := rfl
@[simp] theorem State.setUpd_adc (s : State) (u : Upd) : (s.setUpd u).adc = s.adc := rfl
@[simp] theorem State.setUpd_thm (s : State) (u : Upd) : (s.setUpd u).thm = s.thm := rfl

/-! Time that passes: `State.pass` and `State.due` move the clock, the frame counter and the event unit, which makes an EVT_OVERFLOW that had to wait, and
nothing else. -/

@[simp] theorem State.clockOn_pending (s : State) (k : Nat) : (s.clockOn k).pending = s.pending := by
  unfold State.clockOn
  split <;> rfl

@[simp] theorem State.fillOverflow_pending (s : State) : (s.fillOverflow).pending = s.pending := by
  unfold State.fillOverflow
  split <;> rfl

@[simp] theorem State.pass_pending (s : State) (k : Nat) : (s.pass k).pending = s.pending := by
  unfold State.pass
  dsimp only
  split <;> simp only [State.clockOn_pending, State.fillOverflow_pending]

@[simp] theorem State.due_pending (s : State) (t : Nat) : (s.due t).pending = s.pending := State.pass_pending s _

@[simp] theorem State.fillOverflow_now (s : State) : (s.fillOverflow).now = s.now := by
  unfold State.fillOverflow
  split <;> rfl

@[simp] theorem State.clockOn_draws (s : State) (k : Nat) : (s.clockOn k).draws = s.draws := by
  unfold State.clockOn
  split <;> rfl

@[simp] theorem State.fillOverflow_draws (s : State) : (s.fillOverflow).draws = s.draws := by
  unfold State.fillOverflow
  split <;> rfl

@[simp] theorem State.pass_draws (s : State) (k : Nat) : (s.pass k).draws = s.draws := by
  unfold State.pass
  dsimp only
  split <;> simp only [State.clockOn_draws, State.fillOverflow_draws]

@[simp] theorem State.due_draws (s : State) (t : Nat) : (s.due t).draws = s.draws := State.pass_draws s _

@[simp] theorem State.clockOn_xpend (s : State) (k : Nat) : (s.clockOn k).xpend = s.xpend := by
  unfold State.clockOn
  split <;> rfl

@[simp] theorem State.fillOverflow_xpend (s : State) : (s.fillOverflow).xpend = s.xpend := by
  unfold State.fillOverflow
  split <;> rfl

@[simp] theorem State.pass_xpend (s : State) (k : Nat) : (s.pass k).xpend = s.xpend := by
  unfold State.pass
  dsimp only
  split <;> simp only [State.clockOn_xpend, State.fillOverflow_xpend]

@[simp] theorem State.due_xpend (s : State) (t : Nat) : (s.due t).xpend = s.xpend := State.pass_xpend s _

@[simp] theorem State.clockOn_xtrip (s : State) (k : Nat) : (s.clockOn k).xtrip = s.xtrip := by
  unfold State.clockOn
  split <;> rfl

@[simp] theorem State.fillOverflow_xtrip (s : State) : (s.fillOverflow).xtrip = s.xtrip := by
  unfold State.fillOverflow
  split <;> rfl

@[simp] theorem State.pass_xtrip (s : State) (k : Nat) : (s.pass k).xtrip = s.xtrip := by
  unfold State.pass
  dsimp only
  split <;> simp only [State.clockOn_xtrip, State.fillOverflow_xtrip]

@[simp] theorem State.due_xtrip (s : State) (t : Nat) : (s.due t).xtrip = s.xtrip := State.pass_xtrip s _

@[simp] theorem State.clockOn_regs (s : State) (k : Nat) : (s.clockOn k).regs = s.regs := by
  unfold State.clockOn
  split <;> rfl

@[simp] theorem State.fillOverflow_regs (s : State) : (s.fillOverflow).regs = s.regs := by
  unfold State.fillOverflow
  split <;> rfl

@[simp] theorem State.pass_regs (s : State) (k : Nat) : (s.pass k).regs = s.regs := by
  unfold State.pass
  dsimp only
  split <;> simp only [State.clockOn_regs, State.fillOverflow_regs]

@[simp] theorem State.due_regs (s : State) (t : Nat) : (s.due t).regs = s.regs := State.pass_regs s _

@[simp] theorem State.clockOn_nv (s : State) (k : Nat) : (s.clockOn k).nv = s.nv := by
  unfold State.clockOn
  split <;> rfl

@[simp] theorem State.fillOverflow_nv (s : State) : (s.fillOverflow).nv = s.nv := by
  unfold State.fillOverflow
  split <;> rfl

@[simp] theorem State.pass_nv (s : State) (k : Nat) : (s.pass k).nv = s.nv := by
  unfold State.pass
  dsimp only
  split <;> simp only [State.clockOn_nv, State.fillOverflow_nv]

@[simp] theorem State.due_nv (s : State) (t : Nat) : (s.due t).nv = s.nv := State.pass_nv s _

@[simp] theorem State.clockOn_dev (s : State) (k : Nat) : (s.clockOn k).dev = s.dev := by
  unfold State.clockOn
  split <;> rfl

@[simp] theorem State.fillOverflow_dev (s : State) : (s.fillOverflow).dev = s.dev := by
  unfold State.fillOverflow
  split <;> rfl

@[simp] theorem State.pass_dev (s : State) (k : Nat) : (s.pass k).dev = s.dev := by
  unfold State.pass
  dsimp only
  split <;> simp only [State.clockOn_dev, State.fillOverflow_dev]

@[simp] theorem State.due_dev (s : State) (t : Nat) : (s.due t).dev = s.dev := State.pass_dev s _

@[simp] theorem State.clockOn_image (s : State) (k : Nat) : (s.clockOn k).image = s.image := by
  unfold State.clockOn
  split <;> rfl

@[simp] theorem State.fillOverflow_image (s : State) : (s.fillOverflow).image = s.image := by
  unfold State.fillOverflow
  split <;> rfl

@[simp] theorem State.pass_image (s : State) (k : Nat) : (s.pass k).image = s.image := by
  unfold State.pass
  dsimp only
  split <;> simp only [State.clockOn_image, State.fillOverflow_image]

@[simp] theorem State.due_image (s : State) (t : Nat) : (s.due t).image = s.image := State.pass_image s _

@[simp] theorem State.clockOn_rtcSec (s : State) (k : Nat) : (s.clockOn k).rtcSec = s.rtcSec := by
  unfold State.clockOn
  split <;> rfl

@[simp] theorem State.fillOverflow_rtcSec (s : State) : (s.fillOverflow).rtcSec = s.rtcSec := by
  unfold State.fillOverflow
  split <;> rfl

@[simp] theorem State.pass_rtcSec (s : State) (k : Nat) : (s.pass k).rtcSec = s.rtcSec := by
  unfold State.pass
  dsimp only
  split <;> simp only [State.clockOn_rtcSec, State.fillOverflow_rtcSec]

@[simp] theorem State.due_rtcSec (s : State) (t : Nat) : (s.due t).rtcSec = s.rtcSec := State.pass_rtcSec s _

@[simp] theorem State.clockOn_rtcValid (s : State) (k : Nat) : (s.clockOn k).rtcValid = s.rtcValid := by
  unfold State.clockOn
  split <;> rfl

@[simp] theorem State.fillOverflow_rtcValid (s : State) : (s.fillOverflow).rtcValid = s.rtcValid := by
  unfold State.fillOverflow
  split <;> rfl

@[simp] theorem State.pass_rtcValid (s : State) (k : Nat) : (s.pass k).rtcValid = s.rtcValid := by
  unfold State.pass
  dsimp only
  split <;> simp only [State.clockOn_rtcValid, State.fillOverflow_rtcValid]

@[simp] theorem State.due_rtcValid (s : State) (t : Nat) : (s.due t).rtcValid = s.rtcValid := State.pass_rtcValid s _

@[simp] theorem State.clockOn_rtcAt (s : State) (k : Nat) : (s.clockOn k).rtcAt = s.rtcAt := by
  unfold State.clockOn
  split <;> rfl

@[simp] theorem State.fillOverflow_rtcAt (s : State) : (s.fillOverflow).rtcAt = s.rtcAt := by
  unfold State.fillOverflow
  split <;> rfl

@[simp] theorem State.pass_rtcAt (s : State) (k : Nat) : (s.pass k).rtcAt = s.rtcAt := by
  unfold State.pass
  dsimp only
  split <;> simp only [State.clockOn_rtcAt, State.fillOverflow_rtcAt]

@[simp] theorem State.due_rtcAt (s : State) (t : Nat) : (s.due t).rtcAt = s.rtcAt := State.pass_rtcAt s _

@[simp] theorem State.clockOn_evt (s : State) (k : Nat) : (s.clockOn k).evt = s.evt := by
  unfold State.clockOn
  split <;> rfl

@[simp] theorem State.clockOn_ret (s : State) (k : Nat) : (s.clockOn k).ret = s.ret := by
  unfold State.clockOn
  split <;> rfl

@[simp] theorem State.fillOverflow_ret (s : State) : (s.fillOverflow).ret = s.ret := by
  unfold State.fillOverflow
  split <;> rfl

@[simp] theorem State.pass_ret (s : State) (k : Nat) : (s.pass k).ret = s.ret := by
  unfold State.pass
  dsimp only
  split <;> simp only [State.clockOn_ret, State.fillOverflow_ret]

@[simp] theorem State.due_ret (s : State) (t : Nat) : (s.due t).ret = s.ret := State.pass_ret s _

@[simp] theorem State.clockOn_flt (s : State) (k : Nat) : (s.clockOn k).flt = s.flt := by
  unfold State.clockOn
  split <;> rfl

@[simp] theorem State.fillOverflow_flt (s : State) : (s.fillOverflow).flt = s.flt := by
  unfold State.fillOverflow
  split <;> rfl

@[simp] theorem State.pass_flt (s : State) (k : Nat) : (s.pass k).flt = s.flt := by
  unfold State.pass
  dsimp only
  split <;> simp only [State.clockOn_flt, State.fillOverflow_flt]

@[simp] theorem State.due_flt (s : State) (t : Nat) : (s.due t).flt = s.flt := State.pass_flt s _

@[simp] theorem State.clockOn_wdg (s : State) (k : Nat) : (s.clockOn k).wdg = s.wdg := by
  unfold State.clockOn
  split <;> rfl

@[simp] theorem State.fillOverflow_wdg (s : State) : (s.fillOverflow).wdg = s.wdg := by
  unfold State.fillOverflow
  split <;> rfl

@[simp] theorem State.pass_wdg (s : State) (k : Nat) : (s.pass k).wdg = s.wdg := by
  unfold State.pass
  dsimp only
  split <;> simp only [State.clockOn_wdg, State.fillOverflow_wdg]

@[simp] theorem State.due_wdg (s : State) (t : Nat) : (s.due t).wdg = s.wdg := State.pass_wdg s _

@[simp] theorem State.clockOn_jnl (s : State) (k : Nat) : (s.clockOn k).jnl = s.jnl := by
  unfold State.clockOn
  split <;> rfl

@[simp] theorem State.fillOverflow_jnl (s : State) : (s.fillOverflow).jnl = s.jnl := by
  unfold State.fillOverflow
  split <;> rfl

@[simp] theorem State.pass_jnl (s : State) (k : Nat) : (s.pass k).jnl = s.jnl := by
  unfold State.pass
  dsimp only
  split <;> simp only [State.clockOn_jnl, State.fillOverflow_jnl]

@[simp] theorem State.due_jnl (s : State) (t : Nat) : (s.due t).jnl = s.jnl := State.pass_jnl s _

@[simp] theorem State.clockOn_upd (s : State) (k : Nat) : (s.clockOn k).upd = s.upd := by
  unfold State.clockOn
  split <;> rfl

@[simp] theorem State.fillOverflow_upd (s : State) : (s.fillOverflow).upd = s.upd := by
  unfold State.fillOverflow
  split <;> rfl

@[simp] theorem State.pass_upd (s : State) (k : Nat) : (s.pass k).upd = s.upd := by
  unfold State.pass
  dsimp only
  split <;> simp only [State.clockOn_upd, State.fillOverflow_upd]

@[simp] theorem State.due_upd (s : State) (t : Nat) : (s.due t).upd = s.upd := State.pass_upd s _

@[simp] theorem State.clockOn_hl (s : State) (k : Nat) : (s.clockOn k).hl = s.hl := by
  unfold State.clockOn
  split <;> rfl

@[simp] theorem State.fillOverflow_hl (s : State) : (s.fillOverflow).hl = s.hl := by
  unfold State.fillOverflow
  split <;> rfl

@[simp] theorem State.pass_hl (s : State) (k : Nat) : (s.pass k).hl = s.hl := by
  unfold State.pass
  dsimp only
  split <;> simp only [State.clockOn_hl, State.fillOverflow_hl]

@[simp] theorem State.due_hl (s : State) (t : Nat) : (s.due t).hl = s.hl := State.pass_hl s _

@[simp] theorem State.fillOverflow_frm (s : State) : (s.fillOverflow).frm = s.frm := by
  unfold State.fillOverflow
  split <;> rfl

@[simp] theorem State.clockOn_mbx (s : State) (k : Nat) : (s.clockOn k).mbx = s.mbx := by
  unfold State.clockOn
  split <;> rfl

@[simp] theorem State.fillOverflow_mbx (s : State) : (s.fillOverflow).mbx = s.mbx := by
  unfold State.fillOverflow
  split <;> rfl

@[simp] theorem State.pass_mbx (s : State) (k : Nat) : (s.pass k).mbx = s.mbx := by
  unfold State.pass
  dsimp only
  split <;> simp only [State.clockOn_mbx, State.fillOverflow_mbx]

@[simp] theorem State.due_mbx (s : State) (t : Nat) : (s.due t).mbx = s.mbx := State.pass_mbx s _

@[simp] theorem State.clockOn_mbxWait (s : State) (k : Nat) : (s.clockOn k).mbxWait = s.mbxWait := by
  unfold State.clockOn
  split <;> rfl

@[simp] theorem State.fillOverflow_mbxWait (s : State) : (s.fillOverflow).mbxWait = s.mbxWait := by
  unfold State.fillOverflow
  split <;> rfl

@[simp] theorem State.pass_mbxWait (s : State) (k : Nat) : (s.pass k).mbxWait = s.mbxWait := by
  unfold State.pass
  dsimp only
  split <;> simp only [State.clockOn_mbxWait, State.fillOverflow_mbxWait]

@[simp] theorem State.due_mbxWait (s : State) (t : Nat) : (s.due t).mbxWait = s.mbxWait := State.pass_mbxWait s _

@[simp] theorem State.clockOn_eng (s : State) (k : Nat) : (s.clockOn k).eng = s.eng := by
  unfold State.clockOn
  split <;> rfl

@[simp] theorem State.fillOverflow_eng (s : State) : (s.fillOverflow).eng = s.eng := by
  unfold State.fillOverflow
  split <;> rfl

@[simp] theorem State.pass_eng (s : State) (k : Nat) : (s.pass k).eng = s.eng := by
  unfold State.pass
  dsimp only
  split <;> simp only [State.clockOn_eng, State.fillOverflow_eng]

@[simp] theorem State.due_eng (s : State) (t : Nat) : (s.due t).eng = s.eng := State.pass_eng s _

@[simp] theorem State.clockOn_stackTab (s : State) (k : Nat) : (s.clockOn k).stackTab = s.stackTab := by
  unfold State.clockOn
  split <;> rfl

@[simp] theorem State.fillOverflow_stackTab (s : State) : (s.fillOverflow).stackTab = s.stackTab := by
  unfold State.fillOverflow
  split <;> rfl

@[simp] theorem State.pass_stackTab (s : State) (k : Nat) : (s.pass k).stackTab = s.stackTab := by
  unfold State.pass
  dsimp only
  split <;> simp only [State.clockOn_stackTab, State.fillOverflow_stackTab]

@[simp] theorem State.due_stackTab (s : State) (t : Nat) : (s.due t).stackTab = s.stackTab := State.pass_stackTab s _

@[simp] theorem State.clockOn_tiles (s : State) (k : Nat) : (s.clockOn k).tiles = s.tiles := by
  unfold State.clockOn
  split <;> rfl

@[simp] theorem State.fillOverflow_tiles (s : State) : (s.fillOverflow).tiles = s.tiles := by
  unfold State.fillOverflow
  split <;> rfl

@[simp] theorem State.pass_tiles (s : State) (k : Nat) : (s.pass k).tiles = s.tiles := by
  unfold State.pass
  dsimp only
  split <;> simp only [State.clockOn_tiles, State.fillOverflow_tiles]

@[simp] theorem State.due_tiles (s : State) (t : Nat) : (s.due t).tiles = s.tiles := State.pass_tiles s _

@[simp] theorem State.clockOn_chgPtr (s : State) (k : Nat) : (s.clockOn k).chgPtr = s.chgPtr := by
  unfold State.clockOn
  split <;> rfl

@[simp] theorem State.fillOverflow_chgPtr (s : State) : (s.fillOverflow).chgPtr = s.chgPtr := by
  unfold State.fillOverflow
  split <;> rfl

@[simp] theorem State.pass_chgPtr (s : State) (k : Nat) : (s.pass k).chgPtr = s.chgPtr := by
  unfold State.pass
  dsimp only
  split <;> simp only [State.clockOn_chgPtr, State.fillOverflow_chgPtr]

@[simp] theorem State.due_chgPtr (s : State) (t : Nat) : (s.due t).chgPtr = s.chgPtr := State.pass_chgPtr s _

@[simp] theorem State.clockOn_track (s : State) (k : Nat) : (s.clockOn k).track = s.track := by
  unfold State.clockOn
  split <;> rfl

@[simp] theorem State.fillOverflow_track (s : State) : (s.fillOverflow).track = s.track := by
  unfold State.fillOverflow
  split <;> rfl

@[simp] theorem State.pass_track (s : State) (k : Nat) : (s.pass k).track = s.track := by
  unfold State.pass
  dsimp only
  split <;> simp only [State.clockOn_track, State.fillOverflow_track]

@[simp] theorem State.due_track (s : State) (t : Nat) : (s.due t).track = s.track := State.pass_track s _

@[simp] theorem State.clockOn_seq (s : State) (k : Nat) : (s.clockOn k).seq = s.seq := by
  unfold State.clockOn
  split <;> rfl

@[simp] theorem State.fillOverflow_seq (s : State) : (s.fillOverflow).seq = s.seq := by
  unfold State.fillOverflow
  split <;> rfl

@[simp] theorem State.pass_seq (s : State) (k : Nat) : (s.pass k).seq = s.seq := by
  unfold State.pass
  dsimp only
  split <;> simp only [State.clockOn_seq, State.fillOverflow_seq]

@[simp] theorem State.due_seq (s : State) (t : Nat) : (s.due t).seq = s.seq := State.pass_seq s _

@[simp] theorem State.clockOn_doms (s : State) (k : Nat) : (s.clockOn k).doms = s.doms := by
  unfold State.clockOn
  split <;> rfl

@[simp] theorem State.fillOverflow_doms (s : State) : (s.fillOverflow).doms = s.doms := by
  unfold State.fillOverflow
  split <;> rfl

@[simp] theorem State.pass_doms (s : State) (k : Nat) : (s.pass k).doms = s.doms := by
  unfold State.pass
  dsimp only
  split <;> simp only [State.clockOn_doms, State.fillOverflow_doms]

@[simp] theorem State.due_doms (s : State) (t : Nat) : (s.due t).doms = s.doms := State.pass_doms s _

@[simp] theorem State.clockOn_ldo (s : State) (k : Nat) : (s.clockOn k).ldo = s.ldo := by
  unfold State.clockOn
  split <;> rfl

@[simp] theorem State.fillOverflow_ldo (s : State) : (s.fillOverflow).ldo = s.ldo := by
  unfold State.fillOverflow
  split <;> rfl

@[simp] theorem State.pass_ldo (s : State) (k : Nat) : (s.pass k).ldo = s.ldo := by
  unfold State.pass
  dsimp only
  split <;> simp only [State.clockOn_ldo, State.fillOverflow_ldo]

@[simp] theorem State.due_ldo (s : State) (t : Nat) : (s.due t).ldo = s.ldo := State.pass_ldo s _

@[simp] theorem State.clockOn_lsw (s : State) (k : Nat) : (s.clockOn k).lsw = s.lsw := by
  unfold State.clockOn
  split <;> rfl

@[simp] theorem State.fillOverflow_lsw (s : State) : (s.fillOverflow).lsw = s.lsw := by
  unfold State.fillOverflow
  split <;> rfl

@[simp] theorem State.pass_lsw (s : State) (k : Nat) : (s.pass k).lsw = s.lsw := by
  unfold State.pass
  dsimp only
  split <;> simp only [State.clockOn_lsw, State.fillOverflow_lsw]

@[simp] theorem State.due_lsw (s : State) (t : Nat) : (s.due t).lsw = s.lsw := State.pass_lsw s _

@[simp] theorem State.clockOn_guards (s : State) (k : Nat) : (s.clockOn k).guards = s.guards := by
  unfold State.clockOn
  split <;> rfl

@[simp] theorem State.fillOverflow_guards (s : State) : (s.fillOverflow).guards = s.guards := by
  unfold State.fillOverflow
  split <;> rfl

@[simp] theorem State.pass_guards (s : State) (k : Nat) : (s.pass k).guards = s.guards := by
  unfold State.pass
  dsimp only
  split <;> simp only [State.clockOn_guards, State.fillOverflow_guards]

@[simp] theorem State.due_guards (s : State) (t : Nat) : (s.due t).guards = s.guards := State.pass_guards s _

@[simp] theorem State.clockOn_sec (s : State) (k : Nat) : (s.clockOn k).sec = s.sec := by
  unfold State.clockOn
  split <;> rfl

@[simp] theorem State.fillOverflow_sec (s : State) : (s.fillOverflow).sec = s.sec := by
  unfold State.fillOverflow
  split <;> rfl

@[simp] theorem State.pass_sec (s : State) (k : Nat) : (s.pass k).sec = s.sec := by
  unfold State.pass
  dsimp only
  split <;> simp only [State.clockOn_sec, State.fillOverflow_sec]

@[simp] theorem State.due_sec (s : State) (t : Nat) : (s.due t).sec = s.sec := State.pass_sec s _

@[simp] theorem State.clockOn_otp (s : State) (k : Nat) : (s.clockOn k).otp = s.otp := by
  unfold State.clockOn
  split <;> rfl

@[simp] theorem State.fillOverflow_otp (s : State) : (s.fillOverflow).otp = s.otp := by
  unfold State.fillOverflow
  split <;> rfl

@[simp] theorem State.pass_otp (s : State) (k : Nat) : (s.pass k).otp = s.otp := by
  unfold State.pass
  dsimp only
  split <;> simp only [State.clockOn_otp, State.fillOverflow_otp]

@[simp] theorem State.due_otp (s : State) (t : Nat) : (s.due t).otp = s.otp := State.pass_otp s _

@[simp] theorem State.clockOn_pp (s : State) (k : Nat) : (s.clockOn k).pp = s.pp := by
  unfold State.clockOn
  split <;> rfl

@[simp] theorem State.fillOverflow_pp (s : State) : (s.fillOverflow).pp = s.pp := by
  unfold State.fillOverflow
  split <;> rfl

@[simp] theorem State.pass_pp (s : State) (k : Nat) : (s.pass k).pp = s.pp := by
  unfold State.pass
  dsimp only
  split <;> simp only [State.clockOn_pp, State.fillOverflow_pp]

@[simp] theorem State.due_pp (s : State) (t : Nat) : (s.due t).pp = s.pp := State.pass_pp s _

@[simp] theorem State.clockOn_twc (s : State) (k : Nat) : (s.clockOn k).twc = s.twc := by
  unfold State.clockOn
  split <;> rfl

@[simp] theorem State.fillOverflow_twc (s : State) : (s.fillOverflow).twc = s.twc := by
  unfold State.fillOverflow
  split <;> rfl

@[simp] theorem State.pass_twc (s : State) (k : Nat) : (s.pass k).twc = s.twc := by
  unfold State.pass
  dsimp only
  split <;> simp only [State.clockOn_twc, State.fillOverflow_twc]

@[simp] theorem State.due_twc (s : State) (t : Nat) : (s.due t).twc = s.twc := State.pass_twc s _

@[simp] theorem State.clockOn_twt (s : State) (k : Nat) : (s.clockOn k).twt = s.twt := by
  unfold State.clockOn
  split <;> rfl

@[simp] theorem State.fillOverflow_twt (s : State) : (s.fillOverflow).twt = s.twt := by
  unfold State.fillOverflow
  split <;> rfl

@[simp] theorem State.pass_twt (s : State) (k : Nat) : (s.pass k).twt = s.twt := by
  unfold State.pass
  dsimp only
  split <;> simp only [State.clockOn_twt, State.fillOverflow_twt]

@[simp] theorem State.due_twt (s : State) (t : Nat) : (s.due t).twt = s.twt := State.pass_twt s _

@[simp] theorem State.clockOn_gg (s : State) (k : Nat) : (s.clockOn k).gg = s.gg := by
  unfold State.clockOn
  split <;> rfl

@[simp] theorem State.fillOverflow_gg (s : State) : (s.fillOverflow).gg = s.gg := by
  unfold State.fillOverflow
  split <;> rfl

@[simp] theorem State.pass_gg (s : State) (k : Nat) : (s.pass k).gg = s.gg := by
  unfold State.pass
  dsimp only
  split <;> simp only [State.clockOn_gg, State.fillOverflow_gg]

@[simp] theorem State.due_gg (s : State) (t : Nat) : (s.due t).gg = s.gg := State.pass_gg s _

@[simp] theorem State.clockOn_adc (s : State) (k : Nat) : (s.clockOn k).adc = s.adc := by
  unfold State.clockOn
  split <;> rfl

@[simp] theorem State.fillOverflow_adc (s : State) : (s.fillOverflow).adc = s.adc := by
  unfold State.fillOverflow
  split <;> rfl

@[simp] theorem State.pass_adc (s : State) (k : Nat) : (s.pass k).adc = s.adc := by
  unfold State.pass
  dsimp only
  split <;> simp only [State.clockOn_adc, State.fillOverflow_adc]

@[simp] theorem State.due_adc (s : State) (t : Nat) : (s.due t).adc = s.adc := State.pass_adc s _

@[simp] theorem State.clockOn_thm (s : State) (k : Nat) : (s.clockOn k).thm = s.thm := by
  unfold State.clockOn
  split <;> rfl

@[simp] theorem State.fillOverflow_thm (s : State) : (s.fillOverflow).thm = s.thm := by
  unfold State.fillOverflow
  split <;> rfl

@[simp] theorem State.pass_thm (s : State) (k : Nat) : (s.pass k).thm = s.thm := by
  unfold State.pass
  dsimp only
  split <;> simp only [State.clockOn_thm, State.fillOverflow_thm]

@[simp] theorem State.due_thm (s : State) (t : Nat) : (s.due t).thm = s.thm := State.pass_thm s _

@[simp] theorem State.fillOverflow_evt_pb (s : State) : s.fillOverflow.evt.pb = s.evt.pb := by
  unfold State.fillOverflow
  split <;> rfl

@[simp] theorem State.pass_evt_pb (s : State) (k : Nat) : (s.pass k).evt.pb = s.evt.pb := by
  unfold State.pass
  dsimp only
  split <;> simp only [State.clockOn_evt, State.fillOverflow_evt_pb]

@[simp] theorem State.due_evt_pb (s : State) (t : Nat) : (s.due t).evt.pb = s.evt.pb := State.pass_evt_pb s _

/-! The readers. -/

@[simp] theorem State.get_set (s : State) (f : FRef) (v : Nat) : (s.set f v).get f = v % 2 ^ f.w := tget_tset_same _ _ _ _

theorem State.get_set_of_ne (s : State) {f g : FRef} (v : Nat) (h : g.key ≠ f.key) : (s.set f v).get g = s.get g := tget_tset_other _ _ _ _ h

@[simp] theorem State.stk_setStk (s : State) (n : Nat) (x : Stack) : (s.setStk n x).stk n = x := tget_tset_same _ _ _ _
theorem State.stk_setStk_of_ne (s : State) {n m : Nat} (x : Stack) (h : m ≠ n) : (s.setStk n x).stk m = s.stk m := tget_tset_other _ _ _ _ h
@[simp] theorem State.tile_setTile (s : State) (n : Nat) (x : Tile) : (s.setTile n x).tile n = x := tget_tset_same _ _ _ _
theorem State.tile_setTile_of_ne (s : State) {n m : Nat} (x : Tile) (h : m ≠ n) : (s.setTile n x).tile m = s.tile m := tget_tset_other _ _ _ _ h
@[simp] theorem State.dom_setDom (s : State) (n : Nat) (x : Dom) : (s.setDom n x).dom n = x := tget_tset_same _ _ _ _
theorem State.dom_setDom_of_ne (s : State) {n m : Nat} (x : Dom) (h : m ≠ n) : (s.setDom n x).dom m = s.dom m := tget_tset_other _ _ _ _ h
@[simp] theorem State.seat_setSeat (s : State) (n : Nat) (x : Seat) : (s.setSeat n x).seat n = x := tget_tset_same _ _ _ _
theorem State.seat_setSeat_of_ne (s : State) {n m : Nat} (x : Seat) (h : m ≠ n) : (s.setSeat n x).seat m = s.seat m := tget_tset_other _ _ _ _ h

@[simp] theorem State.get_setStk (s : State) (n : Nat) (x : Stack) (f : FRef) : (s.setStk n x).get f = s.get f := rfl
@[simp] theorem State.get_setTile (s : State) (n : Nat) (x : Tile) (f : FRef) : (s.setTile n x).get f = s.get f := rfl
@[simp] theorem State.get_setDom (s : State) (n : Nat) (x : Dom) (f : FRef) : (s.setDom n x).get f = s.get f := rfl
@[simp] theorem State.get_setSeat (s : State) (n : Nat) (x : Seat) (f : FRef) : (s.setSeat n x).get f = s.get f := rfl
@[simp] theorem State.get_setMode (s : State) (m : Mode) (f : FRef) : (s.setMode m).get f = s.get f := rfl
@[simp] theorem State.get_setDisc (s : State) (f : FRef) : (s.setDisc).get f = s.get f := rfl
@[simp] theorem State.get_setAdc (s : State) (a : Adc) (f : FRef) : (s.setAdc a).get f = s.get f := rfl
@[simp] theorem State.get_setFrm (s : State) (r : Frm) (f : FRef) : (s.setFrm r).get f = s.get f := rfl
@[simp] theorem State.get_setGg (s : State) (g : Gauge) (f : FRef) : (s.setGg g).get f = s.get f := rfl
@[simp] theorem State.get_setPp (s : State) (p : Pp) (f : FRef) : (s.setPp p).get f = s.get f := rfl
@[simp] theorem State.get_setChg (s : State) (c : Chg) (f : FRef) : (s.setChg c).get f = s.get f := rfl
@[simp] theorem State.get_setOtp (s : State) (x : OtpCtl) (f : FRef) : (s.setOtp x).get f = s.get f := rfl
@[simp] theorem State.get_setSec (s : State) (x : Sec) (f : FRef) : (s.setSec x).get f = s.get f := rfl
@[simp] theorem State.get_setSeq (s : State) (q : Seq) (f : FRef) : (s.setSeq q).get f = s.get f := rfl
@[simp] theorem State.get_setUpd (s : State) (u : Upd) (f : FRef) : (s.setUpd u).get f = s.get f := rfl
@[simp] theorem State.flag_setStk (s : State) (n : Nat) (x : Stack) (f : FRef) : (s.setStk n x).flag f = s.flag f := rfl
@[simp] theorem State.flag_setTile (s : State) (n : Nat) (x : Tile) (f : FRef) : (s.setTile n x).flag f = s.flag f := rfl
@[simp] theorem State.flag_setDom (s : State) (n : Nat) (x : Dom) (f : FRef) : (s.setDom n x).flag f = s.flag f := rfl
@[simp] theorem State.flag_setSeat (s : State) (n : Nat) (x : Seat) (f : FRef) : (s.setSeat n x).flag f = s.flag f := rfl
@[simp] theorem State.flag_setMode (s : State) (m : Mode) (f : FRef) : (s.setMode m).flag f = s.flag f := rfl
@[simp] theorem State.flag_setDisc (s : State) (f : FRef) : (s.setDisc).flag f = s.flag f := rfl
@[simp] theorem State.flag_setAdc (s : State) (a : Adc) (f : FRef) : (s.setAdc a).flag f = s.flag f := rfl
@[simp] theorem State.flag_setFrm (s : State) (r : Frm) (f : FRef) : (s.setFrm r).flag f = s.flag f := rfl
@[simp] theorem State.flag_setGg (s : State) (g : Gauge) (f : FRef) : (s.setGg g).flag f = s.flag f := rfl
@[simp] theorem State.flag_setPp (s : State) (p : Pp) (f : FRef) : (s.setPp p).flag f = s.flag f := rfl
@[simp] theorem State.flag_setChg (s : State) (c : Chg) (f : FRef) : (s.setChg c).flag f = s.flag f := rfl
@[simp] theorem State.flag_setOtp (s : State) (x : OtpCtl) (f : FRef) : (s.setOtp x).flag f = s.flag f := rfl
@[simp] theorem State.flag_setSec (s : State) (x : Sec) (f : FRef) : (s.setSec x).flag f = s.flag f := rfl
@[simp] theorem State.flag_setSeq (s : State) (q : Seq) (f : FRef) : (s.setSeq q).flag f = s.flag f := rfl
@[simp] theorem State.flag_setUpd (s : State) (u : Upd) (f : FRef) : (s.setUpd u).flag f = s.flag f := rfl
@[simp] theorem State.getS_setStk (s : State) (n : Nat) (x : Stack) (f : FRef) : (s.setStk n x).getS f = s.getS f := rfl
@[simp] theorem State.getS_setTile (s : State) (n : Nat) (x : Tile) (f : FRef) : (s.setTile n x).getS f = s.getS f := rfl
@[simp] theorem State.getS_setDom (s : State) (n : Nat) (x : Dom) (f : FRef) : (s.setDom n x).getS f = s.getS f := rfl
@[simp] theorem State.getS_setSeat (s : State) (n : Nat) (x : Seat) (f : FRef) : (s.setSeat n x).getS f = s.getS f := rfl
@[simp] theorem State.getS_setMode (s : State) (m : Mode) (f : FRef) : (s.setMode m).getS f = s.getS f := rfl
@[simp] theorem State.getS_setDisc (s : State) (f : FRef) : (s.setDisc).getS f = s.getS f := rfl
@[simp] theorem State.getS_setAdc (s : State) (a : Adc) (f : FRef) : (s.setAdc a).getS f = s.getS f := rfl
@[simp] theorem State.getS_setFrm (s : State) (r : Frm) (f : FRef) : (s.setFrm r).getS f = s.getS f := rfl
@[simp] theorem State.getS_setGg (s : State) (g : Gauge) (f : FRef) : (s.setGg g).getS f = s.getS f := rfl
@[simp] theorem State.getS_setPp (s : State) (p : Pp) (f : FRef) : (s.setPp p).getS f = s.getS f := rfl
@[simp] theorem State.getS_setChg (s : State) (c : Chg) (f : FRef) : (s.setChg c).getS f = s.getS f := rfl
@[simp] theorem State.getS_setOtp (s : State) (x : OtpCtl) (f : FRef) : (s.setOtp x).getS f = s.getS f := rfl
@[simp] theorem State.getS_setSec (s : State) (x : Sec) (f : FRef) : (s.setSec x).getS f = s.getS f := rfl
@[simp] theorem State.getS_setSeq (s : State) (q : Seq) (f : FRef) : (s.setSeq q).getS f = s.getS f := rfl
@[simp] theorem State.getS_setUpd (s : State) (u : Upd) (f : FRef) : (s.setUpd u).getS f = s.getS f := rfl

@[simp] theorem State.get_due (s : State) (t : Nat) (f : FRef) : (s.due t).get f = s.get f := by simp only [State.get, State.due_regs]
@[simp] theorem State.flag_due (s : State) (t : Nat) (f : FRef) : (s.due t).flag f = s.flag f := by simp only [State.flag, State.get_due]

end Sys2Proof.Machine
end

