-- ==== Sys2Proof/Laws/Keeps.lean ====
section
/-! SUPPORT. How `State.Keeps` is proved: the steps of a chain, and the operations that every block uses. -/

namespace Sys2Proof.Machine

theorem State.Keeps.refl (s : State) : s.Keeps s := ⟨rfl, id, Nat.le_refl _, id⟩

/-- An outcome keeps, where it is a next state. -/
def OutKeeps (s : State) : Out State → Prop
  | .next t => s.Keeps t
  | _ => True

/-- An operation that may be refused keeps, where it is not. -/
def OptKeeps (z : State) : Option State → Prop
  | some t => z.Keeps t
  | none => True

/-- A check that may fail keeps, where it does not. -/
def ExKeeps {ε : Type} (z : State) : Except ε State → Prop
  | .ok t => z.Keeps t
  | .error _ => True

theorem outKeeps_next {z t : State} (h : z.Keeps t) : OutKeeps z (.next t) := h
theorem optKeeps_some {z t : State} (h : z.Keeps t) : OptKeeps z (some t) := h
theorem optKeeps_none {z : State} : OptKeeps z none := True.intro

theorem optKeeps_getD {z s : State} {o : Option State} (h : z.Keeps s) (ho : OptKeeps z o) : z.Keeps (o.getD s) := by
  cases o with
  | none => exact h
  | some t => exact ho

theorem keeps_ite {z a b : State} {c : Prop} [Decidable c] (ha : c → z.Keeps a) (hb : ¬ c → z.Keeps b) : z.Keeps (if c then a else b) := by
  split
  · exact ha ‹_›
  · exact hb ‹_›

/-- An update of fields other than the queue of commands, the clock, the memories and the credited queues. -/
theorem keeps_mk {z s : State} (h : z.Keeps s) {d xp xt r dv im rs rv ra} {ev : Evt} {re fl wd} {jn : Jnl} {up} {hl : HostLink} {fr}
    {mb : List MbxOp} {mw en st ti cp tr} {sq : Seq} {dm ld ls gu se ot pp} {tw : Twc} {tt gg} {ad : Adc} {th}
    (h1 : ev.pb = s.evt.pb) (h2 : jn.queue = s.jnl.queue) (h3 : hl.frames = s.hl.frames) (h4 : mb = s.mbx)
    (h5 : sq.queue = s.seq.queue) (h6 : tw.queue = s.twc.queue) (h7 : ad.queue = s.adc.queue) :
    z.Keeps ⟨s.pending, s.now, d, xp, xt, r, s.nv, dv, im, rs, rv, ra, ev, re, fl, wd, jn, up, hl, fr, mb, mw, en, st, ti, cp, tr, sq, dm, ld, ls, gu,
      se, ot, pp, tw, tt, gg, ad, th⟩ := by
  refine ⟨h.queue, h.memory, h.clock, fun c => ?_⟩
  have k := h.credits c
  exact ⟨h3 ▸ k.hostLink, h5 ▸ k.sequencer, h4 ▸ k.mailbox, h7 ▸ k.converter, h6 ▸ k.twoWire, h2 ▸ k.journal, h1 ▸ k.push⟩

/-- An update of credited queues within their bounds. -/
theorem keeps_len {z s : State} (h : z.Keeps s) {d xp xt r dv im rs rv ra} {ev : Evt} {re fl wd} {jn : Jnl} {up} {hl : HostLink} {fr}
    {mb : List MbxOp} {mw en st ti cp tr} {sq : Seq} {dm ld ls gu se ot pp} {tw : Twc} {tt gg} {ad : Adc} {th}
    (h1 : s.evt.pb.length ≤ 4 → ev.pb.length ≤ 4) (h2 : s.jnl.queue.length ≤ 4 → jn.queue.length ≤ 4)
    (h3 : s.hl.frames.length ≤ 12 → hl.frames.length ≤ 12) (h4 : (s.mbx.map MbxOp.stack).Nodup → (mb.map MbxOp.stack).Nodup)
    (h5 : s.seq.queue.length ≤ 8 → sq.queue.length ≤ 8) (h6 : s.twc.queue.length ≤ 8 → tw.queue.length ≤ 8)
    (h7 : s.adc.queue.length ≤ 12 → ad.queue.length ≤ 12) :
    z.Keeps ⟨s.pending, s.now, d, xp, xt, r, s.nv, dv, im, rs, rv, ra, ev, re, fl, wd, jn, up, hl, fr, mb, mw, en, st, ti, cp, tr, sq, dm, ld, ls, gu,
      se, ot, pp, tw, tt, gg, ad, th⟩ := by
  refine ⟨h.queue, h.memory, h.clock, fun c => ?_⟩
  have k := h.credits c
  exact ⟨h3 k.hostLink, h5 k.sequencer, h4 k.mailbox, h7 k.converter, h6 k.twoWire, h2 k.journal, h1 k.push⟩

/-- An update of the memories that keeps their form. -/
theorem keeps_nv {z s : State} (h : z.Keeps s) {v : NonVol} (hv : Memory.wf s.nv → Memory.wf v) : z.Keeps { s with nv := v } :=
  ⟨h.queue, fun w => hv (h.memory w), h.clock, fun c => ⟨(h.credits c).1, (h.credits c).2, (h.credits c).3, (h.credits c).4,
    (h.credits c).5, (h.credits c).6, (h.credits c).7⟩⟩

theorem forEach_keeps {z : State} (l : List Nat) (f : Nat → State → State) (hf : ∀ n t, z.Keeps t → z.Keeps (f n t)) (s : State)
    (h : z.Keeps s) : z.Keeps (forEach l f s) := by
  unfold forEach
  induction l generalizing s with
  | nil => exact h
  | cons a l ih => exact ih _ (hf a s h)

theorem foldl_keeps {α : Type} {z : State} (l : List α) (f : State → α → State) (hf : ∀ t a, z.Keeps t → z.Keeps (f t a)) (s : State)
    (h : z.Keeps s) : z.Keeps (l.foldl f s) := by
  induction l generalizing s with
  | nil => exact h
  | cons a l ih => exact ih _ (hf s a h)

end Sys2Proof.Machine
end

