-- ==== Sys2Proof/Laws/KeepsBase.lean ====
section
/-! SUPPORT. `State.Keeps` of the shared operations, the outputs, the journal, reset, the fault collector and the stored registers: one lemma for every operation that answers a state. -/

set_option linter.all false

namespace Sys2Proof.Machine

theorem State.set_keeps {z : State} (s : State) (f : FRef) (v : Nat) (hz : z.Keeps s) : z.Keeps (State.set s f v) := by
  unfold State.set
  repeat' first
    | with_reducible assumption | with_reducible apply keeps_ite | (with_reducible exact fun k => k) | (intro _; with_reducible assumption)
    | dsimp only | split | exact keeps_mk ‹_› rfl rfl rfl rfl rfl rfl rfl | refine keeps_len ?_ id id id id id id id | intro _

theorem State.put_keeps {z : State} (s : State) (f : FRef) (b : Bool) (hz : z.Keeps s) : z.Keeps (State.put s f b) := by
  unfold State.put
  repeat' first
    | with_reducible assumption | with_reducible apply State.set_keeps | with_reducible apply keeps_ite | (with_reducible exact fun k => k)
    | (intro _; with_reducible assumption) | dsimp only | split | intro _

theorem State.incSatF_keeps {z : State} (s : State) (f : FRef) (hz : z.Keeps s) : z.Keeps (State.incSatF s f) := by
  unfold State.incSatF
  repeat' first
    | with_reducible assumption | with_reducible apply State.set_keeps | with_reducible apply keeps_ite | (with_reducible exact fun k => k)
    | (intro _; with_reducible assumption) | dsimp only | split | intro _

theorem State.addSatF_keeps {z : State} (s : State) (f : FRef) (d : Nat) (hz : z.Keeps s) : z.Keeps (State.addSatF s f d) := by
  unfold State.addSatF
  repeat' first
    | with_reducible assumption | with_reducible apply State.set_keeps | with_reducible apply keeps_ite | (with_reducible exact fun k => k)
    | (intro _; with_reducible assumption) | dsimp only | split | intro _

theorem State.incWrapF_keeps {z : State} (s : State) (f : FRef) (hz : z.Keeps s) : z.Keeps (State.incWrapF s f) := by
  unfold State.incWrapF
  repeat' first
    | with_reducible assumption | with_reducible apply State.set_keeps | with_reducible apply keeps_ite | (with_reducible exact fun k => k)
    | (intro _; with_reducible assumption) | dsimp only | split | intro _

theorem State.putBitF_keeps {z : State} (s : State) (f : FRef) (i : Nat) (b : Bool) (hz : z.Keeps s) : z.Keeps (State.putBitF s f i b) := by
  unfold State.putBitF
  repeat' first
    | with_reducible assumption | with_reducible apply State.set_keeps | with_reducible apply keeps_ite | (with_reducible exact fun k => k)
    | (intro _; with_reducible assumption) | dsimp only | split | intro _

theorem State.setS_keeps {z : State} (s : State) (f : FRef) (x : Int) (hz : z.Keeps s) : z.Keeps (State.setS s f x) := by
  unfold State.setS
  repeat' first
    | with_reducible assumption | with_reducible apply State.set_keeps | with_reducible apply keeps_ite | (with_reducible exact fun k => k)
    | (intro _; with_reducible assumption) | dsimp only | split | intro _

theorem State.clockOn_keeps {z : State} (s : State) (k : Nat) (h : z.Keeps s) : z.Keeps (State.clockOn s k) := by
  unfold State.clockOn
  split
  all_goals exact ⟨h.queue, h.memory, Nat.le_trans h.clock (Nat.le_add_right _ _), fun c => ⟨(h.credits c).1, (h.credits c).2, (h.credits c).3,
    (h.credits c).4, (h.credits c).5, (h.credits c).6, (h.credits c).7⟩⟩

theorem State.fillOverflow_keeps {z : State} (s : State) (hz : z.Keeps s) : z.Keeps (State.fillOverflow s) := by
  unfold State.fillOverflow
  repeat' first
    | with_reducible assumption | with_reducible apply keeps_ite | (with_reducible exact fun k => k) | (intro _; with_reducible assumption)
    | dsimp only | split | exact keeps_mk ‹_› rfl rfl rfl rfl rfl rfl rfl | refine keeps_len ?_ id id id id id id id | intro _

theorem State.pass_keeps {z : State} (s : State) (k : Nat) (h : z.Keeps s) : z.Keeps (State.pass s k) :=
  keeps_ite (fun _ => State.clockOn_keeps _ _ (State.fillOverflow_keeps _ (State.clockOn_keeps _ _ h))) fun _ => State.clockOn_keeps _ _ h

theorem State.due_keeps {z : State} (s : State) (t : Nat) (hz : z.Keeps s) : z.Keeps (State.due s t) := by
  unfold State.due
  repeat' first
    | with_reducible assumption | with_reducible apply State.pass_keeps | with_reducible apply keeps_ite | (with_reducible exact fun k => k)
    | (intro _; with_reducible assumption) | dsimp only | split | intro _

theorem State.draw_keeps {z : State} (s : State) (hz : z.Keeps s) : z.Keeps (State.draw s).2 := by
  unfold State.draw
  repeat' first
    | with_reducible assumption | with_reducible apply keeps_ite | (with_reducible exact fun k => k) | (intro _; with_reducible assumption)
    | dsimp only | split | exact keeps_mk ‹_› rfl rfl rfl rfl rfl rfl rfl | refine keeps_len ?_ id id id id id id id | intro _

theorem State.setStk_keeps {z : State} (s : State) (n : Nat) (x : Stack) (hz : z.Keeps s) : z.Keeps (State.setStk s n x) := by
  unfold State.setStk
  repeat' first
    | with_reducible assumption | with_reducible apply keeps_ite | (with_reducible exact fun k => k) | (intro _; with_reducible assumption)
    | dsimp only | split | exact keeps_mk ‹_› rfl rfl rfl rfl rfl rfl rfl | refine keeps_len ?_ id id id id id id id | intro _

theorem State.setTile_keeps {z : State} (s : State) (n : Nat) (x : Tile) (hz : z.Keeps s) : z.Keeps (State.setTile s n x) := by
  unfold State.setTile
  repeat' first
    | with_reducible assumption | with_reducible apply keeps_ite | (with_reducible exact fun k => k) | (intro _; with_reducible assumption)
    | dsimp only | split | exact keeps_mk ‹_› rfl rfl rfl rfl rfl rfl rfl | refine keeps_len ?_ id id id id id id id | intro _

theorem State.setDom_keeps {z : State} (s : State) (n : Nat) (x : Dom) (hz : z.Keeps s) : z.Keeps (State.setDom s n x) := by
  unfold State.setDom
  repeat' first
    | with_reducible assumption | with_reducible apply keeps_ite | (with_reducible exact fun k => k) | (intro _; with_reducible assumption)
    | dsimp only | split | exact keeps_mk ‹_› rfl rfl rfl rfl rfl rfl rfl | refine keeps_len ?_ id id id id id id id | intro _

theorem State.setSeat_keeps {z : State} (s : State) (n : Nat) (x : Seat) (hz : z.Keeps s) : z.Keeps (State.setSeat s n x) := by
  unfold State.setSeat
  repeat' first
    | with_reducible assumption | with_reducible apply keeps_ite | (with_reducible exact fun k => k) | (intro _; with_reducible assumption)
    | dsimp only | split | exact keeps_mk ‹_› rfl rfl rfl rfl rfl rfl rfl | refine keeps_len ?_ id id id id id id id | intro _

theorem State.setMode_keeps {z : State} (s : State) (m : Mode) (hz : z.Keeps s) : z.Keeps (State.setMode s m) := by
  unfold State.setMode
  repeat' first
    | with_reducible assumption | with_reducible apply keeps_ite | (with_reducible exact fun k => k) | (intro _; with_reducible assumption)
    | dsimp only | split | exact keeps_mk ‹_› rfl rfl rfl rfl rfl rfl rfl | refine keeps_len ?_ id id id id id id id | intro _

theorem State.msSinceRun_keeps {z : State} (s : State) (hz : z.Keeps s) : z.Keeps (State.msSinceRun s).2 := by
  unfold State.msSinceRun
  repeat' first
    | with_reducible assumption | with_reducible apply State.draw_keeps | with_reducible apply keeps_ite | (with_reducible exact fun k => k)
    | (intro _; with_reducible assumption) | dsimp only | split | refine keeps_len ?_ id id id id id id id
    | exact keeps_mk ‹_› rfl rfl rfl rfl rfl rfl rfl | intro _

theorem State.emitC_keeps {z : State} (s : State) (block code colour : Nat) (p : List (Nat × Nat)) (hz : z.Keeps s) :
    z.Keeps (State.emitC s block code colour p) := by
  unfold State.emitC
  repeat' first
    | with_reducible assumption | with_reducible apply keeps_ite | (with_reducible exact fun k => k) | (intro _; with_reducible assumption)
    | dsimp only | split | exact keeps_mk ‹_› rfl rfl rfl rfl rfl rfl rfl | refine keeps_len ?_ id id id id id id id | intro _

theorem State.emit_keeps {z : State} (s : State) (block code : Nat) (p : List (Nat × Nat)) (hz : z.Keeps s) :
    z.Keeps (State.emit s block code p) := by
  unfold State.emit
  repeat' first
    | with_reducible assumption | with_reducible apply State.emitC_keeps | with_reducible apply keeps_ite | (with_reducible exact fun k => k)
    | (intro _; with_reducible assumption) | dsimp only | split | intro _

theorem State.overrun_keeps {z : State} (s : State) (x : Nat) (hz : z.Keeps s) : z.Keeps (State.overrun s x) := by
  unfold State.overrun
  repeat' first
    | with_reducible assumption | with_reducible apply State.incSatF_keeps | with_reducible apply State.putBitF_keeps
    | with_reducible apply keeps_ite | (with_reducible exact fun k => k) | (intro _; with_reducible assumption) | dsimp only | split | intro _

theorem State.crossing_keeps {z : State} (s : State) (x src : Nat) (hz : z.Keeps s) : z.Keeps (State.crossing s x src).2 := by
  unfold State.crossing
  repeat' first
    | with_reducible assumption | with_reducible apply State.overrun_keeps | with_reducible apply keeps_ite | (with_reducible exact fun k => k)
    | (intro _; with_reducible assumption) | dsimp only | split | refine keeps_len ?_ id id id id id id id
    | exact keeps_mk ‹_› rfl rfl rfl rfl rfl rfl rfl | intro _

theorem State.fireOn_keeps {z : State} (s : State) (x n : Nat) (f : State → State) (hz : z.Keeps s) (hf : ∀ t, z.Keeps t → z.Keeps (f t)) :
    z.Keeps (State.fireOn s x n f) := keeps_ite (fun _ => State.crossing_keeps _ _ _ hz) fun _ => hf _ (State.crossing_keeps _ _ _ hz)

theorem State.cross_keeps {z : State} (s : State) (x src : Nat) (hz : z.Keeps s) : z.Keeps (State.cross s x src) := by
  unfold State.cross
  repeat' first
    | with_reducible assumption | with_reducible apply State.crossing_keeps | with_reducible apply keeps_ite | (with_reducible exact fun k => k)
    | (intro _; with_reducible assumption) | dsimp only | split | intro _

theorem State.emitX_keeps {z : State} (s : State) (x src block code colour : Nat) (p : List (Nat × Nat)) (hz : z.Keeps s) :
    z.Keeps (State.emitX s x src block code colour p) := by
  unfold State.emitX
  repeat' first
    | with_reducible assumption | with_reducible apply State.overrun_keeps | with_reducible apply keeps_ite | (with_reducible exact fun k => k)
    | (intro _; with_reducible assumption) | dsimp only | split | refine keeps_len ?_ id id id id id id id
    | exact keeps_mk ‹_› rfl rfl rfl rfl rfl rfl rfl | intro _

theorem State.setDisc_keeps {z : State} (s : State) (hz : z.Keeps s) : z.Keeps (State.setDisc s) := by
  unfold State.setDisc
  repeat' first
    | with_reducible assumption | with_reducible apply keeps_ite | (with_reducible exact fun k => k) | (intro _; with_reducible assumption)
    | dsimp only | split | exact keeps_mk ‹_› rfl rfl rfl rfl rfl rfl rfl | refine keeps_len ?_ id id id id id id id | intro _

theorem State.frameDone_keeps {z : State} (s : State) (f : Option Nat) (h : z.Keeps s) : z.Keeps (State.frameDone s f) := by
  unfold State.frameDone
  split
  · exact h
  · exact keeps_len h id id (fun k => Nat.le_trans (List.length_filter_le _ _) (by simpa using k)) id id id id

theorem State.frameHold_keeps {z : State} (s : State) (f : Option Nat) (hz : z.Keeps s) : z.Keeps (State.frameHold s f) := by
  unfold State.frameHold
  repeat' first
    | with_reducible assumption | with_reducible apply keeps_ite | (with_reducible exact fun k => k) | (intro _; with_reducible assumption)
    | dsimp only | split | with_reducible apply keeps_len | exact fun k => k | intro _
  all_goals first | exact ‹_› | exact Nat.zero_le _ | exact List.Pairwise.nil | exact Nat.le_trans (List.length_filter_le _ _) ‹_› | exact Nat.le_trans (takeFirst_length ‹_›) ‹_› | (simp only [List.length_append, List.length_take, List.length_drop, List.length_map, List.length_singleton, State.adcUsed] at *; omega) | (simp_all only [List.length_cons, List.length_append, List.length_take, List.length_drop]; omega)

theorem State.refreshDom_keeps {z : State} (s : State) (d : Nat) (hz : z.Keeps s) : z.Keeps (State.refreshDom s d) := by
  unfold State.refreshDom
  repeat' first
    | with_reducible assumption | with_reducible apply State.put_keeps | with_reducible apply State.setDom_keeps | with_reducible apply keeps_ite
    | (with_reducible exact fun k => k) | (intro _; with_reducible assumption) | dsimp only | split | refine keeps_len ?_ id id id id id id id
    | exact keeps_mk ‹_› rfl rfl rfl rfl rfl rfl rfl | intro _

theorem State.refreshRaw_keeps {z : State} (s : State) (hz : z.Keeps s) : z.Keeps (State.refreshRaw s) := by
  unfold State.refreshRaw
  repeat' first
    | with_reducible assumption | with_reducible apply forEach_keeps | with_reducible apply State.refreshDom_keeps
    | with_reducible apply forEach_keeps | with_reducible apply keeps_ite | (with_reducible exact fun k => k)
    | (intro _; with_reducible assumption) | dsimp only | split | intro _

theorem State.disarm_keeps {z : State} (s : State) (hz : z.Keeps s) : z.Keeps (State.disarm s) := by
  unfold State.disarm
  repeat' first
    | with_reducible assumption | with_reducible apply keeps_ite | (with_reducible exact fun k => k) | (intro _; with_reducible assumption)
    | dsimp only | split | exact keeps_mk ‹_› rfl rfl rfl rfl rfl rfl rfl | refine keeps_len ?_ id id id id id id id | intro _

theorem State.assertHostRst_keeps {z : State} (s : State) (hz : z.Keeps s) : z.Keeps (State.assertHostRst s) := by
  unfold State.assertHostRst
  repeat' first
    | with_reducible assumption | with_reducible apply State.disarm_keeps | with_reducible apply keeps_ite | (with_reducible exact fun k => k)
    | (intro _; with_reducible assumption) | dsimp only | split | refine keeps_len ?_ id id id id id id id
    | exact keeps_mk ‹_› rfl rfl rfl rfl rfl rfl rfl | intro _

theorem State.guardEnd_keeps {z : State} (s : State) (g r colour : Nat) (hz : z.Keeps s) : z.Keeps (State.guardEnd s g r colour) := by
  unfold State.guardEnd
  repeat' first
    | with_reducible assumption | with_reducible apply State.set_keeps | with_reducible apply State.emitC_keeps | with_reducible apply keeps_ite
    | (with_reducible exact fun k => k) | (intro _; with_reducible assumption) | dsimp only | split | refine keeps_len ?_ id id id id id id id
    | exact keeps_mk ‹_› rfl rfl rfl rfl rfl rfl rfl | intro _

theorem State.guardsEnd_keeps {z : State} (s : State) (r colour : Nat) (hz : z.Keeps s) : z.Keeps (State.guardsEnd s r colour) := by
  unfold State.guardsEnd
  repeat' first
    | with_reducible assumption | with_reducible apply State.guardEnd_keeps | with_reducible apply keeps_ite | (with_reducible exact fun k => k)
    | (intro _; with_reducible assumption) | dsimp only | split | intro _

theorem State.tileOn_keeps {z : State} (s : State) (t : Nat) (hz : z.Keeps s) : z.Keeps (State.tileOn s t) := by
  unfold State.tileOn
  repeat' first
    | with_reducible assumption | with_reducible apply State.set_keeps | with_reducible apply keeps_ite | (with_reducible exact fun k => k)
    | (intro _; with_reducible assumption) | dsimp only | split | intro _

theorem State.tileOff_keeps {z : State} (s : State) (t : Nat) (hz : z.Keeps s) : z.Keeps (State.tileOff s t) := by
  unfold State.tileOff
  repeat' first
    | with_reducible assumption | with_reducible apply State.set_keeps | with_reducible apply keeps_ite | (with_reducible exact fun k => k)
    | (intro _; with_reducible assumption) | dsimp only | split | intro _

theorem State.tilesOff_keeps {z : State} (s : State) (u : Nat) (hz : z.Keeps s) : z.Keeps (State.tilesOff s u) := by
  unfold State.tilesOff
  repeat' first
    | with_reducible assumption | with_reducible apply forEach_keeps | with_reducible apply State.tileOff_keeps
    | with_reducible apply forEach_keeps | with_reducible apply keeps_ite | (with_reducible exact fun k => k)
    | (intro _; with_reducible assumption) | dsimp only | split | intro _

theorem State.antEnd_keeps {z : State} (s : State) (n : Nat) (hz : z.Keeps s) : z.Keeps (State.antEnd s n) := by
  unfold State.antEnd
  repeat' first
    | with_reducible assumption | with_reducible apply State.set_keeps | with_reducible apply State.setStk_keeps | with_reducible apply keeps_ite
    | (with_reducible exact fun k => k) | (intro _; with_reducible assumption) | dsimp only | split | refine keeps_len ?_ id id id id id id id
    | exact keeps_mk ‹_› rfl rfl rfl rfl rfl rfl rfl | intro _

theorem State.stackPgOff_keeps {z : State} (s : State) (n : Nat) (lost : Bool) (hz : z.Keeps s) : z.Keeps (State.stackPgOff s n lost) := by
  unfold State.stackPgOff
  repeat' first
    | with_reducible assumption | with_reducible apply State.set_keeps | with_reducible apply State.refreshRaw_keeps
    | with_reducible apply State.antEnd_keeps | with_reducible apply keeps_ite | (with_reducible exact fun k => k)
    | (intro _; with_reducible assumption) | dsimp only | split | intro _

theorem State.shedRest_keeps {z : State} (s : State) (n : Nat) (hz : z.Keeps s) : z.Keeps (State.shedRest s n) := by
  unfold State.shedRest
  repeat' first
    | with_reducible assumption | with_reducible apply State.set_keeps | with_reducible apply State.due_keeps
    | with_reducible apply State.setStk_keeps | with_reducible apply keeps_ite | (with_reducible exact fun k => k)
    | (intro _; with_reducible assumption) | dsimp only | split | refine keeps_len ?_ id id id id id id id
    | exact keeps_mk ‹_› rfl rfl rfl rfl rfl rfl rfl | intro _

theorem State.stackKill_keeps {z : State} (s : State) (n : Nat) (hz : z.Keeps s) : z.Keeps (State.stackKill s n) := by
  unfold State.stackKill
  repeat' first
    | with_reducible assumption | with_reducible apply State.set_keeps | with_reducible apply State.setStk_keeps
    | with_reducible apply State.tilesOff_keeps | with_reducible apply State.antEnd_keeps | with_reducible apply State.stackPgOff_keeps
    | with_reducible apply State.shedRest_keeps | with_reducible apply keeps_ite | (with_reducible exact fun k => k)
    | (intro _; with_reducible assumption) | dsimp only | split | refine keeps_len ?_ id id id id id id id
    | exact keeps_mk ‹_› rfl rfl rfl rfl rfl rfl rfl | intro _

theorem State.ldoOff_keeps {z : State} (s : State) (n : Nat) (hz : z.Keeps s) : z.Keeps (State.ldoOff s n) := by
  unfold State.ldoOff
  repeat' first
    | with_reducible assumption | with_reducible apply State.set_keeps | with_reducible apply keeps_ite | (with_reducible exact fun k => k)
    | (intro _; with_reducible assumption) | dsimp only | split | refine keeps_len ?_ id id id id id id id
    | exact keeps_mk ‹_› rfl rfl rfl rfl rfl rfl rfl | intro _

theorem State.ldoClear_keeps {z : State} (s : State) (n : Nat) (hz : z.Keeps s) : z.Keeps (State.ldoClear s n) := by
  unfold State.ldoClear
  repeat' first
    | with_reducible assumption | with_reducible apply keeps_ite | (with_reducible exact fun k => k) | (intro _; with_reducible assumption)
    | dsimp only | split | exact keeps_mk ‹_› rfl rfl rfl rfl rfl rfl rfl | refine keeps_len ?_ id id id id id id id | intro _

theorem State.lswOff_keeps {z : State} (s : State) (n : Nat) (hz : z.Keeps s) : z.Keeps (State.lswOff s n) := by
  unfold State.lswOff
  repeat' first
    | with_reducible assumption | with_reducible apply State.set_keeps | with_reducible apply keeps_ite | (with_reducible exact fun k => k)
    | (intro _; with_reducible assumption) | dsimp only | split | intro _

theorem State.lswClear_keeps {z : State} (s : State) (n : Nat) (hz : z.Keeps s) : z.Keeps (State.lswClear s n) := by
  unfold State.lswClear
  repeat' first
    | with_reducible assumption | with_reducible apply keeps_ite | (with_reducible exact fun k => k) | (intro _; with_reducible assumption)
    | dsimp only | split | exact keeps_mk ‹_› rfl rfl rfl rfl rfl rfl rfl | refine keeps_len ?_ id id id id id id id | intro _

theorem State.setDomState_keeps {z : State} (s : State) (d : Nat) (x : DomState) (hz : z.Keeps s) : z.Keeps (State.setDomState s d x) := by
  unfold State.setDomState
  repeat' first
    | with_reducible assumption | with_reducible apply State.set_keeps | with_reducible apply State.setDom_keeps | with_reducible apply keeps_ite
    | (with_reducible exact fun k => k) | (intro _; with_reducible assumption) | dsimp only | split | refine keeps_len ?_ id id id id id id id
    | exact keeps_mk ‹_› rfl rfl rfl rfl rfl rfl rfl | intro _

theorem State.driveEnables_keeps {z : State} (s : State) (d : Nat) (b : Bool) (hz : z.Keeps s) : z.Keeps (State.driveEnables s d b) := by
  unfold State.driveEnables
  repeat' first
    | with_reducible assumption | with_reducible apply forEach_keeps | with_reducible apply forEach_keeps | with_reducible apply keeps_ite
    | (with_reducible exact fun k => k) | (intro _; with_reducible assumption) | dsimp only | split | refine keeps_len ?_ id id id id id id id
    | exact keeps_mk ‹_› rfl rfl rfl rfl rfl rfl rfl | intro _

theorem State.domKill_keeps {z : State} (s : State) (d : Nat) (hz : z.Keeps s) : z.Keeps (State.domKill s d) := by
  unfold State.domKill
  repeat' first
    | with_reducible assumption | with_reducible apply State.putBitF_keeps | with_reducible apply State.setDomState_keeps
    | with_reducible apply State.driveEnables_keeps | with_reducible apply keeps_ite | (with_reducible exact fun k => k)
    | (intro _; with_reducible assumption) | dsimp only | split | intro _

theorem State.outputsOff_keeps {z : State} (s : State) (r colour : Nat) (hz : z.Keeps s) : z.Keeps (State.outputsOff s r colour) := by
  unfold State.outputsOff
  repeat' first
    | with_reducible assumption | with_reducible apply forEach_keeps | with_reducible apply State.refreshRaw_keeps
    | with_reducible apply State.guardsEnd_keeps | with_reducible apply State.tileOff_keeps | with_reducible apply State.stackKill_keeps
    | with_reducible apply State.ldoOff_keeps | with_reducible apply State.ldoClear_keeps | with_reducible apply State.lswOff_keeps
    | with_reducible apply State.lswClear_keeps | with_reducible apply State.domKill_keeps | with_reducible apply forEach_keeps
    | with_reducible apply keeps_ite | (with_reducible exact fun k => k) | (intro _; with_reducible assumption) | dsimp only | split | intro _

theorem State.setGg_keeps {z : State} (s : State) (g : Gauge) (hz : z.Keeps s) : z.Keeps (State.setGg s g) := by
  unfold State.setGg
  repeat' first
    | with_reducible assumption | with_reducible apply keeps_ite | (with_reducible exact fun k => k) | (intro _; with_reducible assumption)
    | dsimp only | split | exact keeps_mk ‹_› rfl rfl rfl rfl rfl rfl rfl | refine keeps_len ?_ id id id id id id id | intro _

theorem State.captureChanged_keeps {z : State} (s : State) (hz : z.Keeps s) : z.Keeps (State.captureChanged s) := by
  unfold State.captureChanged
  repeat' first
    | with_reducible assumption | with_reducible apply State.setGg_keeps | with_reducible apply keeps_ite | (with_reducible exact fun k => k)
    | (intro _; with_reducible assumption) | dsimp only | split | refine keeps_len ?_ id id id id id id id
    | exact keeps_mk ‹_› rfl rfl rfl rfl rfl rfl rfl | intro _

theorem State.setPp_keeps {z : State} (s : State) (p : Pp) (hz : z.Keeps s) : z.Keeps (State.setPp s p) := by
  unfold State.setPp
  repeat' first
    | with_reducible assumption | with_reducible apply keeps_ite | (with_reducible exact fun k => k) | (intro _; with_reducible assumption)
    | dsimp only | split | exact keeps_mk ‹_› rfl rfl rfl rfl rfl rfl rfl | refine keeps_len ?_ id id id id id id id | intro _

theorem State.setChg_keeps {z : State} (s : State) (c : Chg) (hz : z.Keeps s) : z.Keeps (State.setChg s c) := by
  unfold State.setChg
  repeat' first
    | with_reducible assumption | with_reducible apply keeps_ite | (with_reducible exact fun k => k) | (intro _; with_reducible assumption)
    | dsimp only | split | exact keeps_mk ‹_› rfl rfl rfl rfl rfl rfl rfl | refine keeps_len ?_ id id id id id id id | intro _

theorem State.driveCode_keeps {z : State} (s : State) (c : Nat) (b : Bool) (hz : z.Keeps s) : z.Keeps (State.driveCode s c b) := by
  unfold State.driveCode
  repeat' first
    | with_reducible assumption | with_reducible apply foldl_keeps | with_reducible apply keeps_ite | (with_reducible exact fun k => k)
    | (intro _; with_reducible assumption) | dsimp only | split | exact keeps_mk ‹_› rfl rfl rfl rfl rfl rfl rfl
    | refine keeps_len ?_ id id id id id id id | intro _

theorem State.chgTiles_keeps {z : State} (s : State) (hz : z.Keeps s) : z.Keeps (State.chgTiles s) := by
  unfold State.chgTiles
  repeat' first
    | with_reducible assumption | with_reducible apply State.set_keeps | with_reducible apply forEach_keeps
    | with_reducible apply State.tileOn_keeps | with_reducible apply State.tileOff_keeps | with_reducible apply State.captureChanged_keeps
    | with_reducible apply forEach_keeps | with_reducible apply keeps_ite | (with_reducible exact fun k => k)
    | (intro _; with_reducible assumption) | dsimp only | split | refine keeps_len ?_ id id id id id id id
    | exact keeps_mk ‹_› rfl rfl rfl rfl rfl rfl rfl | intro _

theorem State.chgPin_keeps {z : State} (s : State) (hz : z.Keeps s) : z.Keeps (State.chgPin s) := by
  unfold State.chgPin
  repeat' first
    | with_reducible assumption | with_reducible apply State.driveCode_keeps | with_reducible apply keeps_ite | (with_reducible exact fun k => k)
    | (intro _; with_reducible assumption) | dsimp only | split | intro _

theorem State.chgTo_keeps {z : State} (s : State) (new : Nat) (hz : z.Keeps s) : z.Keeps (State.chgTo s new) := by
  unfold State.chgTo
  repeat' first
    | with_reducible assumption | with_reducible apply State.set_keeps | with_reducible apply State.emit_keeps
    | with_reducible apply State.setChg_keeps | with_reducible apply State.chgTiles_keeps | with_reducible apply State.chgPin_keeps
    | with_reducible apply keeps_ite | (with_reducible exact fun k => k) | (intro _; with_reducible assumption) | dsimp only | split
    | refine keeps_len ?_ id id id id id id id | exact keeps_mk ‹_› rfl rfl rfl rfl rfl rfl rfl | intro _

theorem State.chgCheck_keeps {z : State} (s : State) (hz : z.Keeps s) : z.Keeps (State.chgCheck s) := by
  unfold State.chgCheck
  repeat' first
    | with_reducible assumption | with_reducible apply State.setChg_keeps | with_reducible apply State.chgTo_keeps
    | with_reducible apply keeps_ite | (with_reducible exact fun k => k) | (intro _; with_reducible assumption) | dsimp only | split
    | refine keeps_len ?_ id id id id id id id | exact keeps_mk ‹_› rfl rfl rfl rfl rfl rfl rfl | intro _

theorem State.chgRow_keeps {z : State} (s : State) (st : Nat) (f : State → State) (hz : z.Keeps s) (hf : ∀ t, z.Keeps t → z.Keeps (f t)) :
    z.Keeps (State.chgRow s st f) := keeps_ite (fun _ => hf _ (State.chgCheck_keeps _ hz)) fun _ => State.chgCheck_keeps _ hz

theorem State.commitBytes_keeps {z : State} (s : State) (kind : Nat) (body : List Byte) (h : z.Keeps s) :
    z.Keeps (State.commitBytes s kind body) := by
  unfold State.commitBytes
  exact keeps_nv h fun w => ⟨writeMem_canon _ _ _ _ w.1, w.2⟩

theorem State.commitBytes_jnl (s : State) (kind : Nat) (body : List Byte) : (s.commitBytes kind body).jnl = s.jnl := by
  unfold State.commitBytes
  dsimp only

theorem State.setOtpWord_keeps {z : State} (s : State) (w : Nat) (x : OtpWord) (h : z.Keeps s) : z.Keeps (State.setOtpWord s w x) :=
  keeps_nv h fun w => w

theorem State.otpTorn_keeps {z : State} (s : State) (w d : Nat) (hz : z.Keeps s) : z.Keeps (State.otpTorn s w d) := by
  unfold State.otpTorn
  repeat' first
    | with_reducible assumption | with_reducible apply State.draw_keeps | with_reducible apply State.setOtpWord_keeps
    | with_reducible apply keeps_ite | (with_reducible exact fun k => k) | (intro _; with_reducible assumption) | dsimp only | split | intro _

theorem State.thmLimit_keeps {z : State} (s : State) (hz : z.Keeps s) : z.Keeps (State.thmLimit s) := by
  unfold State.thmLimit
  repeat' first
    | with_reducible assumption | with_reducible apply State.set_keeps | with_reducible apply keeps_ite | (with_reducible exact fun k => k)
    | (intro _; with_reducible assumption) | dsimp only | split | intro _

theorem State.otpShadow_keeps {z : State} (s : State) (hz : z.Keeps s) : z.Keeps (State.otpShadow s) := by
  unfold State.otpShadow
  repeat' first
    | with_reducible assumption | with_reducible apply State.set_keeps | with_reducible apply State.put_keeps
    | with_reducible apply forEach_keeps | with_reducible apply State.thmLimit_keeps | with_reducible apply forEach_keeps
    | with_reducible apply keeps_ite | (with_reducible exact fun k => k) | (intro _; with_reducible assumption) | dsimp only | split
    | refine keeps_len ?_ id id id id id id id | exact keeps_mk ‹_› rfl rfl rfl rfl rfl rfl rfl | intro _

theorem State.otpOwed_keeps {z : State} (s : State) (hz : z.Keeps s) : z.Keeps (State.otpOwed s) := by
  unfold State.otpOwed
  repeat' first
    | with_reducible assumption | with_reducible apply State.emit_keeps | with_reducible apply keeps_ite | (with_reducible exact fun k => k)
    | (intro _; with_reducible assumption) | dsimp only | split | refine keeps_len ?_ id id id id id id id
    | exact keeps_mk ‹_› rfl rfl rfl rfl rfl rfl rfl | intro _

theorem State.enterBoot_keeps {z : State} (s : State) (hz : z.Keeps s) : z.Keeps (State.enterBoot s) := by
  unfold State.enterBoot
  repeat' first
    | with_reducible assumption | with_reducible apply State.put_keeps | with_reducible apply State.otpShadow_keeps
    | with_reducible apply State.otpOwed_keeps | with_reducible apply keeps_ite | (with_reducible exact fun k => k)
    | (intro _; with_reducible assumption) | dsimp only | split | refine keeps_len ?_ id id id id id id id
    | exact keeps_mk ‹_› rfl rfl rfl rfl rfl rfl rfl | intro _

theorem State.jnlFlush_keeps {z : State} (s : State) (h : z.Keeps s) : z.Keeps (State.jnlFlush s) := by
  unfold State.jnlFlush
  split
  · refine keeps_len (State.commitBytes_keeps s _ _ h) id (fun k => ?_) id id id id id
    rw [State.commitBytes_jnl] at k
    have e := ‹s.jnl.queue = _›
    rw [e, List.length_cons] at k
    exact Nat.le_of_succ_le k
  · exact h

theorem State.updWrite_keeps {z : State} (s : State) (ofs k : Nat) (h : z.Keeps s) : z.Keeps (State.updWrite s ofs k) := by
  unfold State.updWrite
  exact keeps_nv h fun w => ⟨w.1, writeMem_canon _ _ _ _ w.2⟩

theorem State.updErase_keeps {z : State} (s : State) (k : Nat) (h : z.Keeps s) : z.Keeps (State.updErase s k) := by
  unfold State.updErase
  exact keeps_nv h fun w => ⟨w.1, filter_canon _ _ w.2⟩

theorem State.updTear_keeps {z : State} (s : State) (hz : z.Keeps s) : z.Keeps (State.updTear s) := by
  unfold State.updTear
  repeat' first
    | with_reducible assumption | with_reducible apply State.draw_keeps | with_reducible apply State.updWrite_keeps
    | with_reducible apply State.updErase_keeps | with_reducible apply keeps_ite | (with_reducible exact fun k => k)
    | (intro _; with_reducible assumption) | dsimp only | split | refine keeps_len ?_ id id id id id id id
    | exact keeps_mk ‹_› rfl rfl rfl rfl rfl rfl rfl | intro _

theorem State.latchCounts_keeps {z : State} (s : State) (hz : z.Keeps s) : z.Keeps (State.latchCounts s) := by
  unfold State.latchCounts
  repeat' first
    | with_reducible assumption | with_reducible apply keeps_ite | (with_reducible exact fun k => k) | (intro _; with_reducible assumption)
    | dsimp only | split | exact keeps_mk ‹_› rfl rfl rfl rfl rfl rfl rfl | refine keeps_len ?_ id id id id id id id | intro _

theorem State.resetDomains_keeps {z : State} (s : State) (h : z.Keeps s) : z.Keeps (State.resetDomains s) := by
  unfold State.resetDomains
  refine ⟨h.queue, h.memory, h.clock, fun c => ?_⟩
  have k := h.credits c
  exact ⟨Nat.zero_le _, Nat.zero_le _, List.Pairwise.nil, Nat.zero_le _, Nat.zero_le _, Nat.zero_le _, Nat.zero_le _⟩

theorem State.enterHibernate_keeps {z : State} (s : State) (hz : z.Keeps s) : z.Keeps (State.enterHibernate s) := by
  unfold State.enterHibernate
  repeat' first
    | with_reducible assumption | with_reducible apply State.assertHostRst_keeps | with_reducible apply State.outputsOff_keeps
    | with_reducible apply State.jnlFlush_keeps | with_reducible apply State.updTear_keeps | with_reducible apply State.latchCounts_keeps
    | with_reducible apply State.resetDomains_keeps | with_reducible apply keeps_ite | (with_reducible exact fun k => k)
    | (intro _; with_reducible assumption) | dsimp only | split | refine keeps_len ?_ id id id id id id id
    | exact keeps_mk ‹_› rfl rfl rfl rfl rfl rfl rfl | intro _

theorem State.markDown_keeps {z : State} (s : State) (hz : z.Keeps s) : z.Keeps (State.markDown s) := by
  unfold State.markDown
  repeat' first
    | with_reducible assumption | with_reducible apply keeps_ite | (with_reducible exact fun k => k) | (intro _; with_reducible assumption)
    | dsimp only | split | exact keeps_mk ‹_› rfl rfl rfl rfl rfl rfl rfl | refine keeps_len ?_ id id id id id id id | intro _

theorem State.resetFinish_keeps {z : State} (s : State) (hz : z.Keeps s) : z.Keeps (State.resetFinish s) := by
  unfold State.resetFinish
  repeat' first
    | with_reducible assumption | with_reducible apply State.assertHostRst_keeps | with_reducible apply State.outputsOff_keeps
    | with_reducible apply State.enterBoot_keeps | with_reducible apply State.jnlFlush_keeps | with_reducible apply State.updTear_keeps
    | with_reducible apply State.resetDomains_keeps | with_reducible apply keeps_ite | (with_reducible exact fun k => k)
    | (intro _; with_reducible assumption) | dsimp only | split | refine keeps_len ?_ id id id id id id id
    | exact keeps_mk ‹_› rfl rfl rfl rfl rfl rfl rfl | intro _

theorem State.storeAcc_keeps {z : State} (s : State) (a v : Nat) (c : Acc) (hz : z.Keeps s) : z.Keeps (State.storeAcc s a v c) := by
  unfold State.storeAcc
  repeat' first
    | with_reducible assumption | with_reducible apply State.set_keeps | with_reducible apply foldl_keeps | with_reducible apply keeps_ite
    | (with_reducible exact fun k => k) | (intro _; with_reducible assumption) | dsimp only | split | refine keeps_len ?_ id id id id id id id
    | exact keeps_mk ‹_› rfl rfl rfl rfl rfl rfl rfl | intro _

theorem State.clearW1c_keeps {z : State} (s : State) (a v : Nat) (hz : z.Keeps s) : z.Keeps (State.clearW1c s a v) := by
  unfold State.clearW1c
  repeat' first
    | with_reducible assumption | with_reducible apply State.set_keeps | with_reducible apply foldl_keeps | with_reducible apply keeps_ite
    | (with_reducible exact fun k => k) | (intro _; with_reducible assumption) | dsimp only | split | refine keeps_len ?_ id id id id id id id
    | exact keeps_mk ‹_› rfl rfl rfl rfl rfl rfl rfl | intro _

theorem State.setActive_keeps {z : State} (s : State) (src : Nat) (b : Bool) (hz : z.Keeps s) : z.Keeps (State.setActive s src b) := by
  unfold State.setActive
  repeat' first
    | with_reducible assumption | with_reducible apply State.putBitF_keeps | with_reducible apply keeps_ite | (with_reducible exact fun k => k)
    | (intro _; with_reducible assumption) | dsimp only | split | intro _

theorem State.jnlPush_keeps {z : State} (s : State) (c : Commit) (h : z.Keeps s) : z.Keeps (State.jnlPush s c) := by
  unfold State.jnlPush
  split
  · refine keeps_len h id (fun _ => ?_) id id id id id
    simp only [List.length_append, List.length_singleton]
    omega
  · exact State.set_keeps _ _ _ (keeps_mk h rfl rfl rfl rfl rfl rfl rfl)

theorem State.jnlPump_keeps {z : State} (s : State) (h : z.Keeps s) : z.Keeps (State.jnlPump s) := by
  unfold State.jnlPump
  refine keeps_len h id (fun _ => ?_) id id id id id
  simp only [List.length_append, List.length_take]
  omega

theorem State.logToken_keeps {z : State} (s : State) (hz : z.Keeps s) : z.Keeps (State.logToken s) := by
  unfold State.logToken
  repeat' first
    | with_reducible assumption | with_reducible apply State.jnlPush_keeps | with_reducible apply keeps_ite | (with_reducible exact fun k => k)
    | (intro _; with_reducible assumption) | dsimp only | split | intro _

theorem State.logTokensFill_keeps {z : State} (s : State) (hz : z.Keeps s) : z.Keeps (State.logTokensFill s) := by
  unfold State.logTokensFill
  repeat' first
    | with_reducible assumption | with_reducible apply forEach_keeps | with_reducible apply State.logToken_keeps
    | with_reducible apply forEach_keeps | with_reducible apply keeps_ite | (with_reducible exact fun k => k)
    | (intro _; with_reducible assumption) | dsimp only | split | intro _

theorem State.logFault_keeps {z : State} (s : State) (src colour detail : Nat) (inj floor : Bool) (hz : z.Keeps s) :
    z.Keeps (State.logFault s src colour detail inj floor) := by
  unfold State.logFault
  repeat' first
    | with_reducible assumption | with_reducible apply State.incSatF_keeps | with_reducible apply State.msSinceRun_keeps
    | with_reducible apply State.logToken_keeps | with_reducible apply keeps_ite | (with_reducible exact fun k => k)
    | (intro _; with_reducible assumption) | dsimp only | split | refine keeps_len ?_ id id id id id id id
    | exact keeps_mk ‹_› rfl rfl rfl rfl rfl rfl rfl | intro _

theorem State.dropNonces_keeps {z : State} (s : State) (hz : z.Keeps s) : z.Keeps (State.dropNonces s) := by
  unfold State.dropNonces
  repeat' first
    | with_reducible assumption | with_reducible apply State.set_keeps | with_reducible apply keeps_ite | (with_reducible exact fun k => k)
    | (intro _; with_reducible assumption) | dsimp only | split | refine keeps_len ?_ id id id id id id id
    | exact keeps_mk ‹_› rfl rfl rfl rfl rfl rfl rfl | intro _

theorem State.frmIdle_keeps {z : State} (s : State) (hz : z.Keeps s) : z.Keeps (State.frmIdle s) := by
  unfold State.frmIdle
  repeat' first
    | with_reducible assumption | with_reducible apply State.set_keeps | with_reducible apply keeps_ite | (with_reducible exact fun k => k)
    | (intro _; with_reducible assumption) | dsimp only | split | refine keeps_len ?_ id id id id id id id
    | exact keeps_mk ‹_› rfl rfl rfl rfl rfl rfl rfl | intro _

theorem State.secTry_keeps {z : State} (s : State) (hz : z.Keeps s) : z.Keeps (State.secTry s) := by
  unfold State.secTry
  repeat' first
    | with_reducible assumption | with_reducible apply State.frameDone_keeps | with_reducible apply keeps_ite | (with_reducible exact fun k => k)
    | (intro _; with_reducible assumption) | dsimp only | split | refine keeps_len ?_ id id id id id id id
    | exact keeps_mk ‹_› rfl rfl rfl rfl rfl rfl rfl | intro _

theorem State.updAbandon_keeps {z : State} (s : State) (hz : z.Keeps s) : z.Keeps (State.updAbandon s) := by
  unfold State.updAbandon
  repeat' first
    | with_reducible assumption | with_reducible apply State.set_keeps | with_reducible apply State.frameDone_keeps
    | with_reducible apply State.updTear_keeps | with_reducible apply State.secTry_keeps | with_reducible apply keeps_ite
    | (with_reducible exact fun k => k) | (intro _; with_reducible assumption) | dsimp only | split | refine keeps_len ?_ id id id id id id id
    | exact keeps_mk ‹_› rfl rfl rfl rfl rfl rfl rfl | intro _

theorem State.seqHalt_keeps {z : State} (s : State) (hz : z.Keeps s) : z.Keeps (State.seqHalt s) := by
  unfold State.seqHalt
  repeat' first
    | with_reducible assumption | with_reducible apply State.set_keeps | with_reducible apply keeps_ite | (with_reducible exact fun k => k)
    | (intro _; with_reducible assumption) | dsimp only | split | refine keeps_len ?_ id id id id id id id
    | exact keeps_mk ‹_› rfl rfl rfl rfl rfl rfl rfl | intro _

theorem State.seatsStart_keeps {z : State} (s : State) (hz : z.Keeps s) : z.Keeps (State.seatsStart s) := by
  unfold State.seatsStart
  repeat' first
    | with_reducible assumption | with_reducible apply State.set_keeps | with_reducible apply State.setSeat_keeps
    | with_reducible apply forEach_keeps | with_reducible apply forEach_keeps | with_reducible apply keeps_ite
    | (with_reducible exact fun k => k) | (intro _; with_reducible assumption) | dsimp only | split | refine keeps_len ?_ id id id id id id id
    | exact keeps_mk ‹_› rfl rfl rfl rfl rfl rfl rfl | intro _

theorem State.coreWdgRestart_keeps {z : State} (s : State) (hz : z.Keeps s) : z.Keeps (State.coreWdgRestart s) := by
  unfold State.coreWdgRestart
  repeat' first
    | with_reducible assumption | with_reducible apply keeps_ite | (with_reducible exact fun k => k) | (intro _; with_reducible assumption)
    | dsimp only | split | exact keeps_mk ‹_› rfl rfl rfl rfl rfl rfl rfl | refine keeps_len ?_ id id id id id id id | intro _

theorem State.evidencePush_keeps {z : State} (s : State) (hz : z.Keeps s) : z.Keeps (State.evidencePush s) := by
  unfold State.evidencePush
  repeat' first
    | with_reducible assumption | with_reducible apply State.jnlPush_keeps | with_reducible apply keeps_ite | (with_reducible exact fun k => k)
    | (intro _; with_reducible assumption) | dsimp only | split | refine keeps_len ?_ id id id id id id id
    | exact keeps_mk ‹_› rfl rfl rfl rfl rfl rfl rfl | intro _

theorem State.gaugeHand_keeps {z : State} (s : State) (hz : z.Keeps s) : z.Keeps (State.gaugeHand s) := by
  unfold State.gaugeHand
  repeat' first
    | with_reducible assumption | with_reducible apply State.setGg_keeps | with_reducible apply keeps_ite | (with_reducible exact fun k => k)
    | (intro _; with_reducible assumption) | dsimp only | split | refine keeps_len ?_ id id id id id id id
    | exact keeps_mk ‹_› rfl rfl rfl rfl rfl rfl rfl | intro _

theorem State.enterBlack_keeps {z : State} (s : State) (src : Nat) (h : z.Keeps s) : z.Keeps (State.enterBlack s src) := by
  unfold State.enterBlack
  extract_lets fromMode s1 xd xe s2 s3 xg s4
  have h1 : z.Keeps s1 := State.seqHalt_keeps _ (State.updAbandon_keeps _ (State.dropNonces_keeps _ (State.frmIdle_keeps _
    (State.assertHostRst_keeps _ (State.outputsOff_keeps _ _ _ h)))))
  have h2 : z.Keeps s2 := by
    clear_value s1
    exact keeps_mk h1 rfl rfl rfl rfl rfl rfl rfl
  have h3 : z.Keeps s3 := by
    clear_value s2
    exact State.chgCheck_keeps _ (State.coreWdgRestart_keeps _ (State.set_keeps _ _ _ (State.set_keeps _ _ _ (State.set_keeps _ _ _ h2))))
  have h4 : z.Keeps s4 := by
    clear_value s3
    exact keeps_ite (fun _ => State.gaugeHand_keeps _ (State.seatsStart_keeps _ h3))
      fun _ => keeps_ite (fun _ => State.setGg_keeps _ _ h3) fun _ => h3
  clear_value s4
  exact State.evidencePush_keeps _ (State.logTokensFill_keeps _ h4)

theorem State.react_keeps {z : State} (s : State) (src colour : Nat) (hz : z.Keeps s) : z.Keeps (State.react s src colour) := by
  unfold State.react
  repeat' first
    | with_reducible assumption | with_reducible apply State.guardsEnd_keeps | with_reducible apply State.enterBlack_keeps
    | with_reducible apply keeps_ite | (with_reducible exact fun k => k) | (intro _; with_reducible assumption) | dsimp only | split
    | refine keeps_len ?_ id id id id id id id | exact keeps_mk ‹_› rfl rfl rfl rfl rfl rfl rfl | intro _

theorem State.injDone_keeps {z : State} (s : State) (hz : z.Keeps s) : z.Keeps (State.injDone s) := by
  unfold State.injDone
  repeat' first
    | with_reducible assumption | with_reducible apply State.set_keeps | with_reducible apply keeps_ite | (with_reducible exact fun k => k)
    | (intro _; with_reducible assumption) | dsimp only | split | intro _

theorem State.raiseOne_keeps {z : State} (s : State) (src detail : Nat) (inj : Bool) (hz : z.Keeps s) :
    z.Keeps (State.raiseOne s src detail inj) := by
  unfold State.raiseOne
  repeat' first
    | with_reducible assumption | with_reducible apply State.set_keeps | with_reducible apply State.putBitF_keeps
    | with_reducible apply State.emitC_keeps | with_reducible apply State.resetFinish_keeps | with_reducible apply State.setActive_keeps
    | with_reducible apply State.logFault_keeps | with_reducible apply State.react_keeps | with_reducible apply keeps_ite
    | (with_reducible exact fun k => k) | (intro _; with_reducible assumption) | dsimp only | split | refine keeps_len ?_ id id id id id id id
    | exact keeps_mk ‹_› rfl rfl rfl rfl rfl rfl rfl | intro _

theorem State.raiseI_keeps {z : State} (s : State) (src detail : Nat) (inj : Bool) (hz : z.Keeps s) :
    z.Keeps (State.raiseI s src detail inj) := by
  unfold State.raiseI
  repeat' first
    | with_reducible assumption | with_reducible apply State.injDone_keeps | with_reducible apply State.raiseOne_keeps
    | with_reducible apply keeps_ite | (with_reducible exact fun k => k) | (intro _; with_reducible assumption) | dsimp only | split | intro _

theorem State.raise_keeps {z : State} (s : State) (src detail : Nat) (hz : z.Keeps s) : z.Keeps (State.raise s src detail) := by
  unfold State.raise
  repeat' first
    | with_reducible assumption | with_reducible apply State.raiseI_keeps | with_reducible apply keeps_ite | (with_reducible exact fun k => k)
    | (intro _; with_reducible assumption) | dsimp only | split | intro _

theorem State.raiseAll_keeps {z : State} (s : State) (l : List (Nat × Nat)) (hz : z.Keeps s) : z.Keeps (State.raiseAll s l) := by
  unfold State.raiseAll
  repeat' first
    | with_reducible assumption | with_reducible apply State.react_keeps | with_reducible apply State.raise_keeps
    | with_reducible apply foldl_keeps | with_reducible apply keeps_ite | (with_reducible exact fun k => k)
    | (intro _; with_reducible assumption) | dsimp only | split | refine keeps_len ?_ id id id id id id id
    | exact keeps_mk ‹_› rfl rfl rfl rfl rfl rfl rfl | intro _

theorem State.unraise_keeps {z : State} (s : State) (src : Nat) (hz : z.Keeps s) : z.Keeps (State.unraise s src) := by
  unfold State.unraise
  repeat' first
    | with_reducible assumption | with_reducible apply State.setActive_keeps | with_reducible apply keeps_ite | (with_reducible exact fun k => k)
    | (intro _; with_reducible assumption) | dsimp only | split | intro _

theorem State.checkerRaise_keeps {z : State} (s : State) (src detail : Nat) (hz : z.Keeps s) :
    z.Keeps (State.checkerRaise s src detail) := by
  unfold State.checkerRaise
  repeat' first
    | with_reducible assumption | with_reducible apply State.injDone_keeps | with_reducible apply State.raiseI_keeps
    | with_reducible apply State.raise_keeps | with_reducible apply keeps_ite | (with_reducible exact fun k => k)
    | (intro _; with_reducible assumption) | dsimp only | split | intro _

theorem State.injCheck_keeps {z : State} (s : State) (src a : Nat) (hz : z.Keeps s) : z.Keeps (State.injCheck s src a) := by
  unfold State.injCheck
  repeat' first
    | with_reducible assumption | with_reducible apply State.checkerRaise_keeps | with_reducible apply keeps_ite
    | (with_reducible exact fun k => k) | (intro _; with_reducible assumption) | dsimp only | split | intro _

theorem State.onBus_keeps {z : State} (s : State) (f : State → State) (hz : z.Keeps s) (hf : ∀ t, z.Keeps t → z.Keeps (f t)) :
    z.Keeps (State.onBus s f) := keeps_ite (fun _ => hf _ (State.injCheck_keeps _ _ _ hz)) fun _ => State.injCheck_keeps _ _ _ hz

theorem State.bus_keeps {z : State} (s : State) (a : Nat) (f : State → State) (hz : z.Keeps s) (hf : ∀ t, z.Keeps t → z.Keeps (f t)) :
    z.Keeps (State.bus s a f) := keeps_ite (fun _ => State.onBus_keeps _ _ hz hf) fun _ => hz

theorem State.jnlTake_keeps {z : State} (s : State) (c : Commit) (hz : z.Keeps s) : z.Keeps (State.jnlTake s c) := by
  unfold State.jnlTake
  repeat' first
    | with_reducible assumption | with_reducible apply State.jnlPush_keeps | with_reducible apply State.injCheck_keeps
    | with_reducible apply keeps_ite | (with_reducible exact fun k => k) | (intro _; with_reducible assumption) | dsimp only | split | intro _

end Sys2Proof.Machine
end

