-- ==== Sys2Proof/Laws/KeepsUnits.lean ====
section
/-! SUPPORT. `State.Keeps` of the converters, the event unit, the gauge, the two-wire controller, the stacks and the rails: one lemma for every operation that answers a state. -/

set_option linter.all false

namespace Sys2Proof.Machine

theorem State.pushTry_keeps {z : State} (s : State) (hz : z.Keeps s) : z.Keeps (State.pushTry s) := by
  unfold State.pushTry
  repeat' first
    | with_reducible assumption | with_reducible apply keeps_ite | (with_reducible exact fun k => k) | (intro _; with_reducible assumption)
    | dsimp only | split | exact keeps_mk ‹_› rfl rfl rfl rfl rfl rfl rfl | refine keeps_len ?_ id id id id id id id | intro _

theorem State.nvmTry_keeps {z : State} (s : State) (hz : z.Keeps s) : z.Keeps (State.nvmTry s) := by
  unfold State.nvmTry
  repeat' first
    | with_reducible assumption | with_reducible apply keeps_ite | (with_reducible exact fun k => k) | (intro _; with_reducible assumption)
    | dsimp only | split | exact keeps_mk ‹_› rfl rfl rfl rfl rfl rfl rfl | refine keeps_len ?_ id id id id id id id | intro _

theorem State.nvmFree_keeps {z : State} (s : State) (hz : z.Keeps s) : z.Keeps (State.nvmFree s) := by
  unfold State.nvmFree
  repeat' first
    | with_reducible assumption | with_reducible apply State.frameDone_keeps | with_reducible apply keeps_ite | (with_reducible exact fun k => k)
    | (intro _; with_reducible assumption) | dsimp only | split | refine keeps_len ?_ id id id id id id id
    | exact keeps_mk ‹_› rfl rfl rfl rfl rfl rfl rfl | intro _

theorem State.nvmRetry_keeps {z : State} (s : State) (hz : z.Keeps s) : z.Keeps (State.nvmRetry s) := by
  unfold State.nvmRetry
  repeat' first
    | with_reducible assumption | with_reducible apply State.nvmTry_keeps | with_reducible apply State.nvmFree_keeps
    | with_reducible apply keeps_ite | (with_reducible exact fun k => k) | (intro _; with_reducible assumption) | dsimp only | split | intro _

theorem State.gaugeCommit_keeps {z : State} (s : State) (r : Nat) (hz : z.Keeps s) : z.Keeps (State.gaugeCommit s r) := by
  unfold State.gaugeCommit
  repeat' first
    | with_reducible assumption | with_reducible apply State.emit_keeps | with_reducible apply State.jnlTake_keeps
    | with_reducible apply keeps_ite | (with_reducible exact fun k => k) | (intro _; with_reducible assumption) | dsimp only | split
    | refine keeps_len ?_ id id id id id id id | exact keeps_mk ‹_› rfl rfl rfl rfl rfl rfl rfl | intro _

theorem State.historyOf_keeps {z : State} (s : State) (code slot cause rollback fw setupId : Nat) (act : UpdAct) (hz : z.Keeps s) :
    z.Keeps (State.historyOf s code slot cause rollback fw setupId act) := by
  unfold State.historyOf
  repeat' first
    | with_reducible assumption | with_reducible apply State.jnlTake_keeps | with_reducible apply keeps_ite | (with_reducible exact fun k => k)
    | (intro _; with_reducible assumption) | dsimp only | split | intro _

theorem State.history_keeps {z : State} (s : State) (code slot cause : Nat) (act : UpdAct) (hz : z.Keeps s) :
    z.Keeps (State.history s code slot cause act) := by
  unfold State.history
  repeat' first
    | with_reducible assumption | with_reducible apply State.historyOf_keeps | with_reducible apply keeps_ite | (with_reducible exact fun k => k)
    | (intro _; with_reducible assumption) | dsimp only | split | intro _

theorem State.slotCommit_keeps {z : State} (s : State) (body : List Byte) (act : UpdAct) (hz : z.Keeps s) :
    z.Keeps (State.slotCommit s body act) := by
  unfold State.slotCommit
  repeat' first
    | with_reducible assumption | with_reducible apply State.jnlTake_keeps | with_reducible apply keeps_ite | (with_reducible exact fun k => k)
    | (intro _; with_reducible assumption) | dsimp only | split | intro _

theorem State.updFail_keeps {z : State} (s : State) (code cause : Nat) (hz : z.Keeps s) : z.Keeps (State.updFail s code cause) := by
  unfold State.updFail
  repeat' first
    | with_reducible assumption | with_reducible apply State.set_keeps | with_reducible apply State.frameDone_keeps
    | with_reducible apply State.history_keeps | with_reducible apply keeps_ite | (with_reducible exact fun k => k)
    | (intro _; with_reducible assumption) | dsimp only | split | refine keeps_len ?_ id id id id id id id
    | exact keeps_mk ‹_› rfl rfl rfl rfl rfl rfl rfl | intro _

theorem State.updStop_keeps {z : State} (s : State) (code : Nat) (hz : z.Keeps s) : z.Keeps (State.updStop s code) := by
  unfold State.updStop
  repeat' first
    | with_reducible assumption | with_reducible apply State.updFail_keeps | with_reducible apply optKeeps_getD | with_reducible apply keeps_ite
    | (with_reducible exact fun k => k) | (intro _; with_reducible assumption) | dsimp only | split | refine keeps_len ?_ id id id id id id id
    | exact keeps_mk ‹_› rfl rfl rfl rfl rfl rfl rfl | intro _

theorem State.satLog_keeps {z : State} (s : State) (sat cause misses st : Nat) (hz : z.Keeps s) :
    z.Keeps (State.satLog s sat cause misses st) := by
  unfold State.satLog
  repeat' first
    | with_reducible assumption | with_reducible apply State.msSinceRun_keeps | with_reducible apply State.jnlTake_keeps
    | with_reducible apply keeps_ite | (with_reducible exact fun k => k) | (intro _; with_reducible assumption) | dsimp only | split | intro _

theorem State.loseRecord_keeps {z : State} (s : State) (colour : Nat) (hz : z.Keeps s) : z.Keeps (State.loseRecord s colour) := by
  unfold State.loseRecord
  repeat' first
    | with_reducible assumption | with_reducible apply State.set_keeps | with_reducible apply State.incSatF_keeps
    | with_reducible apply keeps_ite | (with_reducible exact fun k => k) | (intro _; with_reducible assumption) | dsimp only | split
    | refine keeps_len ?_ id id id id id id id | exact keeps_mk ‹_› rfl rfl rfl rfl rfl rfl rfl | intro _

theorem State.takeIn_keeps {z : State} (s0 : State) (colour : Nat) (r : Rec) (hzs0 : z.Keeps s0) : z.Keeps (State.takeIn s0 colour r) := by
  unfold State.takeIn
  repeat' first
    | with_reducible assumption | with_reducible apply State.fillOverflow_keeps | with_reducible apply State.loseRecord_keeps
    | with_reducible apply keeps_ite | (with_reducible exact fun k => k) | (intro _; with_reducible assumption) | dsimp only | split
    | refine keeps_len ?_ id id id id id id id | exact keeps_mk ‹_› rfl rfl rfl rfl rfl rfl rfl | intro _

theorem execEventRequest_keeps {z : State} (s0 : State) (hzs0 : z.Keeps s0) : OutKeeps z (execEventRequest s0) := by
  unfold execEventRequest
  repeat' first
    | with_reducible assumption | with_reducible apply State.incSatF_keeps | with_reducible apply State.due_keeps
    | with_reducible apply State.takeIn_keeps | with_reducible apply outKeeps_next | with_reducible apply keeps_ite
    | (with_reducible exact fun k => k) | (intro _; with_reducible assumption) | dsimp only | split | refine keeps_len ?_ id id id id id id id
    | exact keeps_mk ‹_› rfl rfl rfl rfl rfl rfl rfl | intro _

theorem execRecordCommit_keeps {z : State} (s : State) (hz : z.Keeps s) : OutKeeps z (execRecordCommit s) := by
  unfold execRecordCommit
  repeat' first
    | with_reducible assumption | with_reducible apply State.set_keeps | with_reducible apply State.incWrapF_keeps
    | with_reducible apply State.fillOverflow_keeps | with_reducible apply State.cross_keeps | with_reducible apply State.pushTry_keeps
    | with_reducible apply outKeeps_next | with_reducible apply keeps_ite | (with_reducible exact fun k => k)
    | (intro _; with_reducible assumption) | dsimp only | split | with_reducible apply keeps_len | exact fun k => k | intro _
  all_goals first | exact ‹_› | exact Nat.zero_le _ | exact List.Pairwise.nil | exact Nat.le_trans (List.length_filter_le _ _) ‹_› | exact Nat.le_trans (takeFirst_length ‹_›) ‹_› | (simp only [List.length_append, List.length_take, List.length_drop, List.length_map, List.length_singleton, State.adcUsed] at *; omega) | (simp_all only [List.length_cons, List.length_append, List.length_take, List.length_drop]; omega)

theorem State.arm_keeps {z : State} (s : State) (hz : z.Keeps s) : z.Keeps (State.arm s) := by
  unfold State.arm
  repeat' first
    | with_reducible assumption | with_reducible apply State.set_keeps | with_reducible apply keeps_ite | (with_reducible exact fun k => k)
    | (intro _; with_reducible assumption) | dsimp only | split | refine keeps_len ?_ id id id id id id id
    | exact keeps_mk ‹_› rfl rfl rfl rfl rfl rfl rfl | intro _

theorem State.pushEnd_keeps {z : State} (s : State) (t : Nat) (h : z.Keeps s) : z.Keeps (State.pushEnd s t) := by
  unfold State.pushEnd
  split
  · exact h
  · rename_i r l e
    dsimp only
    have h1 : ∀ v : Evt, v.pb = l → z.Keeps ({ s.due (t + 162 * s.epPeriod5 / 5) with evt := v } : State) := fun v hv =>
      keeps_len (State.due_keeps _ _ h) (fun k => by rw [State.due_evt_pb, e, List.length_cons] at k; rw [hv]; omega) id id id id id id
    exact keeps_ite (fun _ => State.arm_keeps _ (State.incWrapF_keeps _ _ (h1 _ rfl))) fun _ => State.pushTry_keeps _ (State.incWrapF_keeps _ _ (h1 _ rfl))

theorem execPushDone_keeps {z : State} (s : State) (hz : z.Keeps s) : OutKeeps z (execPushDone s) := by
  unfold execPushDone
  repeat' first
    | with_reducible assumption | with_reducible apply State.pushTry_keeps | with_reducible apply State.pushEnd_keeps
    | with_reducible apply outKeeps_next | with_reducible apply keeps_ite | (with_reducible exact fun k => k)
    | (intro _; with_reducible assumption) | dsimp only | split | with_reducible apply keeps_len | exact fun k => k | intro _
  all_goals first | exact ‹_› | exact Nat.zero_le _ | exact List.Pairwise.nil | exact Nat.le_trans (List.length_filter_le _ _) ‹_› | exact Nat.le_trans (takeFirst_length ‹_›) ‹_› | (simp only [List.length_append, List.length_take, List.length_drop, List.length_map, List.length_singleton, State.adcUsed] at *; omega) | (simp_all only [List.length_cons, List.length_append, List.length_take, List.length_drop]; omega)

theorem State.consWrite_keeps {z : State} (s : State) (c : Nat) (hz : z.Keeps s) : z.Keeps (State.consWrite s c) := by
  unfold State.consWrite
  repeat' first
    | with_reducible assumption | with_reducible apply State.set_keeps | with_reducible apply State.setDisc_keeps
    | with_reducible apply keeps_ite | (with_reducible exact fun k => k) | (intro _; with_reducible assumption) | dsimp only | split
    | refine keeps_len ?_ id id id id id id id | exact keeps_mk ‹_› rfl rfl rfl rfl rfl rfl rfl | intro _

theorem execEvtConsWrite_keeps {z : State} (v : Word) (s : State) (hz : z.Keeps s) : OutKeeps z (execEvtConsWrite v s) := by
  unfold execEvtConsWrite
  repeat' first
    | with_reducible assumption | with_reducible apply State.bus_keeps | with_reducible apply State.consWrite_keeps
    | with_reducible apply outKeeps_next | with_reducible apply keeps_ite | (with_reducible exact fun k => k)
    | (intro _; with_reducible assumption) | dsimp only | split | intro _

theorem State.armKey_keeps {z : State} (s : State) (hz : z.Keeps s) : z.Keeps (State.armKey s) := by
  unfold State.armKey
  repeat' first
    | with_reducible assumption | with_reducible apply State.setDisc_keeps | with_reducible apply State.arm_keeps
    | with_reducible apply keeps_ite | (with_reducible exact fun k => k) | (intro _; with_reducible assumption) | dsimp only | split
    | refine keeps_len ?_ id id id id id id id | exact keeps_mk ‹_› rfl rfl rfl rfl rfl rfl rfl | intro _

theorem execEvtArm_keeps {z : State} (s : State) (hz : z.Keeps s) : OutKeeps z (execEvtArm s) := by
  unfold execEvtArm
  repeat' first
    | with_reducible assumption | with_reducible apply State.bus_keeps | with_reducible apply State.armKey_keeps
    | with_reducible apply outKeeps_next | with_reducible apply keeps_ite | (with_reducible exact fun k => k)
    | (intro _; with_reducible assumption) | dsimp only | split | intro _

theorem execEvtDisarm_keeps {z : State} (s : State) (hz : z.Keeps s) : OutKeeps z (execEvtDisarm s) := by
  unfold execEvtDisarm
  repeat' first
    | with_reducible assumption | with_reducible apply State.disarm_keeps | with_reducible apply State.bus_keeps
    | with_reducible apply outKeeps_next | with_reducible apply keeps_ite | (with_reducible exact fun k => k)
    | (intro _; with_reducible assumption) | dsimp only | split | intro _

theorem State.maskWrite_keeps {z : State} (s : State) (m : Nat) (hz : z.Keeps s) : z.Keeps (State.maskWrite s m) := by
  unfold State.maskWrite
  repeat' first
    | with_reducible assumption | with_reducible apply State.set_keeps | with_reducible apply State.addSatF_keeps
    | with_reducible apply State.fillOverflow_keeps | with_reducible apply keeps_ite | (with_reducible exact fun k => k)
    | (intro _; with_reducible assumption) | dsimp only | split | refine keeps_len ?_ id id id id id id id
    | exact keeps_mk ‹_› rfl rfl rfl rfl rfl rfl rfl | intro _

theorem execEvtMaskWrite_keeps {z : State} (v : Word) (s : State) (hz : z.Keeps s) : OutKeeps z (execEvtMaskWrite v s) := by
  unfold execEvtMaskWrite
  repeat' first
    | with_reducible assumption | with_reducible apply State.bus_keeps | with_reducible apply State.maskWrite_keeps
    | with_reducible apply outKeeps_next | with_reducible apply keeps_ite | (with_reducible exact fun k => k)
    | (intro _; with_reducible assumption) | dsimp only | split | intro _

theorem State.emitLevel_keeps {z : State} (s : State) (k ack : Nat) (hz : z.Keeps s) : z.Keeps (State.emitLevel s k ack) := by
  unfold State.emitLevel
  repeat' first
    | with_reducible assumption | with_reducible apply State.emitC_keeps | with_reducible apply keeps_ite | (with_reducible exact fun k => k)
    | (intro _; with_reducible assumption) | dsimp only | split | intro _

theorem State.ackWrite_keeps {z : State} (s : State) (m : Nat) (hz : z.Keeps s) : z.Keeps (State.ackWrite s m) := by
  unfold State.ackWrite
  repeat' first
    | with_reducible assumption | with_reducible apply State.putBitF_keeps | with_reducible apply forEach_keeps
    | with_reducible apply State.emitLevel_keeps | with_reducible apply forEach_keeps | with_reducible apply keeps_ite
    | (with_reducible exact fun k => k) | (intro _; with_reducible assumption) | dsimp only | split | intro _

theorem execEvtAck_keeps {z : State} (v : Word) (s : State) (hz : z.Keeps s) : OutKeeps z (execEvtAck v s) := by
  unfold execEvtAck
  repeat' first
    | with_reducible assumption | with_reducible apply State.bus_keeps | with_reducible apply State.ackWrite_keeps
    | with_reducible apply outKeeps_next | with_reducible apply keeps_ite | (with_reducible exact fun k => k)
    | (intro _; with_reducible assumption) | dsimp only | split | intro _

theorem execEvtLevel_keeps {z : State} (k : Fin 8) (s : State) (hz : z.Keeps s) : OutKeeps z (execEvtLevel k s) := by
  unfold execEvtLevel
  repeat' first
    | with_reducible assumption | with_reducible apply State.putBitF_keeps | with_reducible apply State.emitLevel_keeps
    | with_reducible apply outKeeps_next | with_reducible apply keeps_ite | (with_reducible exact fun k => k)
    | (intro _; with_reducible assumption) | dsimp only | split | intro _

theorem State.clearLost_keeps {z : State} (s : State) (hz : z.Keeps s) : z.Keeps (State.clearLost s) := by
  unfold State.clearLost
  repeat' first
    | with_reducible assumption | with_reducible apply State.set_keeps | with_reducible apply keeps_ite | (with_reducible exact fun k => k)
    | (intro _; with_reducible assumption) | dsimp only | split | intro _

theorem State.clearMasked_keeps {z : State} (s : State) (hz : z.Keeps s) : z.Keeps (State.clearMasked s) := by
  unfold State.clearMasked
  repeat' first
    | with_reducible assumption | with_reducible apply State.set_keeps | with_reducible apply keeps_ite | (with_reducible exact fun k => k)
    | (intro _; with_reducible assumption) | dsimp only | split | intro _

theorem State.clearHlCnt_keeps {z : State} (s : State) (hz : z.Keeps s) : z.Keeps (State.clearHlCnt s) := by
  unfold State.clearHlCnt
  repeat' first
    | with_reducible assumption | with_reducible apply State.set_keeps | with_reducible apply keeps_ite | (with_reducible exact fun k => k)
    | (intro _; with_reducible assumption) | dsimp only | split | intro _

theorem execClearLost_keeps {z : State} (s : State) (hz : z.Keeps s) : OutKeeps z (execClearLost s) := by
  unfold execClearLost
  repeat' first
    | with_reducible assumption | with_reducible apply State.bus_keeps | with_reducible apply State.clearLost_keeps
    | with_reducible apply outKeeps_next | with_reducible apply keeps_ite | (with_reducible exact fun k => k)
    | (intro _; with_reducible assumption) | dsimp only | split | intro _

theorem execClearMasked_keeps {z : State} (s : State) (hz : z.Keeps s) : OutKeeps z (execClearMasked s) := by
  unfold execClearMasked
  repeat' first
    | with_reducible assumption | with_reducible apply State.bus_keeps | with_reducible apply State.clearMasked_keeps
    | with_reducible apply outKeeps_next | with_reducible apply keeps_ite | (with_reducible exact fun k => k)
    | (intro _; with_reducible assumption) | dsimp only | split | intro _

theorem execClearHlCnt_keeps {z : State} (s : State) (hz : z.Keeps s) : OutKeeps z (execClearHlCnt s) := by
  unfold execClearHlCnt
  repeat' first
    | with_reducible assumption | with_reducible apply State.bus_keeps | with_reducible apply State.clearHlCnt_keeps
    | with_reducible apply outKeeps_next | with_reducible apply keeps_ite | (with_reducible exact fun k => k)
    | (intro _; with_reducible assumption) | dsimp only | split | intro _

theorem execRingHoldoff_keeps {z : State} (s : State) (hz : z.Keeps s) : OutKeeps z (execRingHoldoff s) := by
  unfold execRingHoldoff
  repeat' first
    | with_reducible assumption | with_reducible apply State.due_keeps | with_reducible apply outKeeps_next | with_reducible apply keeps_ite
    | (with_reducible exact fun k => k) | (intro _; with_reducible assumption) | dsimp only | split | refine keeps_len ?_ id id id id id id id
    | exact keeps_mk ‹_› rfl rfl rfl rfl rfl rfl rfl | intro _

theorem State.lvlEnWrite_keeps {z : State} (s : State) (m : Nat) (hz : z.Keeps s) : z.Keeps (State.lvlEnWrite s m) := by
  unfold State.lvlEnWrite
  repeat' first
    | with_reducible assumption | with_reducible apply State.set_keeps | with_reducible apply keeps_ite | (with_reducible exact fun k => k)
    | (intro _; with_reducible assumption) | dsimp only | split | intro _

theorem State.ringCfgWrite_keeps {z : State} (s : State) (v : Nat) (hz : z.Keeps s) : z.Keeps (State.ringCfgWrite s v) := by
  unfold State.ringCfgWrite
  repeat' first
    | with_reducible assumption | with_reducible apply State.set_keeps | with_reducible apply State.setDisc_keeps
    | with_reducible apply keeps_ite | (with_reducible exact fun k => k) | (intro _; with_reducible assumption) | dsimp only | split | intro _

theorem State.evtBlank_keeps {z : State} (s : State) (hz : z.Keeps s) : z.Keeps (State.evtBlank s) := by
  unfold State.evtBlank
  repeat' first
    | with_reducible assumption | with_reducible apply keeps_ite | (with_reducible exact fun k => k) | (intro _; with_reducible assumption)
    | dsimp only | split | with_reducible apply keeps_len | exact fun k => k | intro _
  all_goals first | exact ‹_› | exact Nat.zero_le _ | exact List.Pairwise.nil | exact Nat.le_trans (List.length_filter_le _ _) ‹_› | exact Nat.le_trans (takeFirst_length ‹_›) ‹_› | (simp only [List.length_append, List.length_take, List.length_drop, List.length_map, List.length_singleton, State.adcUsed] at *; omega) | (simp_all only [List.length_cons, List.length_append, List.length_take, List.length_drop]; omega)

theorem State.answer_keeps {z : State} (s : State) (c : Status) (data : List Nat) (hz : z.Keeps s) : z.Keeps (State.answer s c data) := by
  unfold State.answer
  repeat' first
    | with_reducible assumption | with_reducible apply State.set_keeps | with_reducible apply keeps_ite | (with_reducible exact fun k => k)
    | (intro _; with_reducible assumption) | dsimp only | split | refine keeps_len ?_ id id id id id id id
    | exact keeps_mk ‹_› rfl rfl rfl rfl rfl rfl rfl | intro _

theorem State.onFrame_keeps {z : State} (s : State) (i : Nat) (f : Frame → Frame) (hz : z.Keeps s) : z.Keeps (State.onFrame s i f) := by
  unfold State.onFrame
  repeat' first
    | with_reducible assumption | with_reducible apply keeps_ite | (with_reducible exact fun k => k) | (intro _; with_reducible assumption)
    | dsimp only | split | with_reducible apply keeps_len | exact fun k => k | intro _
  all_goals first | exact ‹_› | exact Nat.zero_le _ | exact List.Pairwise.nil | exact Nat.le_trans (List.length_filter_le _ _) ‹_› | exact Nat.le_trans (takeFirst_length ‹_›) ‹_› | (simp only [List.length_append, List.length_take, List.length_drop, List.length_map, List.length_singleton, State.adcUsed] at *; omega) | (simp_all only [List.length_cons, List.length_append, List.length_take, List.length_drop]; omega)

theorem State.frameWait_keeps {z : State} (s : State) (f : Option Nat) (hz : z.Keeps s) : z.Keeps (State.frameWait s f) := by
  unfold State.frameWait
  repeat' first
    | with_reducible assumption | with_reducible apply State.onFrame_keeps | with_reducible apply keeps_ite | (with_reducible exact fun k => k)
    | (intro _; with_reducible assumption) | dsimp only | split | refine keeps_len ?_ id id id id id id id
    | exact keeps_mk ‹_› rfl rfl rfl rfl rfl rfl rfl | intro _

theorem State.frameAnswer_keeps {z : State} (s : State) (i : Nat) (c : Status) (hz : z.Keeps s) : z.Keeps (State.frameAnswer s i c) := by
  unfold State.frameAnswer
  repeat' first
    | with_reducible assumption | with_reducible apply State.answer_keeps | with_reducible apply State.onFrame_keeps
    | with_reducible apply keeps_ite | (with_reducible exact fun k => k) | (intro _; with_reducible assumption) | dsimp only | split
    | refine keeps_len ?_ id id id id id id id | exact keeps_mk ‹_› rfl rfl rfl rfl rfl rfl rfl | intro _

theorem State.frameEnter_keeps {z : State} (s : State) (f : Option Nat) (hz : z.Keeps s) : z.Keeps (State.frameEnter s f) := by
  unfold State.frameEnter
  repeat' first
    | with_reducible assumption | with_reducible apply State.answer_keeps | with_reducible apply State.onFrame_keeps
    | with_reducible apply keeps_ite | (with_reducible exact fun k => k) | (intro _; with_reducible assumption) | dsimp only | split
    | refine keeps_len ?_ id id id id id id id | exact keeps_mk ‹_› rfl rfl rfl rfl rfl rfl rfl | intro _

theorem State.twcPush_keeps {z : State} (s : State) (t : Tx) (hz : z.Keeps s) : z.Keeps (State.twcPush s t) := by
  unfold State.twcPush
  repeat' first
    | with_reducible assumption | with_reducible apply State.set_keeps | with_reducible apply State.injCheck_keeps
    | with_reducible apply keeps_ite | (with_reducible exact fun k => k) | (intro _; with_reducible assumption) | dsimp only | split
    | with_reducible apply keeps_len | exact fun k => k | intro _
  all_goals first | exact ‹_› | exact Nat.zero_le _ | exact List.Pairwise.nil | exact Nat.le_trans (List.length_filter_le _ _) ‹_› | exact Nat.le_trans (takeFirst_length ‹_›) ‹_› | (simp only [List.length_append, List.length_take, List.length_drop, List.length_map, List.length_singleton, State.adcUsed] at *; omega) | (simp_all only [List.length_cons, List.length_append, List.length_take, List.length_drop]; omega)

theorem State.twcPump_keeps {z : State} (s : State) (hz : z.Keeps s) : z.Keeps (State.twcPump s) := by
  unfold State.twcPump
  repeat' first
    | with_reducible assumption | with_reducible apply keeps_ite | (with_reducible exact fun k => k) | (intro _; with_reducible assumption)
    | dsimp only | split | with_reducible apply keeps_len | exact fun k => k | intro _
  all_goals first | exact ‹_› | exact Nat.zero_le _ | exact List.Pairwise.nil | exact Nat.le_trans (List.length_filter_le _ _) ‹_› | exact Nat.le_trans (takeFirst_length ‹_›) ‹_› | (simp only [List.length_append, List.length_take, List.length_drop, List.length_map, List.length_singleton, State.adcUsed] at *; omega) | (simp_all only [List.length_cons, List.length_append, List.length_take, List.length_drop]; omega)

theorem State.contactDiscard_keeps {z : State} (s : State) (k : Nat) (h : z.Keeps s) : z.Keeps (State.contactDiscard s k) := by
  unfold State.contactDiscard
  dsimp only
  refine State.twcPump_keeps _ (keeps_len h id id id id id (fun c => ?_) id)
  split
  · rename_i e
    rw [e, List.length_cons] at c
    exact Nat.le_trans (Nat.succ_le_succ (List.length_filter_le _ _)) c
  · exact Nat.le_trans (List.length_filter_le _ _) c

theorem State.contact_keeps {z : State} (s : State) (k : Nat) (hz : z.Keeps s) : z.Keeps (State.contact s k) := by
  unfold State.contact
  repeat' first
    | with_reducible assumption | with_reducible apply State.set_keeps | with_reducible apply State.twcPush_keeps
    | with_reducible apply foldl_keeps | with_reducible apply keeps_ite | (with_reducible exact fun k => k)
    | (intro _; with_reducible assumption) | dsimp only | split | refine keeps_len ?_ id id id id id id id
    | exact keeps_mk ‹_› rfl rfl rfl rfl rfl rfl rfl | intro _

theorem State.contactAll_keeps {z : State} (s : State) (d : Nat) (hz : z.Keeps s) : z.Keeps (State.contactAll s d) := by
  unfold State.contactAll
  repeat' first
    | with_reducible assumption | with_reducible apply forEach_keeps | with_reducible apply State.contact_keeps
    | with_reducible apply forEach_keeps | with_reducible apply keeps_ite | (with_reducible exact fun k => k)
    | (intro _; with_reducible assumption) | dsimp only | split | intro _

theorem State.contactsEnd_keeps {z : State} (s : State) (d : Nat) (hz : z.Keeps s) : z.Keeps (State.contactsEnd s d) := by
  unfold State.contactsEnd
  repeat' first
    | with_reducible assumption | with_reducible apply State.set_keeps | with_reducible apply forEach_keeps
    | with_reducible apply State.contactDiscard_keeps | with_reducible apply forEach_keeps | with_reducible apply keeps_ite
    | (with_reducible exact fun k => k) | (intro _; with_reducible assumption) | dsimp only | split | intro _

theorem State.setAdc_keeps {z : State} (s : State) (a : Adc) (h : z.Keeps s) (hq : s.adc.queue.length ≤ 12 → a.queue.length ≤ 12) :
    z.Keeps (State.setAdc s a) := keeps_len h id id id id id id hq

theorem State.markLate_keeps {z : State} (s : State) (hz : z.Keeps s) : z.Keeps (State.markLate s) := by
  unfold State.markLate
  repeat' first
    | with_reducible assumption | with_reducible apply State.setAdc_keeps | with_reducible apply keeps_ite | (with_reducible exact fun k => k)
    | (intro _; with_reducible assumption) | dsimp only | split | with_reducible apply keeps_len | exact fun k => k | intro _
  all_goals first | exact ‹_› | exact Nat.zero_le _ | exact List.Pairwise.nil | exact Nat.le_trans (List.length_filter_le _ _) ‹_› | exact Nat.le_trans (takeFirst_length ‹_›) ‹_› | (simp only [List.length_append, List.length_take, List.length_drop, List.length_map, List.length_singleton, State.adcUsed] at *; omega) | (simp_all only [List.length_cons, List.length_append, List.length_take, List.length_drop]; omega)

theorem State.adcPush_keeps {z : State} (s : State) (q : AdcReq) (hz : z.Keeps s) : z.Keeps (State.adcPush s q) := by
  unfold State.adcPush
  repeat' first
    | with_reducible assumption | with_reducible apply State.set_keeps | with_reducible apply State.injCheck_keeps
    | with_reducible apply State.frameWait_keeps | with_reducible apply State.setAdc_keeps | with_reducible apply State.markLate_keeps
    | with_reducible apply keeps_ite | (with_reducible exact fun k => k) | (intro _; with_reducible assumption) | dsimp only | split
    | with_reducible apply keeps_len | exact fun k => k | intro _
  all_goals first | exact ‹_› | exact Nat.zero_le _ | exact List.Pairwise.nil | exact Nat.le_trans (List.length_filter_le _ _) ‹_› | exact Nat.le_trans (takeFirst_length ‹_›) ‹_› | (simp only [List.length_append, List.length_take, List.length_drop, List.length_map, List.length_singleton, State.adcUsed] at *; omega) | (simp_all only [List.length_cons, List.length_append, List.length_take, List.length_drop]; omega)

theorem State.adcPump_keeps {z : State} (s : State) (hz : z.Keeps s) : z.Keeps (State.adcPump s) := by
  unfold State.adcPump
  repeat' first
    | with_reducible assumption | with_reducible apply State.frameEnter_keeps | with_reducible apply State.setAdc_keeps
    | with_reducible apply State.markLate_keeps | with_reducible apply foldl_keeps | with_reducible apply keeps_ite
    | (with_reducible exact fun k => k) | (intro _; with_reducible assumption) | dsimp only | split | with_reducible apply keeps_len
    | exact fun k => k | intro _
  all_goals first | exact ‹_› | exact Nat.zero_le _ | exact List.Pairwise.nil | exact Nat.le_trans (List.length_filter_le _ _) ‹_› | exact Nat.le_trans (takeFirst_length ‹_›) ‹_› | (simp only [List.length_append, List.length_take, List.length_drop, List.length_map, List.length_singleton, State.adcUsed] at *; omega) | (simp_all only [List.length_cons, List.length_append, List.length_take, List.length_drop]; omega)

theorem State.adcPip_keeps {z : State} (s : State) (ch pip : Nat) (hz : z.Keeps s) : z.Keeps (State.adcPip s ch pip) := by
  unfold State.adcPip
  repeat' first
    | with_reducible assumption | with_reducible apply State.set_keeps | with_reducible apply State.adcPush_keeps
    | with_reducible apply keeps_ite | (with_reducible exact fun k => k) | (intro _; with_reducible assumption) | dsimp only | split | intro _

theorem State.adcSingle_keeps {z : State} (s : State) (ch : Nat) (frame : Option Nat) (hz : z.Keeps s) :
    OptKeeps z (State.adcSingle s ch frame) := by
  unfold State.adcSingle
  repeat' first
    | with_reducible assumption | with_reducible apply State.adcPush_keeps | with_reducible apply optKeeps_some
    | with_reducible apply optKeeps_none | with_reducible apply keeps_ite | (with_reducible exact fun k => k)
    | (intro _; with_reducible assumption) | dsimp only | split | intro _

theorem State.adcUrgent_keeps {z : State} (s : State) (cv ch : Nat) (frame : Option Nat) (hz : z.Keeps s) :
    OptKeeps z (State.adcUrgent s cv ch frame) := by
  unfold State.adcUrgent
  repeat' first
    | with_reducible assumption | with_reducible apply State.adcPush_keeps | with_reducible apply optKeeps_some
    | with_reducible apply optKeeps_none | with_reducible apply keeps_ite | (with_reducible exact fun k => k)
    | (intro _; with_reducible assumption) | dsimp only | split | intro _

theorem execAdcReq_keeps {z : State} (v : Word) (s : State) (hz : z.Keeps s) : OutKeeps z (execAdcReq v s) := by
  unfold execAdcReq
  repeat' first
    | with_reducible assumption | with_reducible apply State.bus_keeps | with_reducible apply State.adcSingle_keeps
    | with_reducible apply optKeeps_getD | with_reducible apply outKeeps_next | with_reducible apply keeps_ite
    | (with_reducible exact fun k => k) | (intro _; with_reducible assumption) | dsimp only | split | intro _

theorem execAdcUrg_keeps {z : State} (n : Fin 4) (v : Word) (s : State) (hz : z.Keeps s) : OutKeeps z (execAdcUrg n v s) := by
  unfold execAdcUrg
  repeat' first
    | with_reducible assumption | with_reducible apply State.bus_keeps | with_reducible apply State.adcUrgent_keeps
    | with_reducible apply optKeeps_getD | with_reducible apply outKeeps_next | with_reducible apply keeps_ite
    | (with_reducible exact fun k => k) | (intro _; with_reducible assumption) | dsimp only | split | intro _

theorem takeFirst_length {α : Type} {p : α → Bool} {l : List α} {x : α} {r : List α} (h : takeFirst p l = some (x, r)) : r.length ≤ l.length := by
  induction l generalizing x r with
  | nil => cases h
  | cons a l ih =>
    rw [takeFirst] at h
    split at h
    · cases h
      exact Nat.le_succ _
    · cases e : takeFirst p l with
      | none => rw [e] at h; cases h
      | some y => rw [e] at h; cases h; exact Nat.succ_le_succ (ih e)

theorem State.convBegin_keeps {z : State} (s : State) (cv kind ch : Nat) (frame : Option Nat) (hz : z.Keeps s) :
    z.Keeps (State.convBegin s cv kind ch frame) := by
  unfold State.convBegin
  repeat' first
    | with_reducible assumption | with_reducible apply State.setAdc_keeps | with_reducible apply keeps_ite | (with_reducible exact fun k => k)
    | (intro _; with_reducible assumption) | dsimp only | split | refine keeps_len ?_ id id id id id id id
    | exact keeps_mk ‹_› rfl rfl rfl rfl rfl rfl rfl | exact fun k => k | intro _

theorem execConversionStart_keeps {z : State} (cv : Fin 4) (s : State) (hz : z.Keeps s) : OutKeeps z (execConversionStart cv s) := by
  unfold execConversionStart
  repeat' first
    | with_reducible assumption | with_reducible apply State.set_keeps | with_reducible apply State.setAdc_keeps
    | with_reducible apply takeFirst_keeps | with_reducible apply State.convBegin_keeps | with_reducible apply outKeeps_next
    | with_reducible apply keeps_ite | (with_reducible exact fun k => k) | (intro _; with_reducible assumption) | dsimp only | split
    | with_reducible apply keeps_len | exact fun k => k | intro _
  all_goals first | exact ‹_› | exact Nat.zero_le _ | exact List.Pairwise.nil | exact Nat.le_trans (List.length_filter_le _ _) ‹_› | exact Nat.le_trans (takeFirst_length ‹_›) ‹_› | (simp only [List.length_append, List.length_take, List.length_drop, List.length_map, List.length_singleton, State.adcUsed] at *; omega) | (simp_all only [List.length_cons, List.length_append, List.length_take, List.length_drop]; omega)

theorem State.winEnter_keeps {z : State} (s : State) (n ch c : Nat) (hz : z.Keeps s) : z.Keeps (State.winEnter s n ch c) := by
  unfold State.winEnter
  repeat' first
    | with_reducible assumption | with_reducible apply State.putBitF_keeps | with_reducible apply State.emitX_keeps
    | with_reducible apply keeps_ite | (with_reducible exact fun k => k) | (intro _; with_reducible assumption) | dsimp only | split | intro _

theorem State.winReturn_keeps {z : State} (s : State) (n ch c : Nat) (hz : z.Keeps s) : z.Keeps (State.winReturn s n ch c) := by
  unfold State.winReturn
  repeat' first
    | with_reducible assumption | with_reducible apply State.putBitF_keeps | with_reducible apply State.emitX_keeps
    | with_reducible apply State.unraise_keeps | with_reducible apply keeps_ite | (with_reducible exact fun k => k)
    | (intro _; with_reducible assumption) | dsimp only | split | intro _

theorem State.winEval_keeps {z : State} (s : State) (n ch c : Nat) (hz : z.Keeps s) : z.Keeps (State.winEval s n ch c) := by
  unfold State.winEval
  repeat' first
    | with_reducible assumption | with_reducible apply State.setAdc_keeps | with_reducible apply State.winEnter_keeps
    | with_reducible apply State.winReturn_keeps | with_reducible apply keeps_ite | (with_reducible exact fun k => k)
    | (intro _; with_reducible assumption) | dsimp only | split | refine keeps_len ?_ id id id id id id id
    | exact keeps_mk ‹_› rfl rfl rfl rfl rfl rfl rfl | exact fun k => k | intro _

theorem State.diagCheck_keeps {z : State} (s : State) (k ch cv c : Nat) (ok : Bool) (hz : z.Keeps s) :
    z.Keeps (State.diagCheck s k ch cv c ok) := by
  unfold State.diagCheck
  repeat' first
    | with_reducible assumption | with_reducible apply State.set_keeps | with_reducible apply State.putBitF_keeps
    | with_reducible apply State.emitC_keeps | with_reducible apply State.setAdc_keeps | with_reducible apply keeps_ite
    | (with_reducible exact fun k => k) | (intro _; with_reducible assumption) | dsimp only | split | refine keeps_len ?_ id id id id id id id
    | exact keeps_mk ‹_› rfl rfl rfl rfl rfl rfl rfl | exact fun k => k | intro _

theorem State.diagEval_keeps {z : State} (s : State) (kind ch cv c : Nat) (hz : z.Keeps s) : z.Keeps (State.diagEval s kind ch cv c) := by
  unfold State.diagEval
  repeat' first
    | with_reducible assumption | with_reducible apply State.setAdc_keeps | with_reducible apply State.diagCheck_keeps
    | with_reducible apply keeps_ite | (with_reducible exact fun k => k) | (intro _; with_reducible assumption) | dsimp only | split
    | refine keeps_len ?_ id id id id id id id | exact keeps_mk ‹_› rfl rfl rfl rfl rfl rfl rfl | exact fun k => k | intro _

theorem State.adcResult_keeps {z : State} (s : State) (kind ch cv c : Nat) (hz : z.Keeps s) : z.Keeps (State.adcResult s kind ch cv c) := by
  unfold State.adcResult
  repeat' first
    | with_reducible assumption | with_reducible apply State.set_keeps | with_reducible apply State.incWrapF_keeps
    | with_reducible apply forEach_keeps | with_reducible apply State.raiseAll_keeps | with_reducible apply State.setAdc_keeps
    | with_reducible apply State.winEval_keeps | with_reducible apply State.diagEval_keeps | with_reducible apply forEach_keeps
    | with_reducible apply keeps_ite | (with_reducible exact fun k => k) | (intro _; with_reducible assumption) | dsimp only | split
    | refine keeps_len ?_ id id id id id id id | exact keeps_mk ‹_› rfl rfl rfl rfl rfl rfl rfl | exact fun k => k | intro _

theorem State.dblSample_keeps {z : State} (s : State) (cv c : Nat) (h : z.Keeps s) : z.Keeps (State.dblSample s cv c) := by
  unfold State.dblSample
  extract_lets s0 ch a s1 a2 s2 mine a3 s3
  have h0 : z.Keeps s0 := State.due_keeps _ _ h
  have h1 : z.Keeps s1 := by
    clear_value s0
    exact State.set_keeps _ _ _ (State.adcResult_keeps _ _ _ _ _ (State.setAdc_keeps _ _ h0 id))
  have h2 : z.Keeps s2 := by
    clear_value s1
    simp only [s2]
    repeat' first
      | with_reducible assumption | dsimp only | split | exact State.set_keeps _ _ _ (State.setAdc_keeps _ _ h1 id)
  clear_value s2
  exact State.adcPump_keeps _ (foldl_keeps _ _ (fun t q k => State.frameDone_keeps _ _ k) _
    (State.setAdc_keeps _ _ h2 fun k => Nat.le_trans (List.length_filter_le _ _) k))

theorem State.convEnd_keeps {z : State} (s : State) (cv code : Nat) (v : Conv) (hz : z.Keeps s) : z.Keeps (State.convEnd s cv code v) := by
  unfold State.convEnd
  repeat' first
    | with_reducible assumption | with_reducible apply State.set_keeps | with_reducible apply State.due_keeps
    | with_reducible apply State.frameDone_keeps | with_reducible apply State.setAdc_keeps | with_reducible apply State.adcPump_keeps
    | with_reducible apply State.adcResult_keeps | with_reducible apply keeps_ite | (with_reducible exact fun k => k)
    | (intro _; with_reducible assumption) | dsimp only | split | refine keeps_len ?_ id id id id id id id
    | exact keeps_mk ‹_› rfl rfl rfl rfl rfl rfl rfl | exact fun k => k | intro _

theorem State.dblCut_keeps {z : State} (s : State) (hz : z.Keeps s) : z.Keeps (State.dblCut s) := by
  unfold State.dblCut
  repeat' first
    | with_reducible assumption | with_reducible apply State.setAdc_keeps | with_reducible apply foldl_keeps | with_reducible apply keeps_ite
    | (with_reducible exact fun k => k) | (intro _; with_reducible assumption) | dsimp only | split | refine keeps_len ?_ id id id id id id id
    | exact keeps_mk ‹_› rfl rfl rfl rfl rfl rfl rfl | exact fun k => k | intro _

theorem State.dblStart_keeps {z : State} (s : State) (hz : z.Keeps s) : z.Keeps (State.dblStart s) := by
  unfold State.dblStart
  repeat' first
    | with_reducible assumption | with_reducible apply State.setAdc_keeps | with_reducible apply keeps_ite | (with_reducible exact fun k => k)
    | (intro _; with_reducible assumption) | dsimp only | split | refine keeps_len ?_ id id id id id id id
    | exact keeps_mk ‹_› rfl rfl rfl rfl rfl rfl rfl | exact fun k => k | intro _

theorem State.dblTake_keeps {z : State} (s : State) (hz : z.Keeps s) : z.Keeps (State.dblTake s) := by
  unfold State.dblTake
  repeat' first
    | with_reducible assumption | with_reducible apply State.put_keeps | with_reducible apply State.setAdc_keeps
    | with_reducible apply State.dblCut_keeps | with_reducible apply State.dblStart_keeps | with_reducible apply keeps_ite
    | (with_reducible exact fun k => k) | (intro _; with_reducible assumption) | dsimp only | split | refine keeps_len ?_ id id id id id id id
    | exact keeps_mk ‹_› rfl rfl rfl rfl rfl rfl rfl | exact fun k => k | intro _

theorem State.adcCfgWrite_keeps {z : State} (s : State) (store : State) (hz : z.Keeps s) (hzstore : z.Keeps store) :
    z.Keeps (State.adcCfgWrite s store) := by
  unfold State.adcCfgWrite
  repeat' first
    | with_reducible assumption | with_reducible apply State.setAdc_keeps | with_reducible apply keeps_ite | (with_reducible exact fun k => k)
    | (intro _; with_reducible assumption) | dsimp only | split | refine keeps_len ?_ id id id id id id id
    | exact keeps_mk ‹_› rfl rfl rfl rfl rfl rfl rfl | exact fun k => k | intro _

theorem execScanRoundStart_keeps {z : State} (s : State) (hz : z.Keeps s) : OutKeeps z (execScanRoundStart s) := by
  unfold execScanRoundStart
  repeat' first
    | with_reducible assumption | with_reducible apply State.set_keeps | with_reducible apply State.put_keeps
    | with_reducible apply State.incWrapF_keeps | with_reducible apply State.due_keeps | with_reducible apply State.setAdc_keeps
    | with_reducible apply State.dblTake_keeps | with_reducible apply optKeeps_getD | with_reducible apply outKeeps_next
    | with_reducible apply keeps_ite | (with_reducible exact fun k => k) | (intro _; with_reducible assumption) | dsimp only | split
    | refine keeps_len ?_ id id id id id id id | exact keeps_mk ‹_› rfl rfl rfl rfl rfl rfl rfl | exact fun k => k | intro _

theorem execDblCaptureStart_keeps {z : State} (s : State) (hz : z.Keeps s) : OutKeeps z (execDblCaptureStart s) := by
  unfold execDblCaptureStart
  repeat' first
    | with_reducible assumption | with_reducible apply State.set_keeps | with_reducible apply State.setAdc_keeps
    | with_reducible apply takeFirst_keeps | with_reducible apply outKeeps_next | with_reducible apply keeps_ite
    | (with_reducible exact fun k => k) | (intro _; with_reducible assumption) | dsimp only | split | with_reducible apply keeps_len
    | exact fun k => k | intro _
  all_goals first | exact ‹_› | exact Nat.zero_le _ | exact List.Pairwise.nil | exact Nat.le_trans (List.length_filter_le _ _) ‹_› | exact Nat.le_trans (takeFirst_length ‹_›) ‹_› | (simp only [List.length_append, List.length_take, List.length_drop, List.length_map, List.length_singleton, State.adcUsed] at *; omega) | (simp_all only [List.length_cons, List.length_append, List.length_take, List.length_drop]; omega)

theorem execAdcDblDone_keeps {z : State} (s : State) (hz : z.Keeps s) : OutKeeps z (execAdcDblDone s) := by
  unfold execAdcDblDone
  repeat' first
    | with_reducible assumption | with_reducible apply State.set_keeps | with_reducible apply State.emit_keeps
    | with_reducible apply State.setAdc_keeps | with_reducible apply State.adcPump_keeps | with_reducible apply foldl_keeps
    | with_reducible apply outKeeps_next | with_reducible apply keeps_ite | (with_reducible exact fun k => k)
    | (intro _; with_reducible assumption) | dsimp only | split | refine keeps_len ?_ id id id id id id id
    | exact keeps_mk ‹_› rfl rfl rfl rfl rfl rfl rfl | exact fun k => k | intro _

theorem State.dblCfgWrite_keeps {z : State} (s : State) (v : Nat) (hz : z.Keeps s) : OptKeeps z (State.dblCfgWrite s v) := by
  unfold State.dblCfgWrite
  repeat' first
    | with_reducible assumption | with_reducible apply State.set_keeps | with_reducible apply State.put_keeps
    | with_reducible apply optKeeps_some | with_reducible apply optKeeps_none | with_reducible apply keeps_ite
    | (with_reducible exact fun k => k) | (intro _; with_reducible assumption) | dsimp only | split | intro _

theorem execAdcDblCfgWrite_keeps {z : State} (v : Word) (s : State) (hz : z.Keeps s) : OutKeeps z (execAdcDblCfgWrite v s) := by
  unfold execAdcDblCfgWrite
  repeat' first
    | with_reducible assumption | with_reducible apply State.bus_keeps | with_reducible apply State.dblCfgWrite_keeps
    | with_reducible apply optKeeps_getD | with_reducible apply outKeeps_next | with_reducible apply keeps_ite
    | (with_reducible exact fun k => k) | (intro _; with_reducible assumption) | dsimp only | split | intro _

theorem State.winConfig_keeps {z : State} (s : State) (n : Nat) (thr : Bool) (v : Nat) (hz : z.Keeps s) :
    z.Keeps (State.winConfig s n thr v) := by
  unfold State.winConfig
  repeat' first
    | with_reducible assumption | with_reducible apply State.set_keeps | with_reducible apply State.put_keeps
    | with_reducible apply State.setAdc_keeps | with_reducible apply State.winReturn_keeps | with_reducible apply keeps_ite
    | (with_reducible exact fun k => k) | (intro _; with_reducible assumption) | dsimp only | split | refine keeps_len ?_ id id id id id id id
    | exact keeps_mk ‹_› rfl rfl rfl rfl rfl rfl rfl | exact fun k => k | intro _

theorem State.winWrite_keeps {z : State} (s : State) (n : Nat) (thr : Bool) (v : Nat) (hz : z.Keeps s) :
    OptKeeps z (State.winWrite s n thr v) := by
  unfold State.winWrite
  repeat' first
    | with_reducible assumption | with_reducible apply State.setDisc_keeps | with_reducible apply State.winConfig_keeps
    | with_reducible apply optKeeps_some | with_reducible apply optKeeps_none | with_reducible apply keeps_ite
    | (with_reducible exact fun k => k) | (intro _; with_reducible assumption) | dsimp only | split | intro _

theorem execAdcWinConfig_keeps {z : State} (n : Fin 32) (thr : Bool) (v : Word) (s : State) (hz : z.Keeps s) :
    OutKeeps z (execAdcWinConfig n thr v s) := by
  unfold execAdcWinConfig
  repeat' first
    | with_reducible assumption | with_reducible apply State.bus_keeps | with_reducible apply State.winWrite_keeps
    | with_reducible apply optKeeps_getD | with_reducible apply outKeeps_next | with_reducible apply keeps_ite
    | (with_reducible exact fun k => k) | (intro _; with_reducible assumption) | dsimp only | split | intro _

theorem State.adcStart_keeps {z : State} (s : State) (hz : z.Keeps s) : z.Keeps (State.adcStart s) := by
  unfold State.adcStart
  repeat' first
    | with_reducible assumption | with_reducible apply State.setAdc_keeps | with_reducible apply keeps_ite | (with_reducible exact fun k => k)
    | (intro _; with_reducible assumption) | dsimp only | split | refine keeps_len ?_ id id id id id id id
    | exact keeps_mk ‹_› rfl rfl rfl rfl rfl rfl rfl | exact fun k => k | intro _

theorem State.dblHold_keeps {z : State} (s : State) (hz : z.Keeps s) : z.Keeps (State.dblHold s) := by
  unfold State.dblHold
  repeat' first
    | with_reducible assumption | with_reducible apply State.setAdc_keeps | with_reducible apply State.dblCut_keeps
    | with_reducible apply keeps_ite | (with_reducible exact fun k => k) | (intro _; with_reducible assumption) | dsimp only | split
    | refine keeps_len ?_ id id id id id id id | exact keeps_mk ‹_› rfl rfl rfl rfl rfl rfl rfl | exact fun k => k | intro _

theorem State.putNat_keeps {z : State} (s : State) (f : FRef) (x : Int) (hz : z.Keeps s) : z.Keeps (State.putNat s f x) := by
  unfold State.putNat
  repeat' first
    | with_reducible assumption | with_reducible apply State.set_keeps | with_reducible apply State.draw_keeps | with_reducible apply keeps_ite
    | (with_reducible exact fun k => k) | (intro _; with_reducible assumption) | dsimp only | split | intro _

theorem State.putInt_keeps {z : State} (s : State) (f : FRef) (x : Int) (hz : z.Keeps s) : z.Keeps (State.putInt s f x) := by
  unfold State.putInt
  repeat' first
    | with_reducible assumption | with_reducible apply State.set_keeps | with_reducible apply State.setS_keeps
    | with_reducible apply State.draw_keeps | with_reducible apply keeps_ite | (with_reducible exact fun k => k)
    | (intro _; with_reducible assumption) | dsimp only | split | intro _

theorem State.disagreeEnd_keeps {z : State} (s : State) (socV vc : Int) (hz : z.Keeps s) : z.Keeps (State.disagreeEnd s socV vc) := by
  unfold State.disagreeEnd
  repeat' first
    | with_reducible assumption | with_reducible apply State.set_keeps | with_reducible apply State.emit_keeps
    | with_reducible apply State.unraise_keeps | with_reducible apply keeps_ite | (with_reducible exact fun k => k)
    | (intro _; with_reducible assumption) | dsimp only | split | intro _

theorem State.anchor_keeps {z : State} (s : State) (x : Nat) (cause : Nat) (socV vc : Int) (hz : z.Keeps s) :
    z.Keeps (State.anchor s x cause socV vc) := by
  unfold State.anchor
  repeat' first
    | with_reducible assumption | with_reducible apply State.set_keeps | with_reducible apply State.emit_keeps
    | with_reducible apply State.setGg_keeps | with_reducible apply State.disagreeEnd_keeps | with_reducible apply keeps_ite
    | (with_reducible exact fun k => k) | (intro _; with_reducible assumption) | dsimp only | split | refine keeps_len ?_ id id id id id id id
    | exact keeps_mk ‹_› rfl rfl rfl rfl rfl rfl rfl | intro _

theorem State.countCharge_keeps {z : State} (s : State) (sum : Int) (hz : z.Keeps s) : z.Keeps (State.countCharge s sum) := by
  unfold State.countCharge
  repeat' first
    | with_reducible assumption | with_reducible apply State.addSatF_keeps | with_reducible apply State.setGg_keeps
    | with_reducible apply keeps_ite | (with_reducible exact fun k => k) | (intro _; with_reducible assumption) | dsimp only | split
    | refine keeps_len ?_ id id id id id id id | exact keeps_mk ‹_› rfl rfl rfl rfl rfl rfl rfl | intro _

theorem State.anchorStart_keeps {z : State} (s : State) (vc socV : Int) (hz : z.Keeps s) : z.Keeps (State.anchorStart s vc socV) := by
  unfold State.anchorStart
  repeat' first
    | with_reducible assumption | with_reducible apply State.set_keeps | with_reducible apply State.emit_keeps
    | with_reducible apply State.setGg_keeps | with_reducible apply State.gaugeCommit_keeps | with_reducible apply State.anchor_keeps
    | with_reducible apply keeps_ite | (with_reducible exact fun k => k) | (intro _; with_reducible assumption) | dsimp only | split
    | refine keeps_len ?_ id id id id id id id | exact keeps_mk ‹_› rfl rfl rfl rfl rfl rfl rfl | intro _

theorem State.anchorRelax_keeps {z : State} (s : State) (vc socV : Int) (hz : z.Keeps s) : z.Keeps (State.anchorRelax s vc socV) := by
  unfold State.anchorRelax
  repeat' first
    | with_reducible assumption | with_reducible apply State.set_keeps | with_reducible apply State.anchor_keeps | with_reducible apply keeps_ite
    | (with_reducible exact fun k => k) | (intro _; with_reducible assumption) | dsimp only | split | intro _

theorem State.anchorFull_keeps {z : State} (s : State) (vc socV : Int) (hz : z.Keeps s) : z.Keeps (State.anchorFull s vc socV) := by
  unfold State.anchorFull
  repeat' first
    | with_reducible assumption | with_reducible apply State.setGg_keeps | with_reducible apply State.gaugeCommit_keeps
    | with_reducible apply State.anchor_keeps | with_reducible apply keeps_ite | (with_reducible exact fun k => k)
    | (intro _; with_reducible assumption) | dsimp only | split | refine keeps_len ?_ id id id id id id id
    | exact keeps_mk ‹_› rfl rfl rfl rfl rfl rfl rfl | intro _

theorem State.anchorEmpty_keeps {z : State} (s : State) (i vc socV : Int) (hz : z.Keeps s) : z.Keeps (State.anchorEmpty s i vc socV) := by
  unfold State.anchorEmpty
  repeat' first
    | with_reducible assumption | with_reducible apply State.set_keeps | with_reducible apply State.setGg_keeps
    | with_reducible apply State.gaugeCommit_keeps | with_reducible apply State.anchor_keeps | with_reducible apply keeps_ite
    | (with_reducible exact fun k => k) | (intro _; with_reducible assumption) | dsimp only | split | refine keeps_len ?_ id id id id id id id
    | exact keeps_mk ‹_› rfl rfl rfl rfl rfl rfl rfl | intro _

theorem State.anchors_keeps {z : State} (s : State) (i vc socV : Int) (hz : z.Keeps s) : z.Keeps (State.anchors s i vc socV) := by
  unfold State.anchors
  repeat' first
    | with_reducible assumption | with_reducible apply State.anchorStart_keeps | with_reducible apply State.anchorRelax_keeps
    | with_reducible apply State.anchorFull_keeps | with_reducible apply State.anchorEmpty_keeps | with_reducible apply keeps_ite
    | (with_reducible exact fun k => k) | (intro _; with_reducible assumption) | dsimp only | split | intro _

theorem State.disagree_keeps {z : State} (s : State) (i vc socV : Int) (hz : z.Keeps s) : z.Keeps (State.disagree s i vc socV) := by
  unfold State.disagree
  repeat' first
    | with_reducible assumption | with_reducible apply State.set_keeps | with_reducible apply State.emitC_keeps
    | with_reducible apply State.setGg_keeps | with_reducible apply State.raise_keeps | with_reducible apply State.disagreeEnd_keeps
    | with_reducible apply keeps_ite | (with_reducible exact fun k => k) | (intro _; with_reducible assumption) | dsimp only | split
    | refine keeps_len ?_ id id id id id id id | exact keeps_mk ‹_› rfl rfl rfl rfl rfl rfl rfl | intro _

theorem State.showSoc_keeps {z : State} (s : State) (hz : z.Keeps s) : z.Keeps (State.showSoc s) := by
  unfold State.showSoc
  repeat' first
    | with_reducible assumption | with_reducible apply State.set_keeps | with_reducible apply State.putNat_keeps | with_reducible apply keeps_ite
    | (with_reducible exact fun k => k) | (intro _; with_reducible assumption) | dsimp only | split | intro _

theorem State.report_keeps {z : State} (s : State) (i vc ruse : Int) (first : Bool) (hz : z.Keeps s) :
    z.Keeps (State.report s i vc ruse first) := by
  unfold State.report
  repeat' first
    | with_reducible assumption | with_reducible apply State.set_keeps | with_reducible apply State.put_keeps
    | with_reducible apply State.setGg_keeps | with_reducible apply State.showSoc_keeps | with_reducible apply keeps_ite
    | (with_reducible exact fun k => k) | (intro _; with_reducible assumption) | dsimp only | split | refine keeps_len ?_ id id id id id id id
    | exact keeps_mk ‹_› rfl rfl rfl rfl rfl rfl rfl | intro _

theorem State.gaugeRetry_keeps {z : State} (s : State) (hz : z.Keeps s) : z.Keeps (State.gaugeRetry s) := by
  unfold State.gaugeRetry
  repeat' first
    | with_reducible assumption | with_reducible apply State.setGg_keeps | with_reducible apply State.gaugeCommit_keeps
    | with_reducible apply keeps_ite | (with_reducible exact fun k => k) | (intro _; with_reducible assumption) | dsimp only | split
    | refine keeps_len ?_ id id id id id id id | exact keeps_mk ‹_› rfl rfl rfl rfl rfl rfl rfl | intro _

theorem State.gaugeForm_keeps {z : State} (s : State) (i v : Int) (hz : z.Keeps s) : z.Keeps (State.gaugeForm s i v) := by
  unfold State.gaugeForm
  repeat' first
    | with_reducible assumption | with_reducible apply State.set_keeps | with_reducible apply State.setGg_keeps
    | with_reducible apply State.putNat_keeps | with_reducible apply State.anchors_keeps | with_reducible apply State.disagree_keeps
    | with_reducible apply State.report_keeps | with_reducible apply keeps_ite | (with_reducible exact fun k => k)
    | (intro _; with_reducible assumption) | dsimp only | split | refine keeps_len ?_ id id id id id id id
    | exact keeps_mk ‹_› rfl rfl rfl rfl rfl rfl rfl | intro _

theorem State.gaugeUpdate_keeps {z : State} (s : State) (si sv : Int) (n : Nat) (hz : z.Keeps s) :
    z.Keeps (State.gaugeUpdate s si sv n) := by
  unfold State.gaugeUpdate
  repeat' first
    | with_reducible assumption | with_reducible apply State.setGg_keeps | with_reducible apply State.putNat_keeps
    | with_reducible apply State.putInt_keeps | with_reducible apply State.countCharge_keeps | with_reducible apply State.gaugeRetry_keeps
    | with_reducible apply State.gaugeForm_keeps | with_reducible apply keeps_ite | (with_reducible exact fun k => k)
    | (intro _; with_reducible assumption) | dsimp only | split | refine keeps_len ?_ id id id id id id id
    | exact keeps_mk ‹_› rfl rfl rfl rfl rfl rfl rfl | intro _

theorem State.gaugeEnds_keeps {z : State} (s : State) (n : Nat) (hz : z.Keeps s) : z.Keeps (State.gaugeEnds s n) := by
  unfold State.gaugeEnds
  repeat' first
    | with_reducible assumption | with_reducible apply State.setGg_keeps | with_reducible apply State.gaugeUpdate_keeps
    | with_reducible apply keeps_ite | (with_reducible exact fun k => k) | (intro _; with_reducible assumption) | dsimp only | split
    | refine keeps_len ?_ id id id id id id id | exact keeps_mk ‹_› rfl rfl rfl rfl rfl rfl rfl | intro _

theorem execGaugeWindow_keeps {z : State} (i : Int) (v : Nat) (s : State) (hz : z.Keeps s) : OutKeeps z (execGaugeWindow i v s) := by
  unfold execGaugeWindow
  repeat' first
    | with_reducible assumption | with_reducible apply State.set_keeps | with_reducible apply State.incSatF_keeps
    | with_reducible apply State.setGg_keeps | with_reducible apply outKeeps_next | with_reducible apply keeps_ite
    | (with_reducible exact fun k => k) | (intro _; with_reducible assumption) | dsimp only | split | refine keeps_len ?_ id id id id id id id
    | exact keeps_mk ‹_› rfl rfl rfl rfl rfl rfl rfl | intro _

theorem execGaugeUpdate_keeps {z : State} (s : State) (hz : z.Keeps s) : OutKeeps z (execGaugeUpdate s) := by
  unfold execGaugeUpdate
  repeat' first
    | with_reducible assumption | with_reducible apply State.setGg_keeps | with_reducible apply State.gaugeUpdate_keeps
    | with_reducible apply State.gaugeEnds_keeps | with_reducible apply outKeeps_next | with_reducible apply keeps_ite
    | (with_reducible exact fun k => k) | (intro _; with_reducible assumption) | dsimp only | split | refine keeps_len ?_ id id id id id id id
    | exact keeps_mk ‹_› rfl rfl rfl rfl rfl rfl rfl | intro _

theorem State.gaugeCut_keeps {z : State} (s : State) (hz : z.Keeps s) : z.Keeps (State.gaugeCut s) := by
  unfold State.gaugeCut
  repeat' first
    | with_reducible assumption | with_reducible apply State.gaugeEnds_keeps | with_reducible apply keeps_ite | (with_reducible exact fun k => k)
    | (intro _; with_reducible assumption) | dsimp only | split | intro _

theorem execGaugeSnapshot_keeps {z : State} (i : Int) (v : Nat) (s : State) (hz : z.Keeps s) : OutKeeps z (execGaugeSnapshot i v s) := by
  unfold execGaugeSnapshot
  repeat' first
    | with_reducible assumption | with_reducible apply State.set_keeps | with_reducible apply State.setGg_keeps
    | with_reducible apply State.putNat_keeps | with_reducible apply State.putInt_keeps | with_reducible apply outKeeps_next
    | with_reducible apply keeps_ite | (with_reducible exact fun k => k) | (intro _; with_reducible assumption) | dsimp only | split
    | refine keeps_len ?_ id id id id id id id | exact keeps_mk ‹_› rfl rfl rfl rfl rfl rfl rfl | intro _

theorem State.captureDone_keeps {z : State} (s : State) (probe : Bool) (cause : Nat) (r : Option Int) (hz : z.Keeps s) :
    z.Keeps (State.captureDone s probe cause r) := by
  unfold State.captureDone
  repeat' first
    | with_reducible assumption | with_reducible apply State.set_keeps | with_reducible apply State.put_keeps
    | with_reducible apply State.incWrapF_keeps | with_reducible apply State.putNat_keeps | with_reducible apply keeps_ite
    | (with_reducible exact fun k => k) | (intro _; with_reducible assumption) | dsimp only | split | refine keeps_len ?_ id id id id id id id
    | exact keeps_mk ‹_› rfl rfl rfl rfl rfl rfl rfl | intro _

theorem State.captureTrigger_keeps {z : State} (s : State) (probe : Bool) (hz : z.Keeps s) : z.Keeps (State.captureTrigger s probe) := by
  unfold State.captureTrigger
  repeat' first
    | with_reducible assumption | with_reducible apply State.setGg_keeps | with_reducible apply State.captureDone_keeps
    | with_reducible apply keeps_ite | (with_reducible exact fun k => k) | (intro _; with_reducible assumption) | dsimp only | split
    | refine keeps_len ?_ id id id id id id id | exact keeps_mk ‹_› rfl rfl rfl rfl rfl rfl rfl | intro _

theorem execCaptureTrigger_keeps {z : State} (probe : Bool) (s : State) (hz : z.Keeps s) : OutKeeps z (execCaptureTrigger probe s) := by
  unfold execCaptureTrigger
  repeat' first
    | with_reducible assumption | with_reducible apply State.fireOn_keeps | with_reducible apply State.setGg_keeps
    | with_reducible apply State.captureTrigger_keeps | with_reducible apply outKeeps_next | with_reducible apply keeps_ite
    | (with_reducible exact fun k => k) | (intro _; with_reducible assumption) | dsimp only | split | refine keeps_len ?_ id id id id id id id
    | exact keeps_mk ‹_› rfl rfl rfl rfl rfl rfl rfl | intro _

theorem execCaptureComplete_keeps {z : State} (s : State) (hz : z.Keeps s) : OutKeeps z (execCaptureComplete s) := by
  unfold execCaptureComplete
  repeat' first
    | with_reducible assumption | with_reducible apply State.putBitF_keeps | with_reducible apply State.setGg_keeps
    | with_reducible apply State.putNat_keeps | with_reducible apply State.captureDone_keeps | with_reducible apply outKeeps_next
    | with_reducible apply keeps_ite | (with_reducible exact fun k => k) | (intro _; with_reducible assumption) | dsimp only | split
    | refine keeps_len ?_ id id id id id id id | exact keeps_mk ‹_› rfl rfl rfl rfl rfl rfl rfl | intro _

theorem State.captureEnded_keeps {z : State} (s : State) (hz : z.Keeps s) : z.Keeps (State.captureEnded s) := by
  unfold State.captureEnded
  repeat' first
    | with_reducible assumption | with_reducible apply State.setGg_keeps | with_reducible apply keeps_ite | (with_reducible exact fun k => k)
    | (intro _; with_reducible assumption) | dsimp only | split | refine keeps_len ?_ id id id id id id id
    | exact keeps_mk ‹_› rfl rfl rfl rfl rfl rfl rfl | intro _

theorem execGaugePeriodicCommit_keeps {z : State} (s : State) (hz : z.Keeps s) : OutKeeps z (execGaugePeriodicCommit s) := by
  unfold execGaugePeriodicCommit
  repeat' first
    | with_reducible assumption | with_reducible apply State.due_keeps | with_reducible apply State.gaugeCommit_keeps
    | with_reducible apply outKeeps_next | with_reducible apply keeps_ite | (with_reducible exact fun k => k)
    | (intro _; with_reducible assumption) | dsimp only | split | intro _

theorem State.gaugeStartCheck_keeps {z : State} (s : State) (hz : z.Keeps s) : z.Keeps (State.gaugeStartCheck s) := by
  unfold State.gaugeStartCheck
  repeat' first
    | with_reducible assumption | with_reducible apply State.setGg_keeps | with_reducible apply keeps_ite | (with_reducible exact fun k => k)
    | (intro _; with_reducible assumption) | dsimp only | split | refine keeps_len ?_ id id id id id id id
    | exact keeps_mk ‹_› rfl rfl rfl rfl rfl rfl rfl | intro _

theorem State.gaugeRelearn_keeps {z : State} (s : State) (hz : z.Keeps s) : z.Keeps (State.gaugeRelearn s) := by
  unfold State.gaugeRelearn
  repeat' first
    | with_reducible assumption | with_reducible apply State.set_keeps | with_reducible apply forEach_keeps
    | with_reducible apply State.setGg_keeps | with_reducible apply forEach_keeps | with_reducible apply keeps_ite
    | (with_reducible exact fun k => k) | (intro _; with_reducible assumption) | dsimp only | split | refine keeps_len ?_ id id id id id id id
    | exact keeps_mk ‹_› rfl rfl rfl rfl rfl rfl rfl | intro _

theorem State.gaugeRestore_keeps {z : State} (s : State) (b : List Byte) (hz : z.Keeps s) : z.Keeps (State.gaugeRestore s b) := by
  unfold State.gaugeRestore
  repeat' first
    | with_reducible assumption | with_reducible apply State.set_keeps | with_reducible apply State.put_keeps
    | with_reducible apply forEach_keeps | with_reducible apply State.setGg_keeps | with_reducible apply forEach_keeps
    | with_reducible apply keeps_ite | (with_reducible exact fun k => k) | (intro _; with_reducible assumption) | dsimp only | split
    | refine keeps_len ?_ id id id id id id id | exact keeps_mk ‹_› rfl rfl rfl rfl rfl rfl rfl | intro _

theorem execGaugeStart_keeps {z : State} (s : State) (hz : z.Keeps s) : OutKeeps z (execGaugeStart s) := by
  unfold execGaugeStart
  repeat' first
    | with_reducible assumption | with_reducible apply State.set_keeps | with_reducible apply State.put_keeps
    | with_reducible apply State.emit_keeps | with_reducible apply State.setGg_keeps | with_reducible apply State.gaugeCommit_keeps
    | with_reducible apply State.showSoc_keeps | with_reducible apply State.gaugeRelearn_keeps | with_reducible apply State.gaugeRestore_keeps
    | with_reducible apply outKeeps_next | with_reducible apply keeps_ite | (with_reducible exact fun k => k)
    | (intro _; with_reducible assumption) | dsimp only | split | refine keeps_len ?_ id id id id id id id
    | exact keeps_mk ‹_› rfl rfl rfl rfl rfl rfl rfl | intro _

theorem State.gaugeFreeze_keeps {z : State} (s : State) (hz : z.Keeps s) : z.Keeps (State.gaugeFreeze s) := by
  unfold State.gaugeFreeze
  repeat' first
    | with_reducible assumption | with_reducible apply State.set_keeps | with_reducible apply State.emit_keeps
    | with_reducible apply State.setGg_keeps | with_reducible apply State.gaugeCommit_keeps | with_reducible apply keeps_ite
    | (with_reducible exact fun k => k) | (intro _; with_reducible assumption) | dsimp only | split | refine keeps_len ?_ id id id id id id id
    | exact keeps_mk ‹_› rfl rfl rfl rfl rfl rfl rfl | intro _

theorem State.tilesJoin_keeps {z : State} (s : State) (n a b : Nat) (hz : z.Keeps s) : z.Keeps (State.tilesJoin s n a b) := by
  unfold State.tilesJoin
  repeat' first
    | with_reducible assumption | with_reducible apply forEach_keeps | with_reducible apply State.tileOn_keeps
    | with_reducible apply forEach_keeps | with_reducible apply keeps_ite | (with_reducible exact fun k => k)
    | (intro _; with_reducible assumption) | dsimp only | split | intro _

theorem State.stackEnable_keeps {z : State} (s : State) (n vos : Nat) (hz : z.Keeps s) : z.Keeps (State.stackEnable s n vos) := by
  unfold State.stackEnable
  repeat' first
    | with_reducible assumption | with_reducible apply State.set_keeps | with_reducible apply State.setStk_keeps
    | with_reducible apply forEach_keeps | with_reducible apply State.tilesJoin_keeps | with_reducible apply forEach_keeps
    | with_reducible apply keeps_ite | (with_reducible exact fun k => k) | (intro _; with_reducible assumption) | dsimp only | split
    | refine keeps_len ?_ id id id id id id id | exact keeps_mk ‹_› rfl rfl rfl rfl rfl rfl rfl | intro _

theorem State.stackDisable_keeps {z : State} (s : State) (n : Nat) (hz : z.Keeps s) : z.Keeps (State.stackDisable s n) := by
  unfold State.stackDisable
  repeat' first
    | with_reducible assumption | with_reducible apply State.set_keeps | with_reducible apply State.setStk_keeps
    | with_reducible apply State.tilesOff_keeps | with_reducible apply State.antEnd_keeps | with_reducible apply State.stackPgOff_keeps
    | with_reducible apply State.shedRest_keeps | with_reducible apply keeps_ite | (with_reducible exact fun k => k)
    | (intro _; with_reducible assumption) | dsimp only | split | refine keeps_len ?_ id id id id id id id
    | exact keeps_mk ‹_› rfl rfl rfl rfl rfl rfl rfl | intro _

theorem State.dischargeOff_keeps {z : State} (s : State) (n : Nat) (hz : z.Keeps s) : z.Keeps (State.dischargeOff s n) := by
  unfold State.dischargeOff
  repeat' first
    | with_reducible assumption | with_reducible apply State.set_keeps | with_reducible apply State.setStk_keeps
    | with_reducible apply State.tilesOff_keeps | with_reducible apply keeps_ite | (with_reducible exact fun k => k)
    | (intro _; with_reducible assumption) | dsimp only | split | refine keeps_len ?_ id id id id id id id
    | exact keeps_mk ‹_› rfl rfl rfl rfl rfl rfl rfl | intro _

theorem execStkOvTrip_keeps {z : State} (n : Fin 16) (s : State) (hz : z.Keeps s) : OutKeeps z (execStkOvTrip n s) := by
  unfold execStkOvTrip
  repeat' first
    | with_reducible assumption | with_reducible apply State.set_keeps | with_reducible apply State.setStk_keeps
    | with_reducible apply State.emitX_keeps | with_reducible apply State.stackPgOff_keeps | with_reducible apply State.shedRest_keeps
    | with_reducible apply State.raise_keeps | with_reducible apply State.dischargeOff_keeps | with_reducible apply outKeeps_next
    | with_reducible apply keeps_ite | (with_reducible exact fun k => k) | (intro _; with_reducible assumption) | dsimp only | split
    | refine keeps_len ?_ id id id id id id id | exact keeps_mk ‹_› rfl rfl rfl rfl rfl rfl rfl | intro _

theorem execOvTripRelease_keeps {z : State} (n : Fin 16) (s : State) (hz : z.Keeps s) : OutKeeps z (execOvTripRelease n s) := by
  unfold execOvTripRelease
  repeat' first
    | with_reducible assumption | with_reducible apply State.setStk_keeps | with_reducible apply State.unraise_keeps
    | with_reducible apply outKeeps_next | with_reducible apply keeps_ite | (with_reducible exact fun k => k)
    | (intro _; with_reducible assumption) | dsimp only | split | refine keeps_len ?_ id id id id id id id
    | exact keeps_mk ‹_› rfl rfl rfl rfl rfl rfl rfl | intro _

theorem State.setTurnPtr_keeps {z : State} (s : State) (u p : Nat) (hz : z.Keeps s) : z.Keeps (State.setTurnPtr s u p) := by
  unfold State.setTurnPtr
  repeat' first
    | with_reducible assumption | with_reducible apply State.set_keeps | with_reducible apply keeps_ite | (with_reducible exact fun k => k)
    | (intro _; with_reducible assumption) | dsimp only | split | refine keeps_len ?_ id id id id id id id
    | exact keeps_mk ‹_› rfl rfl rfl rfl rfl rfl rfl | intro _

theorem State.withhold_keeps {z : State} (s : State) (u p : Nat) (hz : z.Keeps s) : z.Keeps (State.withhold s u p) := by
  unfold State.withhold
  repeat' first
    | with_reducible assumption | with_reducible apply State.set_keeps | with_reducible apply State.incSatF_keeps
    | with_reducible apply State.setTile_keeps | with_reducible apply keeps_ite | (with_reducible exact fun k => k)
    | (intro _; with_reducible assumption) | dsimp only | split | refine keeps_len ?_ id id id id id id id
    | exact keeps_mk ‹_› rfl rfl rfl rfl rfl rfl rfl | intro _

theorem State.takeTurn_keeps {z : State} (s : State) (u p : Nat) (hz : z.Keeps s) : z.Keeps (State.takeTurn s u p) := by
  unfold State.takeTurn
  repeat' first
    | with_reducible assumption | with_reducible apply State.set_keeps | with_reducible apply State.incWrapF_keeps
    | with_reducible apply State.setTile_keeps | with_reducible apply keeps_ite | (with_reducible exact fun k => k)
    | (intro _; with_reducible assumption) | dsimp only | split | refine keeps_len ?_ id id id id id id id
    | exact keeps_mk ‹_› rfl rfl rfl rfl rfl rfl rfl | intro _

theorem State.turnMarks_keeps {z : State} (s : State) (u p : Nat) (short waited : Bool) (hz : z.Keeps s) :
    z.Keeps (State.turnMarks s u p short waited) := by
  unfold State.turnMarks
  repeat' first
    | with_reducible assumption | with_reducible apply State.set_keeps | with_reducible apply keeps_ite | (with_reducible exact fun k => k)
    | (intro _; with_reducible assumption) | dsimp only | split | refine keeps_len ?_ id id id id id id id
    | exact keeps_mk ‹_› rfl rfl rfl rfl rfl rfl rfl | intro _

theorem State.diodeRest_keeps {z : State} (s : State) (u zero : Nat) (hz : z.Keeps s) : z.Keeps (State.diodeRest s u zero) := by
  unfold State.diodeRest
  repeat' first
    | with_reducible assumption | with_reducible apply State.set_keeps | with_reducible apply forEach_keeps | with_reducible apply forEach_keeps
    | with_reducible apply keeps_ite | (with_reducible exact fun k => k) | (intro _; with_reducible assumption) | dsimp only | split | intro _

theorem State.diodeSee_keeps {z : State} (s : State) (t : Nat) (hz : z.Keeps s) : z.Keeps (State.diodeSee s t) := by
  unfold State.diodeSee
  repeat' first
    | with_reducible assumption | with_reducible apply State.set_keeps | with_reducible apply State.draw_keeps | with_reducible apply keeps_ite
    | (with_reducible exact fun k => k) | (intro _; with_reducible assumption) | dsimp only | split | intro _

theorem execTurn_keeps {z : State} (u : Fin 17) (vpmid : Nat) (held off zero : BitVec 16) (nlim : Bool) (s : State) (hz : z.Keeps s) :
    OutKeeps z (execTurn u vpmid held off zero nlim s) := by
  unfold execTurn
  repeat' first
    | with_reducible assumption | with_reducible apply State.set_keeps | with_reducible apply forEach_keeps
    | with_reducible apply State.setTurnPtr_keeps | with_reducible apply State.withhold_keeps | with_reducible apply State.takeTurn_keeps
    | with_reducible apply State.turnMarks_keeps | with_reducible apply State.diodeRest_keeps | with_reducible apply forEach_keeps
    | with_reducible apply outKeeps_next | with_reducible apply keeps_ite | (with_reducible exact fun k => k)
    | (intro _; with_reducible assumption) | dsimp only | split | refine keeps_len ?_ id id id id id id id
    | exact keeps_mk ‹_› rfl rfl rfl rfl rfl rfl rfl | intro _

theorem execFullRoll_keeps {z : State} (n : Fin 16) (vpmid : Nat) (held off : BitVec 16) (s : State) (hz : z.Keeps s) :
    OutKeeps z (execFullRoll n vpmid held off s) := by
  unfold execFullRoll
  repeat' first
    | with_reducible assumption | with_reducible apply State.set_keeps | with_reducible apply State.incSatF_keeps
    | with_reducible apply State.setStk_keeps | with_reducible apply forEach_keeps | with_reducible apply State.setTurnPtr_keeps
    | with_reducible apply State.takeTurn_keeps | with_reducible apply State.turnMarks_keeps | with_reducible apply forEach_keeps
    | with_reducible apply outKeeps_next | with_reducible apply keeps_ite | (with_reducible exact fun k => k)
    | (intro _; with_reducible assumption) | dsimp only | split | refine keeps_len ?_ id id id id id id id
    | exact keeps_mk ‹_› rfl rfl rfl rfl rfl rfl rfl | intro _

theorem execFullRollLockoutEnd_keeps {z : State} (n : Fin 16) (s : State) (hz : z.Keeps s) : OutKeeps z (execFullRollLockoutEnd n s) := by
  unfold execFullRollLockoutEnd
  repeat' first
    | with_reducible assumption | with_reducible apply State.set_keeps | with_reducible apply State.due_keeps
    | with_reducible apply outKeeps_next | with_reducible apply keeps_ite | (with_reducible exact fun k => k)
    | (intro _; with_reducible assumption) | dsimp only | split | intro _

theorem execStkRoll_keeps {z : State} (n : Fin 16) (s : State) (hz : z.Keeps s) : OutKeeps z (execStkRoll n s) := by
  unfold execStkRoll
  repeat' first
    | with_reducible assumption | with_reducible apply State.due_keeps | with_reducible apply State.setStk_keeps
    | with_reducible apply State.emitX_keeps | with_reducible apply outKeeps_next | with_reducible apply keeps_ite
    | (with_reducible exact fun k => k) | (intro _; with_reducible assumption) | dsimp only | split | refine keeps_len ?_ id id id id id id id
    | exact keeps_mk ‹_› rfl rfl rfl rfl rfl rfl rfl | intro _

theorem State.phaseWait_keeps {z : State} (s : State) (n : Nat) (hz : z.Keeps s) : z.Keeps (State.phaseWait s n) := by
  unfold State.phaseWait
  repeat' first
    | with_reducible assumption | with_reducible apply State.set_keeps | with_reducible apply State.setStk_keeps | with_reducible apply keeps_ite
    | (with_reducible exact fun k => k) | (intro _; with_reducible assumption) | dsimp only | split | refine keeps_len ?_ id id id id id id id
    | exact keeps_mk ‹_› rfl rfl rfl rfl rfl rfl rfl | intro _

theorem execShedDwellDone_keeps {z : State} (n : Fin 16) (s : State) (hz : z.Keeps s) : OutKeeps z (execShedDwellDone n s) := by
  unfold execShedDwellDone
  repeat' first
    | with_reducible assumption | with_reducible apply State.due_keeps | with_reducible apply State.setStk_keeps
    | with_reducible apply State.phaseWait_keeps | with_reducible apply outKeeps_next | with_reducible apply keeps_ite
    | (with_reducible exact fun k => k) | (intro _; with_reducible assumption) | dsimp only | split | refine keeps_len ?_ id id id id id id id
    | exact keeps_mk ‹_› rfl rfl rfl rfl rfl rfl rfl | intro _

theorem execAddDwellDone_keeps {z : State} (n : Fin 16) (s : State) (hz : z.Keeps s) : OutKeeps z (execAddDwellDone n s) := by
  unfold execAddDwellDone
  repeat' first
    | with_reducible assumption | with_reducible apply State.due_keeps | with_reducible apply State.setStk_keeps
    | with_reducible apply State.phaseWait_keeps | with_reducible apply outKeeps_next | with_reducible apply keeps_ite
    | (with_reducible exact fun k => k) | (intro _; with_reducible assumption) | dsimp only | split | refine keeps_len ?_ id id id id id id id
    | exact keeps_mk ‹_› rfl rfl rfl rfl rfl rfl rfl | intro _

theorem State.emitPhase_keeps {z : State} (s : State) (n new old kind : Nat) (hz : z.Keeps s) :
    z.Keeps (State.emitPhase s n new old kind) := by
  unfold State.emitPhase
  repeat' first
    | with_reducible assumption | with_reducible apply State.emitX_keeps | with_reducible apply keeps_ite | (with_reducible exact fun k => k)
    | (intro _; with_reducible assumption) | dsimp only | split | intro _

theorem execTileShed_keeps {z : State} (n : Fin 16) (s : State) (hz : z.Keeps s) : OutKeeps z (execTileShed n s) := by
  unfold execTileShed
  repeat' first
    | with_reducible assumption | with_reducible apply State.set_keeps | with_reducible apply State.incWrapF_keeps
    | with_reducible apply State.due_keeps | with_reducible apply State.tileOff_keeps | with_reducible apply State.shedRest_keeps
    | with_reducible apply State.emitPhase_keeps | with_reducible apply outKeeps_next | with_reducible apply keeps_ite
    | (with_reducible exact fun k => k) | (intro _; with_reducible assumption) | dsimp only | split | refine keeps_len ?_ id id id id id id id
    | exact keeps_mk ‹_› rfl rfl rfl rfl rfl rfl rfl | intro _

theorem execTileAdd_keeps {z : State} (n : Fin 16) (s : State) (hz : z.Keeps s) : OutKeeps z (execTileAdd n s) := by
  unfold execTileAdd
  repeat' first
    | with_reducible assumption | with_reducible apply State.set_keeps | with_reducible apply State.incWrapF_keeps
    | with_reducible apply State.due_keeps | with_reducible apply State.tileOn_keeps | with_reducible apply State.shedRest_keeps
    | with_reducible apply State.emitPhase_keeps | with_reducible apply outKeeps_next | with_reducible apply keeps_ite
    | (with_reducible exact fun k => k) | (intro _; with_reducible assumption) | dsimp only | split | refine keeps_len ?_ id id id id id id id
    | exact keeps_mk ‹_› rfl rfl rfl rfl rfl rfl rfl | intro _

theorem execSoftStartEnd_keeps {z : State} (n : Fin 16) (s : State) (hz : z.Keeps s) : OutKeeps z (execSoftStartEnd n s) := by
  unfold execSoftStartEnd
  repeat' first
    | with_reducible assumption | with_reducible apply State.set_keeps | with_reducible apply State.setStk_keeps
    | with_reducible apply outKeeps_next | with_reducible apply keeps_ite | (with_reducible exact fun k => k)
    | (intro _; with_reducible assumption) | dsimp only | split | refine keeps_len ?_ id id id id id id id
    | exact keeps_mk ‹_› rfl rfl rfl rfl rfl rfl rfl | intro _

theorem execStackPgAssert_keeps {z : State} (n : Fin 16) (s : State) (hz : z.Keeps s) : OutKeeps z (execStackPgAssert n s) := by
  unfold execStackPgAssert
  repeat' first
    | with_reducible assumption | with_reducible apply State.set_keeps | with_reducible apply State.refreshRaw_keeps
    | with_reducible apply outKeeps_next | with_reducible apply keeps_ite | (with_reducible exact fun k => k)
    | (intro _; with_reducible assumption) | dsimp only | split | intro _

theorem execStackPgWithdraw_keeps {z : State} (n : Fin 16) (s : State) (hz : z.Keeps s) : OutKeeps z (execStackPgWithdraw n s) := by
  unfold execStackPgWithdraw
  repeat' first
    | with_reducible assumption | with_reducible apply State.stackPgOff_keeps | with_reducible apply outKeeps_next
    | with_reducible apply keeps_ite | (with_reducible exact fun k => k) | (intro _; with_reducible assumption) | dsimp only | split | intro _

theorem execParkPgLoss_keeps {z : State} (n : Fin 16) (s : State) (hz : z.Keeps s) : OutKeeps z (execParkPgLoss n s) := by
  unfold execParkPgLoss
  repeat' first
    | with_reducible assumption | with_reducible apply State.stackPgOff_keeps | with_reducible apply outKeeps_next
    | with_reducible apply keeps_ite | (with_reducible exact fun k => k) | (intro _; with_reducible assumption) | dsimp only | split | intro _

theorem execDischargeEnd_keeps {z : State} (n : Fin 16) (s : State) (hz : z.Keeps s) : OutKeeps z (execDischargeEnd n s) := by
  unfold execDischargeEnd
  repeat' first
    | with_reducible assumption | with_reducible apply State.dischargeOff_keeps | with_reducible apply outKeeps_next
    | with_reducible apply keeps_ite | (with_reducible exact fun k => k) | (intro _; with_reducible assumption) | dsimp only | split | intro _

theorem execStkDisTimeout_keeps {z : State} (n : Fin 16) (vout : Nat) (s : State) (hz : z.Keeps s) :
    OutKeeps z (execStkDisTimeout n vout s) := by
  unfold execStkDisTimeout
  repeat' first
    | with_reducible assumption | with_reducible apply State.set_keeps | with_reducible apply State.due_keeps
    | with_reducible apply State.emitX_keeps | with_reducible apply State.raise_keeps | with_reducible apply State.dischargeOff_keeps
    | with_reducible apply outKeeps_next | with_reducible apply keeps_ite | (with_reducible exact fun k => k)
    | (intro _; with_reducible assumption) | dsimp only | split | intro _

theorem execMeasWindowEnd_keeps {z : State} (imean iout vout : List Int) (vpmid : Nat) (s : State) (hz : z.Keeps s) :
    OutKeeps z (execMeasWindowEnd imean iout vout vpmid s) := by
  unfold execMeasWindowEnd
  repeat' first
    | with_reducible assumption | with_reducible apply State.set_keeps | with_reducible apply State.setS_keeps
    | with_reducible apply State.due_keeps | with_reducible apply forEach_keeps | with_reducible apply forEach_keeps
    | with_reducible apply optKeeps_getD | with_reducible apply outKeeps_next | with_reducible apply keeps_ite
    | (with_reducible exact fun k => k) | (intro _; with_reducible assumption) | dsimp only | split | refine keeps_len ?_ id id id id id id id
    | exact keeps_mk ‹_› rfl rfl rfl rfl rfl rfl rfl | intro _

theorem State.stackPark_keeps {z : State} (s : State) (n : Nat) (hz : z.Keeps s) : z.Keeps (State.stackPark s n) := by
  unfold State.stackPark
  repeat' first
    | with_reducible assumption | with_reducible apply State.set_keeps | with_reducible apply State.setStk_keeps
    | with_reducible apply forEach_keeps | with_reducible apply State.tileOff_keeps | with_reducible apply State.tilesOff_keeps
    | with_reducible apply State.antEnd_keeps | with_reducible apply State.shedRest_keeps | with_reducible apply forEach_keeps
    | with_reducible apply keeps_ite | (with_reducible exact fun k => k) | (intro _; with_reducible assumption) | dsimp only | split
    | refine keeps_len ?_ id id id id id id id | exact keeps_mk ‹_› rfl rfl rfl rfl rfl rfl rfl | intro _

theorem State.ldoFrom_keeps {z : State} (s : State) (n v : Nat) (hz : z.Keeps s) : z.Keeps (State.ldoFrom s n v) := by
  unfold State.ldoFrom
  repeat' first
    | with_reducible assumption | with_reducible apply keeps_ite | (with_reducible exact fun k => k) | (intro _; with_reducible assumption)
    | dsimp only | split | exact keeps_mk ‹_› rfl rfl rfl rfl rfl rfl rfl | refine keeps_len ?_ id id id id id id id | intro _

theorem State.ldoRamp_keeps {z : State} (s : State) (n v : Nat) (hz : z.Keeps s) : z.Keeps (State.ldoRamp s n v) := by
  unfold State.ldoRamp
  repeat' first
    | with_reducible assumption | with_reducible apply State.set_keeps | with_reducible apply State.ldoFrom_keeps
    | with_reducible apply keeps_ite | (with_reducible exact fun k => k) | (intro _; with_reducible assumption) | dsimp only | split | intro _

theorem State.residue_keeps {z : State} (s : State) (v : Nat) (hz : z.Keeps s) : z.Keeps (State.residue s v).2 := by
  unfold State.residue
  repeat' first
    | with_reducible assumption | with_reducible apply State.draw_keeps | with_reducible apply keeps_ite | (with_reducible exact fun k => k)
    | (intro _; with_reducible assumption) | dsimp only | split | intro _

theorem State.ldoEnable_keeps {z : State} (s : State) (n : Nat) (hz : z.Keeps s) : z.Keeps (State.ldoEnable s n) := by
  unfold State.ldoEnable
  repeat' first
    | with_reducible assumption | with_reducible apply State.set_keeps | with_reducible apply State.ldoRamp_keeps
    | with_reducible apply State.residue_keeps | with_reducible apply keeps_ite | (with_reducible exact fun k => k)
    | (intro _; with_reducible assumption) | dsimp only | split | intro _

theorem State.ldoCfgWrite_keeps {z : State} (s : State) (n : Nat) (t : State) (hz : z.Keeps s) (hzt : z.Keeps t) :
    z.Keeps (State.ldoCfgWrite s n t) := by
  unfold State.ldoCfgWrite
  repeat' first
    | with_reducible assumption | with_reducible apply State.ldoFrom_keeps | with_reducible apply State.ldoRamp_keeps
    | with_reducible apply keeps_ite | (with_reducible exact fun k => k) | (intro _; with_reducible assumption) | dsimp only | split | intro _

theorem State.lswEnable_keeps {z : State} (s : State) (n : Nat) (hz : z.Keeps s) : z.Keeps (State.lswEnable s n) := by
  unfold State.lswEnable
  repeat' first
    | with_reducible assumption | with_reducible apply State.set_keeps | with_reducible apply keeps_ite | (with_reducible exact fun k => k)
    | (intro _; with_reducible assumption) | dsimp only | split | refine keeps_len ?_ id id id id id id id
    | exact keeps_mk ‹_› rfl rfl rfl rfl rfl rfl rfl | intro _

theorem execLdoRampEnd_keeps {z : State} (n : Fin 8) (s : State) (hz : z.Keeps s) : OutKeeps z (execLdoRampEnd n s) := by
  unfold execLdoRampEnd
  repeat' first
    | with_reducible assumption | with_reducible apply State.set_keeps | with_reducible apply State.due_keeps
    | with_reducible apply outKeeps_next | with_reducible apply keeps_ite | (with_reducible exact fun k => k)
    | (intro _; with_reducible assumption) | dsimp only | split | intro _

theorem execLswRampEnd_keeps {z : State} (n : Fin 6) (s : State) (hz : z.Keeps s) : OutKeeps z (execLswRampEnd n s) := by
  unfold execLswRampEnd
  repeat' first
    | with_reducible assumption | with_reducible apply State.set_keeps | with_reducible apply State.due_keeps
    | with_reducible apply outKeeps_next | with_reducible apply keeps_ite | (with_reducible exact fun k => k)
    | (intro _; with_reducible assumption) | dsimp only | split | intro _

theorem execLdoPgAssert_keeps {z : State} (n : Fin 8) (s : State) (hz : z.Keeps s) : OutKeeps z (execLdoPgAssert n s) := by
  unfold execLdoPgAssert
  repeat' first
    | with_reducible assumption | with_reducible apply State.set_keeps | with_reducible apply State.refreshRaw_keeps
    | with_reducible apply outKeeps_next | with_reducible apply keeps_ite | (with_reducible exact fun k => k)
    | (intro _; with_reducible assumption) | dsimp only | split | intro _

theorem execLswPgAssert_keeps {z : State} (n : Fin 6) (s : State) (hz : z.Keeps s) : OutKeeps z (execLswPgAssert n s) := by
  unfold execLswPgAssert
  repeat' first
    | with_reducible assumption | with_reducible apply State.set_keeps | with_reducible apply State.refreshRaw_keeps
    | with_reducible apply outKeeps_next | with_reducible apply keeps_ite | (with_reducible exact fun k => k)
    | (intro _; with_reducible assumption) | dsimp only | split | intro _

theorem execLdoPgWithdraw_keeps {z : State} (n : Fin 8) (s : State) (hz : z.Keeps s) : OutKeeps z (execLdoPgWithdraw n s) := by
  unfold execLdoPgWithdraw
  repeat' first
    | with_reducible assumption | with_reducible apply State.set_keeps | with_reducible apply State.refreshRaw_keeps
    | with_reducible apply outKeeps_next | with_reducible apply keeps_ite | (with_reducible exact fun k => k)
    | (intro _; with_reducible assumption) | dsimp only | split | intro _

theorem execLswPgWithdraw_keeps {z : State} (n : Fin 6) (s : State) (hz : z.Keeps s) : OutKeeps z (execLswPgWithdraw n s) := by
  unfold execLswPgWithdraw
  repeat' first
    | with_reducible assumption | with_reducible apply State.set_keeps | with_reducible apply State.refreshRaw_keeps
    | with_reducible apply outKeeps_next | with_reducible apply keeps_ite | (with_reducible exact fun k => k)
    | (intro _; with_reducible assumption) | dsimp only | split | intro _

theorem execLdoCurrentLimit_keeps {z : State} (n : Fin 8) (s : State) (hz : z.Keeps s) : OutKeeps z (execLdoCurrentLimit n s) := by
  unfold execLdoCurrentLimit
  repeat' first
    | with_reducible assumption | with_reducible apply State.set_keeps | with_reducible apply outKeeps_next | with_reducible apply keeps_ite
    | (with_reducible exact fun k => k) | (intro _; with_reducible assumption) | dsimp only | split | refine keeps_len ?_ id id id id id id id
    | exact keeps_mk ‹_› rfl rfl rfl rfl rfl rfl rfl | intro _

theorem execLswCurrentLimit_keeps {z : State} (n : Fin 6) (s : State) (hz : z.Keeps s) : OutKeeps z (execLswCurrentLimit n s) := by
  unfold execLswCurrentLimit
  repeat' first
    | with_reducible assumption | with_reducible apply State.set_keeps | with_reducible apply outKeeps_next | with_reducible apply keeps_ite
    | (with_reducible exact fun k => k) | (intro _; with_reducible assumption) | dsimp only | split | refine keeps_len ?_ id id id id id id id
    | exact keeps_mk ‹_› rfl rfl rfl rfl rfl rfl rfl | intro _

theorem execLdoUvin_keeps {z : State} (n : Fin 8) (s : State) (hz : z.Keeps s) : OutKeeps z (execLdoUvin n s) := by
  unfold execLdoUvin
  repeat' first
    | with_reducible assumption | with_reducible apply State.set_keeps | with_reducible apply outKeeps_next | with_reducible apply keeps_ite
    | (with_reducible exact fun k => k) | (intro _; with_reducible assumption) | dsimp only | split | intro _

theorem State.emitOcp_keeps {z : State} (s : State) (kind n why colour : Nat) (hz : z.Keeps s) :
    z.Keeps (State.emitOcp s kind n why colour) := by
  unfold State.emitOcp
  repeat' first
    | with_reducible assumption | with_reducible apply State.emitC_keeps | with_reducible apply keeps_ite | (with_reducible exact fun k => k)
    | (intro _; with_reducible assumption) | dsimp only | split | intro _

theorem State.ldoTrip_keeps {z : State} (s : State) (n v : Nat) (hz : z.Keeps s) : z.Keeps (State.ldoTrip s n v) := by
  unfold State.ldoTrip
  repeat' first
    | with_reducible assumption | with_reducible apply State.set_keeps | with_reducible apply keeps_ite | (with_reducible exact fun k => k)
    | (intro _; with_reducible assumption) | dsimp only | split | refine keeps_len ?_ id id id id id id id
    | exact keeps_mk ‹_› rfl rfl rfl rfl rfl rfl rfl | intro _

theorem State.lswTrip_keeps {z : State} (s : State) (n : Nat) (hz : z.Keeps s) : z.Keeps (State.lswTrip s n) := by
  unfold State.lswTrip
  repeat' first
    | with_reducible assumption | with_reducible apply State.set_keeps | with_reducible apply keeps_ite | (with_reducible exact fun k => k)
    | (intro _; with_reducible assumption) | dsimp only | split | refine keeps_len ?_ id id id id id id id
    | exact keeps_mk ‹_› rfl rfl rfl rfl rfl rfl rfl | intro _

theorem execLdoOcpTrip_keeps {z : State} (n : Fin 8) (s : State) (hz : z.Keeps s) : OutKeeps z (execLdoOcpTrip n s) := by
  unfold execLdoOcpTrip
  repeat' first
    | with_reducible assumption | with_reducible apply State.set_keeps | with_reducible apply State.due_keeps
    | with_reducible apply State.refreshRaw_keeps | with_reducible apply State.raise_keeps | with_reducible apply State.emitOcp_keeps
    | with_reducible apply State.ldoTrip_keeps | with_reducible apply outKeeps_next | with_reducible apply keeps_ite
    | (with_reducible exact fun k => k) | (intro _; with_reducible assumption) | dsimp only | split | refine keeps_len ?_ id id id id id id id
    | exact keeps_mk ‹_› rfl rfl rfl rfl rfl rfl rfl | intro _

theorem execLswOcpTrip_keeps {z : State} (n : Fin 6) (s : State) (hz : z.Keeps s) : OutKeeps z (execLswOcpTrip n s) := by
  unfold execLswOcpTrip
  repeat' first
    | with_reducible assumption | with_reducible apply State.set_keeps | with_reducible apply State.due_keeps
    | with_reducible apply State.refreshRaw_keeps | with_reducible apply State.raise_keeps | with_reducible apply State.emitOcp_keeps
    | with_reducible apply State.lswTrip_keeps | with_reducible apply outKeeps_next | with_reducible apply keeps_ite
    | (with_reducible exact fun k => k) | (intro _; with_reducible assumption) | dsimp only | split | refine keeps_len ?_ id id id id id id id
    | exact keeps_mk ‹_› rfl rfl rfl rfl rfl rfl rfl | intro _

theorem execLswReverse_keeps {z : State} (n : Fin 6) (s : State) (hz : z.Keeps s) : OutKeeps z (execLswReverse n s) := by
  unfold execLswReverse
  repeat' first
    | with_reducible assumption | with_reducible apply State.set_keeps | with_reducible apply State.refreshRaw_keeps
    | with_reducible apply State.emitOcp_keeps | with_reducible apply State.lswTrip_keeps | with_reducible apply outKeeps_next
    | with_reducible apply keeps_ite | (with_reducible exact fun k => k) | (intro _; with_reducible assumption) | dsimp only | split | intro _

theorem execExternalPgInput_keeps {z : State} (k : Fin 12) (level : Bool) (s : State) (hz : z.Keeps s) :
    OutKeeps z (execExternalPgInput k level s) := by
  unfold execExternalPgInput
  repeat' first
    | with_reducible assumption | with_reducible apply State.refreshRaw_keeps | with_reducible apply outKeeps_next
    | with_reducible apply keeps_ite | (with_reducible exact fun k => k) | (intro _; with_reducible assumption) | dsimp only | split
    | refine keeps_len ?_ id id id id id id id | exact keeps_mk ‹_› rfl rfl rfl rfl rfl rfl rfl | intro _

theorem State.guardAction_keeps {z : State} (s : State) (g mode dur : Nat) (hz : z.Keeps s) : z.Keeps (State.guardAction s g mode dur) := by
  unfold State.guardAction
  repeat' first
    | with_reducible assumption | with_reducible apply State.set_keeps | with_reducible apply State.emit_keeps
    | with_reducible apply State.guardEnd_keeps | with_reducible apply keeps_ite | (with_reducible exact fun k => k)
    | (intro _; with_reducible assumption) | dsimp only | split | refine keeps_len ?_ id id id id id id id
    | exact keeps_mk ‹_› rfl rfl rfl rfl rfl rfl rfl | intro _

theorem execGuardDurationEnd_keeps {z : State} (n : Fin 2) (s : State) (hz : z.Keeps s) : OutKeeps z (execGuardDurationEnd n s) := by
  unfold execGuardDurationEnd
  repeat' first
    | with_reducible assumption | with_reducible apply State.due_keeps | with_reducible apply State.guardEnd_keeps
    | with_reducible apply outKeeps_next | with_reducible apply keeps_ite | (with_reducible exact fun k => k)
    | (intro _; with_reducible assumption) | dsimp only | split | intro _

theorem State.guardReleased_keeps {z : State} (s : State) (g : Nat) (hz : z.Keeps s) : z.Keeps (State.guardReleased s g) := by
  unfold State.guardReleased
  repeat' first
    | with_reducible assumption | with_reducible apply State.guardEnd_keeps | with_reducible apply keeps_ite | (with_reducible exact fun k => k)
    | (intro _; with_reducible assumption) | dsimp only | split | refine keeps_len ?_ id id id id id id id
    | exact keeps_mk ‹_› rfl rfl rfl rfl rfl rfl rfl | intro _

theorem State.releaseWrite_keeps {z : State} (s : State) (v : Nat) (hz : z.Keeps s) : z.Keeps (State.releaseWrite s v) := by
  unfold State.releaseWrite
  repeat' first
    | with_reducible assumption | with_reducible apply State.guardReleased_keeps | with_reducible apply keeps_ite
    | (with_reducible exact fun k => k) | (intro _; with_reducible assumption) | dsimp only | split | intro _

theorem execGuardRelease_keeps {z : State} (v : Word) (s : State) (hz : z.Keeps s) : OutKeeps z (execGuardRelease v s) := by
  unfold execGuardRelease
  repeat' first
    | with_reducible assumption | with_reducible apply State.bus_keeps | with_reducible apply State.releaseWrite_keeps
    | with_reducible apply outKeeps_next | with_reducible apply keeps_ite | (with_reducible exact fun k => k)
    | (intro _; with_reducible assumption) | dsimp only | split | intro _

theorem execGuardFault_keeps {z : State} (n : Fin 2) (bit : Fin 4) (vsrc : Nat) (s : State) (hz : z.Keeps s) :
    OutKeeps z (execGuardFault n bit vsrc s) := by
  unfold execGuardFault
  repeat' first
    | with_reducible assumption | with_reducible apply State.set_keeps | with_reducible apply State.due_keeps
    | with_reducible apply State.emitC_keeps | with_reducible apply State.guardEnd_keeps | with_reducible apply State.raise_keeps
    | with_reducible apply outKeeps_next | with_reducible apply keeps_ite | (with_reducible exact fun k => k)
    | (intro _; with_reducible assumption) | dsimp only | split | intro _

end Sys2Proof.Machine
end

