-- ==== Sys2Proof/Laws/KeepsSeq.lean ====
section
/-! SUPPORT. `State.Keeps` of the sequencer, the fault reactions, the power path and the thermal block: one lemma for every operation that answers a state. -/

set_option linter.all false

namespace Sys2Proof.Machine

theorem State.conditionBits_keeps {z : State} (s : State) (src : Nat) (b : Bool) (hz : z.Keeps s) :
    z.Keeps (State.conditionBits s src b) := by
  unfold State.conditionBits
  repeat' first
    | with_reducible assumption | with_reducible apply State.put_keeps | with_reducible apply keeps_ite | (with_reducible exact fun k => k)
    | (intro _; with_reducible assumption) | dsimp only | split | intro _

theorem State.journalBadAt_keeps {z : State} (s : State) (a : Nat) (h : z.Keeps s) : z.Keeps (State.journalBadAt s a) := by
  unfold State.journalBadAt
  split
  · exact h
  · exact keeps_nv h fun w => w

theorem execFaultConditionEnd_keeps {z : State} (src : Fin 41) (s : State) (hz : z.Keeps s) : OutKeeps z (execFaultConditionEnd src s) := by
  unfold execFaultConditionEnd
  repeat' first
    | with_reducible assumption | with_reducible apply State.unraise_keeps | with_reducible apply State.conditionBits_keeps
    | with_reducible apply outKeeps_next | with_reducible apply keeps_ite | (with_reducible exact fun k => k)
    | (intro _; with_reducible assumption) | dsimp only | split | intro _

theorem State.pendClear_keeps {z : State} (s : State) (m v : Nat) (hz : z.Keeps s) : z.Keeps (State.pendClear s m v) := by
  unfold State.pendClear
  repeat' first
    | with_reducible assumption | with_reducible apply State.set_keeps | with_reducible apply keeps_ite | (with_reducible exact fun k => k)
    | (intro _; with_reducible assumption) | dsimp only | split | intro _

theorem execFltPendClear_keeps {z : State} (m : Fin 2) (v : Word) (s : State) (hz : z.Keeps s) : OutKeeps z (execFltPendClear m v s) := by
  unfold execFltPendClear
  repeat' first
    | with_reducible assumption | with_reducible apply State.bus_keeps | with_reducible apply State.pendClear_keeps
    | with_reducible apply outKeeps_next | with_reducible apply keeps_ite | (with_reducible exact fun k => k)
    | (intro _; with_reducible assumption) | dsimp only | split | intro _

theorem State.engHalt_keeps {z : State} (s : State) (addr start : Nat) (hz : z.Keeps s) : z.Keeps (State.engHalt s addr start) := by
  unfold State.engHalt
  repeat' first
    | with_reducible assumption | with_reducible apply State.set_keeps | with_reducible apply State.emitX_keeps | with_reducible apply keeps_ite
    | (with_reducible exact fun k => k) | (intro _; with_reducible assumption) | dsimp only | split | intro _

theorem State.microBad_keeps {z : State} (s : State) (a : Nat) (hz : z.Keeps s) : z.Keeps (State.microBad s a) := by
  unfold State.microBad
  repeat' first
    | with_reducible assumption | with_reducible apply State.checkerRaise_keeps | with_reducible apply State.engHalt_keeps
    | with_reducible apply keeps_ite | (with_reducible exact fun k => k) | (intro _; with_reducible assumption) | dsimp only | split | intro _

theorem execEngHalt_keeps {z : State} (addr : Nat) (s : State) (hz : z.Keeps s) : OutKeeps z (execEngHalt addr s) := by
  unfold execEngHalt
  repeat' first
    | with_reducible assumption | with_reducible apply State.checkerRaise_keeps | with_reducible apply State.engHalt_keeps
    | with_reducible apply outKeeps_next | with_reducible apply keeps_ite | (with_reducible exact fun k => k)
    | (intro _; with_reducible assumption) | dsimp only | split | intro _

theorem execFaultRaise_keeps {z : State} (src : Fin 41) (detail : BitVec 16) (s : State) (hz : z.Keeps s) :
    OutKeeps z (execFaultRaise src detail s) := by
  unfold execFaultRaise
  repeat' first
    | with_reducible assumption | with_reducible apply State.checkerRaise_keeps | with_reducible apply State.conditionBits_keeps
    | with_reducible apply State.journalBadAt_keeps | with_reducible apply State.microBad_keeps | with_reducible apply outKeeps_next
    | with_reducible apply keeps_ite | (with_reducible exact fun k => k) | (intro _; with_reducible assumption) | dsimp only | split | intro _

theorem State.scrubDue_keeps {z : State} (s : State) (mem : Nat) (hz : z.Keeps s) : z.Keeps (State.scrubDue s mem) := by
  unfold State.scrubDue
  repeat' first
    | with_reducible assumption | with_reducible apply State.due_keeps | with_reducible apply keeps_ite | (with_reducible exact fun k => k)
    | (intro _; with_reducible assumption) | dsimp only | split | refine keeps_len ?_ id id id id id id id
    | exact keeps_mk ‹_› rfl rfl rfl rfl rfl rfl rfl | intro _

theorem State.scrubWord_keeps {z : State} (s : State) (mem err a : Nat) (hz : z.Keeps s) : z.Keeps (State.scrubWord s mem err a) := by
  unfold State.scrubWord
  repeat' first
    | with_reducible assumption | with_reducible apply State.incSatF_keeps | with_reducible apply State.checkerRaise_keeps
    | with_reducible apply State.microBad_keeps | with_reducible apply keeps_ite | (with_reducible exact fun k => k)
    | (intro _; with_reducible assumption) | dsimp only | split | refine keeps_len ?_ id id id id id id id
    | exact keeps_mk ‹_› rfl rfl rfl rfl rfl rfl rfl | intro _

theorem execMemoryScrub_keeps {z : State} (mem : Fin 4) (err : Fin 3) (addr : BitVec 16) (s : State) (hz : z.Keeps s) :
    OutKeeps z (execMemoryScrub mem err addr s) := by
  unfold execMemoryScrub
  repeat' first
    | with_reducible assumption | with_reducible apply State.scrubDue_keeps | with_reducible apply State.scrubWord_keeps
    | with_reducible apply outKeeps_next | with_reducible apply keeps_ite | (with_reducible exact fun k => k)
    | (intro _; with_reducible assumption) | dsimp only | split | intro _

theorem execFaultLogRetry_keeps {z : State} (s : State) (hz : z.Keeps s) : OutKeeps z (execFaultLogRetry s) := by
  unfold execFaultLogRetry
  repeat' first
    | with_reducible assumption | with_reducible apply State.due_keeps | with_reducible apply State.logTokensFill_keeps
    | with_reducible apply outKeeps_next | with_reducible apply keeps_ite | (with_reducible exact fun k => k)
    | (intro _; with_reducible assumption) | dsimp only | split | intro _

theorem State.injWrite_keeps {z : State} (s : State) (v : Nat) (hz : z.Keeps s) : z.Keeps (State.injWrite s v) := by
  unfold State.injWrite
  repeat' first
    | with_reducible assumption | with_reducible apply State.set_keeps | with_reducible apply keeps_ite | (with_reducible exact fun k => k)
    | (intro _; with_reducible assumption) | dsimp only | split | refine keeps_len ?_ id id id id id id id
    | exact keeps_mk ‹_› rfl rfl rfl rfl rfl rfl rfl | intro _

theorem execFltInjArm_keeps {z : State} (v : Word) (s : State) (hz : z.Keeps s) : OutKeeps z (execFltInjArm v s) := by
  unfold execFltInjArm
  repeat' first
    | with_reducible assumption | with_reducible apply State.bus_keeps | with_reducible apply State.injWrite_keeps
    | with_reducible apply outKeeps_next | with_reducible apply keeps_ite | (with_reducible exact fun k => k)
    | (intro _; with_reducible assumption) | dsimp only | split | intro _

theorem execInjFail_keeps {z : State} (s : State) (hz : z.Keeps s) : OutKeeps z (execInjFail s) := by
  unfold execInjFail
  repeat' first
    | with_reducible assumption | with_reducible apply State.set_keeps | with_reducible apply State.due_keeps
    | with_reducible apply State.raise_keeps | with_reducible apply outKeeps_next | with_reducible apply keeps_ite
    | (with_reducible exact fun k => k) | (intro _; with_reducible assumption) | dsimp only | split | intro _

theorem State.copyWords_keeps {z : State} (s : State) (a n : Nat) (l : List Byte) (hz : z.Keeps s) : z.Keeps (State.copyWords s a n l) := by
  unfold State.copyWords
  repeat' first
    | with_reducible assumption | with_reducible apply State.set_keeps | with_reducible apply forEach_keeps | with_reducible apply forEach_keeps
    | with_reducible apply keeps_ite | (with_reducible exact fun k => k) | (intro _; with_reducible assumption) | dsimp only | split | intro _

theorem State.logIdxWrite_keeps {z : State} (s : State) (v : Nat) (hz : z.Keeps s) : z.Keeps (State.logIdxWrite s v) := by
  unfold State.logIdxWrite
  repeat' first
    | with_reducible assumption | with_reducible apply State.set_keeps | with_reducible apply State.injCheck_keeps
    | with_reducible apply State.copyWords_keeps | with_reducible apply keeps_ite | (with_reducible exact fun k => k)
    | (intro _; with_reducible assumption) | dsimp only | split | intro _

theorem execFltLogIdxWrite_keeps {z : State} (v : Word) (s : State) (hz : z.Keeps s) : OutKeeps z (execFltLogIdxWrite v s) := by
  unfold execFltLogIdxWrite
  repeat' first
    | with_reducible assumption | with_reducible apply State.bus_keeps | with_reducible apply State.logIdxWrite_keeps
    | with_reducible apply outKeeps_next | with_reducible apply keeps_ite | (with_reducible exact fun k => k)
    | (intro _; with_reducible assumption) | dsimp only | split | intro _

theorem forBits_keeps {z : State} (w m : Nat) (f : Nat → State → State) (hf : ∀ n t, z.Keeps t → z.Keeps (f n t)) (s : State) (h : z.Keeps s) :
    z.Keeps (forBits w m f s) := forEach_keeps _ f hf s h

theorem State.domEnable_keeps {z : State} (s : State) (d : Nat) (vos : List Nat) (hz : z.Keeps s) : z.Keeps (State.domEnable s d vos) := by
  unfold State.domEnable
  repeat' first
    | with_reducible assumption | with_reducible apply State.putBitF_keeps | with_reducible apply State.setDom_keeps
    | with_reducible apply State.refreshRaw_keeps | with_reducible apply State.setDomState_keeps | with_reducible apply State.driveEnables_keeps
    | with_reducible apply State.stackEnable_keeps | with_reducible apply State.ldoEnable_keeps | with_reducible apply State.lswEnable_keeps
    | with_reducible apply forBits_keeps | with_reducible apply forBits_keeps | with_reducible apply optKeeps_getD
    | with_reducible apply keeps_ite | (with_reducible exact fun k => k) | (intro _; with_reducible assumption) | dsimp only | split
    | refine keeps_len ?_ id id id id id id id | exact keeps_mk ‹_› rfl rfl rfl rfl rfl rfl rfl | intro _

theorem State.domDisable_keeps {z : State} (s : State) (d : Nat) (hz : z.Keeps s) : z.Keeps (State.domDisable s d) := by
  unfold State.domDisable
  repeat' first
    | with_reducible assumption | with_reducible apply State.putBitF_keeps | with_reducible apply State.refreshRaw_keeps
    | with_reducible apply State.ldoOff_keeps | with_reducible apply State.ldoClear_keeps | with_reducible apply State.lswOff_keeps
    | with_reducible apply State.lswClear_keeps | with_reducible apply State.driveEnables_keeps | with_reducible apply State.contactsEnd_keeps
    | with_reducible apply State.stackDisable_keeps | with_reducible apply forBits_keeps | with_reducible apply forBits_keeps
    | with_reducible apply keeps_ite | (with_reducible exact fun k => k) | (intro _; with_reducible assumption) | dsimp only | split | intro _

theorem State.setSeq_keeps {z : State} (s : State) (x : Seq) (h : z.Keeps s) (hq : s.seq.queue.length ≤ 8 → x.queue.length ≤ 8) :
    z.Keeps (State.setSeq s x) := keeps_len h id id id id hq id id

theorem State.setPhase_keeps {z : State} (s : State) (p : Nat) (hz : z.Keeps s) : z.Keeps (State.setPhase s p) := by
  unfold State.setPhase
  repeat' first
    | with_reducible assumption | with_reducible apply State.set_keeps | with_reducible apply keeps_ite | (with_reducible exact fun k => k)
    | (intro _; with_reducible assumption) | dsimp only | split | intro _

theorem State.setStage_keeps {z : State} (s : State) (x : StepStage) (hz : z.Keeps s) : z.Keeps (State.setStage s x) := by
  unfold State.setStage
  repeat' first
    | with_reducible assumption | with_reducible apply keeps_ite | (with_reducible exact fun k => k) | (intro _; with_reducible assumption)
    | dsimp only | split | exact keeps_mk ‹_› rfl rfl rfl rfl rfl rfl rfl | refine keeps_len ?_ id id id id id id id | intro _

theorem State.reqDrop_keeps {z : State} (s : State) (code b : Nat) (hz : z.Keeps s) : z.Keeps (State.reqDrop s code b) := by
  unfold State.reqDrop
  repeat' first
    | with_reducible assumption | with_reducible apply State.incSatF_keeps | with_reducible apply State.emit_keeps
    | with_reducible apply keeps_ite | (with_reducible exact fun k => k) | (intro _; with_reducible assumption) | dsimp only | split | intro _

theorem State.progStart_keeps {z : State} (s : State) (p reason ofs : Nat) (hz : z.Keeps s) : z.Keeps (State.progStart s p reason ofs) := by
  unfold State.progStart
  repeat' first
    | with_reducible assumption | with_reducible apply State.set_keeps | with_reducible apply State.emit_keeps
    | with_reducible apply State.gaugeCommit_keeps | with_reducible apply State.updStop_keeps | with_reducible apply keeps_ite
    | (with_reducible exact fun k => k) | (intro _; with_reducible assumption) | dsimp only | split | refine keeps_len ?_ id id id id id id id
    | exact keeps_mk ‹_› rfl rfl rfl rfl rfl rfl rfl | intro _

theorem State.upOrDwell_keeps {z : State} (s : State) (reason : Nat) (hz : z.Keeps s) : z.Keeps (State.upOrDwell s reason) := by
  unfold State.upOrDwell
  repeat' first
    | with_reducible assumption | with_reducible apply State.setPhase_keeps | with_reducible apply State.progStart_keeps
    | with_reducible apply keeps_ite | (with_reducible exact fun k => k) | (intro _; with_reducible assumption) | dsimp only | split
    | refine keeps_len ?_ id id id id id id id | exact keeps_mk ‹_› rfl rfl rfl rfl rfl rfl rfl | intro _

theorem State.wakeBoot_keeps {z : State} (s : State) (hz : z.Keeps s) : z.Keeps (State.wakeBoot s) := by
  unfold State.wakeBoot
  repeat' first
    | with_reducible assumption | with_reducible apply State.enterBoot_keeps | with_reducible apply State.raiseAll_keeps
    | with_reducible apply keeps_ite | (with_reducible exact fun k => k) | (intro _; with_reducible assumption) | dsimp only | split
    | refine keeps_len ?_ id id id id id id id | exact keeps_mk ‹_› rfl rfl rfl rfl rfl rfl rfl | intro _

theorem State.hibernate_keeps {z : State} (s : State) (hz : z.Keeps s) : z.Keeps (State.hibernate s) := by
  unfold State.hibernate
  repeat' first
    | with_reducible assumption | with_reducible apply State.enterHibernate_keeps | with_reducible apply State.wakeBoot_keeps
    | with_reducible apply keeps_ite | (with_reducible exact fun k => k) | (intro _; with_reducible assumption) | dsimp only | split | intro _

theorem State.pmidTake_keeps {z : State} (s : State) (hz : z.Keeps s) : z.Keeps (State.pmidTake s) := by
  unfold State.pmidTake
  repeat' first
    | with_reducible assumption | with_reducible apply State.set_keeps | with_reducible apply State.setSeq_keeps
    | with_reducible apply State.reqDrop_keeps | with_reducible apply keeps_ite | (with_reducible exact fun k => k)
    | (intro _; with_reducible assumption) | dsimp only | split | refine keeps_len ?_ id id id id id id id
    | exact keeps_mk ‹_› rfl rfl rfl rfl rfl rfl rfl | exact fun k => k | intro _

theorem State.pmidProgram_keeps {z : State} (s : State) (hz : z.Keeps s) : z.Keeps (State.pmidProgram s) := by
  unfold State.pmidProgram
  repeat' first
    | with_reducible assumption | with_reducible apply State.set_keeps | with_reducible apply State.emit_keeps
    | with_reducible apply State.setSeq_keeps | with_reducible apply State.setPhase_keeps | with_reducible apply State.progStart_keeps
    | with_reducible apply State.pmidTake_keeps | with_reducible apply keeps_ite | (with_reducible exact fun k => k)
    | (intro _; with_reducible assumption) | dsimp only | split | refine keeps_len ?_ id id id id id id id
    | exact keeps_mk ‹_› rfl rfl rfl rfl rfl rfl rfl | exact fun k => k | intro _

theorem State.actPending_keeps {z : State} (s : State) (hz : z.Keeps s) : z.Keeps (State.actPending s) := by
  unfold State.actPending
  repeat' first
    | with_reducible assumption | with_reducible apply State.set_keeps | with_reducible apply State.setPhase_keeps
    | with_reducible apply State.progStart_keeps | with_reducible apply State.upOrDwell_keeps | with_reducible apply State.hibernate_keeps
    | with_reducible apply keeps_ite | (with_reducible exact fun k => k) | (intro _; with_reducible assumption) | dsimp only | split
    | refine keeps_len ?_ id id id id id id id | exact keeps_mk ‹_› rfl rfl rfl rfl rfl rfl rfl | intro _

theorem State.failRecord_keeps {z : State} (s : State) (d cause mask : Nat) (hz : z.Keeps s) :
    z.Keeps (State.failRecord s d cause mask) := by
  unfold State.failRecord
  repeat' first
    | with_reducible assumption | with_reducible apply State.set_keeps | with_reducible apply State.put_keeps
    | with_reducible apply State.incSatF_keeps | with_reducible apply State.putBitF_keeps | with_reducible apply State.emitC_keeps
    | with_reducible apply State.setDomState_keeps | with_reducible apply State.raise_keeps | with_reducible apply keeps_ite
    | (with_reducible exact fun k => k) | (intro _; with_reducible assumption) | dsimp only | split | refine keeps_len ?_ id id id id id id id
    | exact keeps_mk ‹_› rfl rfl rfl rfl rfl rfl rfl | intro _

theorem State.parkFailsOut_keeps {z : State} (s : State) (hz : z.Keeps s) : z.Keeps (State.parkFailsOut s) := by
  unfold State.parkFailsOut
  repeat' first
    | with_reducible assumption | with_reducible apply State.emitC_keeps | with_reducible apply State.raiseAll_keeps
    | with_reducible apply foldl_keeps | with_reducible apply keeps_ite | (with_reducible exact fun k => k)
    | (intro _; with_reducible assumption) | dsimp only | split | refine keeps_len ?_ id id id id id id id
    | exact keeps_mk ‹_› rfl rfl rfl rfl rfl rfl rfl | intro _

theorem State.tier_keeps {z : State} (s : State) (h : z.Keeps s) : z.Keeps (State.tier s) := by
  unfold State.tier
  split
  · exact h
  · refine State.setSeq_keeps _ _ (forEach_keeps _ _ (fun m t k => ?_) _ h) id
    dsimp only
    split
    · exact State.domDisable_keeps _ _ k
    · exact State.setDomState_keeps _ _ _ (State.domDisable_keeps _ _ k)

theorem State.shutBegin_keeps {z : State} (s : State) (j : TierJob) (mask left : Nat) (hz : z.Keeps s) :
    z.Keeps (State.shutBegin s j mask left) := by
  unfold State.shutBegin
  repeat' first
    | with_reducible assumption | with_reducible apply State.tier_keeps | with_reducible apply keeps_ite | (with_reducible exact fun k => k)
    | (intro _; with_reducible assumption) | dsimp only | split | refine keeps_len ?_ id id id id id id id
    | exact keeps_mk ‹_› rfl rfl rfl rfl rfl rfl rfl | intro _

theorem State.failBegin_keeps {z : State} (s : State) (d cause : Nat) (hz : z.Keeps s) : z.Keeps (State.failBegin s d cause) := by
  unfold State.failBegin
  repeat' first
    | with_reducible assumption | with_reducible apply forEach_keeps | with_reducible apply State.setDomState_keeps
    | with_reducible apply State.shutBegin_keeps | with_reducible apply forEach_keeps | with_reducible apply keeps_ite
    | (with_reducible exact fun k => k) | (intro _; with_reducible assumption) | dsimp only | split | intro _

theorem State.progEnd_keeps {z : State} (s : State) (reason : Nat) (hz : z.Keeps s) : z.Keeps (State.progEnd s reason) := by
  unfold State.progEnd
  repeat' first
    | with_reducible assumption | with_reducible apply State.set_keeps | with_reducible apply State.emitC_keeps
    | with_reducible apply State.residue_keeps | with_reducible apply State.setPhase_keeps | with_reducible apply State.setStage_keeps
    | with_reducible apply State.progStart_keeps | with_reducible apply State.shutBegin_keeps | with_reducible apply keeps_ite
    | (with_reducible exact fun k => k) | (intro _; with_reducible assumption) | dsimp only | split | refine keeps_len ?_ id id id id id id id
    | exact keeps_mk ‹_› rfl rfl rfl rfl rfl rfl rfl | intro _

theorem State.downComplete_keeps {z : State} (s : State) (hz : z.Keeps s) : z.Keeps (State.downComplete s) := by
  unfold State.downComplete
  repeat' first
    | with_reducible assumption | with_reducible apply State.set_keeps | with_reducible apply forEach_keeps
    | with_reducible apply State.setDomState_keeps | with_reducible apply State.markDown_keeps | with_reducible apply State.resetFinish_keeps
    | with_reducible apply State.setPhase_keeps | with_reducible apply State.hibernate_keeps | with_reducible apply forEach_keeps
    | with_reducible apply keeps_ite | (with_reducible exact fun k => k) | (intro _; with_reducible assumption) | dsimp only | split | intro _

theorem State.shutEnd_keeps {z : State} (s : State) (x : Shutdown) (hz : z.Keeps s) : z.Keeps (State.shutEnd s x) := by
  unfold State.shutEnd
  repeat' first
    | with_reducible assumption | with_reducible apply State.set_keeps | with_reducible apply State.emit_keeps
    | with_reducible apply State.residue_keeps | with_reducible apply State.setStage_keeps | with_reducible apply State.failRecord_keeps
    | with_reducible apply keeps_ite | (with_reducible exact fun k => k) | (intro _; with_reducible assumption) | dsimp only | split
    | refine keeps_len ?_ id id id id id id id | exact keeps_mk ‹_› rfl rfl rfl rfl rfl rfl rfl | intro _

theorem State.failAction_keeps {z : State} (s : State) (hz : z.Keeps s) : z.Keeps (State.failAction s) := by
  unfold State.failAction
  repeat' first
    | with_reducible assumption | with_reducible apply State.setStage_keeps | with_reducible apply State.progEnd_keeps
    | with_reducible apply keeps_ite | (with_reducible exact fun k => k) | (intro _; with_reducible assumption) | dsimp only | split
    | refine keeps_len ?_ id id id id id id id | exact keeps_mk ‹_› rfl rfl rfl rfl rfl rfl rfl | intro _

theorem State.settle_keeps {z : State} (n : Nat) (s : State) (h : z.Keeps s) : z.Keeps (State.settle n s) := by
  induction n generalizing s with
  | zero => exact h
  | succ n ih =>
    rw [State.settle]
    split
    · split
      · exact ih _ (State.shutEnd_keeps _ _ h)
      · exact h
    · split
      · dsimp only
        split
        · exact ih _ (keeps_mk h rfl rfl rfl rfl rfl rfl rfl)
        · exact ih _ (State.failBegin_keeps _ _ _ (keeps_mk h rfl rfl rfl rfl rfl rfl rfl))
      · split
        · exact ih _ (State.failAction_keeps _ h)
        · split
          · exact keeps_ite (fun _ => ih _ (State.pmidTake_keeps _ h)) fun _ => State.pmidProgram_keeps _ h
          · exact keeps_ite (fun _ => ih _ (State.downComplete_keeps _ h)) fun _ => State.actPending_keeps _ h

theorem State.settled_keeps {z : State} (s : State) (h : z.Keeps s) : z.Keeps (State.settled s) := by
  exact State.settle_keeps _ _ h

theorem State.domFailQ_keeps {z : State} (s : State) (d cause : Nat) (hz : z.Keeps s) : z.Keeps (State.domFailQ s d cause) := by
  unfold State.domFailQ
  repeat' first
    | with_reducible assumption | with_reducible apply keeps_ite | (with_reducible exact fun k => k) | (intro _; with_reducible assumption)
    | dsimp only | split | exact keeps_mk ‹_› rfl rfl rfl rfl rfl rfl rfl | refine keeps_len ?_ id id id id id id id | intro _

theorem State.domFail_keeps {z : State} (s : State) (d cause : Nat) (hz : z.Keeps s) : z.Keeps (State.domFail s d cause) := by
  unfold State.domFail
  repeat' first
    | with_reducible assumption | with_reducible apply State.settled_keeps | with_reducible apply State.domFailQ_keeps
    | with_reducible apply keeps_ite | (with_reducible exact fun k => k) | (intro _; with_reducible assumption) | dsimp only | split | intro _

theorem State.shutAbort_keeps {z : State} (s : State) (hz : z.Keeps s) : z.Keeps (State.shutAbort s) := by
  unfold State.shutAbort
  repeat' first
    | with_reducible assumption | with_reducible apply State.setStage_keeps | with_reducible apply State.failRecord_keeps
    | with_reducible apply State.failAction_keeps | with_reducible apply foldl_keeps | with_reducible apply keeps_ite
    | (with_reducible exact fun k => k) | (intro _; with_reducible assumption) | dsimp only | split | refine keeps_len ?_ id id id id id id id
    | exact keeps_mk ‹_› rfl rfl rfl rfl rfl rfl rfl | intro _

theorem State.pmidRequest_keeps {z : State} (s : State) (hz : z.Keeps s) : z.Keeps (State.pmidRequest s) := by
  unfold State.pmidRequest
  repeat' first
    | with_reducible assumption | with_reducible apply State.setStage_keeps | with_reducible apply State.pmidTake_keeps
    | with_reducible apply State.parkFailsOut_keeps | with_reducible apply State.settled_keeps | with_reducible apply State.shutAbort_keeps
    | with_reducible apply keeps_ite | (with_reducible exact fun k => k) | (intro _; with_reducible assumption) | dsimp only | split
    | refine keeps_len ?_ id id id id id id id | exact keeps_mk ‹_› rfl rfl rfl rfl rfl rfl rfl | intro _

theorem State.seqPush_keeps {z : State} (s : State) (code : Nat) (frame : Option Nat) (hz : z.Keeps s) :
    z.Keeps (State.seqPush s code frame) := by
  unfold State.seqPush
  repeat' first
    | with_reducible assumption | with_reducible apply State.set_keeps | with_reducible apply State.injCheck_keeps
    | with_reducible apply keeps_ite | (with_reducible exact fun k => k) | (intro _; with_reducible assumption) | dsimp only | split
    | with_reducible apply keeps_len | exact fun k => k | intro _
  all_goals first | exact ‹_› | exact Nat.zero_le _ | exact List.Pairwise.nil | exact Nat.le_trans (List.length_filter_le _ _) ‹_› | exact Nat.le_trans (takeFirst_length ‹_›) ‹_› | (simp only [List.length_append, List.length_take, List.length_drop, List.length_map, List.length_singleton, State.adcUsed] at *; omega) | (simp_all only [List.length_cons, List.length_append, List.length_take, List.length_drop]; omega)

theorem State.treqWrite_keeps {z : State} (s : State) (hz : z.Keeps s) : z.Keeps (State.treqWrite s) := by
  unfold State.treqWrite
  repeat' first
    | with_reducible assumption | with_reducible apply State.setPp_keeps | with_reducible apply keeps_ite | (with_reducible exact fun k => k)
    | (intro _; with_reducible assumption) | dsimp only | split | refine keeps_len ?_ id id id id id id id
    | exact keeps_mk ‹_› rfl rfl rfl rfl rfl rfl rfl | intro _

theorem State.handOver_keeps {z : State} (s : State) (hz : z.Keeps s) : z.Keeps (State.handOver s) := by
  unfold State.handOver
  repeat' first
    | with_reducible assumption | with_reducible apply State.setPp_keeps | with_reducible apply keeps_ite | (with_reducible exact fun k => k)
    | (intro _; with_reducible assumption) | dsimp only | split | refine keeps_len ?_ id id id id id id id
    | exact keeps_mk ‹_› rfl rfl rfl rfl rfl rfl rfl | intro _

theorem State.chgReset_keeps {z : State} (s : State) (hz : z.Keeps s) : z.Keeps (State.chgReset s) := by
  unfold State.chgReset
  repeat' first
    | with_reducible assumption | with_reducible apply State.setChg_keeps | with_reducible apply keeps_ite | (with_reducible exact fun k => k)
    | (intro _; with_reducible assumption) | dsimp only | split | refine keeps_len ?_ id id id id id id id
    | exact keeps_mk ‹_› rfl rfl rfl rfl rfl rfl rfl | intro _

theorem State.safeReset_keeps {z : State} (s : State) (hz : z.Keeps s) : z.Keeps (State.safeReset s) := by
  unfold State.safeReset
  repeat' first
    | with_reducible assumption | with_reducible apply State.setChg_keeps | with_reducible apply keeps_ite | (with_reducible exact fun k => k)
    | (intro _; with_reducible assumption) | dsimp only | split | refine keeps_len ?_ id id id id id id id
    | exact keeps_mk ‹_› rfl rfl rfl rfl rfl rfl rfl | intro _

theorem State.chgFault_keeps {z : State} (s : State) (f : FRef) (vbat : Nat) (hz : z.Keeps s) : z.Keeps (State.chgFault s f vbat) := by
  unfold State.chgFault
  repeat' first
    | with_reducible assumption | with_reducible apply State.set_keeps | with_reducible apply State.emitC_keeps
    | with_reducible apply State.chgTo_keeps | with_reducible apply State.raise_keeps | with_reducible apply keeps_ite
    | (with_reducible exact fun k => k) | (intro _; with_reducible assumption) | dsimp only | split | intro _

theorem State.chgEnable_keeps {z : State} (s : State) (wasOn : Bool) (vbat : Nat) (hz : z.Keeps s) :
    z.Keeps (State.chgEnable s wasOn vbat) := by
  unfold State.chgEnable
  repeat' first
    | with_reducible assumption | with_reducible apply State.chgTo_keeps | with_reducible apply State.chgCheck_keeps
    | with_reducible apply State.chgReset_keeps | with_reducible apply keeps_ite | (with_reducible exact fun k => k)
    | (intro _; with_reducible assumption) | dsimp only | split | intro _

theorem State.chgCfgWrite_keeps {z : State} (s : State) (v vbat : Nat) (hz : z.Keeps s) : z.Keeps (State.chgCfgWrite s v vbat) := by
  unfold State.chgCfgWrite
  repeat' first
    | with_reducible assumption | with_reducible apply State.setDisc_keeps | with_reducible apply State.storeAcc_keeps
    | with_reducible apply State.chgEnable_keeps | with_reducible apply keeps_ite | (with_reducible exact fun k => k)
    | (intro _; with_reducible assumption) | dsimp only | split | intro _

theorem execChgEnableWrite_keeps {z : State} (v : Word) (vbat : Nat) (s : State) (hz : z.Keeps s) :
    OutKeeps z (execChgEnableWrite v vbat s) := by
  unfold execChgEnableWrite
  repeat' first
    | with_reducible assumption | with_reducible apply State.bus_keeps | with_reducible apply State.chgCfgWrite_keeps
    | with_reducible apply outKeeps_next | with_reducible apply keeps_ite | (with_reducible exact fun k => k)
    | (intro _; with_reducible assumption) | dsimp only | split | intro _

theorem State.chgFaultWrite_keeps {z : State} (s : State) (v vbat : Nat) (hz : z.Keeps s) : z.Keeps (State.chgFaultWrite s v vbat) := by
  unfold State.chgFaultWrite
  repeat' first
    | with_reducible assumption | with_reducible apply State.chgTo_keeps | with_reducible apply State.clearW1c_keeps
    | with_reducible apply State.unraise_keeps | with_reducible apply State.chgReset_keeps | with_reducible apply keeps_ite
    | (with_reducible exact fun k => k) | (intro _; with_reducible assumption) | dsimp only | split | intro _

theorem execChgFaultClear_keeps {z : State} (v : Word) (vbat : Nat) (s : State) (hz : z.Keeps s) :
    OutKeeps z (execChgFaultClear v vbat s) := by
  unfold execChgFaultClear
  repeat' first
    | with_reducible assumption | with_reducible apply State.bus_keeps | with_reducible apply State.chgFaultWrite_keeps
    | with_reducible apply outKeeps_next | with_reducible apply keeps_ite | (with_reducible exact fun k => k)
    | (intro _; with_reducible assumption) | dsimp only | split | intro _

theorem execChgSuspend_keeps {z : State} (headroom : Bool) (s : State) (hz : z.Keeps s) : OutKeeps z (execChgSuspend headroom s) := by
  unfold execChgSuspend
  repeat' first
    | with_reducible assumption | with_reducible apply State.setChg_keeps | with_reducible apply State.chgCheck_keeps
    | with_reducible apply outKeeps_next | with_reducible apply keeps_ite | (with_reducible exact fun k => k)
    | (intro _; with_reducible assumption) | dsimp only | split | refine keeps_len ?_ id id id id id id id
    | exact keeps_mk ‹_› rfl rfl rfl rfl rfl rfl rfl | intro _

theorem execChgResume_keeps {z : State} (vbat : Nat) (s : State) (hz : z.Keeps s) : OutKeeps z (execChgResume vbat s) := by
  unfold execChgResume
  repeat' first
    | with_reducible assumption | with_reducible apply State.due_keeps | with_reducible apply State.chgTo_keeps
    | with_reducible apply State.chgCheck_keeps | with_reducible apply outKeeps_next | with_reducible apply keeps_ite
    | (with_reducible exact fun k => k) | (intro _; with_reducible assumption) | dsimp only | split | refine keeps_len ?_ id id id id id id id
    | exact keeps_mk ‹_› rfl rfl rfl rfl rfl rfl rfl | intro _

theorem execChgPrechargeDone_keeps {z : State} (s : State) (hz : z.Keeps s) : OutKeeps z (execChgPrechargeDone s) := by
  unfold execChgPrechargeDone
  repeat' first
    | with_reducible assumption | with_reducible apply State.chgTo_keeps | with_reducible apply State.chgRow_keeps
    | with_reducible apply outKeeps_next | with_reducible apply keeps_ite | (with_reducible exact fun k => k)
    | (intro _; with_reducible assumption) | dsimp only | split | intro _

theorem execChgCcToPrecharge_keeps {z : State} (s : State) (hz : z.Keeps s) : OutKeeps z (execChgCcToPrecharge s) := by
  unfold execChgCcToPrecharge
  repeat' first
    | with_reducible assumption | with_reducible apply State.chgTo_keeps | with_reducible apply State.chgRow_keeps
    | with_reducible apply outKeeps_next | with_reducible apply keeps_ite | (with_reducible exact fun k => k)
    | (intro _; with_reducible assumption) | dsimp only | split | intro _

theorem execChgCcToCv_keeps {z : State} (s : State) (hz : z.Keeps s) : OutKeeps z (execChgCcToCv s) := by
  unfold execChgCcToCv
  repeat' first
    | with_reducible assumption | with_reducible apply State.chgTo_keeps | with_reducible apply State.chgRow_keeps
    | with_reducible apply outKeeps_next | with_reducible apply keeps_ite | (with_reducible exact fun k => k)
    | (intro _; with_reducible assumption) | dsimp only | split | intro _

theorem execChgCvToCc_keeps {z : State} (s : State) (hz : z.Keeps s) : OutKeeps z (execChgCvToCc s) := by
  unfold execChgCvToCc
  repeat' first
    | with_reducible assumption | with_reducible apply State.chgTo_keeps | with_reducible apply State.chgRow_keeps
    | with_reducible apply outKeeps_next | with_reducible apply keeps_ite | (with_reducible exact fun k => k)
    | (intro _; with_reducible assumption) | dsimp only | split | intro _

theorem execChgTermination_keeps {z : State} (s : State) (hz : z.Keeps s) : OutKeeps z (execChgTermination s) := by
  unfold execChgTermination
  repeat' first
    | with_reducible assumption | with_reducible apply State.setGg_keeps | with_reducible apply State.chgTo_keeps
    | with_reducible apply State.chgRow_keeps | with_reducible apply outKeeps_next | with_reducible apply keeps_ite
    | (with_reducible exact fun k => k) | (intro _; with_reducible assumption) | dsimp only | split | refine keeps_len ?_ id id id id id id id
    | exact keeps_mk ‹_› rfl rfl rfl rfl rfl rfl rfl | intro _

theorem execChgTopoffEnd_keeps {z : State} (s : State) (hz : z.Keeps s) : OutKeeps z (execChgTopoffEnd s) := by
  unfold execChgTopoffEnd
  repeat' first
    | with_reducible assumption | with_reducible apply State.due_keeps | with_reducible apply State.chgTo_keeps
    | with_reducible apply State.chgRow_keeps | with_reducible apply outKeeps_next | with_reducible apply keeps_ite
    | (with_reducible exact fun k => k) | (intro _; with_reducible assumption) | dsimp only | split | intro _

theorem execChgRecharge_keeps {z : State} (vbat : Nat) (s : State) (hz : z.Keeps s) : OutKeeps z (execChgRecharge vbat s) := by
  unfold execChgRecharge
  repeat' first
    | with_reducible assumption | with_reducible apply State.chgTo_keeps | with_reducible apply State.safeReset_keeps
    | with_reducible apply outKeeps_next | with_reducible apply keeps_ite | (with_reducible exact fun k => k)
    | (intro _; with_reducible assumption) | dsimp only | split | intro _

theorem execChgPrechargeTimeout_keeps {z : State} (vbat : Nat) (s : State) (hz : z.Keeps s) :
    OutKeeps z (execChgPrechargeTimeout vbat s) := by
  unfold execChgPrechargeTimeout
  repeat' first
    | with_reducible assumption | with_reducible apply State.due_keeps | with_reducible apply State.chgFault_keeps
    | with_reducible apply outKeeps_next | with_reducible apply keeps_ite | (with_reducible exact fun k => k)
    | (intro _; with_reducible assumption) | dsimp only | split | intro _

theorem execChgSafetyTimeout_keeps {z : State} (vbat : Nat) (s : State) (hz : z.Keeps s) : OutKeeps z (execChgSafetyTimeout vbat s) := by
  unfold execChgSafetyTimeout
  repeat' first
    | with_reducible assumption | with_reducible apply State.due_keeps | with_reducible apply State.chgFault_keeps
    | with_reducible apply outKeeps_next | with_reducible apply keeps_ite | (with_reducible exact fun k => k)
    | (intro _; with_reducible assumption) | dsimp only | split | intro _

theorem execBatOv_keeps {z : State} (vbat : Nat) (s : State) (hz : z.Keeps s) : OutKeeps z (execBatOv vbat s) := by
  unfold execBatOv
  repeat' first
    | with_reducible assumption | with_reducible apply State.tilesOff_keeps | with_reducible apply State.chgFault_keeps
    | with_reducible apply outKeeps_next | with_reducible apply keeps_ite | (with_reducible exact fun k => k)
    | (intro _; with_reducible assumption) | dsimp only | split | intro _

theorem execTilVlim_keeps {z : State} (t : Fin 48) (vbat : Nat) (s : State) (hz : z.Keeps s) : OutKeeps z (execTilVlim t vbat s) := by
  unfold execTilVlim
  repeat' first
    | with_reducible assumption | with_reducible apply State.setTile_keeps | with_reducible apply State.emitC_keeps
    | with_reducible apply State.raise_keeps | with_reducible apply State.chgFault_keeps | with_reducible apply outKeeps_next
    | with_reducible apply keeps_ite | (with_reducible exact fun k => k) | (intro _; with_reducible assumption) | dsimp only | split
    | refine keeps_len ?_ id id id id id id id | exact keeps_mk ‹_› rfl rfl rfl rfl rfl rfl rfl | intro _

theorem State.probeFire_keeps {z : State} (s : State) (hz : z.Keeps s) : z.Keeps (State.probeFire s) := by
  unfold State.probeFire
  repeat' first
    | with_reducible assumption | with_reducible apply State.set_keeps | with_reducible apply State.fireOn_keeps
    | with_reducible apply State.setGg_keeps | with_reducible apply State.setChg_keeps | with_reducible apply keeps_ite
    | (with_reducible exact fun k => k) | (intro _; with_reducible assumption) | dsimp only | split | refine keeps_len ?_ id id id id id id id
    | exact keeps_mk ‹_› rfl rfl rfl rfl rfl rfl rfl | intro _

theorem execProbeEnd_keeps {z : State} (s : State) (hz : z.Keeps s) : OutKeeps z (execProbeEnd s) := by
  unfold execProbeEnd
  repeat' first
    | with_reducible assumption | with_reducible apply State.set_keeps | with_reducible apply State.due_keeps
    | with_reducible apply State.captureEnded_keeps | with_reducible apply outKeeps_next | with_reducible apply keeps_ite
    | (with_reducible exact fun k => k) | (intro _; with_reducible assumption) | dsimp only | split | intro _

theorem execChgTileCount_keeps {z : State} (s : State) (hz : z.Keeps s) : OutKeeps z (execChgTileCount s) := by
  unfold execChgTileCount
  repeat' first
    | with_reducible assumption | with_reducible apply State.setChg_keeps | with_reducible apply State.chgTiles_keeps
    | with_reducible apply outKeeps_next | with_reducible apply keeps_ite | (with_reducible exact fun k => k)
    | (intro _; with_reducible assumption) | dsimp only | split | refine keeps_len ?_ id id id id id id id
    | exact keeps_mk ‹_› rfl rfl rfl rfl rfl rfl rfl | intro _

theorem execChgStatusToggle_keeps {z : State} (s : State) (hz : z.Keeps s) : OutKeeps z (execChgStatusToggle s) := by
  unfold execChgStatusToggle
  repeat' first
    | with_reducible assumption | with_reducible apply State.due_keeps | with_reducible apply State.setChg_keeps
    | with_reducible apply foldl_keeps | with_reducible apply outKeeps_next | with_reducible apply keeps_ite | (with_reducible exact fun k => k)
    | (intro _; with_reducible assumption) | dsimp only | split | refine keeps_len ?_ id id id id id id id
    | exact keeps_mk ‹_› rfl rfl rfl rfl rfl rfl rfl | intro _

theorem State.srcRefresh_keeps {z : State} (s : State) (hz : z.Keeps s) : z.Keeps (State.srcRefresh s) := by
  unfold State.srcRefresh
  repeat' first
    | with_reducible assumption | with_reducible apply State.put_keeps | with_reducible apply State.setPp_keeps
    | with_reducible apply State.chgCheck_keeps | with_reducible apply keeps_ite | (with_reducible exact fun k => k)
    | (intro _; with_reducible assumption) | dsimp only | split | refine keeps_len ?_ id id id id id id id
    | exact keeps_mk ‹_› rfl rfl rfl rfl rfl rfl rfl | intro _

theorem State.feLoss_keeps {z : State} (s : State) (cause vin : Nat) (hz : z.Keeps s) : z.Keeps (State.feLoss s cause vin) := by
  unfold State.feLoss
  repeat' first
    | with_reducible assumption | with_reducible apply State.set_keeps | with_reducible apply State.incSatF_keeps
    | with_reducible apply State.emitC_keeps | with_reducible apply State.emit_keeps | with_reducible apply State.captureChanged_keeps
    | with_reducible apply State.setPp_keeps | with_reducible apply State.raise_keeps | with_reducible apply State.handOver_keeps
    | with_reducible apply State.srcRefresh_keeps | with_reducible apply keeps_ite | (with_reducible exact fun k => k)
    | (intro _; with_reducible assumption) | dsimp only | split | refine keeps_len ?_ id id id id id id id
    | exact keeps_mk ‹_› rfl rfl rfl rfl rfl rfl rfl | intro _

theorem execVinLoss_keeps {z : State} (causes : BitVec 3) (vin : Nat) (s : State) (hz : z.Keeps s) :
    OutKeeps z (execVinLoss causes vin s) := by
  unfold execVinLoss
  repeat' first
    | with_reducible assumption | with_reducible apply State.feLoss_keeps | with_reducible apply outKeeps_next | with_reducible apply keeps_ite
    | (with_reducible exact fun k => k) | (intro _; with_reducible assumption) | dsimp only | split | refine keeps_len ?_ id id id id id id id
    | exact keeps_mk ‹_› rfl rfl rfl rfl rfl rfl rfl | intro _

theorem execFeStartDone_keeps {z : State} (s : State) (hz : z.Keeps s) : OutKeeps z (execFeStartDone s) := by
  unfold execFeStartDone
  repeat' first
    | with_reducible assumption | with_reducible apply State.set_keeps | with_reducible apply outKeeps_next | with_reducible apply keeps_ite
    | (with_reducible exact fun k => k) | (intro _; with_reducible assumption) | dsimp only | split | intro _

theorem execFeStartTimeout_keeps {z : State} (vin : Nat) (s : State) (hz : z.Keeps s) : OutKeeps z (execFeStartTimeout vin s) := by
  unfold execFeStartTimeout
  repeat' first
    | with_reducible assumption | with_reducible apply State.due_keeps | with_reducible apply State.feLoss_keeps
    | with_reducible apply outKeeps_next | with_reducible apply keeps_ite | (with_reducible exact fun k => k)
    | (intro _; with_reducible assumption) | dsimp only | split | intro _

theorem execFeClamp_keeps {z : State} (s : State) (hz : z.Keeps s) : OutKeeps z (execFeClamp s) := by
  unfold execFeClamp
  repeat' first
    | with_reducible assumption | with_reducible apply State.set_keeps | with_reducible apply State.setPp_keeps
    | with_reducible apply outKeeps_next | with_reducible apply keeps_ite | (with_reducible exact fun k => k)
    | (intro _; with_reducible assumption) | dsimp only | split | refine keeps_len ?_ id id id id id id id
    | exact keeps_mk ‹_› rfl rfl rfl rfl rfl rfl rfl | intro _

theorem execFeClampRelease_keeps {z : State} (s : State) (hz : z.Keeps s) : OutKeeps z (execFeClampRelease s) := by
  unfold execFeClampRelease
  repeat' first
    | with_reducible assumption | with_reducible apply State.set_keeps | with_reducible apply outKeeps_next | with_reducible apply keeps_ite
    | (with_reducible exact fun k => k) | (intro _; with_reducible assumption) | dsimp only | split | intro _

theorem execFeClampTimeout_keeps {z : State} (vin : Nat) (s : State) (hz : z.Keeps s) : OutKeeps z (execFeClampTimeout vin s) := by
  unfold execFeClampTimeout
  repeat' first
    | with_reducible assumption | with_reducible apply State.due_keeps | with_reducible apply State.feLoss_keeps
    | with_reducible apply outKeeps_next | with_reducible apply keeps_ite | (with_reducible exact fun k => k)
    | (intro _; with_reducible assumption) | dsimp only | split | intro _

theorem execUnstableEnd_keeps {z : State} (s : State) (hz : z.Keeps s) : OutKeeps z (execUnstableEnd s) := by
  unfold execUnstableEnd
  repeat' first
    | with_reducible assumption | with_reducible apply State.set_keeps | with_reducible apply State.due_keeps
    | with_reducible apply State.emit_keeps | with_reducible apply State.setPp_keeps | with_reducible apply State.unraise_keeps
    | with_reducible apply outKeeps_next | with_reducible apply keeps_ite | (with_reducible exact fun k => k)
    | (intro _; with_reducible assumption) | dsimp only | split | refine keeps_len ?_ id id id id id id id
    | exact keeps_mk ‹_› rfl rfl rfl rfl rfl rfl rfl | intro _

theorem execIdealDiodeOn_keeps {z : State} (s : State) (hz : z.Keeps s) : OutKeeps z (execIdealDiodeOn s) := by
  unfold execIdealDiodeOn
  repeat' first
    | with_reducible assumption | with_reducible apply State.setPp_keeps | with_reducible apply outKeeps_next | with_reducible apply keeps_ite
    | (with_reducible exact fun k => k) | (intro _; with_reducible assumption) | dsimp only | split | refine keeps_len ?_ id id id id id id id
    | exact keeps_mk ‹_› rfl rfl rfl rfl rfl rfl rfl | intro _

theorem execIdealDiodeOff_keeps {z : State} (s : State) (hz : z.Keeps s) : OutKeeps z (execIdealDiodeOff s) := by
  unfold execIdealDiodeOff
  repeat' first
    | with_reducible assumption | with_reducible apply State.setPp_keeps | with_reducible apply outKeeps_next | with_reducible apply keeps_ite
    | (with_reducible exact fun k => k) | (intro _; with_reducible assumption) | dsimp only | split | refine keeps_len ?_ id id id id id id id
    | exact keeps_mk ‹_› rfl rfl rfl rfl rfl rfl rfl | intro _

theorem execPmidSourceChange_keeps {z : State} (low : Bool) (s : State) (hz : z.Keeps s) : OutKeeps z (execPmidSourceChange low s) := by
  unfold execPmidSourceChange
  repeat' first
    | with_reducible assumption | with_reducible apply State.setPp_keeps | with_reducible apply State.srcRefresh_keeps
    | with_reducible apply outKeeps_next | with_reducible apply keeps_ite | (with_reducible exact fun k => k)
    | (intro _; with_reducible assumption) | dsimp only | split | refine keeps_len ?_ id id id id id id id
    | exact keeps_mk ‹_› rfl rfl rfl rfl rfl rfl rfl | intro _

theorem execPmidShutdown_keeps {z : State} (v : Nat) (s : State) (hz : z.Keeps s) : OutKeeps z (execPmidShutdown v s) := by
  unfold execPmidShutdown
  repeat' first
    | with_reducible assumption | with_reducible apply State.emit_keeps | with_reducible apply State.seqPush_keeps
    | with_reducible apply outKeeps_next | with_reducible apply keeps_ite | (with_reducible exact fun k => k)
    | (intro _; with_reducible assumption) | dsimp only | split | intro _

theorem State.cutStack_keeps {z : State} (s : State) (n : Nat) (hz : z.Keeps s) : z.Keeps (State.cutStack s n) := by
  unfold State.cutStack
  repeat' first
    | with_reducible assumption | with_reducible apply State.stackKill_keeps | with_reducible apply State.dischargeOff_keeps
    | with_reducible apply keeps_ite | (with_reducible exact fun k => k) | (intro _; with_reducible assumption) | dsimp only | split | intro _

theorem execPmidUv_keeps {z : State} (v : Nat) (s : State) (hz : z.Keeps s) : OutKeeps z (execPmidUv v s) := by
  unfold execPmidUv
  repeat' first
    | with_reducible assumption | with_reducible apply forEach_keeps | with_reducible apply State.emitC_keeps
    | with_reducible apply State.setPp_keeps | with_reducible apply State.chgTiles_keeps | with_reducible apply State.raise_keeps
    | with_reducible apply State.cutStack_keeps | with_reducible apply forEach_keeps | with_reducible apply outKeeps_next
    | with_reducible apply keeps_ite | (with_reducible exact fun k => k) | (intro _; with_reducible assumption) | dsimp only | split
    | refine keeps_len ?_ id id id id id id id | exact keeps_mk ‹_› rfl rfl rfl rfl rfl rfl rfl | intro _

theorem execPmidUvRelease_keeps {z : State} (s : State) (hz : z.Keeps s) : OutKeeps z (execPmidUvRelease s) := by
  unfold execPmidUvRelease
  repeat' first
    | with_reducible assumption | with_reducible apply State.setPp_keeps | with_reducible apply State.chgTiles_keeps
    | with_reducible apply outKeeps_next | with_reducible apply keeps_ite | (with_reducible exact fun k => k)
    | (intro _; with_reducible assumption) | dsimp only | split | refine keeps_len ?_ id id id id id id id
    | exact keeps_mk ‹_› rfl rfl rfl rfl rfl rfl rfl | intro _

theorem execPackPresent_keeps {z : State} (hold : Bool) (s : State) (hz : z.Keeps s) : OutKeeps z (execPackPresent hold s) := by
  unfold execPackPresent
  repeat' first
    | with_reducible assumption | with_reducible apply State.set_keeps | with_reducible apply State.setPp_keeps
    | with_reducible apply State.chgTo_keeps | with_reducible apply outKeeps_next | with_reducible apply keeps_ite
    | (with_reducible exact fun k => k) | (intro _; with_reducible assumption) | dsimp only | split | refine keeps_len ?_ id id id id id id id
    | exact keeps_mk ‹_› rfl rfl rfl rfl rfl rfl rfl | intro _

theorem execPackQualified_keeps {z : State} (id : Nat) (vbat : Nat) (s : State) (hz : z.Keeps s) :
    OutKeeps z (execPackQualified id vbat s) := by
  unfold execPackQualified
  repeat' first
    | with_reducible assumption | with_reducible apply State.set_keeps | with_reducible apply State.put_keeps
    | with_reducible apply State.due_keeps | with_reducible apply State.emit_keeps | with_reducible apply State.setGg_keeps
    | with_reducible apply State.setPp_keeps | with_reducible apply State.chgTo_keeps | with_reducible apply State.gaugeStartCheck_keeps
    | with_reducible apply State.chgReset_keeps | with_reducible apply outKeeps_next | with_reducible apply keeps_ite
    | (with_reducible exact fun k => k) | (intro _; with_reducible assumption) | dsimp only | split | refine keeps_len ?_ id id id id id id id
    | exact keeps_mk ‹_› rfl rfl rfl rfl rfl rfl rfl | intro _

theorem execPackRestEnd_keeps {z : State} (vbat : Nat) (s : State) (hz : z.Keeps s) : OutKeeps z (execPackRestEnd vbat s) := by
  unfold execPackRestEnd
  repeat' first
    | with_reducible assumption | with_reducible apply State.due_keeps | with_reducible apply State.setPp_keeps
    | with_reducible apply State.chgTo_keeps | with_reducible apply State.chgReset_keeps | with_reducible apply outKeeps_next
    | with_reducible apply keeps_ite | (with_reducible exact fun k => k) | (intro _; with_reducible assumption) | dsimp only | split
    | refine keeps_len ?_ id id id id id id id | exact keeps_mk ‹_› rfl rfl rfl rfl rfl rfl rfl | intro _

theorem State.packRemoval_keeps {z : State} (s : State) (sign : Nat) (hz : z.Keeps s) : z.Keeps (State.packRemoval s sign) := by
  unfold State.packRemoval
  repeat' first
    | with_reducible assumption | with_reducible apply State.set_keeps | with_reducible apply State.emitC_keeps
    | with_reducible apply State.tilesOff_keeps | with_reducible apply State.setPp_keeps | with_reducible apply State.chgTo_keeps
    | with_reducible apply State.raise_keeps | with_reducible apply State.gaugeFreeze_keeps | with_reducible apply keeps_ite
    | (with_reducible exact fun k => k) | (intro _; with_reducible assumption) | dsimp only | split | refine keeps_len ?_ id id id id id id id
    | exact keeps_mk ‹_› rfl rfl rfl rfl rfl rfl rfl | intro _

theorem execPackRemoval_keeps {z : State} (sign : Fin 5) (s : State) (hz : z.Keeps s) : OutKeeps z (execPackRemoval sign s) := by
  unfold execPackRemoval
  repeat' first
    | with_reducible assumption | with_reducible apply State.packRemoval_keeps | with_reducible apply outKeeps_next
    | with_reducible apply keeps_ite | (with_reducible exact fun k => k) | (intro _; with_reducible assumption) | dsimp only | split | intro _

theorem execParkPackCheck_keeps {z : State} (ntcOpen idOpen : Bool) (s : State) (hz : z.Keeps s) :
    OutKeeps z (execParkPackCheck ntcOpen idOpen s) := by
  unfold execParkPackCheck
  repeat' first
    | with_reducible assumption | with_reducible apply State.due_keeps | with_reducible apply State.setPp_keeps
    | with_reducible apply outKeeps_next | with_reducible apply keeps_ite | (with_reducible exact fun k => k)
    | (intro _; with_reducible assumption) | dsimp only | split | refine keeps_len ?_ id id id id id id id
    | exact keeps_mk ‹_› rfl rfl rfl rfl rfl rfl rfl | intro _

theorem State.packExit_keeps {z : State} (s : State) (hz : z.Keeps s) : z.Keeps (State.packExit s) := by
  unfold State.packExit
  repeat' first
    | with_reducible assumption | with_reducible apply State.setPp_keeps | with_reducible apply State.packRemoval_keeps
    | with_reducible apply keeps_ite | (with_reducible exact fun k => k) | (intro _; with_reducible assumption) | dsimp only | split
    | refine keeps_len ?_ id id id id id id id | exact keeps_mk ‹_› rfl rfl rfl rfl rfl rfl rfl | intro _

theorem State.checkFail_keeps {z : State} (s : State) (d cause : Nat) (hz : z.Keeps s) : z.Keeps (State.checkFail s d cause) := by
  unfold State.checkFail
  repeat' first
    | with_reducible assumption | with_reducible apply State.setStage_keeps | with_reducible apply State.settled_keeps
    | with_reducible apply State.domFailQ_keeps | with_reducible apply keeps_ite | (with_reducible exact fun k => k)
    | (intro _; with_reducible assumption) | dsimp only | split | refine keeps_len ?_ id id id id id id id
    | exact keeps_mk ‹_› rfl rfl rfl rfl rfl rfl rfl | intro _

theorem execPgTransition_keeps {z : State} (d : Fin 12) (s : State) (hz : z.Keeps s) : OutKeeps z (execPgTransition d s) := by
  unfold execPgTransition
  repeat' first
    | with_reducible assumption | with_reducible apply State.set_keeps | with_reducible apply State.put_keeps
    | with_reducible apply State.putBitF_keeps | with_reducible apply State.due_keeps | with_reducible apply State.setDom_keeps
    | with_reducible apply State.domFail_keeps | with_reducible apply State.checkFail_keeps | with_reducible apply outKeeps_next
    | with_reducible apply keeps_ite | (with_reducible exact fun k => k) | (intro _; with_reducible assumption) | dsimp only | split
    | refine keeps_len ?_ id id id id id id id | exact keeps_mk ‹_› rfl rfl rfl rfl rfl rfl rfl | intro _

theorem execDomainStable_keeps {z : State} (d : Fin 12) (s : State) (hz : z.Keeps s) : OutKeeps z (execDomainStable d s) := by
  unfold execDomainStable
  repeat' first
    | with_reducible assumption | with_reducible apply State.due_keeps | with_reducible apply State.setDomState_keeps
    | with_reducible apply outKeeps_next | with_reducible apply keeps_ite | (with_reducible exact fun k => k)
    | (intro _; with_reducible assumption) | dsimp only | split | intro _

theorem State.fetch_keeps {z : State} (s : State) (hz : z.Keeps s) : z.Keeps (State.fetch s) := by
  unfold State.fetch
  repeat' first
    | with_reducible assumption | with_reducible apply State.set_keeps | with_reducible apply State.setSeq_keeps | with_reducible apply keeps_ite
    | (with_reducible exact fun k => k) | (intro _; with_reducible assumption) | dsimp only | split | refine keeps_len ?_ id id id id id id id
    | exact keeps_mk ‹_› rfl rfl rfl rfl rfl rfl rfl | exact fun k => k | intro _

theorem State.reverse_keeps {z : State} (s : State) (hz : z.Keeps s) : z.Keeps (State.reverse s) := by
  unfold State.reverse
  repeat' first
    | with_reducible assumption | with_reducible apply State.set_keeps | with_reducible apply State.incSatF_keeps
    | with_reducible apply State.emit_keeps | with_reducible apply State.setSeq_keeps | with_reducible apply State.setPhase_keeps
    | with_reducible apply keeps_ite | (with_reducible exact fun k => k) | (intro _; with_reducible assumption) | dsimp only | split
    | refine keeps_len ?_ id id id id id id id | exact keeps_mk ‹_› rfl rfl rfl rfl rfl rfl rfl | exact fun k => k | intro _

theorem State.abandon_keeps {z : State} (s : State) (hz : z.Keeps s) : z.Keeps (State.abandon s) := by
  unfold State.abandon
  repeat' first
    | with_reducible assumption | with_reducible apply State.set_keeps | with_reducible apply State.progEnd_keeps
    | with_reducible apply State.settled_keeps | with_reducible apply keeps_ite | (with_reducible exact fun k => k)
    | (intro _; with_reducible assumption) | dsimp only | split | intro _

theorem State.fetchChecked_keeps {z : State} (s : State) (hz : z.Keeps s) : z.Keeps (State.fetchChecked s) := by
  unfold State.fetchChecked
  repeat' first
    | with_reducible assumption | with_reducible apply State.injCheck_keeps | with_reducible apply State.fetch_keeps
    | with_reducible apply keeps_ite | (with_reducible exact fun k => k) | (intro _; with_reducible assumption) | dsimp only | split | intro _

theorem execNextStep_keeps {z : State} (s : State) (hz : z.Keeps s) : OutKeeps z (execNextStep s) := by
  unfold execNextStep
  repeat' first
    | with_reducible assumption | with_reducible apply State.due_keeps | with_reducible apply State.pmidTake_keeps
    | with_reducible apply State.pmidProgram_keeps | with_reducible apply State.reverse_keeps | with_reducible apply State.abandon_keeps
    | with_reducible apply State.fetchChecked_keeps | with_reducible apply outKeeps_next | with_reducible apply keeps_ite
    | (with_reducible exact fun k => k) | (intro _; with_reducible assumption) | dsimp only | split | intro _

theorem State.stepEnd_keeps {z : State} (s : State) (hz : z.Keeps s) : z.Keeps (State.stepEnd s) := by
  unfold State.stepEnd
  repeat' first
    | with_reducible assumption | with_reducible apply State.setStage_keeps | with_reducible apply keeps_ite | (with_reducible exact fun k => k)
    | (intro _; with_reducible assumption) | dsimp only | split | intro _

theorem State.stepSkip_keeps {z : State} (s : State) (hz : z.Keeps s) : z.Keeps (State.stepSkip s) := by
  unfold State.stepSkip
  repeat' first
    | with_reducible assumption | with_reducible apply State.set_keeps | with_reducible apply State.stepEnd_keeps
    | with_reducible apply keeps_ite | (with_reducible exact fun k => k) | (intro _; with_reducible assumption) | dsimp only | split | intro _

theorem execStepEnable_keeps {z : State} (vos : List Nat) (s : State) (hz : z.Keeps s) : OutKeeps z (execStepEnable vos s) := by
  unfold execStepEnable
  repeat' first
    | with_reducible assumption | with_reducible apply State.setDom_keeps | with_reducible apply State.domEnable_keeps
    | with_reducible apply State.domFail_keeps | with_reducible apply State.stepEnd_keeps | with_reducible apply State.stepSkip_keeps
    | with_reducible apply outKeeps_next | with_reducible apply keeps_ite | (with_reducible exact fun k => k)
    | (intro _; with_reducible assumption) | dsimp only | split | refine keeps_len ?_ id id id id id id id
    | exact keeps_mk ‹_› rfl rfl rfl rfl rfl rfl rfl | intro _

theorem execStepDisable_keeps {z : State} (s : State) (hz : z.Keeps s) : OutKeeps z (execStepDisable s) := by
  unfold execStepDisable
  repeat' first
    | with_reducible assumption | with_reducible apply State.set_keeps | with_reducible apply forEach_keeps
    | with_reducible apply State.assertHostRst_keeps | with_reducible apply State.setDomState_keeps | with_reducible apply State.setSeq_keeps
    | with_reducible apply State.setStage_keeps | with_reducible apply State.shutBegin_keeps | with_reducible apply State.settled_keeps
    | with_reducible apply State.stepEnd_keeps | with_reducible apply forEach_keeps | with_reducible apply outKeeps_next
    | with_reducible apply keeps_ite | (with_reducible exact fun k => k) | (intro _; with_reducible assumption) | dsimp only | split
    | refine keeps_len ?_ id id id id id id id | exact keeps_mk ‹_› rfl rfl rfl rfl rfl rfl rfl | exact fun k => k | intro _

theorem execStepWait_keeps {z : State} (s : State) (hz : z.Keeps s) : OutKeeps z (execStepWait s) := by
  unfold execStepWait
  repeat' first
    | with_reducible assumption | with_reducible apply State.setStage_keeps | with_reducible apply outKeeps_next | with_reducible apply keeps_ite
    | (with_reducible exact fun k => k) | (intro _; with_reducible assumption) | dsimp only | split | intro _

theorem execWaitEnd_keeps {z : State} (s : State) (hz : z.Keeps s) : OutKeeps z (execWaitEnd s) := by
  unfold execWaitEnd
  repeat' first
    | with_reducible assumption | with_reducible apply State.due_keeps | with_reducible apply State.stepEnd_keeps
    | with_reducible apply outKeeps_next | with_reducible apply keeps_ite | (with_reducible exact fun k => k)
    | (intro _; with_reducible assumption) | dsimp only | split | intro _

theorem execStepCheck_keeps {z : State} (s : State) (hz : z.Keeps s) : OutKeeps z (execStepCheck s) := by
  unfold execStepCheck
  repeat' first
    | with_reducible assumption | with_reducible apply State.set_keeps | with_reducible apply State.setStage_keeps
    | with_reducible apply State.stepEnd_keeps | with_reducible apply outKeeps_next | with_reducible apply keeps_ite
    | (with_reducible exact fun k => k) | (intro _; with_reducible assumption) | dsimp only | split | refine keeps_len ?_ id id id id id id id
    | exact keeps_mk ‹_› rfl rfl rfl rfl rfl rfl rfl | intro _

theorem execCheckPass_keeps {z : State} (s : State) (hz : z.Keeps s) : OutKeeps z (execCheckPass s) := by
  unfold execCheckPass
  repeat' first
    | with_reducible assumption | with_reducible apply State.due_keeps | with_reducible apply State.setDomState_keeps
    | with_reducible apply State.contactAll_keeps | with_reducible apply State.stepEnd_keeps | with_reducible apply outKeeps_next
    | with_reducible apply keeps_ite | (with_reducible exact fun k => k) | (intro _; with_reducible assumption) | dsimp only | split
    | refine keeps_len ?_ id id id id id id id | exact keeps_mk ‹_› rfl rfl rfl rfl rfl rfl rfl | intro _

theorem execOffCheckPass_keeps {z : State} (s : State) (hz : z.Keeps s) : OutKeeps z (execOffCheckPass s) := by
  unfold execOffCheckPass
  repeat' first
    | with_reducible assumption | with_reducible apply State.due_keeps | with_reducible apply State.stepEnd_keeps
    | with_reducible apply outKeeps_next | with_reducible apply keeps_ite | (with_reducible exact fun k => k)
    | (intro _; with_reducible assumption) | dsimp only | split | refine keeps_len ?_ id id id id id id id
    | exact keeps_mk ‹_› rfl rfl rfl rfl rfl rfl rfl | intro _

theorem execCheckTimeout_keeps {z : State} (s : State) (hz : z.Keeps s) : OutKeeps z (execCheckTimeout s) := by
  unfold execCheckTimeout
  repeat' first
    | with_reducible assumption | with_reducible apply State.due_keeps | with_reducible apply State.setStage_keeps
    | with_reducible apply State.failRecord_keeps | with_reducible apply State.settled_keeps | with_reducible apply State.checkFail_keeps
    | with_reducible apply outKeeps_next | with_reducible apply keeps_ite | (with_reducible exact fun k => k)
    | (intro _; with_reducible assumption) | dsimp only | split | refine keeps_len ?_ id id id id id id id
    | exact keeps_mk ‹_› rfl rfl rfl rfl rfl rfl rfl | intro _

theorem execStepJump_keeps {z : State} (s : State) (hz : z.Keeps s) : OutKeeps z (execStepJump s) := by
  unfold execStepJump
  repeat' first
    | with_reducible assumption | with_reducible apply State.stepEnd_keeps | with_reducible apply outKeeps_next | with_reducible apply keeps_ite
    | (with_reducible exact fun k => k) | (intro _; with_reducible assumption) | dsimp only | split | refine keeps_len ?_ id id id id id id id
    | exact keeps_mk ‹_› rfl rfl rfl rfl rfl rfl rfl | intro _

theorem execStepSend_keeps {z : State} (s : State) (hz : z.Keeps s) : OutKeeps z (execStepSend s) := by
  unfold execStepSend
  repeat' first
    | with_reducible assumption | with_reducible apply State.twcPush_keeps | with_reducible apply State.setStage_keeps
    | with_reducible apply State.stepEnd_keeps | with_reducible apply State.stepSkip_keeps | with_reducible apply outKeeps_next
    | with_reducible apply keeps_ite | (with_reducible exact fun k => k) | (intro _; with_reducible assumption) | dsimp only | split
    | refine keeps_len ?_ id id id id id id id | exact keeps_mk ‹_› rfl rfl rfl rfl rfl rfl rfl | intro _

theorem execStepMark_keeps {z : State} (s : State) (hz : z.Keeps s) : OutKeeps z (execStepMark s) := by
  unfold execStepMark
  repeat' first
    | with_reducible assumption | with_reducible apply State.set_keeps | with_reducible apply State.emit_keeps
    | with_reducible apply State.stepEnd_keeps | with_reducible apply outKeeps_next | with_reducible apply keeps_ite
    | (with_reducible exact fun k => k) | (intro _; with_reducible assumption) | dsimp only | split | refine keeps_len ?_ id id id id id id id
    | exact keeps_mk ‹_› rfl rfl rfl rfl rfl rfl rfl | intro _

theorem execStepEnd_keeps {z : State} (s : State) (hz : z.Keeps s) : OutKeeps z (execStepEnd s) := by
  unfold execStepEnd
  repeat' first
    | with_reducible assumption | with_reducible apply State.progEnd_keeps | with_reducible apply State.settled_keeps
    | with_reducible apply outKeeps_next | with_reducible apply keeps_ite | (with_reducible exact fun k => k)
    | (intro _; with_reducible assumption) | dsimp only | split | intro _

theorem execSeqRunaway_keeps {z : State} (s : State) (hz : z.Keeps s) : OutKeeps z (execSeqRunaway s) := by
  unfold execSeqRunaway
  repeat' first
    | with_reducible assumption | with_reducible apply State.set_keeps | with_reducible apply State.raise_keeps
    | with_reducible apply State.progEnd_keeps | with_reducible apply State.settled_keeps | with_reducible apply outKeeps_next
    | with_reducible apply keeps_ite | (with_reducible exact fun k => k) | (intro _; with_reducible assumption) | dsimp only | split | intro _

theorem execOnReqEdge_keeps {z : State} (rising : Bool) (s : State) (hz : z.Keeps s) : OutKeeps z (execOnReqEdge rising s) := by
  unfold execOnReqEdge
  repeat' first
    | with_reducible assumption | with_reducible apply State.putBitF_keeps | with_reducible apply State.cross_keeps
    | with_reducible apply State.seqPush_keeps | with_reducible apply outKeeps_next | with_reducible apply keeps_ite
    | (with_reducible exact fun k => k) | (intro _; with_reducible assumption) | dsimp only | split | intro _

theorem State.seqReqWrite_keeps {z : State} (s : State) (v : Nat) (frame : Option Nat) (hz : z.Keeps s) :
    z.Keeps (State.seqReqWrite s v frame) := by
  unfold State.seqReqWrite
  repeat' first
    | with_reducible assumption | with_reducible apply State.frameDone_keeps | with_reducible apply State.seqPush_keeps
    | with_reducible apply keeps_ite | (with_reducible exact fun k => k) | (intro _; with_reducible assumption) | dsimp only | split | intro _

theorem execSeqOn_keeps {z : State} (s : State) (hz : z.Keeps s) : OutKeeps z (execSeqOn s) := by
  unfold execSeqOn
  repeat' first
    | with_reducible assumption | with_reducible apply State.bus_keeps | with_reducible apply State.seqReqWrite_keeps
    | with_reducible apply outKeeps_next | with_reducible apply keeps_ite | (with_reducible exact fun k => k)
    | (intro _; with_reducible assumption) | dsimp only | split | intro _

theorem execSeqOff_keeps {z : State} (s : State) (hz : z.Keeps s) : OutKeeps z (execSeqOff s) := by
  unfold execSeqOff
  repeat' first
    | with_reducible assumption | with_reducible apply State.bus_keeps | with_reducible apply State.seqReqWrite_keeps
    | with_reducible apply outKeeps_next | with_reducible apply keeps_ite | (with_reducible exact fun k => k)
    | (intro _; with_reducible assumption) | dsimp only | split | intro _

theorem execSeqProgramStart_keeps {z : State} (p : Fin 4) (s : State) (hz : z.Keeps s) : OutKeeps z (execSeqProgramStart p s) := by
  unfold execSeqProgramStart
  repeat' first
    | with_reducible assumption | with_reducible apply State.bus_keeps | with_reducible apply State.seqReqWrite_keeps
    | with_reducible apply outKeeps_next | with_reducible apply keeps_ite | (with_reducible exact fun k => k)
    | (intro _; with_reducible assumption) | dsimp only | split | intro _

theorem State.takePower_keeps {z : State} (s : State) (p : Nat) (hz : z.Keeps s) : z.Keeps (State.takePower s p) := by
  unfold State.takePower
  repeat' first
    | with_reducible assumption | with_reducible apply State.set_keeps | with_reducible apply State.setSeq_keeps
    | with_reducible apply State.setPhase_keeps | with_reducible apply State.setStage_keeps | with_reducible apply State.reqDrop_keeps
    | with_reducible apply State.settled_keeps | with_reducible apply keeps_ite | (with_reducible exact fun k => k)
    | (intro _; with_reducible assumption) | dsimp only | split | refine keeps_len ?_ id id id id id id id
    | exact keeps_mk ‹_› rfl rfl rfl rfl rfl rfl rfl | exact fun k => k | intro _

theorem State.takeMasterOff_keeps {z : State} (s : State) (hz : z.Keeps s) : z.Keeps (State.takeMasterOff s) := by
  unfold State.takeMasterOff
  repeat' first
    | with_reducible assumption | with_reducible apply State.setSeq_keeps | with_reducible apply State.takePower_keeps
    | with_reducible apply keeps_ite | (with_reducible exact fun k => k) | (intro _; with_reducible assumption) | dsimp only | split
    | refine keeps_len ?_ id id id id id id id | exact keeps_mk ‹_› rfl rfl rfl rfl rfl rfl rfl | exact fun k => k | intro _

theorem State.takeStart_keeps {z : State} (s : State) (p : Nat) (hz : z.Keeps s) : z.Keeps (State.takeStart s p) := by
  unfold State.takeStart
  repeat' first
    | with_reducible assumption | with_reducible apply State.putBitF_keeps | with_reducible apply State.reqDrop_keeps
    | with_reducible apply keeps_ite | (with_reducible exact fun k => k) | (intro _; with_reducible assumption) | dsimp only | split | intro _

theorem execSeqRequestTaken_keeps {z : State} (s : State) (hz : z.Keeps s) : OutKeeps z (execSeqRequestTaken s) := by
  unfold execSeqRequestTaken
  repeat' first
    | with_reducible assumption | with_reducible apply State.frameDone_keeps | with_reducible apply State.setSeq_keeps
    | with_reducible apply State.reqDrop_keeps | with_reducible apply State.pmidRequest_keeps | with_reducible apply State.takePower_keeps
    | with_reducible apply State.takeMasterOff_keeps | with_reducible apply State.takeStart_keeps | with_reducible apply outKeeps_next
    | with_reducible apply keeps_ite | (with_reducible exact fun k => k) | (intro _; with_reducible assumption) | dsimp only | split
    | with_reducible apply keeps_len | exact fun k => k | intro _
  all_goals first | exact ‹_› | exact Nat.zero_le _ | exact List.Pairwise.nil | exact Nat.le_trans (List.length_filter_le _ _) ‹_› | exact Nat.le_trans (takeFirst_length ‹_›) ‹_› | (simp only [List.length_append, List.length_take, List.length_drop, List.length_map, List.length_singleton, State.adcUsed] at *; omega) | (simp_all only [List.length_cons, List.length_append, List.length_take, List.length_drop]; omega)

theorem execReversal_keeps {z : State} (s : State) (hz : z.Keeps s) : OutKeeps z (execReversal s) := by
  unfold execReversal
  repeat' first
    | with_reducible assumption | with_reducible apply State.setPhase_keeps | with_reducible apply State.progStart_keeps
    | with_reducible apply outKeeps_next | with_reducible apply keeps_ite | (with_reducible exact fun k => k)
    | (intro _; with_reducible assumption) | dsimp only | split | intro _

theorem execOffDwellEnd_keeps {z : State} (s : State) (hz : z.Keeps s) : OutKeeps z (execOffDwellEnd s) := by
  unfold execOffDwellEnd
  repeat' first
    | with_reducible assumption | with_reducible apply State.due_keeps | with_reducible apply State.setSeq_keeps
    | with_reducible apply State.setPhase_keeps | with_reducible apply State.progStart_keeps | with_reducible apply State.settled_keeps
    | with_reducible apply outKeeps_next | with_reducible apply keeps_ite | (with_reducible exact fun k => k)
    | (intro _; with_reducible assumption) | dsimp only | split | refine keeps_len ?_ id id id id id id id
    | exact keeps_mk ‹_› rfl rfl rfl rfl rfl rfl rfl | exact fun k => k | intro _

theorem execProgramStart_keeps {z : State} (s : State) (hz : z.Keeps s) : OutKeeps z (execProgramStart s) := by
  unfold execProgramStart
  repeat' first
    | with_reducible assumption | with_reducible apply State.putBitF_keeps | with_reducible apply State.progStart_keeps
    | with_reducible apply outKeeps_next | with_reducible apply keeps_ite | (with_reducible exact fun k => k)
    | (intro _; with_reducible assumption) | dsimp only | split | refine keeps_len ?_ id id id id id id id
    | exact keeps_mk ‹_› rfl rfl rfl rfl rfl rfl rfl | intro _

theorem State.domFailWrite_keeps {z : State} (s : State) (m : Nat) (hz : z.Keeps s) : z.Keeps (State.domFailWrite s m) := by
  unfold State.domFailWrite
  repeat' first
    | with_reducible assumption | with_reducible apply State.set_keeps | with_reducible apply State.setDomState_keeps
    | with_reducible apply forBits_keeps | with_reducible apply forBits_keeps | with_reducible apply keeps_ite
    | (with_reducible exact fun k => k) | (intro _; with_reducible assumption) | dsimp only | split | intro _

theorem execDomainFailClear_keeps {z : State} (mask : BitVec 12) (s : State) (hz : z.Keeps s) :
    OutKeeps z (execDomainFailClear mask s) := by
  unfold execDomainFailClear
  repeat' first
    | with_reducible assumption | with_reducible apply State.bus_keeps | with_reducible apply State.domFailWrite_keeps
    | with_reducible apply outKeeps_next | with_reducible apply keeps_ite | (with_reducible exact fun k => k)
    | (intro _; with_reducible assumption) | dsimp only | split | intro _

theorem State.ntc_keeps {z : State} (s : State) (a b : Int) (beta : Nat) (hz : z.Keeps s) : z.Keeps (State.ntc s a b beta).2 := by
  unfold State.ntc
  repeat' first
    | with_reducible assumption | with_reducible apply State.draw_keeps | with_reducible apply keeps_ite | (with_reducible exact fun k => k)
    | (intro _; with_reducible assumption) | dsimp only | split | intro _

theorem State.zoneEval_keeps {z : State} (s : State) (t : Int) (hz : z.Keeps s) : z.Keeps (State.zoneEval s t) := by
  unfold State.zoneEval
  repeat' first
    | with_reducible assumption | with_reducible apply State.set_keeps | with_reducible apply keeps_ite | (with_reducible exact fun k => k)
    | (intro _; with_reducible assumption) | dsimp only | split | intro _

theorem State.setThm_keeps {z : State} (s : State) (x : Thm) (hz : z.Keeps s) : z.Keeps (State.setThm s x) := by
  unfold State.setThm
  repeat' first
    | with_reducible assumption | with_reducible apply State.put_keeps | with_reducible apply State.unraise_keeps
    | with_reducible apply keeps_ite | (with_reducible exact fun k => k) | (intro _; with_reducible assumption) | dsimp only | split
    | refine keeps_len ?_ id id id id id id id | exact keeps_mk ‹_› rfl rfl rfl rfl rfl rfl rfl | intro _

theorem State.warnEval_keeps {z : State} (s : State) (brd : Bool) (t w : Int) (sens : Nat) (hz : z.Keeps s) :
    z.Keeps (State.warnEval s brd t w sens) := by
  unfold State.warnEval
  repeat' first
    | with_reducible assumption | with_reducible apply State.set_keeps | with_reducible apply State.emitC_keeps
    | with_reducible apply State.emit_keeps | with_reducible apply State.setThm_keeps | with_reducible apply keeps_ite
    | (with_reducible exact fun k => k) | (intro _; with_reducible assumption) | dsimp only | split | refine keeps_len ?_ id id id id id id id
    | exact keeps_mk ‹_› rfl rfl rfl rfl rfl rfl rfl | intro _

theorem State.throtEval_keeps {z : State} (s : State) (brd : Bool) (t w : Int) (th : Nat) (hz : z.Keeps s) :
    z.Keeps (State.throtEval s brd t w th) := by
  unfold State.throtEval
  repeat' first
    | with_reducible assumption | with_reducible apply State.set_keeps | with_reducible apply State.emitC_keeps
    | with_reducible apply State.emit_keeps | with_reducible apply State.setThm_keeps | with_reducible apply keeps_ite
    | (with_reducible exact fun k => k) | (intro _; with_reducible assumption) | dsimp only | split | refine keeps_len ?_ id id id id id id id
    | exact keeps_mk ‹_› rfl rfl rfl rfl rfl rfl rfl | intro _

theorem State.thMark_keeps {z : State} (s : State) (old : Nat) (hz : z.Keeps s) : z.Keeps (State.thMark s old) := by
  unfold State.thMark
  repeat' first
    | with_reducible assumption | with_reducible apply keeps_ite | (with_reducible exact fun k => k) | (intro _; with_reducible assumption)
    | dsimp only | split | exact keeps_mk ‹_› rfl rfl rfl rfl rfl rfl rfl | refine keeps_len ?_ id id id id id id id | intro _

theorem State.brdEval_keeps {z : State} (s : State) (hz : z.Keeps s) : z.Keeps (State.brdEval s) := by
  unfold State.brdEval
  repeat' first
    | with_reducible assumption | with_reducible apply State.set_keeps | with_reducible apply State.setS_keeps
    | with_reducible apply State.emitC_keeps | with_reducible apply State.emit_keeps | with_reducible apply State.unraise_keeps
    | with_reducible apply State.ntc_keeps | with_reducible apply keeps_ite | (with_reducible exact fun k => k)
    | (intro _; with_reducible assumption) | dsimp only | split | intro _

theorem State.brdOff_keeps {z : State} (s : State) (hz : z.Keeps s) : z.Keeps (State.brdOff s) := by
  unfold State.brdOff
  repeat' first
    | with_reducible assumption | with_reducible apply State.set_keeps | with_reducible apply State.unraise_keeps
    | with_reducible apply State.setThm_keeps | with_reducible apply keeps_ite | (with_reducible exact fun k => k)
    | (intro _; with_reducible assumption) | dsimp only | split | refine keeps_len ?_ id id id id id id id
    | exact keeps_mk ‹_› rfl rfl rfl rfl rfl rfl rfl | intro _

theorem State.thmEval_keeps {z : State} (s : State) (hz : z.Keeps s) : z.Keeps (State.thmEval s) := by
  unfold State.thmEval
  repeat' first
    | with_reducible assumption | with_reducible apply State.set_keeps | with_reducible apply State.put_keeps
    | with_reducible apply State.setS_keeps | with_reducible apply State.draw_keeps | with_reducible apply State.chgCheck_keeps
    | with_reducible apply State.raiseAll_keeps | with_reducible apply State.ntc_keeps | with_reducible apply State.zoneEval_keeps
    | with_reducible apply State.warnEval_keeps | with_reducible apply State.throtEval_keeps | with_reducible apply State.thMark_keeps
    | with_reducible apply State.brdEval_keeps | with_reducible apply State.brdOff_keeps | with_reducible apply keeps_ite
    | (with_reducible exact fun k => k) | (intro _; with_reducible assumption) | dsimp only | split | intro _

theorem State.thmTry_keeps {z : State} (s : State) (hz : z.Keeps s) : z.Keeps (State.thmTry s) := by
  unfold State.thmTry
  repeat' first
    | with_reducible assumption | with_reducible apply State.adcPush_keeps | with_reducible apply State.thmEval_keeps
    | with_reducible apply foldl_keeps | with_reducible apply keeps_ite | (with_reducible exact fun k => k)
    | (intro _; with_reducible assumption) | dsimp only | split | refine keeps_len ?_ id id id id id id id
    | exact keeps_mk ‹_› rfl rfl rfl rfl rfl rfl rfl | intro _

theorem execThermalEval_keeps {z : State} (s : State) (hz : z.Keeps s) : OutKeeps z (execThermalEval s) := by
  unfold execThermalEval
  repeat' first
    | with_reducible assumption | with_reducible apply State.due_keeps | with_reducible apply State.thmTry_keeps
    | with_reducible apply outKeeps_next | with_reducible apply keeps_ite | (with_reducible exact fun k => k)
    | (intro _; with_reducible assumption) | dsimp only | split | refine keeps_len ?_ id id id id id id id
    | exact keeps_mk ‹_› rfl rfl rfl rfl rfl rfl rfl | intro _

theorem State.thmResult_keeps {z : State} (s : State) (ch : Nat) (hz : z.Keeps s) : z.Keeps (State.thmResult s ch) := by
  unfold State.thmResult
  repeat' first
    | with_reducible assumption | with_reducible apply State.thmTry_keeps | with_reducible apply keeps_ite | (with_reducible exact fun k => k)
    | (intro _; with_reducible assumption) | dsimp only | split | refine keeps_len ?_ id id id id id id id
    | exact keeps_mk ‹_› rfl rfl rfl rfl rfl rfl rfl | intro _

theorem execConversionEnd_keeps {z : State} (cv : Fin 4) (code : BitVec 12) (s : State) (hz : z.Keeps s) :
    OutKeeps z (execConversionEnd cv code s) := by
  unfold execConversionEnd
  repeat' first
    | with_reducible assumption | with_reducible apply State.dblSample_keeps | with_reducible apply State.convEnd_keeps
    | with_reducible apply State.thmResult_keeps | with_reducible apply outKeeps_next | with_reducible apply keeps_ite
    | (with_reducible exact fun k => k) | (intro _; with_reducible assumption) | dsimp only | split | refine keeps_len ?_ id id id id id id id
    | exact keeps_mk ‹_› rfl rfl rfl rfl rfl rfl rfl | intro _

theorem State.thermalOff_keeps {z : State} (s : State) (h : z.Keeps s) : z.Keeps (State.thermalOff s) := by
  unfold State.thermalOff
  extract_lets s1 s2 s3 own m
  have h3 : z.Keeps s3 := forEach_keeps _ _ (fun n t k => State.lswOff_keeps _ _ k) _
    (forEach_keeps _ _ (fun n t k => State.ldoOff_keeps _ _ k) _ (forEach_keeps _ _ (fun n t k => State.cutStack_keeps _ _ k) _ h))
  clear_value s3
  exact State.chgTiles_keeps _ (State.refreshRaw_keeps _ (keeps_mk h3 rfl rfl rfl rfl rfl rfl rfl))

theorem execThermalShutdown_keeps {z : State} (sensor : Fin 10) (s : State) (hz : z.Keeps s) :
    OutKeeps z (execThermalShutdown sensor s) := by
  unfold execThermalShutdown
  repeat' first
    | with_reducible assumption | with_reducible apply State.set_keeps | with_reducible apply State.emitC_keeps
    | with_reducible apply State.raise_keeps | with_reducible apply State.pmidRequest_keeps | with_reducible apply State.thermalOff_keeps
    | with_reducible apply outKeeps_next | with_reducible apply keeps_ite | (with_reducible exact fun k => k)
    | (intro _; with_reducible assumption) | dsimp only | split | intro _

theorem execHibTs6Check_keeps {z : State} (below : Bool) (s : State) (hz : z.Keeps s) : OutKeeps z (execHibTs6Check below s) := by
  unfold execHibTs6Check
  repeat' first
    | with_reducible assumption | with_reducible apply State.set_keeps | with_reducible apply State.wakeBoot_keeps
    | with_reducible apply State.hibernate_keeps | with_reducible apply outKeeps_next | with_reducible apply keeps_ite
    | (with_reducible exact fun k => k) | (intro _; with_reducible assumption) | dsimp only | split | intro _

end Sys2Proof.Machine
end

