-- ==== Sys2Proof/Laws/KeepsFrame.lean ====
section
/-! SUPPORT. `State.Keeps` of the frame timing unit, restarts, the watchdogs, PARK, the verifier and the OTP: one lemma for every operation that answers a state. -/

set_option linter.all false

namespace Sys2Proof.Machine

theorem State.setFrm_keeps {z : State} (s : State) (f : Frm) (hz : z.Keeps s) : z.Keeps (State.setFrm s f) := by
  unfold State.setFrm
  repeat' first
    | with_reducible assumption | with_reducible apply keeps_ite | (with_reducible exact fun k => k) | (intro _; with_reducible assumption)
    | dsimp only | split | exact keeps_mk ‹_› rfl rfl rfl rfl rfl rfl rfl | refine keeps_len ?_ id id id id id id id | intro _

theorem State.toPhase_keeps {z : State} (s : State) (p : Nat) (hz : z.Keeps s) : z.Keeps (State.toPhase s p) := by
  unfold State.toPhase
  repeat' first
    | with_reducible assumption | with_reducible apply State.pass_keeps | with_reducible apply keeps_ite | (with_reducible exact fun k => k)
    | (intro _; with_reducible assumption) | dsimp only | split | intro _

theorem State.toPip_keeps {z : State} (s : State) (p : Nat) (hz : z.Keeps s) : z.Keeps (State.toPip s p) := by
  unfold State.toPip
  repeat' first
    | with_reducible assumption | with_reducible apply State.toPhase_keeps | with_reducible apply keeps_ite | (with_reducible exact fun k => k)
    | (intro _; with_reducible assumption) | dsimp only | split | intro _

theorem State.strobe_keeps {z : State} (s : State) (hz : z.Keeps s) : z.Keeps (State.strobe s) := by
  unfold State.strobe
  repeat' first
    | with_reducible assumption | with_reducible apply forEach_keeps | with_reducible apply forEach_keeps | with_reducible apply keeps_ite
    | (with_reducible exact fun k => k) | (intro _; with_reducible assumption) | dsimp only | split | refine keeps_len ?_ id id id id id id id
    | exact keeps_mk ‹_› rfl rfl rfl rfl rfl rfl rfl | intro _

theorem State.pulsesEnd_keeps {z : State} (s : State) (hz : z.Keeps s) : z.Keeps (State.pulsesEnd s) := by
  unfold State.pulsesEnd
  repeat' first
    | with_reducible assumption | with_reducible apply foldl_keeps | with_reducible apply keeps_ite | (with_reducible exact fun k => k)
    | (intro _; with_reducible assumption) | dsimp only | split | exact keeps_mk ‹_› rfl rfl rfl rfl rfl rfl rfl
    | refine keeps_len ?_ id id id id id id id | intro _

theorem State.frmStop_keeps {z : State} (s : State) (hz : z.Keeps s) : z.Keeps (State.frmStop s) := by
  unfold State.frmStop
  repeat' first
    | with_reducible assumption | with_reducible apply State.frmIdle_keeps | with_reducible apply State.strobe_keeps
    | with_reducible apply State.pulsesEnd_keeps | with_reducible apply keeps_ite | (with_reducible exact fun k => k)
    | (intro _; with_reducible assumption) | dsimp only | split | intro _

theorem State.frmSearch_keeps {z : State} (s : State) (first : Option Nat) (hz : z.Keeps s) : z.Keeps (State.frmSearch s first) := by
  unfold State.frmSearch
  repeat' first
    | with_reducible assumption | with_reducible apply State.set_keeps | with_reducible apply State.frmIdle_keeps
    | with_reducible apply State.setFrm_keeps | with_reducible apply State.strobe_keeps | with_reducible apply State.pulsesEnd_keeps
    | with_reducible apply keeps_ite | (with_reducible exact fun k => k) | (intro _; with_reducible assumption) | dsimp only | split
    | refine keeps_len ?_ id id id id id id id | exact keeps_mk ‹_› rfl rfl rfl rfl rfl rfl rfl | intro _

theorem State.frmLose_keeps {z : State} (s : State) (why : Nat) (hz : z.Keeps s) : z.Keeps (State.frmLose s why) := by
  unfold State.frmLose
  repeat' first
    | with_reducible assumption | with_reducible apply State.set_keeps | with_reducible apply State.emit_keeps
    | with_reducible apply State.frmSearch_keeps | with_reducible apply keeps_ite | (with_reducible exact fun k => k)
    | (intro _; with_reducible assumption) | dsimp only | split | intro _

theorem State.frmStart_keeps {z : State} (s : State) (hz : z.Keeps s) : z.Keeps (State.frmStart s) := by
  unfold State.frmStart
  repeat' first
    | with_reducible assumption | with_reducible apply State.frmSearch_keeps | with_reducible apply keeps_ite | (with_reducible exact fun k => k)
    | (intro _; with_reducible assumption) | dsimp only | split | intro _

theorem State.phaseStep_keeps {z : State} (s : State) (hz : z.Keeps s) : z.Keeps (State.phaseStep s) := by
  unfold State.phaseStep
  repeat' first
    | with_reducible assumption | with_reducible apply State.setFrm_keeps | with_reducible apply keeps_ite | (with_reducible exact fun k => k)
    | (intro _; with_reducible assumption) | dsimp only | split | refine keeps_len ?_ id id id id id id id
    | exact keeps_mk ‹_› rfl rfl rfl rfl rfl rfl rfl | intro _

theorem State.phaseTrack_keeps {z : State} (s : State) (err : Int) (hz : z.Keeps s) : z.Keeps (State.phaseTrack s err) := by
  unfold State.phaseTrack
  repeat' first
    | with_reducible assumption | with_reducible apply State.set_keeps | with_reducible apply State.setS_keeps
    | with_reducible apply State.setFrm_keeps | with_reducible apply keeps_ite | (with_reducible exact fun k => k)
    | (intro _; with_reducible assumption) | dsimp only | split | refine keeps_len ?_ id id id id id id id
    | exact keeps_mk ‹_› rfl rfl rfl rfl rfl rfl rfl | intro _

theorem State.slotsStart_keeps {z : State} (s : State) (hz : z.Keeps s) : z.Keeps (State.slotsStart s) := by
  unfold State.slotsStart
  repeat' first
    | with_reducible assumption | with_reducible apply State.setFrm_keeps | with_reducible apply keeps_ite | (with_reducible exact fun k => k)
    | (intro _; with_reducible assumption) | dsimp only | split | refine keeps_len ?_ id id id id id id id
    | exact keeps_mk ‹_› rfl rfl rfl rfl rfl rfl rfl | intro _

theorem State.frmLocked_keeps {z : State} (s : State) (n : Nat) (hz : z.Keeps s) : z.Keeps (State.frmLocked s n) := by
  unfold State.frmLocked
  repeat' first
    | with_reducible assumption | with_reducible apply State.set_keeps | with_reducible apply State.emit_keeps
    | with_reducible apply State.strobe_keeps | with_reducible apply keeps_ite | (with_reducible exact fun k => k)
    | (intro _; with_reducible assumption) | dsimp only | split | intro _

theorem State.skipFires_keeps {z : State} (s : State) (k : Nat) (hz : z.Keeps s) : z.Keeps (State.skipFires s k) := by
  unfold State.skipFires
  repeat' first
    | with_reducible assumption | with_reducible apply State.set_keeps | with_reducible apply State.addSatF_keeps
    | with_reducible apply keeps_ite | (with_reducible exact fun k => k) | (intro _; with_reducible assumption) | dsimp only | split | intro _

theorem State.mapApply_keeps {z : State} (s : State) (m : Option (Bool × Nat)) (hz : z.Keeps s) : z.Keeps (State.mapApply s m) := by
  unfold State.mapApply
  repeat' first
    | with_reducible assumption | with_reducible apply State.set_keeps | with_reducible apply State.setFrm_keeps | with_reducible apply keeps_ite
    | (with_reducible exact fun k => k) | (intro _; with_reducible assumption) | dsimp only | split | refine keeps_len ?_ id id id id id id id
    | exact keeps_mk ‹_› rfl rfl rfl rfl rfl rfl rfl | intro _

theorem State.mapLatch_keeps {z : State} (s : State) (hz : z.Keeps s) : z.Keeps (State.mapLatch s) := by
  unfold State.mapLatch
  repeat' first
    | with_reducible assumption | with_reducible apply State.setFrm_keeps | with_reducible apply keeps_ite | (with_reducible exact fun k => k)
    | (intro _; with_reducible assumption) | dsimp only | split | refine keeps_len ?_ id id id id id id id
    | exact keeps_mk ‹_› rfl rfl rfl rfl rfl rfl rfl | intro _

theorem State.frameBegin_keeps {z : State} (s : State) (hz : z.Keeps s) : z.Keeps (State.frameBegin s) := by
  unfold State.frameBegin
  repeat' first
    | with_reducible assumption | with_reducible apply State.incWrapF_keeps | with_reducible apply State.setFrm_keeps
    | with_reducible apply State.mapApply_keeps | with_reducible apply keeps_ite | (with_reducible exact fun k => k)
    | (intro _; with_reducible assumption) | dsimp only | split | refine keeps_len ?_ id id id id id id id
    | exact keeps_mk ‹_› rfl rfl rfl rfl rfl rfl rfl | intro _

theorem State.firstPipZero_keeps {z : State} (s : State) (hz : z.Keeps s) : z.Keeps (State.firstPipZero s) := by
  unfold State.firstPipZero
  repeat' first
    | with_reducible assumption | with_reducible apply State.setFrm_keeps | with_reducible apply keeps_ite | (with_reducible exact fun k => k)
    | (intro _; with_reducible assumption) | dsimp only | split | refine keeps_len ?_ id id id id id id id
    | exact keeps_mk ‹_› rfl rfl rfl rfl rfl rfl rfl | intro _

theorem State.frmRestart_keeps {z : State} (s : State) (n : Nat) (hz : z.Keeps s) : z.Keeps (State.frmRestart s n) := by
  unfold State.frmRestart
  repeat' first
    | with_reducible assumption | with_reducible apply State.set_keeps | with_reducible apply State.incSatF_keeps
    | with_reducible apply State.due_keeps | with_reducible apply State.emit_keeps | with_reducible apply State.setFrm_keeps
    | with_reducible apply State.pulsesEnd_keeps | with_reducible apply State.phaseStep_keeps | with_reducible apply State.frmLocked_keeps
    | with_reducible apply State.skipFires_keeps | with_reducible apply State.mapApply_keeps | with_reducible apply State.frameBegin_keeps
    | with_reducible apply keeps_ite | (with_reducible exact fun k => k) | (intro _; with_reducible assumption) | dsimp only | split
    | refine keeps_len ?_ id id id id id id id | exact keeps_mk ‹_› rfl rfl rfl rfl rfl rfl rfl | intro _

theorem State.frmEdge_keeps {z : State} (s : State) (hz : z.Keeps s) : z.Keeps (State.frmEdge s) := by
  unfold State.frmEdge
  repeat' first
    | with_reducible assumption | with_reducible apply State.set_keeps | with_reducible apply State.incSatF_keeps
    | with_reducible apply State.setFrm_keeps | with_reducible apply State.frmLose_keeps | with_reducible apply State.phaseStep_keeps
    | with_reducible apply State.phaseTrack_keeps | with_reducible apply State.slotsStart_keeps | with_reducible apply State.frmLocked_keeps
    | with_reducible apply State.frmRestart_keeps | with_reducible apply keeps_ite | (with_reducible exact fun k => k)
    | (intro _; with_reducible assumption) | dsimp only | split | refine keeps_len ?_ id id id id id id id
    | exact keeps_mk ‹_› rfl rfl rfl rfl rfl rfl rfl | intro _

theorem State.fsyncJudge_keeps {z : State} (s : State) (rising : Bool) (width : Nat) (hz : z.Keeps s) :
    z.Keeps (State.fsyncJudge s rising width) := by
  unfold State.fsyncJudge
  repeat' first
    | with_reducible assumption | with_reducible apply State.draw_keeps | with_reducible apply State.setFrm_keeps
    | with_reducible apply State.frmEdge_keeps | with_reducible apply keeps_ite | (with_reducible exact fun k => k)
    | (intro _; with_reducible assumption) | dsimp only | split | refine keeps_len ?_ id id id id id id id
    | exact keeps_mk ‹_› rfl rfl rfl rfl rfl rfl rfl | intro _

theorem execFsyncEdge_keeps {z : State} (wait : Nat) (rising : Bool) (width : Nat) (s : State) (hz : z.Keeps s) :
    OutKeeps z (execFsyncEdge wait rising width s) := by
  unfold execFsyncEdge
  repeat' first
    | with_reducible assumption | with_reducible apply State.pass_keeps | with_reducible apply State.due_keeps
    | with_reducible apply State.fsyncJudge_keeps | with_reducible apply outKeeps_next | with_reducible apply keeps_ite
    | (with_reducible exact fun k => k) | (intro _; with_reducible assumption) | dsimp only | split | intro _

theorem State.frmFree_keeps {z : State} (s : State) (why : Nat) (hz : z.Keeps s) : z.Keeps (State.frmFree s why) := by
  unfold State.frmFree
  repeat' first
    | with_reducible assumption | with_reducible apply State.set_keeps | with_reducible apply State.emit_keeps | with_reducible apply keeps_ite
    | (with_reducible exact fun k => k) | (intro _; with_reducible assumption) | dsimp only | split | intro _

theorem State.holdCheck_keeps {z : State} (s : State) (hz : z.Keeps s) : z.Keeps (State.holdCheck s) := by
  unfold State.holdCheck
  repeat' first
    | with_reducible assumption | with_reducible apply State.frmFree_keeps | with_reducible apply keeps_ite | (with_reducible exact fun k => k)
    | (intro _; with_reducible assumption) | dsimp only | split | intro _

theorem State.frmMiss_keeps {z : State} (s : State) (hz : z.Keeps s) : z.Keeps (State.frmMiss s) := by
  unfold State.frmMiss
  repeat' first
    | with_reducible assumption | with_reducible apply State.set_keeps | with_reducible apply State.incSatF_keeps
    | with_reducible apply State.emit_keeps | with_reducible apply State.setFrm_keeps | with_reducible apply State.holdCheck_keeps
    | with_reducible apply keeps_ite | (with_reducible exact fun k => k) | (intro _; with_reducible assumption) | dsimp only | split
    | refine keeps_len ?_ id id id id id id id | exact keeps_mk ‹_› rfl rfl rfl rfl rfl rfl rfl | intro _

theorem execFrameMiss_keeps {z : State} (s : State) (hz : z.Keeps s) : OutKeeps z (execFrameMiss s) := by
  unfold execFrameMiss
  repeat' first
    | with_reducible assumption | with_reducible apply State.toPip_keeps | with_reducible apply State.frmMiss_keeps
    | with_reducible apply outKeeps_next | with_reducible apply keeps_ite | (with_reducible exact fun k => k)
    | (intro _; with_reducible assumption) | dsimp only | split | intro _

theorem execHoldoverLimit_keeps {z : State} (s : State) (hz : z.Keeps s) : OutKeeps z (execHoldoverLimit s) := by
  unfold execHoldoverLimit
  repeat' first
    | with_reducible assumption | with_reducible apply State.holdCheck_keeps | with_reducible apply outKeeps_next
    | with_reducible apply keeps_ite | (with_reducible exact fun k => k) | (intro _; with_reducible assumption) | dsimp only | split | intro _

theorem State.frameWrap_keeps {z : State} (s : State) (h : z.Keeps s) : z.Keeps (State.frameWrap s) := by
  unfold State.frameWrap
  have h0 := State.firstPipZero_keeps _ (State.mapLatch_keeps s h)
  generalize s.mapLatch.firstPipZero = s0 at h0 ⊢
  extract_lets s0x k ph c xf s1 s2 xg s3 s4
  have h1 : z.Keeps s1 := State.skipFires_keeps _ _ ⟨h0.queue, h0.memory, Nat.le_trans h0.clock (Nat.le_add_right _ _), fun c =>
    ⟨(h0.credits c).1, (h0.credits c).2, (h0.credits c).3, (h0.credits c).4, (h0.credits c).5, (h0.credits c).6, (h0.credits c).7⟩⟩
  have h2 : z.Keeps s2 := by
    exact State.frameBegin_keeps _ h1
  have h3 : z.Keeps s3 := by
    exact State.setFrm_keeps _ _ h2
  have h4 : z.Keeps s4 := by
    exact keeps_ite (fun _ => State.incSatF_keeps _ _ h3) fun _ => h3
  exact State.strobe_keeps _ h4

theorem execFrameWrap_keeps {z : State} (s : State) (hz : z.Keeps s) : OutKeeps z (execFrameWrap s) := by
  unfold execFrameWrap
  repeat' first
    | with_reducible assumption | with_reducible apply State.frameWrap_keeps | with_reducible apply outKeeps_next
    | with_reducible apply keeps_ite | (with_reducible exact fun k => k) | (intro _; with_reducible assumption) | dsimp only | split | intro _

theorem execBmapLatch_keeps {z : State} (s : State) (hz : z.Keeps s) : OutKeeps z (execBmapLatch s) := by
  unfold execBmapLatch
  repeat' first
    | with_reducible assumption | with_reducible apply State.toPip_keeps | with_reducible apply State.mapLatch_keeps
    | with_reducible apply outKeeps_next | with_reducible apply keeps_ite | (with_reducible exact fun k => k)
    | (intro _; with_reducible assumption) | dsimp only | split | intro _

theorem State.mapCommit_keeps {z : State} (s : State) (one : Bool) (hz : z.Keeps s) : z.Keeps (State.mapCommit s one) := by
  unfold State.mapCommit
  repeat' first
    | with_reducible assumption | with_reducible apply State.set_keeps | with_reducible apply State.setFrm_keeps
    | with_reducible apply State.mapLatch_keeps | with_reducible apply keeps_ite | (with_reducible exact fun k => k)
    | (intro _; with_reducible assumption) | dsimp only | split | refine keeps_len ?_ id id id id id id id
    | exact keeps_mk ‹_› rfl rfl rfl rfl rfl rfl rfl | intro _

theorem State.mapCtrlWrite_keeps {z : State} (s : State) (v : Nat) (hz : z.Keeps s) : z.Keeps (State.mapCtrlWrite s v) := by
  unfold State.mapCtrlWrite
  repeat' first
    | with_reducible assumption | with_reducible apply State.mapCommit_keeps | with_reducible apply keeps_ite | (with_reducible exact fun k => k)
    | (intro _; with_reducible assumption) | dsimp only | split | intro _

theorem execBmapCommitPersistent_keeps {z : State} (s : State) (hz : z.Keeps s) : OutKeeps z (execBmapCommitPersistent s) := by
  unfold execBmapCommitPersistent
  repeat' first
    | with_reducible assumption | with_reducible apply State.bus_keeps | with_reducible apply State.mapCtrlWrite_keeps
    | with_reducible apply outKeeps_next | with_reducible apply keeps_ite | (with_reducible exact fun k => k)
    | (intro _; with_reducible assumption) | dsimp only | split | intro _

theorem execBmapCommitOneFrame_keeps {z : State} (s : State) (hz : z.Keeps s) : OutKeeps z (execBmapCommitOneFrame s) := by
  unfold execBmapCommitOneFrame
  repeat' first
    | with_reducible assumption | with_reducible apply State.bus_keeps | with_reducible apply State.mapCtrlWrite_keeps
    | with_reducible apply outKeeps_next | with_reducible apply keeps_ite | (with_reducible exact fun k => k)
    | (intro _; with_reducible assumption) | dsimp only | split | intro _

theorem State.frmCfgWrite_keeps {z : State} (s : State) (v : Nat) (hz : z.Keeps s) : z.Keeps (State.frmCfgWrite s v) := by
  unfold State.frmCfgWrite
  repeat' first
    | with_reducible assumption | with_reducible apply State.set_keeps | with_reducible apply State.setDisc_keeps
    | with_reducible apply State.frmStop_keeps | with_reducible apply State.frmStart_keeps | with_reducible apply keeps_ite
    | (with_reducible exact fun k => k) | (intro _; with_reducible assumption) | dsimp only | split | intro _

theorem execFrmCfgWrite_keeps {z : State} (v : Word) (s : State) (hz : z.Keeps s) : OutKeeps z (execFrmCfgWrite v s) := by
  unfold execFrmCfgWrite
  repeat' first
    | with_reducible assumption | with_reducible apply State.bus_keeps | with_reducible apply State.frmCfgWrite_keeps
    | with_reducible apply outKeeps_next | with_reducible apply keeps_ite | (with_reducible exact fun k => k)
    | (intro _; with_reducible assumption) | dsimp only | split | intro _

theorem State.probeSlot_keeps {z : State} (s : State) (hz : z.Keeps s) : z.Keeps (State.probeSlot s) := by
  unfold State.probeSlot
  repeat' first
    | with_reducible assumption | with_reducible apply State.set_keeps | with_reducible apply State.probeFire_keeps
    | with_reducible apply State.setFrm_keeps | with_reducible apply State.skipFires_keeps | with_reducible apply keeps_ite
    | (with_reducible exact fun k => k) | (intro _; with_reducible assumption) | dsimp only | split | refine keeps_len ?_ id id id id id id id
    | exact keeps_mk ‹_› rfl rfl rfl rfl rfl rfl rfl | intro _

theorem State.slotAct_keeps {z : State} (s : State) (n w : Nat) (hz : z.Keeps s) : z.Keeps (State.slotAct s n w) := by
  unfold State.slotAct
  repeat' first
    | with_reducible assumption | with_reducible apply State.setStk_keeps | with_reducible apply State.fireOn_keeps
    | with_reducible apply State.emitX_keeps | with_reducible apply State.setGg_keeps | with_reducible apply State.adcPip_keeps
    | with_reducible apply State.seqPush_keeps | with_reducible apply State.probeSlot_keeps | with_reducible apply keeps_ite
    | (with_reducible exact fun k => k) | (intro _; with_reducible assumption) | dsimp only | split | refine keeps_len ?_ id id id id id id id
    | exact keeps_mk ‹_› rfl rfl rfl rfl rfl rfl rfl | intro _

theorem State.slotFire_keeps {z : State} (s : State) (n w : Nat) (hz : z.Keeps s) : z.Keeps (State.slotFire s n w) := by
  unfold State.slotFire
  repeat' first
    | with_reducible assumption | with_reducible apply State.set_keeps | with_reducible apply State.putBitF_keeps
    | with_reducible apply State.slotAct_keeps | with_reducible apply keeps_ite | (with_reducible exact fun k => k)
    | (intro _; with_reducible assumption) | dsimp only | split | intro _

theorem execSlotFire_keeps {z : State} (n : Fin 32) (s : State) (hz : z.Keeps s) : OutKeeps z (execSlotFire n s) := by
  unfold execSlotFire
  repeat' first
    | with_reducible assumption | with_reducible apply State.setFrm_keeps | with_reducible apply State.toPip_keeps
    | with_reducible apply State.slotFire_keeps | with_reducible apply outKeeps_next | with_reducible apply keeps_ite
    | (with_reducible exact fun k => k) | (intro _; with_reducible assumption) | dsimp only | split | refine keeps_len ?_ id id id id id id id
    | exact keeps_mk ‹_› rfl rfl rfl rfl rfl rfl rfl | intro _

theorem execGpioPulseEnd_keeps {z : State} (k : Fin 12) (s : State) (hz : z.Keeps s) : OutKeeps z (execGpioPulseEnd k s) := by
  unfold execGpioPulseEnd
  repeat' first
    | with_reducible assumption | with_reducible apply State.toPip_keeps | with_reducible apply outKeeps_next | with_reducible apply keeps_ite
    | (with_reducible exact fun k => k) | (intro _; with_reducible assumption) | dsimp only | split | refine keeps_len ?_ id id id id id id id
    | exact keeps_mk ‹_› rfl rfl rfl rfl rfl rfl rfl | intro _

theorem execFrameStrobeEnd_keeps {z : State} (s : State) (hz : z.Keeps s) : OutKeeps z (execFrameStrobeEnd s) := by
  unfold execFrameStrobeEnd
  repeat' first
    | with_reducible assumption | with_reducible apply State.toPip_keeps | with_reducible apply State.strobe_keeps
    | with_reducible apply outKeeps_next | with_reducible apply keeps_ite | (with_reducible exact fun k => k)
    | (intro _; with_reducible assumption) | dsimp only | split | intro _

theorem execProbeDeferredFire_keeps {z : State} (s : State) (hz : z.Keeps s) : OutKeeps z (execProbeDeferredFire s) := by
  unfold execProbeDeferredFire
  repeat' first
    | with_reducible assumption | with_reducible apply forEach_keeps | with_reducible apply State.probeFire_keeps
    | with_reducible apply State.setFrm_keeps | with_reducible apply State.toPip_keeps | with_reducible apply forEach_keeps
    | with_reducible apply outKeeps_next | with_reducible apply keeps_ite | (with_reducible exact fun k => k)
    | (intro _; with_reducible assumption) | dsimp only | split | refine keeps_len ?_ id id id id id id id
    | exact keeps_mk ‹_› rfl rfl rfl rfl rfl rfl rfl | intro _

theorem execReceiveQuietEnd_keeps {z : State} (s : State) (hz : z.Keeps s) : OutKeeps z (execReceiveQuietEnd s) := by
  unfold execReceiveQuietEnd
  repeat' first
    | with_reducible assumption | with_reducible apply State.pushTry_keeps | with_reducible apply State.nvmRetry_keeps
    | with_reducible apply State.toPip_keeps | with_reducible apply State.frameWrap_keeps | with_reducible apply outKeeps_next
    | with_reducible apply keeps_ite | (with_reducible exact fun k => k) | (intro _; with_reducible assumption) | dsimp only | split
    | refine keeps_len ?_ id id id id id id id | exact keeps_mk ‹_› rfl rfl rfl rfl rfl rfl rfl | intro _

theorem State.frmStatClear_keeps {z : State} (s : State) (v : Nat) (hz : z.Keeps s) : z.Keeps (State.frmStatClear s v) := by
  unfold State.frmStatClear
  repeat' first
    | with_reducible assumption | with_reducible apply State.set_keeps | with_reducible apply forEach_keeps | with_reducible apply forEach_keeps
    | with_reducible apply keeps_ite | (with_reducible exact fun k => k) | (intro _; with_reducible assumption) | dsimp only | split | intro _

theorem State.slotKeep_keeps {z : State} (s : State) (n : Nat) (hz : z.Keeps s) : z.Keeps (State.slotKeep s n) := by
  unfold State.slotKeep
  repeat' first
    | with_reducible assumption | with_reducible apply State.setFrm_keeps | with_reducible apply keeps_ite | (with_reducible exact fun k => k)
    | (intro _; with_reducible assumption) | dsimp only | split | refine keeps_len ?_ id id id id id id id
    | exact keeps_mk ‹_› rfl rfl rfl rfl rfl rfl rfl | intro _

theorem State.slotWrite_keeps {z : State} (s : State) (n v : Nat) (hz : z.Keeps s) : z.Keeps (State.slotWrite s n v) := by
  unfold State.slotWrite
  repeat' first
    | with_reducible assumption | with_reducible apply State.set_keeps | with_reducible apply State.setDisc_keeps
    | with_reducible apply State.slotKeep_keeps | with_reducible apply keeps_ite | (with_reducible exact fun k => k)
    | (intro _; with_reducible assumption) | dsimp only | split | intro _

theorem State.seatsStop_keeps {z : State} (s : State) (hz : z.Keeps s) : z.Keeps (State.seatsStop s) := by
  unfold State.seatsStop
  repeat' first
    | with_reducible assumption | with_reducible apply State.set_keeps | with_reducible apply State.latchCounts_keeps
    | with_reducible apply keeps_ite | (with_reducible exact fun k => k) | (intro _; with_reducible assumption) | dsimp only | split
    | refine keeps_len ?_ id id id id id id id | exact keeps_mk ‹_› rfl rfl rfl rfl rfl rfl rfl | intro _

theorem State.resetProgram_keeps {z : State} (s : State) (hz : z.Keeps s) : z.Keeps (State.resetProgram s) := by
  unfold State.resetProgram
  repeat' first
    | with_reducible assumption | with_reducible apply State.set_keeps | with_reducible apply State.emit_keeps
    | with_reducible apply State.setSeq_keeps | with_reducible apply State.setPhase_keeps | with_reducible apply State.progStart_keeps
    | with_reducible apply State.parkFailsOut_keeps | with_reducible apply State.settled_keeps | with_reducible apply State.shutAbort_keeps
    | with_reducible apply keeps_ite | (with_reducible exact fun k => k) | (intro _; with_reducible assumption) | dsimp only | split
    | refine keeps_len ?_ id id id id id id id | exact keeps_mk ‹_› rfl rfl rfl rfl rfl rfl rfl | exact fun k => k | intro _

theorem State.resetStep3_keeps {z : State} (s : State) (hz : z.Keeps s) : z.Keeps (State.resetStep3 s) := by
  unfold State.resetStep3
  repeat' first
    | with_reducible assumption | with_reducible apply State.resetProgram_keeps | with_reducible apply keeps_ite
    | (with_reducible exact fun k => k) | (intro _; with_reducible assumption) | dsimp only | split | refine keeps_len ?_ id id id id id id id
    | exact keeps_mk ‹_› rfl rfl rfl rfl rfl rfl rfl | intro _

theorem State.startReset_keeps {z : State} (s : State) (cause : FRef) (hz : z.Keeps s) : z.Keeps (State.startReset s cause) := by
  unfold State.startReset
  repeat' first
    | with_reducible assumption | with_reducible apply State.set_keeps | with_reducible apply State.resetFinish_keeps
    | with_reducible apply State.updAbandon_keeps | with_reducible apply State.seatsStop_keeps | with_reducible apply State.resetStep3_keeps
    | with_reducible apply keeps_ite | (with_reducible exact fun k => k) | (intro _; with_reducible assumption) | dsimp only | split
    | refine keeps_len ?_ id id id id id id id | exact keeps_mk ‹_› rfl rfl rfl rfl rfl rfl rfl | intro _

theorem execResetNLow_keeps {z : State} (s : State) (hz : z.Keeps s) : OutKeeps z (execResetNLow s) := by
  unfold execResetNLow
  repeat' first
    | with_reducible assumption | with_reducible apply State.startReset_keeps | with_reducible apply outKeeps_next
    | with_reducible apply keeps_ite | (with_reducible exact fun k => k) | (intro _; with_reducible assumption) | dsimp only | split
    | refine keeps_len ?_ id id id id id id id | exact keeps_mk ‹_› rfl rfl rfl rfl rfl rfl rfl | intro _

theorem State.strapTo_keeps {z : State} (s : State) (b : Bool) (hz : z.Keeps s) : z.Keeps (State.strapTo s b) := by
  unfold State.strapTo
  repeat' first
    | with_reducible assumption | with_reducible apply keeps_ite | (with_reducible exact fun k => k) | (intro _; with_reducible assumption)
    | dsimp only | split | exact keeps_mk ‹_› rfl rfl rfl rfl rfl rfl rfl | refine keeps_len ?_ id id id id id id id | intro _

theorem execResetNRelease_keeps {z : State} (strap : Bool) (s : State) (hz : z.Keeps s) : OutKeeps z (execResetNRelease strap s) := by
  unfold execResetNRelease
  repeat' first
    | with_reducible assumption | with_reducible apply State.enterBoot_keeps | with_reducible apply State.strapTo_keeps
    | with_reducible apply outKeeps_next | with_reducible apply keeps_ite | (with_reducible exact fun k => k)
    | (intro _; with_reducible assumption) | dsimp only | split | refine keeps_len ?_ id id id id id id id
    | exact keeps_mk ‹_› rfl rfl rfl rfl rfl rfl rfl | intro _

theorem execPowerDownTimeout_keeps {z : State} (s : State) (hz : z.Keeps s) : OutKeeps z (execPowerDownTimeout s) := by
  unfold execPowerDownTimeout
  repeat' first
    | with_reducible assumption | with_reducible apply State.due_keeps | with_reducible apply State.resetFinish_keeps
    | with_reducible apply outKeeps_next | with_reducible apply keeps_ite | (with_reducible exact fun k => k)
    | (intro _; with_reducible assumption) | dsimp only | split | intro _

theorem State.resetWrite_keeps {z : State} (s : State) (v : Nat) (hz : z.Keeps s) : z.Keeps (State.resetWrite s v) := by
  unfold State.resetWrite
  repeat' first
    | with_reducible assumption | with_reducible apply State.startReset_keeps | with_reducible apply keeps_ite
    | (with_reducible exact fun k => k) | (intro _; with_reducible assumption) | dsimp only | split | intro _

theorem execSysResetImage_keeps {z : State} (s : State) (hz : z.Keeps s) : OutKeeps z (execSysResetImage s) := by
  unfold execSysResetImage
  repeat' first
    | with_reducible assumption | with_reducible apply State.bus_keeps | with_reducible apply State.resetWrite_keeps
    | with_reducible apply outKeeps_next | with_reducible apply keeps_ite | (with_reducible exact fun k => k)
    | (intro _; with_reducible assumption) | dsimp only | split | intro _

theorem execSysResetRecovery_keeps {z : State} (s : State) (hz : z.Keeps s) : OutKeeps z (execSysResetRecovery s) := by
  unfold execSysResetRecovery
  repeat' first
    | with_reducible assumption | with_reducible apply State.bus_keeps | with_reducible apply State.resetWrite_keeps
    | with_reducible apply outKeeps_next | with_reducible apply keeps_ite | (with_reducible exact fun k => k)
    | (intro _; with_reducible assumption) | dsimp only | split | intro _

theorem State.aoBoot_keeps {z : State} (s : State) (hz : z.Keeps s) : z.Keeps (State.aoBoot s) := by
  unfold State.aoBoot
  repeat' first
    | with_reducible assumption | with_reducible apply State.enterBoot_keeps | with_reducible apply keeps_ite | (with_reducible exact fun k => k)
    | (intro _; with_reducible assumption) | dsimp only | split | refine keeps_len ?_ id id id id id id id
    | exact keeps_mk ‹_› rfl rfl rfl rfl rfl rfl rfl | intro _

theorem State.onAoGood_keeps {z : State} (s : State) (hz : z.Keeps s) : z.Keeps (State.onAoGood s) := by
  unfold State.onAoGood
  repeat' first
    | with_reducible assumption | with_reducible apply State.wakeBoot_keeps | with_reducible apply State.hibernate_keeps
    | with_reducible apply State.aoBoot_keeps | with_reducible apply keeps_ite | (with_reducible exact fun k => k)
    | (intro _; with_reducible assumption) | dsimp only | split | refine keeps_len ?_ id id id id id id id
    | exact keeps_mk ‹_› rfl rfl rfl rfl rfl rfl rfl | intro _

theorem execVaoGood_keeps {z : State} (strap pack : Bool) (s : State) (hz : z.Keeps s) : OutKeeps z (execVaoGood strap pack s) := by
  unfold execVaoGood
  repeat' first
    | with_reducible assumption | with_reducible apply State.put_keeps | with_reducible apply State.strapTo_keeps
    | with_reducible apply State.onAoGood_keeps | with_reducible apply outKeeps_next | with_reducible apply keeps_ite
    | (with_reducible exact fun k => k) | (intro _; with_reducible assumption) | dsimp only | split | refine keeps_len ?_ id id id id id id id
    | exact keeps_mk ‹_› rfl rfl rfl rfl rfl rfl rfl | intro _

theorem execVaoGoodLoss_keeps {z : State} (s : State) (h : z.Keeps s) : OutKeeps z (execVaoGoodLoss s) := by
  unfold execVaoGoodLoss
  refine outKeeps_next (keeps_ite (fun _ => ?_) fun _ => h)
  dsimp only
  have h2 : z.Keeps (match s.jnlFlush.updTear.otp.prog with
      | some (w, d) => s.jnlFlush.updTear.otpTorn w d
      | none => s.jnlFlush.updTear) := by
    have h1 := State.updTear_keeps _ (State.jnlFlush_keeps _ h)
    split
    · exact State.otpTorn_keeps _ _ _ h1
    · exact h1
  exact ⟨h.queue, h2.memory, h.clock, fun _ => ⟨Nat.zero_le _, Nat.zero_le _, List.Pairwise.nil, Nat.zero_le _, Nat.zero_le _,
    Nat.zero_le _, Nat.zero_le _⟩⟩

theorem execPmidCoreReady_keeps {z : State} (strap : Bool) (s : State) (hz : z.Keeps s) : OutKeeps z (execPmidCoreReady strap s) := by
  unfold execPmidCoreReady
  repeat' first
    | with_reducible assumption | with_reducible apply State.strapTo_keeps | with_reducible apply State.onAoGood_keeps
    | with_reducible apply outKeeps_next | with_reducible apply keeps_ite | (with_reducible exact fun k => k)
    | (intro _; with_reducible assumption) | dsimp only | split | refine keeps_len ?_ id id id id id id id
    | exact keeps_mk ‹_› rfl rfl rfl rfl rfl rfl rfl | intro _

theorem execPmidCoreReadyLoss_keeps {z : State} (s : State) (hz : z.Keeps s) : OutKeeps z (execPmidCoreReadyLoss s) := by
  unfold execPmidCoreReadyLoss
  repeat' first
    | with_reducible assumption | with_reducible apply State.hibernate_keeps | with_reducible apply State.startReset_keeps
    | with_reducible apply outKeeps_next | with_reducible apply keeps_ite | (with_reducible exact fun k => k)
    | (intro _; with_reducible assumption) | dsimp only | split | refine keeps_len ?_ id id id id id id id
    | exact keeps_mk ‹_› rfl rfl rfl rfl rfl rfl rfl | intro _

theorem State.evidenceLatch_keeps {z : State} (s : State) (kind seat cause pc : Nat) (bad : List Nat) (hz : z.Keeps s) :
    z.Keeps (State.evidenceLatch s kind seat cause pc bad) := by
  unfold State.evidenceLatch
  repeat' first
    | with_reducible assumption | with_reducible apply keeps_ite | (with_reducible exact fun k => k) | (intro _; with_reducible assumption)
    | dsimp only | split | exact keeps_mk ‹_› rfl rfl rfl rfl rfl rfl rfl | refine keeps_len ?_ id id id id id id id | intro _

theorem State.wdxStart_keeps {z : State} (s : State) (hz : z.Keeps s) : z.Keeps (State.wdxStart s) := by
  unfold State.wdxStart
  repeat' first
    | with_reducible assumption | with_reducible apply keeps_ite | (with_reducible exact fun k => k) | (intro _; with_reducible assumption)
    | dsimp only | split | exact keeps_mk ‹_› rfl rfl rfl rfl rfl rfl rfl | refine keeps_len ?_ id id id id id id id | intro _

theorem State.hostExpiry_keeps {z : State} (s : State) (hz : z.Keeps s) : z.Keeps (State.hostExpiry s) := by
  unfold State.hostExpiry
  repeat' first
    | with_reducible assumption | with_reducible apply State.startReset_keeps | with_reducible apply State.wdxStart_keeps
    | with_reducible apply keeps_ite | (with_reducible exact fun k => k) | (intro _; with_reducible assumption) | dsimp only | split | intro _

theorem State.stage1_keeps {z : State} (s : State) (n cause : Nat) (hz : z.Keeps s) : z.Keeps (State.stage1 s n cause) := by
  unfold State.stage1
  repeat' first
    | with_reducible assumption | with_reducible apply keeps_ite | (with_reducible exact fun k => k) | (intro _; with_reducible assumption)
    | dsimp only | split | exact keeps_mk ‹_› rfl rfl rfl rfl rfl rfl rfl | refine keeps_len ?_ id id id id id id id | intro _

theorem State.violateToo_keeps {z : State} (s : State) (n cause : Nat) (hz : z.Keeps s) : z.Keeps (State.violateToo s n cause) := by
  unfold State.violateToo
  repeat' first
    | with_reducible assumption | with_reducible apply State.set_keeps | with_reducible apply State.stage1_keeps | with_reducible apply keeps_ite
    | (with_reducible exact fun k => k) | (intro _; with_reducible assumption) | dsimp only | split | refine keeps_len ?_ id id id id id id id
    | exact keeps_mk ‹_› rfl rfl rfl rfl rfl rfl rfl | intro _

theorem State.violate_keeps {z : State} (s : State) (l : List Nat) (cause pc : Nat) (hz : z.Keeps s) :
    z.Keeps (State.violate s l cause pc) := by
  unfold State.violate
  repeat' first
    | with_reducible assumption | with_reducible apply State.set_keeps | with_reducible apply State.evidenceLatch_keeps
    | with_reducible apply State.hostExpiry_keeps | with_reducible apply State.stage1_keeps | with_reducible apply State.violateToo_keeps
    | with_reducible apply foldl_keeps | with_reducible apply keeps_ite | (with_reducible exact fun k => k)
    | (intro _; with_reducible assumption) | dsimp only | split | refine keeps_len ?_ id id id id id id id
    | exact keeps_mk ‹_› rfl rfl rfl rfl rfl rfl rfl | intro _

theorem State.putSeat_keeps {z : State} (s : State) (n : Nat) (x : Seat) (hz : z.Keeps s) : z.Keeps (State.putSeat s n x) := by
  unfold State.putSeat
  repeat' first
    | with_reducible assumption | with_reducible apply State.put_keeps | with_reducible apply State.setSeat_keeps
    | with_reducible apply keeps_ite | (with_reducible exact fun k => k) | (intro _; with_reducible assumption) | dsimp only | split | intro _

theorem State.serve_keeps {z : State} (s : State) (n tag pc : Nat) (hz : z.Keeps s) : z.Keeps (State.serve s n tag pc) := by
  unfold State.serve
  repeat' first
    | with_reducible assumption | with_reducible apply State.set_keeps | with_reducible apply State.violateToo_keeps
    | with_reducible apply State.violate_keeps | with_reducible apply State.putSeat_keeps | with_reducible apply keeps_ite
    | (with_reducible exact fun k => k) | (intro _; with_reducible assumption) | dsimp only | split | refine keeps_len ?_ id id id id id id id
    | exact keeps_mk ‹_› rfl rfl rfl rfl rfl rfl rfl | intro _

theorem State.serviceWrite_keeps {z : State} (s : State) (v : Nat) (hz : z.Keeps s) : z.Keeps (State.serviceWrite s v) := by
  unfold State.serviceWrite
  repeat' first
    | with_reducible assumption | with_reducible apply State.incSatF_keeps | with_reducible apply State.draw_keeps
    | with_reducible apply State.serve_keeps | with_reducible apply keeps_ite | (with_reducible exact fun k => k)
    | (intro _; with_reducible assumption) | dsimp only | split | intro _

theorem execWdgService_keeps {z : State} (v : Word) (s : State) (hz : z.Keeps s) : OutKeeps z (execWdgService v s) := by
  unfold execWdgService
  repeat' first
    | with_reducible assumption | with_reducible apply State.bus_keeps | with_reducible apply State.serviceWrite_keeps
    | with_reducible apply outKeeps_next | with_reducible apply keeps_ite | (with_reducible exact fun k => k)
    | (intro _; with_reducible assumption) | dsimp only | split | intro _

theorem State.seatsRoll_keeps {z : State} (s : State) (k pc : Nat) (hz : z.Keeps s) : z.Keeps (State.seatsRoll s k pc) := by
  unfold State.seatsRoll
  repeat' first
    | with_reducible assumption | with_reducible apply forEach_keeps | with_reducible apply State.violate_keeps
    | with_reducible apply State.putSeat_keeps | with_reducible apply forEach_keeps | with_reducible apply keeps_ite
    | (with_reducible exact fun k => k) | (intro _; with_reducible assumption) | dsimp only | split | refine keeps_len ?_ id id id id id id id
    | exact keeps_mk ‹_› rfl rfl rfl rfl rfl rfl rfl | intro _

theorem State.seatPeriodEnd_keeps {z : State} (s : State) (n pc : Nat) (hz : z.Keeps s) : z.Keeps (State.seatPeriodEnd s n pc) := by
  unfold State.seatPeriodEnd
  repeat' first
    | with_reducible assumption | with_reducible apply State.due_keeps | with_reducible apply State.seatsRoll_keeps
    | with_reducible apply keeps_ite | (with_reducible exact fun k => k) | (intro _; with_reducible assumption) | dsimp only | split | intro _

theorem execSeatFirstPeriodEnd_keeps {z : State} (n : Fin 8) (pc : Word) (s : State) (hz : z.Keeps s) :
    OutKeeps z (execSeatFirstPeriodEnd n pc s) := by
  unfold execSeatFirstPeriodEnd
  repeat' first
    | with_reducible assumption | with_reducible apply State.seatPeriodEnd_keeps | with_reducible apply outKeeps_next
    | with_reducible apply keeps_ite | (with_reducible exact fun k => k) | (intro _; with_reducible assumption) | dsimp only | split | intro _

theorem execSeatPeriodEnd_keeps {z : State} (n : Fin 8) (pc : Word) (s : State) (hz : z.Keeps s) :
    OutKeeps z (execSeatPeriodEnd n pc s) := by
  unfold execSeatPeriodEnd
  repeat' first
    | with_reducible assumption | with_reducible apply State.seatPeriodEnd_keeps | with_reducible apply outKeeps_next
    | with_reducible apply keeps_ite | (with_reducible exact fun k => k) | (intro _; with_reducible assumption) | dsimp only | split | intro _

theorem execSecondPeriodEnd_keeps {z : State} (s : State) (hz : z.Keeps s) : OutKeeps z (execSecondPeriodEnd s) := by
  unfold execSecondPeriodEnd
  repeat' first
    | with_reducible assumption | with_reducible apply State.due_keeps | with_reducible apply State.hostExpiry_keeps
    | with_reducible apply outKeeps_next | with_reducible apply keeps_ite | (with_reducible exact fun k => k)
    | (intro _; with_reducible assumption) | dsimp only | split | refine keeps_len ?_ id id id id id id id
    | exact keeps_mk ‹_› rfl rfl rfl rfl rfl rfl rfl | intro _

theorem execCoreWdgService_keeps {z : State} (s : State) (hz : z.Keeps s) : OutKeeps z (execCoreWdgService s) := by
  unfold execCoreWdgService
  repeat' first
    | with_reducible assumption | with_reducible apply State.due_keeps | with_reducible apply outKeeps_next | with_reducible apply keeps_ite
    | (with_reducible exact fun k => k) | (intro _; with_reducible assumption) | dsimp only | split | refine keeps_len ?_ id id id id id id id
    | exact keeps_mk ‹_› rfl rfl rfl rfl rfl rfl rfl | intro _

theorem execCoreWdgExpiry_keeps {z : State} (pc : Word) (s : State) (hz : z.Keeps s) : OutKeeps z (execCoreWdgExpiry pc s) := by
  unfold execCoreWdgExpiry
  repeat' first
    | with_reducible assumption | with_reducible apply State.due_keeps | with_reducible apply State.startReset_keeps
    | with_reducible apply State.evidenceLatch_keeps | with_reducible apply State.wdxStart_keeps | with_reducible apply outKeeps_next
    | with_reducible apply keeps_ite | (with_reducible exact fun k => k) | (intro _; with_reducible assumption) | dsimp only | split
    | refine keeps_len ?_ id id id id id id id | exact keeps_mk ‹_› rfl rfl rfl rfl rfl rfl rfl | intro _

theorem execWdxPulseEnd_keeps {z : State} (s : State) (hz : z.Keeps s) : OutKeeps z (execWdxPulseEnd s) := by
  unfold execWdxPulseEnd
  repeat' first
    | with_reducible assumption | with_reducible apply State.due_keeps | with_reducible apply outKeeps_next | with_reducible apply keeps_ite
    | (with_reducible exact fun k => k) | (intro _; with_reducible assumption) | dsimp only | split | refine keeps_len ?_ id id id id id id id
    | exact keeps_mk ‹_› rfl rfl rfl rfl rfl rfl rfl | intro _

theorem State.seatsPause_keeps {z : State} (s : State) (hz : z.Keeps s) : z.Keeps (State.seatsPause s) := by
  unfold State.seatsPause
  repeat' first
    | with_reducible assumption | with_reducible apply State.set_keeps | with_reducible apply forEach_keeps
    | with_reducible apply State.putSeat_keeps | with_reducible apply forEach_keeps | with_reducible apply keeps_ite
    | (with_reducible exact fun k => k) | (intro _; with_reducible assumption) | dsimp only | split | refine keeps_len ?_ id id id id id id id
    | exact keeps_mk ‹_› rfl rfl rfl rfl rfl rfl rfl | intro _

theorem execEvidenceRetry_keeps {z : State} (s : State) (hz : z.Keeps s) : OutKeeps z (execEvidenceRetry s) := by
  unfold execEvidenceRetry
  repeat' first
    | with_reducible assumption | with_reducible apply State.due_keeps | with_reducible apply State.evidencePush_keeps
    | with_reducible apply outKeeps_next | with_reducible apply keeps_ite | (with_reducible exact fun k => k)
    | (intro _; with_reducible assumption) | dsimp only | split | refine keeps_len ?_ id id id id id id id
    | exact keeps_mk ‹_› rfl rfl rfl rfl rfl rfl rfl | intro _

theorem State.evidIdxWrite_keeps {z : State} (s : State) (v : Nat) (hz : z.Keeps s) : z.Keeps (State.evidIdxWrite s v) := by
  unfold State.evidIdxWrite
  repeat' first
    | with_reducible assumption | with_reducible apply State.set_keeps | with_reducible apply State.injCheck_keeps
    | with_reducible apply State.copyWords_keeps | with_reducible apply keeps_ite | (with_reducible exact fun k => k)
    | (intro _; with_reducible assumption) | dsimp only | split | intro _

theorem execWdgEvidIdxWrite_keeps {z : State} (v : Word) (s : State) (hz : z.Keeps s) : OutKeeps z (execWdgEvidIdxWrite v s) := by
  unfold execWdgEvidIdxWrite
  repeat' first
    | with_reducible assumption | with_reducible apply State.bus_keeps | with_reducible apply State.evidIdxWrite_keeps
    | with_reducible apply outKeeps_next | with_reducible apply keeps_ite | (with_reducible exact fun k => k)
    | (intro _; with_reducible assumption) | dsimp only | split | intro _

theorem State.stacksWake_keeps {z : State} (s : State) (hz : z.Keeps s) : z.Keeps (State.stacksWake s) := by
  unfold State.stacksWake
  repeat' first
    | with_reducible assumption | with_reducible apply State.setStk_keeps | with_reducible apply forEach_keeps
    | with_reducible apply forEach_keeps | with_reducible apply keeps_ite | (with_reducible exact fun k => k)
    | (intro _; with_reducible assumption) | dsimp only | split | refine keeps_len ?_ id id id id id id id
    | exact keeps_mk ‹_› rfl rfl rfl rfl rfl rfl rfl | intro _

theorem State.runStart_keeps {z : State} (s : State) (h : z.Keeps s) : z.Keeps (State.runStart s) := by
  unfold State.runStart
  have h1 := State.adcStart_keeps _ (State.frmStart_keeps _ (State.coreWdgRestart_keeps _ (State.seatsStart_keeps _ h)))
  generalize s.seatsStart.coreWdgRestart.frmStart.adcStart = s1 at h1 ⊢
  exact keeps_mk h1 rfl rfl rfl rfl rfl rfl rfl

theorem State.parkExit_keeps {z : State} (s : State) (retOk : Bool) (h : z.Keeps s) : z.Keeps (State.parkExit s retOk) := by
  unfold State.parkExit
  extract_lets xd s0 s1 xm xe s2 s3
  have h0 : z.Keeps s0 := State.set_keeps _ _ _ (keeps_mk h rfl rfl rfl rfl rfl rfl rfl)
  have h1 : z.Keeps s1 := by
    clear_value s0
    exact keeps_ite (fun _ => h0) fun _ => State.raise_keeps _ _ _ (State.evtBlank_keeps _ h0)
  clear_value s1
  have h2 : z.Keeps s2 := keeps_len (State.setMode_keeps _ _ h1) id id id id id id id
  have h3 : z.Keeps s3 := by
    clear_value s2
    exact State.chgCheck_keeps _ (State.packExit_keeps _ (State.parkFailsOut_keeps _ (State.runStart_keeps _ (State.stacksWake_keeps _
      (State.gaugeCut_keeps _ h2)))))
  clear_value s3
  exact keeps_ite (fun _ => keeps_ite (fun _ => keeps_ite (fun _ => State.progStart_keeps _ _ _ _ (State.setPhase_keeps _ _ h3))
    fun _ => State.settled_keeps _ (State.setPhase_keeps _ _ h3)) fun _ => h3) fun _ => h1

theorem State.parkWake_keeps {z : State} (s : State) (hz : z.Keeps s) : z.Keeps (State.parkWake s) := by
  unfold State.parkWake
  repeat' first
    | with_reducible assumption | with_reducible apply State.parkExit_keeps | with_reducible apply keeps_ite | (with_reducible exact fun k => k)
    | (intro _; with_reducible assumption) | dsimp only | split | intro _

theorem State.wakeHold_keeps {z : State} (s : State) (k : Nat) (retOk : Bool) (hz : z.Keeps s) : z.Keeps (State.wakeHold s k retOk) := by
  unfold State.wakeHold
  repeat' first
    | with_reducible assumption | with_reducible apply keeps_ite | (with_reducible exact fun k => k) | (intro _; with_reducible assumption)
    | dsimp only | split | exact keeps_mk ‹_› rfl rfl rfl rfl rfl rfl rfl | refine keeps_len ?_ id id id id id id id | intro _

theorem State.wakeFire_keeps {z : State} (s : State) (k : Nat) (retOk : Bool) (hz : z.Keeps s) : z.Keeps (State.wakeFire s k retOk) := by
  unfold State.wakeFire
  repeat' first
    | with_reducible assumption | with_reducible apply State.putBitF_keeps | with_reducible apply State.cross_keeps
    | with_reducible apply State.wakeBoot_keeps | with_reducible apply State.hibernate_keeps | with_reducible apply State.parkWake_keeps
    | with_reducible apply State.wakeHold_keeps | with_reducible apply keeps_ite | (with_reducible exact fun k => k)
    | (intro _; with_reducible assumption) | dsimp only | split | refine keeps_len ?_ id id id id id id id
    | exact keeps_mk ‹_› rfl rfl rfl rfl rfl rfl rfl | intro _

theorem execWakeSource_keeps {z : State} (k : Fin 8) (retOk strap : Bool) (s : State) (hz : z.Keeps s) :
    OutKeeps z (execWakeSource k retOk strap s) := by
  unfold execWakeSource
  repeat' first
    | with_reducible assumption | with_reducible apply State.hibernate_keeps | with_reducible apply State.strapTo_keeps
    | with_reducible apply State.wakeFire_keeps | with_reducible apply outKeeps_next | with_reducible apply keeps_ite
    | (with_reducible exact fun k => k) | (intro _; with_reducible assumption) | dsimp only | split | intro _

theorem execVinQualified_keeps {z : State} (vin rise : Nat) (retOk strap : Bool) (s : State) (hz : z.Keeps s) :
    OutKeeps z (execVinQualified vin rise retOk strap s) := by
  unfold execVinQualified
  repeat' first
    | with_reducible assumption | with_reducible apply State.set_keeps | with_reducible apply State.due_keeps
    | with_reducible apply State.emit_keeps | with_reducible apply State.setPp_keeps | with_reducible apply State.hibernate_keeps
    | with_reducible apply State.srcRefresh_keeps | with_reducible apply State.strapTo_keeps | with_reducible apply State.wakeFire_keeps
    | with_reducible apply outKeeps_next | with_reducible apply keeps_ite | (with_reducible exact fun k => k)
    | (intro _; with_reducible assumption) | dsimp only | split | refine keeps_len ?_ id id id id id id id
    | exact keeps_mk ‹_› rfl rfl rfl rfl rfl rfl rfl | intro _

theorem execRtcSecond_keeps {z : State} (retOk strap : Bool) (s : State) (hz : z.Keeps s) : OutKeeps z (execRtcSecond retOk strap s) := by
  unfold execRtcSecond
  repeat' first
    | with_reducible assumption | with_reducible apply State.due_keeps | with_reducible apply State.hibernate_keeps
    | with_reducible apply State.strapTo_keeps | with_reducible apply State.wakeFire_keeps | with_reducible apply outKeeps_next
    | with_reducible apply keeps_ite | (with_reducible exact fun k => k) | (intro _; with_reducible assumption) | dsimp only | split
    | refine keeps_len ?_ id id id id id id id | exact keeps_mk ‹_› rfl rfl rfl rfl rfl rfl rfl | intro _

theorem State.xtalMark_keeps {z : State} (s : State) (hz : z.Keeps s) : z.Keeps (State.xtalMark s) := by
  unfold State.xtalMark
  repeat' first
    | with_reducible assumption | with_reducible apply State.set_keeps | with_reducible apply State.holdCheck_keeps
    | with_reducible apply keeps_ite | (with_reducible exact fun k => k) | (intro _; with_reducible assumption) | dsimp only | split
    | refine keeps_len ?_ id id id id id id id | exact keeps_mk ‹_› rfl rfl rfl rfl rfl rfl rfl | intro _

theorem State.xtalSet_keeps {z : State} (s : State) (hz : z.Keeps s) : z.Keeps (State.xtalSet s) := by
  unfold State.xtalSet
  repeat' first
    | with_reducible assumption | with_reducible apply State.raise_keeps | with_reducible apply State.xtalMark_keeps
    | with_reducible apply keeps_ite | (with_reducible exact fun k => k) | (intro _; with_reducible assumption) | dsimp only | split | intro _

theorem execXtalFail_keeps {z : State} (s : State) (hz : z.Keeps s) : OutKeeps z (execXtalFail s) := by
  unfold execXtalFail
  repeat' first
    | with_reducible assumption | with_reducible apply State.xtalSet_keeps | with_reducible apply outKeeps_next | with_reducible apply keeps_ite
    | (with_reducible exact fun k => k) | (intro _; with_reducible assumption) | dsimp only | split | refine keeps_len ?_ id id id id id id id
    | exact keeps_mk ‹_› rfl rfl rfl rfl rfl rfl rfl | intro _

theorem execCrystalReturn_keeps {z : State} (s : State) (hz : z.Keeps s) : OutKeeps z (execCrystalReturn s) := by
  unfold execCrystalReturn
  repeat' first
    | with_reducible assumption | with_reducible apply State.set_keeps | with_reducible apply State.unraise_keeps
    | with_reducible apply outKeeps_next | with_reducible apply keeps_ite | (with_reducible exact fun k => k)
    | (intro _; with_reducible assumption) | dsimp only | split | refine keeps_len ?_ id id id id id id id
    | exact keeps_mk ‹_› rfl rfl rfl rfl rfl rfl rfl | intro _

theorem State.parkEnter_keeps {z : State} (s : State) (hz : z.Keeps s) : z.Keeps (State.parkEnter s) := by
  unfold State.parkEnter
  repeat' first
    | with_reducible assumption | with_reducible apply State.set_keeps | with_reducible apply State.setMode_keeps
    | with_reducible apply forEach_keeps | with_reducible apply State.setPp_keeps | with_reducible apply State.chgCheck_keeps
    | with_reducible apply State.dropNonces_keeps | with_reducible apply State.unraise_keeps | with_reducible apply State.gaugeCut_keeps
    | with_reducible apply State.stackPark_keeps | with_reducible apply State.setPhase_keeps | with_reducible apply State.frmStop_keeps
    | with_reducible apply State.seatsPause_keeps | with_reducible apply State.parkWake_keeps | with_reducible apply forEach_keeps
    | with_reducible apply keeps_ite | (with_reducible exact fun k => k) | (intro _; with_reducible assumption) | dsimp only | split
    | refine keeps_len ?_ id id id id id id id | exact keeps_mk ‹_› rfl rfl rfl rfl rfl rfl rfl | intro _

theorem execParkEntry_keeps {z : State} (s : State) (hz : z.Keeps s) : OutKeeps z (execParkEntry s) := by
  unfold execParkEntry
  repeat' first
    | with_reducible assumption | with_reducible apply State.updStop_keeps | with_reducible apply State.dblHold_keeps
    | with_reducible apply State.parkEnter_keeps | with_reducible apply outKeeps_next | with_reducible apply keeps_ite
    | (with_reducible exact fun k => k) | (intro _; with_reducible assumption) | dsimp only | split | intro _

theorem execFailTier_keeps {z : State} (s : State) (hz : z.Keeps s) : OutKeeps z (execFailTier s) := by
  unfold execFailTier
  repeat' first
    | with_reducible assumption | with_reducible apply State.due_keeps | with_reducible apply State.tier_keeps
    | with_reducible apply State.settled_keeps | with_reducible apply State.parkWake_keeps | with_reducible apply outKeeps_next
    | with_reducible apply keeps_ite | (with_reducible exact fun k => k) | (intro _; with_reducible assumption) | dsimp only | split
    | refine keeps_len ?_ id id id id id id id | exact keeps_mk ‹_› rfl rfl rfl rfl rfl rfl rfl | intro _

theorem State.pwrReqWrite_keeps {z : State} (s : State) (v : Nat) (frame : Option Nat) (hz : z.Keeps s) :
    z.Keeps (State.pwrReqWrite s v frame) := by
  unfold State.pwrReqWrite
  repeat' first
    | with_reducible assumption | with_reducible apply State.frameDone_keeps | with_reducible apply State.seqPush_keeps
    | with_reducible apply keeps_ite | (with_reducible exact fun k => k) | (intro _; with_reducible assumption) | dsimp only | split | intro _

theorem execParkRequest_keeps {z : State} (s : State) (hz : z.Keeps s) : OutKeeps z (execParkRequest s) := by
  unfold execParkRequest
  repeat' first
    | with_reducible assumption | with_reducible apply State.bus_keeps | with_reducible apply State.pwrReqWrite_keeps
    | with_reducible apply outKeeps_next | with_reducible apply keeps_ite | (with_reducible exact fun k => k)
    | (intro _; with_reducible assumption) | dsimp only | split | intro _

theorem execHibernateRequest_keeps {z : State} (s : State) (hz : z.Keeps s) : OutKeeps z (execHibernateRequest s) := by
  unfold execHibernateRequest
  repeat' first
    | with_reducible assumption | with_reducible apply State.bus_keeps | with_reducible apply State.pwrReqWrite_keeps
    | with_reducible apply outKeeps_next | with_reducible apply keeps_ite | (with_reducible exact fun k => k)
    | (intro _; with_reducible assumption) | dsimp only | split | intro _

theorem execParkRequestGpio_keeps {z : State} (k : Fin 12) (s : State) (hz : z.Keeps s) : OutKeeps z (execParkRequestGpio k s) := by
  unfold execParkRequestGpio
  repeat' first
    | with_reducible assumption | with_reducible apply State.seqPush_keeps | with_reducible apply outKeeps_next | with_reducible apply keeps_ite
    | (with_reducible exact fun k => k) | (intro _; with_reducible assumption) | dsimp only | split | refine keeps_len ?_ id id id id id id id
    | exact keeps_mk ‹_› rfl rfl rfl rfl rfl rfl rfl | intro _

theorem execRecoveryHostrstRelease_keeps {z : State} (s : State) (hz : z.Keeps s) : OutKeeps z (execRecoveryHostrstRelease s) := by
  unfold execRecoveryHostrstRelease
  repeat' first
    | with_reducible assumption | with_reducible apply State.due_keeps | with_reducible apply outKeeps_next | with_reducible apply keeps_ite
    | (with_reducible exact fun k => k) | (intro _; with_reducible assumption) | dsimp only | split | refine keeps_len ?_ id id id id id id id
    | exact keeps_mk ‹_› rfl rfl rfl rfl rfl rfl rfl | intro _

theorem State.setSec_keeps {z : State} (s : State) (x : Sec) (hz : z.Keeps s) : z.Keeps (State.setSec s x) := by
  unfold State.setSec
  repeat' first
    | with_reducible assumption | with_reducible apply keeps_ite | (with_reducible exact fun k => k) | (intro _; with_reducible assumption)
    | dsimp only | split | exact keeps_mk ‹_› rfl rfl rfl rfl rfl rfl rfl | refine keeps_len ?_ id id id id id id id | intro _

theorem State.drawWords_keeps {z : State} (n : Nat) (s : State) (h : z.Keeps s) : z.Keeps (s.drawWords n).2 := by
  induction n generalizing s with
  | zero => exact h
  | succ n ih => exact ih _ (State.draw_keeps s h)

theorem State.countNonces_keeps {z : State} (s : State) (hz : z.Keeps s) : z.Keeps (State.countNonces s) := by
  unfold State.countNonces
  repeat' first
    | with_reducible assumption | with_reducible apply State.set_keeps | with_reducible apply keeps_ite | (with_reducible exact fun k => k)
    | (intro _; with_reducible assumption) | dsimp only | split | intro _

theorem State.evict_keeps {z : State} (s : State) (hz : z.Keeps s) : z.Keeps (State.evict s) := by
  unfold State.evict
  repeat' first
    | with_reducible assumption | with_reducible apply State.incSatF_keeps | with_reducible apply State.setSec_keeps
    | with_reducible apply keeps_ite | (with_reducible exact fun k => k) | (intro _; with_reducible assumption) | dsimp only | split
    | refine keeps_len ?_ id id id id id id id | exact keeps_mk ‹_› rfl rfl rfl rfl rfl rfl rfl | intro _

theorem State.nonceAdd_keeps {z : State} (s : State) (k : Nat) (w : List Nat) (hz : z.Keeps s) : z.Keeps (State.nonceAdd s k w) := by
  unfold State.nonceAdd
  repeat' first
    | with_reducible assumption | with_reducible apply State.set_keeps | with_reducible apply forEach_keeps
    | with_reducible apply State.setSec_keeps | with_reducible apply State.countNonces_keeps | with_reducible apply forEach_keeps
    | with_reducible apply optKeeps_getD | with_reducible apply keeps_ite | (with_reducible exact fun k => k)
    | (intro _; with_reducible assumption) | dsimp only | split | refine keeps_len ?_ id id id id id id id
    | exact keeps_mk ‹_› rfl rfl rfl rfl rfl rfl rfl | intro _

theorem State.chalWrite_keeps {z : State} (s : State) (v : Nat) (h : z.Keeps s) : z.Keeps (State.chalWrite s v) := by
  unfold State.chalWrite
  refine keeps_ite (fun _ => keeps_ite (fun _ => State.set_keeps _ _ _ h) fun _ => ?_) fun _ => h
  have k := State.drawWords_keeps 4 _ (State.evict_keeps _ h)
  generalize State.drawWords 4 s.evict = d at k ⊢
  exact State.nonceAdd_keeps _ _ _ k

theorem execChallengeRequest_keeps {z : State} (s : State) (hz : z.Keeps s) : OutKeeps z (execChallengeRequest s) := by
  unfold execChallengeRequest
  repeat' first
    | with_reducible assumption | with_reducible apply State.bus_keeps | with_reducible apply State.chalWrite_keeps
    | with_reducible apply outKeeps_next | with_reducible apply keeps_ite | (with_reducible exact fun k => k)
    | (intro _; with_reducible assumption) | dsimp only | split | intro _

theorem execNonceExpiry_keeps {z : State} (s : State) (hz : z.Keeps s) : OutKeeps z (execNonceExpiry s) := by
  unfold execNonceExpiry
  repeat' first
    | with_reducible assumption | with_reducible apply State.due_keeps | with_reducible apply State.setSec_keeps
    | with_reducible apply State.countNonces_keeps | with_reducible apply outKeeps_next | with_reducible apply keeps_ite
    | (with_reducible exact fun k => k) | (intro _; with_reducible assumption) | dsimp only | split | refine keeps_len ?_ id id id id id id id
    | exact keeps_mk ‹_› rfl rfl rfl rfl rfl rfl rfl | intro _

theorem State.submit_keeps {z : State} (s : State) (anchor : Bool) (f : Option Nat) (hz : z.Keeps s) :
    z.Keeps (State.submit s anchor f) := by
  unfold State.submit
  repeat' first
    | with_reducible assumption | with_reducible apply State.set_keeps | with_reducible apply State.put_keeps
    | with_reducible apply State.incSatF_keeps | with_reducible apply State.draw_keeps | with_reducible apply State.frameHold_keeps
    | with_reducible apply State.anchor_keeps | with_reducible apply State.setSec_keeps | with_reducible apply keeps_ite
    | (with_reducible exact fun k => k) | (intro _; with_reducible assumption) | dsimp only | split | refine keeps_len ?_ id id id id id id id
    | exact keeps_mk ‹_› rfl rfl rfl rfl rfl rfl rfl | intro _

theorem State.submitWrite_keeps {z : State} (s : State) (v : Nat) (f : Option Nat) (hz : z.Keeps s) :
    z.Keeps (State.submitWrite s v f) := by
  unfold State.submitWrite
  repeat' first
    | with_reducible assumption | with_reducible apply State.incSatF_keeps | with_reducible apply State.submit_keeps
    | with_reducible apply keeps_ite | (with_reducible exact fun k => k) | (intro _; with_reducible assumption) | dsimp only | split | intro _

theorem execGrantSubmit_keeps {z : State} (s : State) (hz : z.Keeps s) : OutKeeps z (execGrantSubmit s) := by
  unfold execGrantSubmit
  repeat' first
    | with_reducible assumption | with_reducible apply State.bus_keeps | with_reducible apply State.submitWrite_keeps
    | with_reducible apply outKeeps_next | with_reducible apply keeps_ite | (with_reducible exact fun k => k)
    | (intro _; with_reducible assumption) | dsimp only | split | intro _

theorem execAnchorSubmit_keeps {z : State} (s : State) (hz : z.Keeps s) : OutKeeps z (execAnchorSubmit s) := by
  unfold execAnchorSubmit
  repeat' first
    | with_reducible assumption | with_reducible apply State.bus_keeps | with_reducible apply State.submitWrite_keeps
    | with_reducible apply outKeeps_next | with_reducible apply keeps_ite | (with_reducible exact fun k => k)
    | (intro _; with_reducible assumption) | dsimp only | split | intro _

theorem State.consume_keeps {z : State} (s : State) (b : List Byte) (hz : z.Keeps s) : z.Keeps (State.consume s b) := by
  unfold State.consume
  repeat' first
    | with_reducible assumption | with_reducible apply State.setSec_keeps | with_reducible apply State.countNonces_keeps
    | with_reducible apply keeps_ite | (with_reducible exact fun k => k) | (intro _; with_reducible assumption) | dsimp only | split
    | refine keeps_len ?_ id id id id id id id | exact keeps_mk ‹_› rfl rfl rfl rfl rfl rfl rfl | intro _

theorem State.secResult_keeps {z : State} (s : State) (x : Submission) (code : Nat) (wasValid : Bool) (hz : z.Keeps s) :
    z.Keeps (State.secResult s x code wasValid) := by
  unfold State.secResult
  repeat' first
    | with_reducible assumption | with_reducible apply State.set_keeps | with_reducible apply State.incSatF_keeps
    | with_reducible apply State.incWrapF_keeps | with_reducible apply State.emitC_keeps | with_reducible apply State.raise_keeps
    | with_reducible apply State.anchor_keeps | with_reducible apply State.setSec_keeps | with_reducible apply keeps_ite
    | (with_reducible exact fun k => k) | (intro _; with_reducible assumption) | dsimp only | split | refine keeps_len ?_ id id id id id id id
    | exact keeps_mk ‹_› rfl rfl rfl rfl rfl rfl rfl | intro _

theorem State.secTake_keeps {z : State} (s : State) (b : List Byte) (hz : z.Keeps s) : z.Keeps (State.secTake s b) := by
  unfold State.secTake
  repeat' first
    | with_reducible assumption | with_reducible apply State.set_keeps | with_reducible apply State.put_keeps
    | with_reducible apply State.setSec_keeps | with_reducible apply keeps_ite | (with_reducible exact fun k => k)
    | (intro _; with_reducible assumption) | dsimp only | split | refine keeps_len ?_ id id id id id id id
    | exact keeps_mk ‹_› rfl rfl rfl rfl rfl rfl rfl | intro _

theorem State.secRestore_keeps {z : State} (s : State) (hz : z.Keeps s) : z.Keeps (State.secRestore s) := by
  unfold State.secRestore
  repeat' first
    | with_reducible assumption | with_reducible apply State.secTake_keeps | with_reducible apply keeps_ite | (with_reducible exact fun k => k)
    | (intro _; with_reducible assumption) | dsimp only | split | refine keeps_len ?_ id id id id id id id
    | exact keeps_mk ‹_› rfl rfl rfl rfl rfl rfl rfl | intro _

theorem execVerifyDone_keeps {z : State} (s : State) (hz : z.Keeps s) : OutKeeps z (execVerifyDone s) := by
  unfold execVerifyDone
  repeat' first
    | with_reducible assumption | with_reducible apply State.jnlTake_keeps | with_reducible apply State.setSec_keeps
    | with_reducible apply State.consume_keeps | with_reducible apply State.secResult_keeps | with_reducible apply outKeeps_next
    | with_reducible apply keeps_ite | (with_reducible exact fun k => k) | (intro _; with_reducible assumption) | dsimp only | split
    | refine keeps_len ?_ id id id id id id id | exact keeps_mk ‹_› rfl rfl rfl rfl rfl rfl rfl | intro _

theorem State.secRefused_keeps {z : State} (s : State) (hz : z.Keeps s) : z.Keeps (State.secRefused s) := by
  unfold State.secRefused
  repeat' first
    | with_reducible assumption | with_reducible apply State.secResult_keeps | with_reducible apply keeps_ite | (with_reducible exact fun k => k)
    | (intro _; with_reducible assumption) | dsimp only | split | refine keeps_len ?_ id id id id id id id
    | exact keeps_mk ‹_› rfl rfl rfl rfl rfl rfl rfl | intro _

theorem State.rtcStep_keeps {z : State} (s : State) (c : Nat) (hz : z.Keeps s) : z.Keeps (State.rtcStep s c) := by
  unfold State.rtcStep
  repeat' first
    | with_reducible assumption | with_reducible apply State.wakeFire_keeps | with_reducible apply keeps_ite | (with_reducible exact fun k => k)
    | (intro _; with_reducible assumption) | dsimp only | split | refine keeps_len ?_ id id id id id id id
    | exact keeps_mk ‹_› rfl rfl rfl rfl rfl rfl rfl | intro _

theorem execSubmissionCommitDone_keeps {z : State} (s : State) (hz : z.Keeps s) : OutKeeps z (execSubmissionCommitDone s) := by
  unfold execSubmissionCommitDone
  repeat' first
    | with_reducible assumption | with_reducible apply State.anchor_keeps | with_reducible apply State.guardAction_keeps
    | with_reducible apply State.secResult_keeps | with_reducible apply State.secTake_keeps | with_reducible apply State.rtcStep_keeps
    | with_reducible apply outKeeps_next | with_reducible apply keeps_ite | (with_reducible exact fun k => k)
    | (intro _; with_reducible assumption) | dsimp only | split | refine keeps_len ?_ id id id id id id id
    | exact keeps_mk ‹_› rfl rfl rfl rfl rfl rfl rfl | intro _

theorem execTrngHealth_keeps {z : State} (s : State) (hz : z.Keeps s) : OutKeeps z (execTrngHealth s) := by
  unfold execTrngHealth
  repeat' first
    | with_reducible assumption | with_reducible apply State.set_keeps | with_reducible apply State.raise_keeps
    | with_reducible apply outKeeps_next | with_reducible apply keeps_ite | (with_reducible exact fun k => k)
    | (intro _; with_reducible assumption) | dsimp only | split | intro _

theorem State.setOtp_keeps {z : State} (s : State) (x : OtpCtl) (hz : z.Keeps s) : z.Keeps (State.setOtp s x) := by
  unfold State.setOtp
  repeat' first
    | with_reducible assumption | with_reducible apply keeps_ite | (with_reducible exact fun k => k) | (intro _; with_reducible assumption)
    | dsimp only | split | exact keeps_mk ‹_› rfl rfl rfl rfl rfl rfl rfl | refine keeps_len ?_ id id id id id id id | intro _

theorem State.otpReadWrite_keeps {z : State} (s : State) (v : Nat) (hz : z.Keeps s) : z.Keeps (State.otpReadWrite s v) := by
  unfold State.otpReadWrite
  repeat' first
    | with_reducible assumption | with_reducible apply State.set_keeps | with_reducible apply State.setOtp_keeps | with_reducible apply keeps_ite
    | (with_reducible exact fun k => k) | (intro _; with_reducible assumption) | dsimp only | split | refine keeps_len ?_ id id id id id id id
    | exact keeps_mk ‹_› rfl rfl rfl rfl rfl rfl rfl | intro _

theorem execOtpRead_keeps {z : State} (v : Word) (s : State) (hz : z.Keeps s) : OutKeeps z (execOtpRead v s) := by
  unfold execOtpRead
  repeat' first
    | with_reducible assumption | with_reducible apply State.bus_keeps | with_reducible apply State.otpReadWrite_keeps
    | with_reducible apply outKeeps_next | with_reducible apply keeps_ite | (with_reducible exact fun k => k)
    | (intro _; with_reducible assumption) | dsimp only | split | intro _

theorem State.otpAge_keeps {z : State} (s : State) (w n : Nat) (hz : z.Keeps s) : z.Keeps (State.otpAge s w n) := by
  unfold State.otpAge
  repeat' first
    | with_reducible assumption | with_reducible apply State.draw_keeps | with_reducible apply State.setOtpWord_keeps
    | with_reducible apply keeps_ite | (with_reducible exact fun k => k) | (intro _; with_reducible assumption) | dsimp only | split | intro _

theorem execOtpReadDone_keeps {z : State} (err : Fin 3) (s : State) (hz : z.Keeps s) : OutKeeps z (execOtpReadDone err s) := by
  unfold execOtpReadDone
  repeat' first
    | with_reducible assumption | with_reducible apply State.set_keeps | with_reducible apply State.put_keeps
    | with_reducible apply State.setOtp_keeps | with_reducible apply State.otpAge_keeps | with_reducible apply outKeeps_next
    | with_reducible apply keeps_ite | (with_reducible exact fun k => k) | (intro _; with_reducible assumption) | dsimp only | split
    | refine keeps_len ?_ id id id id id id id | exact keeps_mk ‹_› rfl rfl rfl rfl rfl rfl rfl | intro _

theorem State.otpResult_keeps {z : State} (s : State) (w cause slot : Nat) (hz : z.Keeps s) : z.Keeps (State.otpResult s w cause slot) := by
  unfold State.otpResult
  repeat' first
    | with_reducible assumption | with_reducible apply State.set_keeps | with_reducible apply State.emit_keeps
    | with_reducible apply State.frameDone_keeps | with_reducible apply State.setOtp_keeps | with_reducible apply keeps_ite
    | (with_reducible exact fun k => k) | (intro _; with_reducible assumption) | dsimp only | split | refine keeps_len ?_ id id id id id id id
    | exact keeps_mk ‹_› rfl rfl rfl rfl rfl rfl rfl | intro _

theorem State.otpBegin_keeps {z : State} (s : State) (w d : Nat) (hz : z.Keeps s) : z.Keeps (State.otpBegin s w d) := by
  unfold State.otpBegin
  repeat' first
    | with_reducible assumption | with_reducible apply State.set_keeps | with_reducible apply State.setOtp_keeps | with_reducible apply keeps_ite
    | (with_reducible exact fun k => k) | (intro _; with_reducible assumption) | dsimp only | split | refine keeps_len ?_ id id id id id id id
    | exact keeps_mk ‹_› rfl rfl rfl rfl rfl rfl rfl | intro _

theorem State.otpStep_keeps {z : State} (s : State) (hz : z.Keeps s) : z.Keeps (State.otpStep s) := by
  unfold State.otpStep
  repeat' first
    | with_reducible assumption | with_reducible apply State.otpResult_keeps | with_reducible apply State.otpBegin_keeps
    | with_reducible apply keeps_ite | (with_reducible exact fun k => k) | (intro _; with_reducible assumption) | dsimp only | split | intro _

theorem State.otpProgWrite_keeps {z : State} (s : State) (v : Nat) (frame : Option Nat) (hz : z.Keeps s) :
    z.Keeps (State.otpProgWrite s v frame) := by
  unfold State.otpProgWrite
  repeat' first
    | with_reducible assumption | with_reducible apply State.frameDone_keeps | with_reducible apply State.setOtp_keeps
    | with_reducible apply State.otpResult_keeps | with_reducible apply State.otpBegin_keeps | with_reducible apply State.otpStep_keeps
    | with_reducible apply keeps_ite | (with_reducible exact fun k => k) | (intro _; with_reducible assumption) | dsimp only | split
    | refine keeps_len ?_ id id id id id id id | exact keeps_mk ‹_› rfl rfl rfl rfl rfl rfl rfl | intro _

theorem execOtpProgram_keeps {z : State} (s : State) (hz : z.Keeps s) : OutKeeps z (execOtpProgram s) := by
  unfold execOtpProgram
  repeat' first
    | with_reducible assumption | with_reducible apply State.bus_keeps | with_reducible apply State.otpProgWrite_keeps
    | with_reducible apply outKeeps_next | with_reducible apply keeps_ite | (with_reducible exact fun k => k)
    | (intro _; with_reducible assumption) | dsimp only | split | intro _

theorem execOtpAdvance_keeps {z : State} (s : State) (hz : z.Keeps s) : OutKeeps z (execOtpAdvance s) := by
  unfold execOtpAdvance
  repeat' first
    | with_reducible assumption | with_reducible apply State.bus_keeps | with_reducible apply State.otpProgWrite_keeps
    | with_reducible apply outKeeps_next | with_reducible apply keeps_ite | (with_reducible exact fun k => k)
    | (intro _; with_reducible assumption) | dsimp only | split | intro _

theorem State.otpBurn_keeps {z : State} (s : State) (w d : Nat) (hz : z.Keeps s) : z.Keeps (State.otpBurn s w d) := by
  unfold State.otpBurn
  repeat' first
    | with_reducible assumption | with_reducible apply State.setOtpWord_keeps | with_reducible apply keeps_ite
    | (with_reducible exact fun k => k) | (intro _; with_reducible assumption) | dsimp only | split | intro _

theorem State.otpShadowSet_keeps {z : State} (s : State) (w n : Nat) (hz : z.Keeps s) : z.Keeps (State.otpShadowSet s w n) := by
  unfold State.otpShadowSet
  repeat' first
    | with_reducible assumption | with_reducible apply State.setOtp_keeps | with_reducible apply keeps_ite | (with_reducible exact fun k => k)
    | (intro _; with_reducible assumption) | dsimp only | split | refine keeps_len ?_ id id id id id id id
    | exact keeps_mk ‹_› rfl rfl rfl rfl rfl rfl rfl | intro _

theorem State.otpReport_keeps {z : State} (s : State) (hz : z.Keeps s) : z.Keeps (State.otpReport s) := by
  unfold State.otpReport
  repeat' first
    | with_reducible assumption | with_reducible apply State.set_keeps | with_reducible apply State.put_keeps | with_reducible apply keeps_ite
    | (with_reducible exact fun k => k) | (intro _; with_reducible assumption) | dsimp only | split | intro _

theorem State.otpEnds_keeps {z : State} (s : State) (w c k : Nat) (hz : z.Keeps s) : z.Keeps (State.otpEnds s w c k) := by
  unfold State.otpEnds
  repeat' first
    | with_reducible assumption | with_reducible apply State.emit_keeps | with_reducible apply State.otpShadow_keeps
    | with_reducible apply State.setOtp_keeps | with_reducible apply State.otpResult_keeps | with_reducible apply State.otpStep_keeps
    | with_reducible apply State.otpReport_keeps | with_reducible apply foldl_keeps | with_reducible apply keeps_ite
    | (with_reducible exact fun k => k) | (intro _; with_reducible assumption) | dsimp only | split | refine keeps_len ?_ id id id id id id id
    | exact keeps_mk ‹_› rfl rfl rfl rfl rfl rfl rfl | intro _

theorem execOtpProgramDone_keeps {z : State} (ok : Bool) (s : State) (hz : z.Keeps s) : OutKeeps z (execOtpProgramDone ok s) := by
  unfold execOtpProgramDone
  repeat' first
    | with_reducible assumption | with_reducible apply State.otpTorn_keeps | with_reducible apply State.otpBurn_keeps
    | with_reducible apply State.otpShadowSet_keeps | with_reducible apply State.otpEnds_keeps | with_reducible apply outKeeps_next
    | with_reducible apply keeps_ite | (with_reducible exact fun k => k) | (intro _; with_reducible assumption) | dsimp only | split
    | refine keeps_len ?_ id id id id id id id | exact keeps_mk ‹_› rfl rfl rfl rfl rfl rfl rfl | intro _

end Sys2Proof.Machine
end

