-- ==== Sys2Proof/Laws/KeepsEngine.lean ====
section
/-! SUPPORT. `State.Keeps` of the set-point sources, the control engine, the setup image, updates and journal commits: one lemma for every operation that answers a state. -/

set_option linter.all false

namespace Sys2Proof.Machine

theorem State.holdEnd_keeps {z : State} (s : State) (n how : Nat) (t : Int) (hz : z.Keeps s) : z.Keeps (State.holdEnd s n how t) := by
  unfold State.holdEnd
  repeat' first
    | with_reducible assumption | with_reducible apply State.set_keeps | with_reducible apply State.setStk_keeps
    | with_reducible apply State.emitX_keeps | with_reducible apply keeps_ite | (with_reducible exact fun k => k)
    | (intro _; with_reducible assumption) | dsimp only | split | refine keeps_len ?_ id id id id id id id
    | exact keeps_mk ‹_› rfl rfl rfl rfl rfl rfl rfl | intro _

theorem State.holdReturn_keeps {z : State} (s : State) (n : Nat) (hz : z.Keeps s) : z.Keeps (State.holdReturn s n) := by
  unfold State.holdReturn
  repeat' first
    | with_reducible assumption | with_reducible apply State.set_keeps | with_reducible apply State.setStk_keeps
    | with_reducible apply State.holdEnd_keeps | with_reducible apply keeps_ite | (with_reducible exact fun k => k)
    | (intro _; with_reducible assumption) | dsimp only | split | refine keeps_len ?_ id id id id id id id
    | exact keeps_mk ‹_› rfl rfl rfl rfl rfl rfl rfl | intro _

theorem State.holdBegin_keeps {z : State} (s : State) (n : Nat) (hz : z.Keeps s) : z.Keeps (State.holdBegin s n) := by
  unfold State.holdBegin
  repeat' first
    | with_reducible assumption | with_reducible apply State.set_keeps | with_reducible apply State.setStk_keeps
    | with_reducible apply State.emitX_keeps | with_reducible apply State.raise_keeps | with_reducible apply keeps_ite
    | (with_reducible exact fun k => k) | (intro _; with_reducible assumption) | dsimp only | split | refine keeps_len ?_ id id id id id id id
    | exact keeps_mk ‹_› rfl rfl rfl rfl rfl rfl rfl | intro _

theorem State.trackStep_keeps {z : State} (s : State) (n : Nat) (hz : z.Keeps s) : z.Keeps (State.trackStep s n) := by
  unfold State.trackStep
  repeat' first
    | with_reducible assumption | with_reducible apply State.setStk_keeps | with_reducible apply State.holdReturn_keeps
    | with_reducible apply State.holdBegin_keeps | with_reducible apply keeps_ite | (with_reducible exact fun k => k)
    | (intro _; with_reducible assumption) | dsimp only | split | refine keeps_len ?_ id id id id id id id
    | exact keeps_mk ‹_› rfl rfl rfl rfl rfl rfl rfl | intro _

theorem State.emitProf_keeps {z : State} (s : State) (n outcome cause v l : Nat) (hz : z.Keeps s) :
    z.Keeps (State.emitProf s n outcome cause v l) := by
  unfold State.emitProf
  repeat' first
    | with_reducible assumption | with_reducible apply State.emitX_keeps | with_reducible apply keeps_ite | (with_reducible exact fun k => k)
    | (intro _; with_reducible assumption) | dsimp only | split | intro _

theorem State.profRequest_keeps {z : State} (s : State) (n v : Nat) (back : Option Nat) (hz : z.Keeps s) :
    z.Keeps (State.profRequest s n v back) := by
  unfold State.profRequest
  repeat' first
    | with_reducible assumption | with_reducible apply State.set_keeps | with_reducible apply State.setStk_keeps
    | with_reducible apply State.emitProf_keeps | with_reducible apply keeps_ite | (with_reducible exact fun k => k)
    | (intro _; with_reducible assumption) | dsimp only | split | refine keeps_len ?_ id id id id id id id
    | exact keeps_mk ‹_› rfl rfl rfl rfl rfl rfl rfl | intro _

theorem State.profInitTo_keeps {z : State} (s : State) (n : Nat) (t0 : Int) (hz : z.Keeps s) : z.Keeps (State.profInitTo s n t0) := by
  unfold State.profInitTo
  repeat' first
    | with_reducible assumption | with_reducible apply State.setStk_keeps | with_reducible apply keeps_ite | (with_reducible exact fun k => k)
    | (intro _; with_reducible assumption) | dsimp only | split | refine keeps_len ?_ id id id id id id id
    | exact keeps_mk ‹_› rfl rfl rfl rfl rfl rfl rfl | intro _

theorem State.profStart_keeps {z : State} (s : State) (n : Nat) (t0 : Int) (back : Bool) (hz : z.Keeps s) :
    z.Keeps (State.profStart s n t0 back) := by
  unfold State.profStart
  repeat' first
    | with_reducible assumption | with_reducible apply State.setStk_keeps | with_reducible apply State.profRequest_keeps
    | with_reducible apply State.profInitTo_keeps | with_reducible apply keeps_ite | (with_reducible exact fun k => k)
    | (intro _; with_reducible assumption) | dsimp only | split | refine keeps_len ?_ id id id id id id id
    | exact keeps_mk ‹_› rfl rfl rfl rfl rfl rfl rfl | intro _

theorem State.profStep_keeps {z : State} (s : State) (n : Nat) (hz : z.Keeps s) : z.Keeps (State.profStep s n).1 := by
  unfold State.profStep
  repeat' first
    | with_reducible assumption | with_reducible apply State.set_keeps | with_reducible apply State.setStk_keeps
    | with_reducible apply optKeeps_getD | with_reducible apply keeps_ite | (with_reducible exact fun k => k)
    | (intro _; with_reducible assumption) | dsimp only | split | refine keeps_len ?_ id id id id id id id
    | exact keeps_mk ‹_› rfl rfl rfl rfl rfl rfl rfl | intro _

theorem State.srcTake_keeps {z : State} (s0 : State) (n : Nat) (hzs0 : z.Keeps s0) : z.Keeps (State.srcTake s0 n) := by
  unfold State.srcTake
  repeat' first
    | with_reducible assumption | with_reducible apply State.set_keeps | with_reducible apply State.setStk_keeps
    | with_reducible apply State.holdEnd_keeps | with_reducible apply State.profInitTo_keeps | with_reducible apply keeps_ite
    | (with_reducible exact fun k => k) | (intro _; with_reducible assumption) | dsimp only | split | refine keeps_len ?_ id id id id id id id
    | exact keeps_mk ‹_› rfl rfl rfl rfl rfl rfl rfl | intro _

theorem State.srcWrite_keeps {z : State} (s : State) (n a v : Nat) (hz : z.Keeps s) : z.Keeps (State.srcWrite s n a v) := by
  unfold State.srcWrite
  repeat' first
    | with_reducible assumption | with_reducible apply State.setStk_keeps | with_reducible apply State.storeAcc_keeps
    | with_reducible apply State.holdEnd_keeps | with_reducible apply keeps_ite | (with_reducible exact fun k => k)
    | (intro _; with_reducible assumption) | dsimp only | split | refine keeps_len ?_ id id id id id id id
    | exact keeps_mk ‹_› rfl rfl rfl rfl rfl rfl rfl | intro _

theorem State.vsetTake_keeps {z : State} (s : State) (n v : Nat) (computes : Bool) (hz : z.Keeps s) :
    z.Keeps (State.vsetTake s n v computes) := by
  unfold State.vsetTake
  repeat' first
    | with_reducible assumption | with_reducible apply State.set_keeps | with_reducible apply State.profRequest_keeps
    | with_reducible apply keeps_ite | (with_reducible exact fun k => k) | (intro _; with_reducible assumption) | dsimp only | split | intro _

theorem State.vsetWrite_keeps {z : State} (s : State) (n v : Nat) (computes : Bool) (hz : z.Keeps s) :
    z.Keeps (State.vsetWrite s n v computes) := by
  unfold State.vsetWrite
  repeat' first
    | with_reducible assumption | with_reducible apply State.setStk_keeps | with_reducible apply State.vsetTake_keeps
    | with_reducible apply keeps_ite | (with_reducible exact fun k => k) | (intro _; with_reducible assumption) | dsimp only | split
    | refine keeps_len ?_ id id id id id id id | exact keeps_mk ‹_› rfl rfl rfl rfl rfl rfl rfl | intro _

theorem State.profWrite_keeps {z : State} (s : State) (n a v : Nat) (hz : z.Keeps s) : z.Keeps (State.profWrite s n a v) := by
  unfold State.profWrite
  repeat' first
    | with_reducible assumption | with_reducible apply State.set_keeps | with_reducible apply State.draw_keeps
    | with_reducible apply State.storeAcc_keeps | with_reducible apply State.emitProf_keeps | with_reducible apply State.profInitTo_keeps
    | with_reducible apply State.profStart_keeps | with_reducible apply keeps_ite | (with_reducible exact fun k => k)
    | (intro _; with_reducible assumption) | dsimp only | split | intro _

theorem State.stagedApply_keeps {z : State} (s : State) (n : Nat) (computes : Bool) (hz : z.Keeps s) :
    z.Keeps (State.stagedApply s n computes) := by
  unfold State.stagedApply
  repeat' first
    | with_reducible assumption | with_reducible apply State.setStk_keeps | with_reducible apply State.vsetTake_keeps
    | with_reducible apply keeps_ite | (with_reducible exact fun k => k) | (intro _; with_reducible assumption) | dsimp only | split
    | refine keeps_len ?_ id id id id id id id | exact keeps_mk ‹_› rfl rfl rfl rfl rfl rfl rfl | intro _

theorem State.startTarget_keeps {z : State} (s : State) (n : Nat) (hz : z.Keeps s) : z.Keeps (State.startTarget s n).1 := by
  unfold State.startTarget
  repeat' first
    | with_reducible assumption | with_reducible apply State.setStk_keeps | with_reducible apply State.trackStep_keeps
    | with_reducible apply keeps_ite | (with_reducible exact fun k => k) | (intro _; with_reducible assumption) | dsimp only | split
    | refine keeps_len ?_ id id id id id id id | exact keeps_mk ‹_› rfl rfl rfl rfl rfl rfl rfl | intro _

theorem State.enableSlot_keeps {z : State} (s : State) (n : Nat) (hz : z.Keeps s) : z.Keeps (State.enableSlot s n) := by
  unfold State.enableSlot
  repeat' first
    | with_reducible assumption | with_reducible apply State.set_keeps | with_reducible apply State.setStk_keeps
    | with_reducible apply State.emitX_keeps | with_reducible apply State.srcTake_keeps | with_reducible apply State.startTarget_keeps
    | with_reducible apply keeps_ite | (with_reducible exact fun k => k) | (intro _; with_reducible assumption) | dsimp only | split
    | refine keeps_len ?_ id id id id id id id | exact keeps_mk ‹_› rfl rfl rfl rfl rfl rfl rfl | intro _

theorem State.sourceStep_keeps {z : State} (s : State) (n : Nat) (hz : z.Keeps s) : z.Keeps (State.sourceStep s n).1 := by
  unfold State.sourceStep
  repeat' first
    | with_reducible assumption | with_reducible apply State.trackStep_keeps | with_reducible apply State.profStart_keeps
    | with_reducible apply State.profStep_keeps | with_reducible apply keeps_ite | (with_reducible exact fun k => k)
    | (intro _; with_reducible assumption) | dsimp only | split | intro _

theorem State.slotTarget_keeps {z : State} (s : State) (n : Nat) (hz : z.Keeps s) : z.Keeps (State.slotTarget s n).1 := by
  unfold State.slotTarget
  repeat' first
    | with_reducible assumption | with_reducible apply State.setStk_keeps | with_reducible apply State.sourceStep_keeps
    | with_reducible apply keeps_ite | (with_reducible exact fun k => k) | (intro _; with_reducible assumption) | dsimp only | split
    | refine keeps_len ?_ id id id id id id id | exact keeps_mk ‹_› rfl rfl rfl rfl rfl rfl rfl | intro _

theorem State.preAdd_keeps {z : State} (s : State) (n : Nat) (hz : z.Keeps s) : z.Keeps (State.preAdd s n) := by
  unfold State.preAdd
  repeat' first
    | with_reducible assumption | with_reducible apply State.set_keeps | with_reducible apply State.incWrapF_keeps
    | with_reducible apply State.setStk_keeps | with_reducible apply State.shedRest_keeps | with_reducible apply State.tilesJoin_keeps
    | with_reducible apply State.emitPhase_keeps | with_reducible apply keeps_ite | (with_reducible exact fun k => k)
    | (intro _; with_reducible assumption) | dsimp only | split | refine keeps_len ?_ id id id id id id id
    | exact keeps_mk ‹_› rfl rfl rfl rfl rfl rfl rfl | intro _

theorem State.antSlot_keeps {z : State} (s : State) (n : Nat) (hz : z.Keeps s) : z.Keeps (State.antSlot s n).1 := by
  unfold State.antSlot
  repeat' first
    | with_reducible assumption | with_reducible apply State.set_keeps | with_reducible apply State.setStk_keeps
    | with_reducible apply State.emitX_keeps | with_reducible apply State.antEnd_keeps | with_reducible apply State.preAdd_keeps
    | with_reducible apply keeps_ite | (with_reducible exact fun k => k) | (intro _; with_reducible assumption) | dsimp only | split
    | refine keeps_len ?_ id id id id id id id | exact keeps_mk ‹_› rfl rfl rfl rfl rfl rfl rfl | intro _

theorem execTrackConversion_keeps {z : State} (m : Fin 4) (code : Fin 4096) (s : State) (hz : z.Keeps s) :
    OutKeeps z (execTrackConversion m code s) := by
  unfold execTrackConversion
  repeat' first
    | with_reducible assumption | with_reducible apply outKeeps_next | with_reducible apply keeps_ite | (with_reducible exact fun k => k)
    | (intro _; with_reducible assumption) | dsimp only | split | exact keeps_mk ‹_› rfl rfl rfl rfl rfl rfl rfl
    | refine keeps_len ?_ id id id id id id id | intro _

theorem execPulsePeriodEnd_keeps {z : State} (k : Fin 12) (p h : Nat) (s : State) (hz : z.Keeps s) :
    OutKeeps z (execPulsePeriodEnd k p h s) := by
  unfold execPulsePeriodEnd
  repeat' first
    | with_reducible assumption | with_reducible apply State.setStk_keeps | with_reducible apply forEach_keeps
    | with_reducible apply forEach_keeps | with_reducible apply outKeeps_next | with_reducible apply keeps_ite
    | (with_reducible exact fun k => k) | (intro _; with_reducible assumption) | dsimp only | split | refine keeps_len ?_ id id id id id id id
    | exact keeps_mk ‹_› rfl rfl rfl rfl rfl rfl rfl | intro _

theorem execManualHold_keeps {z : State} (n : Fin 16) (s : State) (hz : z.Keeps s) : OutKeeps z (execManualHold n s) := by
  unfold execManualHold
  repeat' first
    | with_reducible assumption | with_reducible apply State.holdBegin_keeps | with_reducible apply outKeeps_next
    | with_reducible apply keeps_ite | (with_reducible exact fun k => k) | (intro _; with_reducible assumption) | dsimp only | split | intro _

theorem execSourceReturn_keeps {z : State} (n : Fin 16) (s : State) (hz : z.Keeps s) : OutKeeps z (execSourceReturn n s) := by
  unfold execSourceReturn
  repeat' first
    | with_reducible assumption | with_reducible apply State.holdReturn_keeps | with_reducible apply outKeeps_next
    | with_reducible apply keeps_ite | (with_reducible exact fun k => k) | (intro _; with_reducible assumption) | dsimp only | split | intro _

theorem execProfileDone_keeps {z : State} (n : Fin 4) (s : State) (hz : z.Keeps s) : OutKeeps z (execProfileDone n s) := by
  unfold execProfileDone
  repeat' first
    | with_reducible assumption | with_reducible apply State.set_keeps | with_reducible apply State.emitProf_keeps
    | with_reducible apply outKeeps_next | with_reducible apply keeps_ite | (with_reducible exact fun k => k)
    | (intro _; with_reducible assumption) | dsimp only | split | intro _

theorem State.ctrlWrite_keeps {z : State} (s : State) (n a v : Nat) (hz : z.Keeps s) : z.Keeps (State.ctrlWrite s n a v) := by
  unfold State.ctrlWrite
  repeat' first
    | with_reducible assumption | with_reducible apply State.setStk_keeps | with_reducible apply State.storeAcc_keeps
    | with_reducible apply keeps_ite | (with_reducible exact fun k => k) | (intro _; with_reducible assumption) | dsimp only | split
    | refine keeps_len ?_ id id id id id id id | exact keeps_mk ‹_› rfl rfl rfl rfl rfl rfl rfl | intro _

theorem State.mbxWord_keeps {z : State} (s : State) (n a v : Nat) (computes : Bool) (hz : z.Keeps s) :
    z.Keeps (State.mbxWord s n a v computes) := by
  unfold State.mbxWord
  repeat' first
    | with_reducible assumption | with_reducible apply State.antEnd_keeps | with_reducible apply State.storeAcc_keeps
    | with_reducible apply State.srcWrite_keeps | with_reducible apply State.vsetWrite_keeps | with_reducible apply State.profWrite_keeps
    | with_reducible apply State.ctrlWrite_keeps | with_reducible apply keeps_ite | (with_reducible exact fun k => k)
    | (intro _; with_reducible assumption) | dsimp only | split | refine keeps_len ?_ id id id id id id id
    | exact keeps_mk ‹_› rfl rfl rfl rfl rfl rfl rfl | intro _

theorem State.mbxPush_keeps {z : State} (s : State) (o : MbxOp) (h : z.Keeps s) : z.Keeps (State.mbxPush s o) := by
  unfold State.mbxPush
  refine State.injCheck_keeps _ _ _ ?_
  split
  · exact State.set_keeps _ _ _ (keeps_mk h rfl rfl rfl rfl rfl rfl rfl)
  · rename_i e
    refine keeps_len h id id id (fun c => ?_) id id id
    simp only [not_or, Bool.not_eq_true, List.any_eq_false, decide_eq_true_eq] at e
    rw [List.map_append, List.map_singleton]
    refine List.nodup_append.mpr ⟨c, List.nodup_singleton _, ?_⟩
    intro a ha b hb
    obtain ⟨q, hq, rfl⟩ := List.mem_map.mp ha
    rw [List.mem_singleton.mp hb]
    exact e.1 q hq

theorem State.mbxApply_keeps {z : State} (s : State) (n : Nat) (computes : Bool) (h : z.Keeps s) : z.Keeps (State.mbxApply s n computes) := by
  unfold State.mbxApply
  split
  · exact h
  · rename_i o e
    dsimp only
    have h1 := foldl_keeps o.writes (fun t w => t.mbxWord n w.1 w.2 computes) (fun t w k => State.mbxWord_keeps _ _ _ _ _ k) s h
    generalize o.writes.foldl (fun t w => t.mbxWord n w.1 w.2 computes) s = s1 at h1 ⊢
    have hd : ∀ l : List MbxOp, (l.map MbxOp.stack).Nodup → ((l.filter fun q => decide (q.stack ≠ n)).map MbxOp.stack).Nodup :=
      fun l c => c.sublist ((List.filter_sublist).map _)
    have hb : z.Keeps ({ s1 with mbx := s1.mbx.filter fun q => decide (q.stack ≠ n) } : State) :=
      keeps_len h1 id id id (hd _) id id id
    split
    · exact State.frameDone_keeps _ _ hb
    · rename_i q e
      have hq : q.stack = n := by simpa using List.find?_some e
      have h2 := State.frameDone_keeps _ o.frame hb
      have em : ∀ f, (({ s1 with mbx := s1.mbx.filter fun q => decide (q.stack ≠ n) } : State).frameDone f).mbx
          = s1.mbx.filter fun q => decide (q.stack ≠ n) := fun f => by
        unfold State.frameDone
        repeat' first | rfl | split
      refine keeps_len h2 id id id (fun c => ?_) id id id
      rw [List.map_append, List.map_singleton]
      refine List.nodup_append.mpr ⟨c, List.nodup_singleton _, ?_⟩
      intro a ha b hb
      obtain ⟨y, hy, rfl⟩ := List.mem_map.mp ha
      rw [List.mem_singleton.mp hb, hq]
      rw [em] at hy
      simpa using (List.mem_filter.mp hy).2

theorem State.emitPreset_keeps {z : State} (s : State) (n kind : Nat) (hz : z.Keeps s) : z.Keeps (State.emitPreset s n kind) := by
  unfold State.emitPreset
  repeat' first
    | with_reducible assumption | with_reducible apply State.set_keeps | with_reducible apply State.emitX_keeps | with_reducible apply keeps_ite
    | (with_reducible exact fun k => k) | (intro _; with_reducible assumption) | dsimp only | split | intro _

theorem State.manTrack_keeps {z : State} (s : State) (n : Nat) (due : Bool) (hz : z.Keeps s) : z.Keeps (State.manTrack s n due) := by
  unfold State.manTrack
  repeat' first
    | with_reducible assumption | with_reducible apply State.setS_keeps | with_reducible apply State.due_keeps | with_reducible apply keeps_ite
    | (with_reducible exact fun k => k) | (intro _; with_reducible assumption) | dsimp only | split | intro _

theorem State.manualPreset_keeps {z : State} (s : State) (n : Nat) (hz : z.Keeps s) : z.Keeps (State.manualPreset s n) := by
  unfold State.manualPreset
  repeat' first
    | with_reducible assumption | with_reducible apply State.setStk_keeps | with_reducible apply State.emitPreset_keeps
    | with_reducible apply State.manTrack_keeps | with_reducible apply keeps_ite | (with_reducible exact fun k => k)
    | (intro _; with_reducible assumption) | dsimp only | split | refine keeps_len ?_ id id id id id id id
    | exact keeps_mk ‹_› rfl rfl rfl rfl rfl rfl rfl | intro _

theorem State.loopPreset_keeps {z : State} (s : State) (n : Nat) (e i : Int) (hz : z.Keeps s) : z.Keeps (State.loopPreset s n e i) := by
  unfold State.loopPreset
  repeat' first
    | with_reducible assumption | with_reducible apply State.setStk_keeps | with_reducible apply State.emitPreset_keeps
    | with_reducible apply State.manTrack_keeps | with_reducible apply keeps_ite | (with_reducible exact fun k => k)
    | (intro _; with_reducible assumption) | dsimp only | split | refine keeps_len ?_ id id id id id id id
    | exact keeps_mk ‹_› rfl rfl rfl rfl rfl rfl rfl | intro _

theorem State.feedThrough_keeps {z : State} (s : State) (n : Nat) (t tPrev : Int) (preset : Bool) (hz : z.Keeps s) :
    z.Keeps (State.feedThrough s n t tPrev preset) := by
  unfold State.feedThrough
  repeat' first
    | with_reducible assumption | with_reducible apply State.setStk_keeps | with_reducible apply keeps_ite | (with_reducible exact fun k => k)
    | (intro _; with_reducible assumption) | dsimp only | split | refine keeps_len ?_ id id id id id id id
    | exact keeps_mk ‹_› rfl rfl rfl rfl rfl rfl rfl | intro _

theorem State.preload_keeps {z : State} (s : State) (n : Nat) (due : Bool) (hz : z.Keeps s) : z.Keeps (State.preload s n due) := by
  unfold State.preload
  repeat' first
    | with_reducible assumption | with_reducible apply State.due_keeps | with_reducible apply State.setStk_keeps | with_reducible apply keeps_ite
    | (with_reducible exact fun k => k) | (intro _; with_reducible assumption) | dsimp only | split | refine keeps_len ?_ id id id id id id id
    | exact keeps_mk ‹_› rfl rfl rfl rfl rfl rfl rfl | intro _

theorem State.engFlag_keeps {z : State} (s : State) (n k : Nat) (b : Bool) (hz : z.Keeps s) : z.Keeps (State.engFlag s n k b) := by
  unfold State.engFlag
  repeat' first
    | with_reducible assumption | with_reducible apply State.set_keeps | with_reducible apply keeps_ite | (with_reducible exact fun k => k)
    | (intro _; with_reducible assumption) | dsimp only | split | intro _

theorem State.limitMade_keeps {z : State} (s : State) (n t : Nat) (hz : z.Keeps s) : z.Keeps (State.limitMade s n t) := by
  unfold State.limitMade
  repeat' first
    | with_reducible assumption | with_reducible apply State.setStk_keeps | with_reducible apply State.emitX_keeps
    | with_reducible apply keeps_ite | (with_reducible exact fun k => k) | (intro _; with_reducible assumption) | dsimp only | split
    | refine keeps_len ?_ id id id id id id id | exact keeps_mk ‹_› rfl rfl rfl rfl rfl rfl rfl | intro _

theorem State.takeover_keeps {z : State} (s0 : State) (n win : Nat) (ref : Int) (hzs0 : z.Keeps s0) :
    z.Keeps (State.takeover s0 n win ref) := by
  unfold State.takeover
  repeat' first
    | with_reducible assumption | with_reducible apply State.setStk_keeps | with_reducible apply State.emitX_keeps
    | with_reducible apply State.limitMade_keeps | with_reducible apply keeps_ite | (with_reducible exact fun k => k)
    | (intro _; with_reducible assumption) | dsimp only | split | refine keeps_len ?_ id id id id id id id
    | exact keeps_mk ‹_› rfl rfl rfl rfl rfl rfl rfl | intro _

theorem State.slotLoops_keeps {z : State} (s : State) (n : Nat) (e i t aoff : Int) (h : z.Keeps s) : z.Keeps (State.slotLoops s n e i t aoff) := by
  unfold State.slotLoops
  extract_lets x man er pr rr r win rsel base lo hi g bad ll vcmp nt ff y out dac src x1 before s1 s2 s3 s4 s5
  have h1 : z.Keeps s1 := State.setS_keeps _ _ _ (State.setS_keeps _ _ _ (State.setS_keeps _ _ _ (State.set_keeps _ _ _ (State.setStk_keeps _ _ _ h))))
  have h2 : z.Keeps s2 := by
    clear_value s1
    exact State.engFlag_keeps _ _ _ _ (State.engFlag_keeps _ _ _ _ (State.engFlag_keeps _ _ _ _ (State.engFlag_keeps _ _ _ _ h1)))
  have h3 : z.Keeps s3 := by
    clear_value s2
    exact State.engFlag_keeps _ _ _ _ (State.engFlag_keeps _ _ _ _ (State.engFlag_keeps _ _ _ _ (State.engFlag_keeps _ _ _ _ h2)))
  have h4 : z.Keeps s4 := by
    clear_value s3
    exact State.set_keeps _ _ _ h3
  have h5 : z.Keeps s5 := by
    clear_value s4
    exact keeps_ite (fun _ => State.emitX_keeps _ _ _ _ _ _ _ h4) fun _ => h4
  clear_value s5
  exact keeps_ite (fun _ => State.takeover_keeps _ _ _ _ h5) fun _ => h5

theorem State.slotCompute_keeps {z : State} (s : State) (n : Nat) (e i : Int) (hz : z.Keeps s) : z.Keeps (State.slotCompute s n e i) := by
  unfold State.slotCompute
  repeat' first
    | with_reducible assumption | with_reducible apply State.set_keeps | with_reducible apply State.putBitF_keeps
    | with_reducible apply State.setStk_keeps | with_reducible apply State.tilesJoin_keeps | with_reducible apply State.srcTake_keeps
    | with_reducible apply State.stagedApply_keeps | with_reducible apply State.enableSlot_keeps | with_reducible apply State.slotTarget_keeps
    | with_reducible apply State.antSlot_keeps | with_reducible apply State.manualPreset_keeps | with_reducible apply State.loopPreset_keeps
    | with_reducible apply State.feedThrough_keeps | with_reducible apply State.preload_keeps | with_reducible apply State.slotLoops_keeps
    | with_reducible apply keeps_ite | (with_reducible exact fun k => k) | (intro _; with_reducible assumption) | dsimp only | split
    | refine keeps_len ?_ id id id id id id id | exact keeps_mk ‹_› rfl rfl rfl rfl rfl rfl rfl | intro _

theorem State.pgSlot_keeps {z : State} (s : State) (n : Nat) (e : Int) (esat : Bool) (hz : z.Keeps s) :
    z.Keeps (State.pgSlot s n e esat) := by
  unfold State.pgSlot
  repeat' first
    | with_reducible assumption | with_reducible apply State.setStk_keeps | with_reducible apply keeps_ite | (with_reducible exact fun k => k)
    | (intro _; with_reducible assumption) | dsimp only | split | refine keeps_len ?_ id id id id id id id
    | exact keeps_mk ‹_› rfl rfl rfl rfl rfl rfl rfl | intro _

theorem State.shedSlot_keeps {z : State} (s : State) (n : Nat) (hz : z.Keeps s) : z.Keeps (State.shedSlot s n) := by
  unfold State.shedSlot
  repeat' first
    | with_reducible assumption | with_reducible apply State.set_keeps | with_reducible apply State.due_keeps
    | with_reducible apply State.setStk_keeps | with_reducible apply State.shedRest_keeps | with_reducible apply State.phaseWait_keeps
    | with_reducible apply keeps_ite | (with_reducible exact fun k => k) | (intro _; with_reducible assumption) | dsimp only | split
    | refine keeps_len ?_ id id id id id id id | exact keeps_mk ‹_› rfl rfl rfl rfl rfl rfl rfl | intro _

theorem State.slotTime_keeps {z : State} (s : State) (n : Nat) (hz : z.Keeps s) : z.Keeps (State.slotTime s n) := by
  unfold State.slotTime
  repeat' first
    | with_reducible assumption | with_reducible apply State.due_keeps | with_reducible apply State.setStk_keeps | with_reducible apply keeps_ite
    | (with_reducible exact fun k => k) | (intro _; with_reducible assumption) | dsimp only | split | refine keeps_len ?_ id id id id id id id
    | exact keeps_mk ‹_› rfl rfl rfl rfl rfl rfl rfl | intro _

theorem State.slotFetch_keeps {z : State} (s : State) (corr : Nat) (hz : z.Keeps s) : z.Keeps (State.slotFetch s corr) := by
  unfold State.slotFetch
  repeat' first
    | with_reducible assumption | with_reducible apply State.addSatF_keeps | with_reducible apply State.draw_keeps
    | with_reducible apply State.checkerRaise_keeps | with_reducible apply State.engHalt_keeps | with_reducible apply keeps_ite
    | (with_reducible exact fun k => k) | (intro _; with_reducible assumption) | dsimp only | split | intro _

theorem State.slotRest_keeps {z : State} (s : State) (n : Nat) (hz : z.Keeps s) : z.Keeps (State.slotRest s n) := by
  unfold State.slotRest
  repeat' first
    | with_reducible assumption | with_reducible apply State.putBitF_keeps | with_reducible apply State.antEnd_keeps
    | with_reducible apply State.srcTake_keeps | with_reducible apply State.stagedApply_keeps | with_reducible apply keeps_ite
    | (with_reducible exact fun k => k) | (intro _; with_reducible assumption) | dsimp only | split | intro _

theorem execEngineSlot_keeps {z : State} (n : Fin 16) (e i : Int) (corr : Nat) (s : State) (h : z.Keeps s) :
    OutKeeps z (execEngineSlot n e i corr s) := by
  unfold execEngineSlot
  refine outKeeps_next (keeps_ite (fun _ => ?_) fun _ => h)
  extract_lets s0 e1 i1 s1 s2 _x s3 s4 s5 s6
  have h0 : z.Keeps s0 := State.slotTime_keeps _ _ h
  refine keeps_ite (fun _ => h0) fun _ => ?_
  have h1 : z.Keeps s1 := by
    clear_value s0
    exact keeps_ite (fun _ => State.set_keeps _ _ _ h0) fun _ => h0
  have h2 : z.Keeps s2 := by
    clear_value s1
    exact keeps_ite (fun _ => State.set_keeps _ _ _ h1) fun _ => h1
  have h4 : z.Keeps s4 := by
    have h3 : z.Keeps s3 := State.setStk_keeps _ _ _ h2
    clear_value s3
    exact State.mbxApply_keeps _ _ _ h3
  have h5 : z.Keeps s5 := by
    clear_value s4
    exact keeps_ite (fun _ => State.slotFetch_keeps _ _ h4) fun _ => h4
  have h6 : z.Keeps s6 := by
    clear_value s5
    exact keeps_ite (fun _ => State.slotCompute_keeps _ _ _ _ h5) fun _ => State.slotRest_keeps _ _ h5
  clear_value s6
  exact State.shedSlot_keeps _ _ (State.pgSlot_keeps _ _ _ _ h6)

theorem execStackMailboxWrite_keeps {z : State} (n : Fin 16) (w : List (BitVec 16 × Word)) (s : State) (hz : z.Keeps s) :
    OutKeeps z (execStackMailboxWrite n w s) := by
  unfold execStackMailboxWrite
  repeat' first
    | with_reducible assumption | with_reducible apply State.onBus_keeps | with_reducible apply State.mbxPush_keeps
    | with_reducible apply outKeeps_next | with_reducible apply keeps_ite | (with_reducible exact fun k => k)
    | (intro _; with_reducible assumption) | dsimp only | split | intro _

theorem execEngLimit_keeps {z : State} (n : Fin 16) (s : State) (hz : z.Keeps s) : OutKeeps z (execEngLimit n s) := by
  unfold execEngLimit
  repeat' first
    | with_reducible assumption | with_reducible apply State.due_keeps | with_reducible apply State.limitMade_keeps
    | with_reducible apply outKeeps_next | with_reducible apply keeps_ite | (with_reducible exact fun k => k)
    | (intro _; with_reducible assumption) | dsimp only | split | intro _

theorem State.probeLatch_keeps {z : State} (s : State) (hz : z.Keeps s) : z.Keeps (State.probeLatch s) := by
  unfold State.probeLatch
  repeat' first
    | with_reducible assumption | with_reducible apply State.setS_keeps | with_reducible apply keeps_ite | (with_reducible exact fun k => k)
    | (intro _; with_reducible assumption) | dsimp only | split | intro _

theorem execEngProbe0Read_keeps {z : State} (s : State) (hz : z.Keeps s) : OutKeeps z (execEngProbe0Read s) := by
  unfold execEngProbe0Read
  repeat' first
    | with_reducible assumption | with_reducible apply State.probeLatch_keeps | with_reducible apply outKeeps_next
    | with_reducible apply keeps_ite | (with_reducible exact fun k => k) | (intro _; with_reducible assumption) | dsimp only | split | intro _

theorem State.loadWord_keeps {z : State} (s : State) (a v : Nat) (hz : z.Keeps s) : z.Keeps (State.loadWord s a v) := by
  unfold State.loadWord
  repeat' first
    | with_reducible assumption | with_reducible apply State.storeAcc_keeps | with_reducible apply keeps_ite | (with_reducible exact fun k => k)
    | (intro _; with_reducible assumption) | dsimp only | split | intro _

theorem State.regWord_keeps {z : State} (s : State) (a v : Nat) (hz : z.Keeps s) : OptKeeps z (State.regWord s a v) := by
  unfold State.regWord
  repeat' first
    | with_reducible assumption | with_reducible apply State.loadWord_keeps | with_reducible apply optKeeps_some
    | with_reducible apply optKeeps_none | with_reducible apply keeps_ite | (with_reducible exact fun k => k)
    | (intro _; with_reducible assumption) | dsimp only | split | refine keeps_len ?_ id id id id id id id
    | exact keeps_mk ‹_› rfl rfl rfl rfl rfl rfl rfl | intro _

theorem State.takeTile_keeps {z : State} (s : State) (x : TileRec) (hz : z.Keeps s) : z.Keeps (State.takeTile s x) := by
  unfold State.takeTile
  repeat' first
    | with_reducible assumption | with_reducible apply State.set_keeps | with_reducible apply keeps_ite | (with_reducible exact fun k => k)
    | (intro _; with_reducible assumption) | dsimp only | split | refine keeps_len ?_ id id id id id id id
    | exact keeps_mk ‹_› rfl rfl rfl rfl rfl rfl rfl | intro _

theorem State.takeClaim_keeps {z : State} (s : State) (e : Nat × Nat × Nat × Nat) (hz : z.Keeps s) : z.Keeps (State.takeClaim s e) := by
  unfold State.takeClaim
  repeat' first
    | with_reducible assumption | with_reducible apply State.set_keeps | with_reducible apply State.putBitF_keeps
    | with_reducible apply keeps_ite | (with_reducible exact fun k => k) | (intro _; with_reducible assumption) | dsimp only | split
    | refine keeps_len ?_ id id id id id id id | exact keeps_mk ‹_› rfl rfl rfl rfl rfl rfl rfl | intro _

theorem State.takeClaims_keeps {z : State} (s : State) (l : List SetupRec) (hz : z.Keeps s) : z.Keeps (State.takeClaims s l) := by
  unfold State.takeClaims
  repeat' first
    | with_reducible assumption | with_reducible apply State.chgTiles_keeps | with_reducible apply State.takeTile_keeps
    | with_reducible apply State.takeClaim_keeps | with_reducible apply foldl_keeps | with_reducible apply keeps_ite
    | (with_reducible exact fun k => k) | (intro _; with_reducible assumption) | dsimp only | split | refine keeps_len ?_ id id id id id id id
    | exact keeps_mk ‹_› rfl rfl rfl rfl rfl rfl rfl | intro _

theorem State.regWords_keeps {z : State} (s : State) (b : List Byte) (n k : Nat) (h : z.Keeps s) : OptKeeps z (s.regWords b n k) := by
  induction n generalizing s k with
  | zero => exact h
  | succ n ih =>
    rw [State.regWords]
    split
    · rename_i t e
      have r := State.regWord_keeps s (leField b 4 2 + 4 * k) (leField b (8 + 4 * k) 4) h
      rw [e] at r
      exact ih _ _ r
    · exact True.intro

theorem State.regRecs_keeps {z : State} (s : State) (k : Nat) (l : List SetupRec) (h : z.Keeps s) : ExKeeps z (s.regRecs k l) := by
  induction l generalizing s k with
  | nil => exact h
  | cons r l ih =>
    rw [State.regRecs]
    split
    · split
      · rename_i t e
        have r' := State.regWords_keeps s r.bytes (leField r.bytes 6 2) 0 h
        rw [e] at r'
        exact ih _ _ r'
      · exact True.intro
    · exact ih _ _ h

theorem State.idleWindows_keeps {z : State} (s : State) (hz : z.Keeps s) : z.Keeps (State.idleWindows s) := by
  unfold State.idleWindows
  repeat' first
    | with_reducible assumption | with_reducible apply State.set_keeps | with_reducible apply forEach_keeps | with_reducible apply forEach_keeps
    | with_reducible apply keeps_ite | (with_reducible exact fun k => k) | (intro _; with_reducible assumption) | dsimp only | split | intro _

theorem State.takePrograms_keeps {z : State} (s : State) (l : List SetupRec) (hz : z.Keeps s) : z.Keeps (State.takePrograms s l) := by
  unfold State.takePrograms
  repeat' first
    | with_reducible assumption | with_reducible apply State.set_keeps | with_reducible apply foldl_keeps | with_reducible apply optKeeps_getD
    | with_reducible apply keeps_ite | (with_reducible exact fun k => k) | (intro _; with_reducible assumption) | dsimp only | split
    | refine keeps_len ?_ id id id id id id id | exact keeps_mk ‹_› rfl rfl rfl rfl rfl rfl rfl | intro _

theorem State.takeSats_keeps {z : State} (s : State) (l : List SetupRec) (hz : z.Keeps s) : z.Keeps (State.takeSats s l) := by
  unfold State.takeSats
  repeat' first
    | with_reducible assumption | with_reducible apply State.set_keeps | with_reducible apply foldl_keeps | with_reducible apply keeps_ite
    | (with_reducible exact fun k => k) | (intro _; with_reducible assumption) | dsimp only | split | refine keeps_len ?_ id id id id id id id
    | exact keeps_mk ‹_› rfl rfl rfl rfl rfl rfl rfl | intro _

theorem State.setupCheck_keeps {z : State} (s : State) (b : List Byte) (len : Nat) (h : z.Keeps s) : ExKeeps z (State.setupCheck s b len) := by
  unfold State.setupCheck
  split
  · exact True.intro
  · rename_i l _
    dsimp only
    split
    · exact True.intro
    · split
      · exact True.intro
      · split
        · exact True.intro
        · split
          · exact True.intro
          · rename_i s1 e
            have r := State.regRecs_keeps (s.takeClaims l) 0 l (State.takeClaims_keeps _ _ h)
            rw [e] at r
            split
            · exact True.intro
            · split
              · exact True.intro
              · split
                · exact True.intro
                · exact State.takeSats_keeps _ _ (State.takePrograms_keeps _ _ (State.idleWindows_keeps _ r))

theorem State.bodyCheck_keeps {z : State} (s : State) (slot : Nat) (hd : List Byte) (h : z.Keeps s) : ExKeeps z (State.bodyCheck s slot hd) := by
  unfold State.bodyCheck
  repeat' first | exact True.intro | exact State.setupCheck_keeps _ _ _ h | split

theorem State.slotCheck_keeps {z : State} (s : State) (slot : Nat) (a : Bool) (h : z.Keeps s) : ExKeeps z (State.slotCheck s slot a) := by
  unfold State.slotCheck
  dsimp only
  repeat' first | exact True.intro | exact State.bodyCheck_keeps _ _ _ h | split

theorem State.setUpd_keeps {z : State} (s : State) (u : Upd) (hz : z.Keeps s) : z.Keeps (State.setUpd s u) := by
  unfold State.setUpd
  repeat' first
    | with_reducible assumption | with_reducible apply keeps_ite | (with_reducible exact fun k => k) | (intro _; with_reducible assumption)
    | dsimp only | split | exact keeps_mk ‹_› rfl rfl rfl rfl rfl rfl rfl | refine keeps_len ?_ id id id id id id id | intro _

theorem State.updRefuse_keeps {z : State} (s : State) (cause : Nat) (hz : z.Keeps s) : z.Keeps (State.updRefuse s cause) := by
  unfold State.updRefuse
  repeat' first
    | with_reducible assumption | with_reducible apply State.set_keeps | with_reducible apply keeps_ite | (with_reducible exact fun k => k)
    | (intro _; with_reducible assumption) | dsimp only | split | intro _

theorem State.updStart_keeps {z : State} (s : State) (n : Nat) (hz : z.Keeps s) : z.Keeps (State.updStart s n) := by
  unfold State.updStart
  repeat' first
    | with_reducible assumption | with_reducible apply State.historyOf_keeps | with_reducible apply State.slotCommit_keeps
    | with_reducible apply State.updRefuse_keeps | with_reducible apply keeps_ite | (with_reducible exact fun k => k)
    | (intro _; with_reducible assumption) | dsimp only | split | intro _

theorem State.updBegin_keeps {z : State} (s : State) (n : Nat) (hz : z.Keeps s) : z.Keeps (State.updBegin s n) := by
  unfold State.updBegin
  repeat' first
    | with_reducible assumption | with_reducible apply State.set_keeps | with_reducible apply State.updTear_keeps
    | with_reducible apply State.nvmTry_keeps | with_reducible apply State.nvmFree_keeps | with_reducible apply State.setUpd_keeps
    | with_reducible apply keeps_ite | (with_reducible exact fun k => k) | (intro _; with_reducible assumption) | dsimp only | split | intro _

theorem State.updEnd_keeps {z : State} (s : State) (c : Nat) (hz : z.Keeps s) : z.Keeps (State.updEnd s c) := by
  unfold State.updEnd
  repeat' first
    | with_reducible assumption | with_reducible apply State.set_keeps | with_reducible apply State.frameDone_keeps
    | with_reducible apply State.history_keeps | with_reducible apply State.updFail_keeps | with_reducible apply State.setUpd_keeps
    | with_reducible apply keeps_ite | (with_reducible exact fun k => k) | (intro _; with_reducible assumption) | dsimp only | split
    | refine keeps_len ?_ id id id id id id id | exact keeps_mk ‹_› rfl rfl rfl rfl rfl rfl rfl | intro _

theorem execUpdEraseDone_keeps {z : State} (ok : Bool) (s0 : State) (hzs0 : z.Keeps s0) : OutKeeps z (execUpdEraseDone ok s0) := by
  unfold execUpdEraseDone
  repeat' first
    | with_reducible assumption | with_reducible apply State.set_keeps | with_reducible apply State.updErase_keeps
    | with_reducible apply State.updTear_keeps | with_reducible apply State.nvmRetry_keeps | with_reducible apply State.updFail_keeps
    | with_reducible apply State.updEnd_keeps | with_reducible apply outKeeps_next | with_reducible apply keeps_ite
    | (with_reducible exact fun k => k) | (intro _; with_reducible assumption) | dsimp only | split | refine keeps_len ?_ id id id id id id id
    | exact keeps_mk ‹_› rfl rfl rfl rfl rfl rfl rfl | intro _

theorem State.updProgram_keeps {z : State} (s : State) (o : Nat) (f : Option Nat) (hz : z.Keeps s) : z.Keeps (State.updProgram s o f) := by
  unfold State.updProgram
  repeat' first
    | with_reducible assumption | with_reducible apply State.set_keeps | with_reducible apply State.frameHold_keeps
    | with_reducible apply State.nvmTry_keeps | with_reducible apply State.setUpd_keeps | with_reducible apply keeps_ite
    | (with_reducible exact fun k => k) | (intro _; with_reducible assumption) | dsimp only | split | refine keeps_len ?_ id id id id id id id
    | exact keeps_mk ‹_› rfl rfl rfl rfl rfl rfl rfl | intro _

theorem State.updBlkWrite_keeps {z : State} (s : State) (v : Nat) (f : Option Nat) (hz : z.Keeps s) :
    z.Keeps (State.updBlkWrite s v f) := by
  unfold State.updBlkWrite
  repeat' first
    | with_reducible assumption | with_reducible apply State.set_keeps | with_reducible apply State.incSatF_keeps
    | with_reducible apply State.updFail_keeps | with_reducible apply State.setUpd_keeps | with_reducible apply State.updRefuse_keeps
    | with_reducible apply State.updProgram_keeps | with_reducible apply keeps_ite | (with_reducible exact fun k => k)
    | (intro _; with_reducible assumption) | dsimp only | split | refine keeps_len ?_ id id id id id id id
    | exact keeps_mk ‹_› rfl rfl rfl rfl rfl rfl rfl | intro _

theorem execUpdBlock_keeps {z : State} (v : Word) (s : State) (hz : z.Keeps s) : OutKeeps z (execUpdBlock v s) := by
  unfold execUpdBlock
  repeat' first
    | with_reducible assumption | with_reducible apply State.bus_keeps | with_reducible apply State.updBlkWrite_keeps
    | with_reducible apply outKeeps_next | with_reducible apply keeps_ite | (with_reducible exact fun k => k)
    | (intro _; with_reducible assumption) | dsimp only | split | intro _

theorem execUpdBlockDone_keeps {z : State} (ok : Bool) (s0 : State) (hzs0 : z.Keeps s0) : OutKeeps z (execUpdBlockDone ok s0) := by
  unfold execUpdBlockDone
  repeat' first
    | with_reducible assumption | with_reducible apply State.set_keeps | with_reducible apply State.incSatF_keeps
    | with_reducible apply State.updWrite_keeps | with_reducible apply State.updTear_keeps | with_reducible apply State.nvmRetry_keeps
    | with_reducible apply State.updFail_keeps | with_reducible apply State.setUpd_keeps | with_reducible apply State.updEnd_keeps
    | with_reducible apply outKeeps_next | with_reducible apply keeps_ite | (with_reducible exact fun k => k)
    | (intro _; with_reducible assumption) | dsimp only | split | refine keeps_len ?_ id id id id id id id
    | exact keeps_mk ‹_› rfl rfl rfl rfl rfl rfl rfl | intro _

theorem State.updVerify_keeps {z : State} (s : State) (hz : z.Keeps s) : z.Keeps (State.updVerify s) := by
  unfold State.updVerify
  repeat' first
    | with_reducible assumption | with_reducible apply State.set_keeps | with_reducible apply State.nvmTry_keeps
    | with_reducible apply State.updRefuse_keeps | with_reducible apply keeps_ite | (with_reducible exact fun k => k)
    | (intro _; with_reducible assumption) | dsimp only | split | intro _

theorem State.updJudge_keeps {z : State} (s : State) (hz : z.Keeps s) : z.Keeps (State.updJudge s) := by
  unfold State.updJudge
  repeat' first
    | with_reducible assumption | with_reducible apply State.set_keeps | with_reducible apply State.history_keeps
    | with_reducible apply State.slotCommit_keeps | with_reducible apply State.updFail_keeps | with_reducible apply State.bodyCheck_keeps
    | with_reducible apply State.setUpd_keeps | with_reducible apply keeps_ite | (with_reducible exact fun k => k)
    | (intro _; with_reducible assumption) | dsimp only | split | refine keeps_len ?_ id id id id id id id
    | exact keeps_mk ‹_› rfl rfl rfl rfl rfl rfl rfl | intro _

theorem State.updResume_keeps {z : State} (s : State) (hz : z.Keeps s) : z.Keeps (State.updResume s) := by
  unfold State.updResume
  repeat' first
    | with_reducible assumption | with_reducible apply State.set_keeps | with_reducible apply State.setUpd_keeps
    | with_reducible apply State.updJudge_keeps | with_reducible apply keeps_ite | (with_reducible exact fun k => k)
    | (intro _; with_reducible assumption) | dsimp only | split | refine keeps_len ?_ id id id id id id id
    | exact keeps_mk ‹_› rfl rfl rfl rfl rfl rfl rfl | intro _

theorem execUpdVerifyDone_keeps {z : State} (s0 : State) (hzs0 : z.Keeps s0) : OutKeeps z (execUpdVerifyDone s0) := by
  unfold execUpdVerifyDone
  repeat' first
    | with_reducible assumption | with_reducible apply State.secTry_keeps | with_reducible apply State.nvmRetry_keeps
    | with_reducible apply State.updEnd_keeps | with_reducible apply State.updJudge_keeps | with_reducible apply outKeeps_next
    | with_reducible apply keeps_ite | (with_reducible exact fun k => k) | (intro _; with_reducible assumption) | dsimp only | split
    | refine keeps_len ?_ id id id id id id id | exact keeps_mk ‹_› rfl rfl rfl rfl rfl rfl rfl | intro _

theorem State.updActivate_keeps {z : State} (s : State) (hz : z.Keeps s) : z.Keeps (State.updActivate s) := by
  unfold State.updActivate
  repeat' first
    | with_reducible assumption | with_reducible apply State.history_keeps | with_reducible apply State.slotCommit_keeps
    | with_reducible apply State.updRefuse_keeps | with_reducible apply keeps_ite | (with_reducible exact fun k => k)
    | (intro _; with_reducible assumption) | dsimp only | split | intro _

theorem State.updAbort_keeps {z : State} (s : State) (hz : z.Keeps s) : z.Keeps (State.updAbort s) := by
  unfold State.updAbort
  repeat' first
    | with_reducible assumption | with_reducible apply State.history_keeps | with_reducible apply State.setUpd_keeps
    | with_reducible apply State.updRefuse_keeps | with_reducible apply State.updEnd_keeps | with_reducible apply optKeeps_getD
    | with_reducible apply keeps_ite | (with_reducible exact fun k => k) | (intro _; with_reducible assumption) | dsimp only | split
    | refine keeps_len ?_ id id id id id id id | exact keeps_mk ‹_› rfl rfl rfl rfl rfl rfl rfl | intro _

theorem State.updCtrlWrite_keeps {z : State} (s : State) (v : Nat) (hz : z.Keeps s) : z.Keeps (State.updCtrlWrite s v) := by
  unfold State.updCtrlWrite
  repeat' first
    | with_reducible assumption | with_reducible apply State.updStart_keeps | with_reducible apply State.updVerify_keeps
    | with_reducible apply State.updActivate_keeps | with_reducible apply State.updAbort_keeps | with_reducible apply keeps_ite
    | (with_reducible exact fun k => k) | (intro _; with_reducible assumption) | dsimp only | split | intro _

theorem execUpdStart_keeps {z : State} (slot : Fin 2) (s : State) (hz : z.Keeps s) : OutKeeps z (execUpdStart slot s) := by
  unfold execUpdStart
  repeat' first
    | with_reducible assumption | with_reducible apply State.bus_keeps | with_reducible apply State.updCtrlWrite_keeps
    | with_reducible apply outKeeps_next | with_reducible apply keeps_ite | (with_reducible exact fun k => k)
    | (intro _; with_reducible assumption) | dsimp only | split | intro _

theorem execUpdVerify_keeps {z : State} (s : State) (hz : z.Keeps s) : OutKeeps z (execUpdVerify s) := by
  unfold execUpdVerify
  repeat' first
    | with_reducible assumption | with_reducible apply State.bus_keeps | with_reducible apply State.updCtrlWrite_keeps
    | with_reducible apply outKeeps_next | with_reducible apply keeps_ite | (with_reducible exact fun k => k)
    | (intro _; with_reducible assumption) | dsimp only | split | intro _

theorem execUpdActivate_keeps {z : State} (s : State) (hz : z.Keeps s) : OutKeeps z (execUpdActivate s) := by
  unfold execUpdActivate
  repeat' first
    | with_reducible assumption | with_reducible apply State.bus_keeps | with_reducible apply State.updCtrlWrite_keeps
    | with_reducible apply outKeeps_next | with_reducible apply keeps_ite | (with_reducible exact fun k => k)
    | (intro _; with_reducible assumption) | dsimp only | split | intro _

theorem execUpdAbort_keeps {z : State} (s : State) (hz : z.Keeps s) : OutKeeps z (execUpdAbort s) := by
  unfold execUpdAbort
  repeat' first
    | with_reducible assumption | with_reducible apply State.bus_keeps | with_reducible apply State.updCtrlWrite_keeps
    | with_reducible apply outKeeps_next | with_reducible apply keeps_ite | (with_reducible exact fun k => k)
    | (intro _; with_reducible assumption) | dsimp only | split | intro _

theorem State.updAct_keeps {z : State} (s : State) (a : UpdAct) (hz : z.Keeps s) : z.Keeps (State.updAct s a) := by
  unfold State.updAct
  repeat' first
    | with_reducible assumption | with_reducible apply State.set_keeps | with_reducible apply State.setUpd_keeps
    | with_reducible apply State.updBegin_keeps | with_reducible apply State.updEnd_keeps | with_reducible apply keeps_ite
    | (with_reducible exact fun k => k) | (intro _; with_reducible assumption) | dsimp only | split | refine keeps_len ?_ id id id id id id id
    | exact keeps_mk ‹_› rfl rfl rfl rfl rfl rfl rfl | intro _

theorem State.histIdxWrite_keeps {z : State} (s : State) (v : Nat) (hz : z.Keeps s) : z.Keeps (State.histIdxWrite s v) := by
  unfold State.histIdxWrite
  repeat' first
    | with_reducible assumption | with_reducible apply State.set_keeps | with_reducible apply State.injCheck_keeps
    | with_reducible apply State.copyWords_keeps | with_reducible apply keeps_ite | (with_reducible exact fun k => k)
    | (intro _; with_reducible assumption) | dsimp only | split | intro _

theorem execUpdHistIdxWrite_keeps {z : State} (v : Word) (s : State) (hz : z.Keeps s) : OutKeeps z (execUpdHistIdxWrite v s) := by
  unfold execUpdHistIdxWrite
  repeat' first
    | with_reducible assumption | with_reducible apply State.bus_keeps | with_reducible apply State.histIdxWrite_keeps
    | with_reducible apply outKeeps_next | with_reducible apply keeps_ite | (with_reducible exact fun k => k)
    | (intro _; with_reducible assumption) | dsimp only | split | intro _

theorem State.refusedBy_keeps {z : State} (s : State) (c : Commit) (rest : List Commit) (hz : z.Keeps s) :
    z.Keeps (State.refusedBy s c rest) := by
  unfold State.refusedBy
  repeat' first
    | with_reducible assumption | with_reducible apply State.set_keeps | with_reducible apply State.incSatF_keeps
    | with_reducible apply State.emit_keeps | with_reducible apply State.setGg_keeps | with_reducible apply State.secRefused_keeps
    | with_reducible apply State.updRefuse_keeps | with_reducible apply State.updResume_keeps | with_reducible apply optKeeps_getD
    | with_reducible apply keeps_ite | (with_reducible exact fun k => k) | (intro _; with_reducible assumption) | dsimp only | split
    | refine keeps_len ?_ id id id id id id id | exact keeps_mk ‹_› rfl rfl rfl rfl rfl rfl rfl | intro _

theorem State.jnlRefuse_keeps {z : State} (s : State) (c : Commit) (r : List Commit) (vcres : Nat) (h : z.Keeps s)
    (hr : s.jnl.queue.length = r.length + 1) : z.Keeps (State.jnlRefuse s c r vcres) := by
  unfold State.jnlRefuse
  dsimp only
  refine State.refusedBy_keeps _ _ _ (State.emit_keeps _ _ _ _ (State.set_keeps _ _ _ (State.incSatF_keeps _ _ (State.jnlPump_keeps _
    (keeps_len h id (fun k => ?_) id id id id id)))))
  rw [List.length_take]
  omega

theorem State.latchOut_keeps {z : State} (s : State) (h : z.Keeps s) : z.Keeps (State.latchOut s) := keeps_mk h rfl rfl rfl rfl rfl rfl rfl

theorem State.jnlCorrected_keeps {z : State} (s : State) (n : Nat) (hz : z.Keeps s) : z.Keeps (State.jnlCorrected s n) := by
  unfold State.jnlCorrected
  repeat' first
    | with_reducible assumption | with_reducible apply State.addSatF_keeps | with_reducible apply keeps_ite | (with_reducible exact fun k => k)
    | (intro _; with_reducible assumption) | dsimp only | split | intro _

theorem State.latchCounts_jnl (s : State) : s.latchCounts.jnl = s.jnl := by
  unfold State.latchCounts
  repeat' first | rfl | split

theorem State.jnlStart_keeps {z : State} (vcres : Nat) (s : State) (c : Commit) (r : List Commit) (h : z.Keeps s) (e : s.jnl.queue = c :: r) :
    z.Keeps (if s.coreRuns ∧ s.dev.vaoGood ∧ ¬ s.inMode .boot then
      let s0 := if c.producer = .evidence then s.latchCounts else s
      if s.emptyCommit c then ({ s with jnl := { s.jnl with queue := r } } : State).jnlPump
      else if vcres < s.jmin ∧ ¬ s.jnl.covered then s.jnlRefuse c r vcres
      else
        let d := { c with body := padTo (area c.kind).body (s0.commitBody c) }
        let s1 := { s0 with jnl := { s0.jnl with queue := d :: r, busy := true, covered := false } }
        if c.producer = .evidence then s1.latchOut else s1
    else s) := by
  have hr : s.jnl.queue.length = r.length + 1 := by rw [e, List.length_cons]
  refine keeps_ite (fun _ => ?_) fun _ => h
  dsimp only
  have h0 : z.Keeps (if c.producer = .evidence then s.latchCounts else s) :=
    keeps_ite (fun _ => State.latchCounts_keeps _ h) fun _ => h
  have e0 : (if c.producer = .evidence then s.latchCounts else s).jnl = s.jnl := by
    split
    · exact State.latchCounts_jnl s
    · rfl
  generalize (if c.producer = .evidence then s.latchCounts else s) = s0 at h0 e0 ⊢
  have h1 : ∀ x, z.Keeps ({ s0 with jnl := { s0.jnl with queue := x :: r, busy := true, covered := false } } : State) := fun x =>
    keeps_len h0 id (fun k => by rw [List.length_cons]; rw [e0] at k; omega) id id id id id
  refine keeps_ite (fun _ => State.jnlPump_keeps _ (keeps_len h id (fun k => ?_) id id id id id)) fun _ =>
    keeps_ite (fun _ => State.jnlRefuse_keeps _ _ _ _ h hr) fun _ => keeps_ite (fun _ => State.latchOut_keeps _ (h1 _)) fun _ => h1 _
  dsimp only
  omega

theorem execJournalCommitStart_keeps {z : State} (vcres ce : Nat) (s : State) (h : z.Keeps s) : OutKeeps z (execJournalCommitStart vcres ce s) := by
  unfold execJournalCommitStart
  dsimp only
  have h1 := State.jnlCorrected_keeps s ce h
  generalize s.jnlCorrected ce = t at h1 ⊢
  split
  · exact outKeeps_next (State.jnlStart_keeps vcres t _ _ h1 ‹_›)
  · exact h1

theorem State.historyMade_keeps {z : State} (s : State) (body : List Byte) (hz : z.Keeps s) : z.Keeps (State.historyMade s body) := by
  unfold State.historyMade
  repeat' first
    | with_reducible assumption | with_reducible apply State.emitC_keeps | with_reducible apply State.emit_keeps
    | with_reducible apply State.raise_keeps | with_reducible apply keeps_ite | (with_reducible exact fun k => k)
    | (intro _; with_reducible assumption) | dsimp only | split | intro _

theorem State.commitDone_keeps {z : State} (s : State) (c : Commit) (hz : z.Keeps s) : z.Keeps (State.commitDone s c) := by
  unfold State.commitDone
  repeat' first
    | with_reducible assumption | with_reducible apply State.set_keeps | with_reducible apply State.emit_keeps
    | with_reducible apply State.setGg_keeps | with_reducible apply State.gaugeRetry_keeps | with_reducible apply State.setSec_keeps
    | with_reducible apply State.updAct_keeps | with_reducible apply State.historyMade_keeps | with_reducible apply keeps_ite
    | (with_reducible exact fun k => k) | (intro _; with_reducible assumption) | dsimp only | split | refine keeps_len ?_ id id id id id id id
    | exact keeps_mk ‹_› rfl rfl rfl rfl rfl rfl rfl | intro _

theorem execJournalCommitDone_keeps {z : State} (s : State) (h : z.Keeps s) : OutKeeps z (execJournalCommitDone s) := by
  unfold execJournalCommitDone
  split
  · rename_i c r _ e
    have hr : s.jnl.queue.length = r.length + 1 := by rw [e, List.length_cons]
    dsimp only
    have h1 : ∀ b, z.Keeps (({ s.commitBytes c.kind c.body with jnl := { s.jnl with queue := r, busy := false, covered := b } } : State).jnlPump) := fun b =>
      State.jnlPump_keeps _ (keeps_len (State.commitBytes_keeps _ _ _ h) id (fun k => by
        rw [State.commitBytes_jnl] at k
        dsimp only
        omega) id id id id id)
    have h2 := State.commitDone_keeps _ c (State.incWrapF_keeps _ F.JNL_CNT_COMMITS (h1 (decide (c.producer = .update ∧ dropPair c (r ++ s.jnl.waiting) ≠ r ++ s.jnl.waiting))))
    exact outKeeps_next (keeps_ite (fun _ => State.resetStep3_keeps _ h2) fun _ => h2)
  · exact h

end Sys2Proof.Machine
end

