-- ==== Sys2Proof/Laws/KeepsHost.lean ====
section
/-! SUPPORT. `State.Keeps` of the two-wire ports, register accesses, the host link and the ends of BOOT: one lemma for every operation that answers a state. -/

set_option linter.all false

namespace Sys2Proof.Machine

theorem State.satFail_keeps {z : State} (s : State) (k : Nat) (hz : z.Keeps s) : z.Keeps (State.satFail s k) := by
  unfold State.satFail
  repeat' first
    | with_reducible assumption | with_reducible apply State.domFail_keeps | with_reducible apply keeps_ite | (with_reducible exact fun k => k)
    | (intro _; with_reducible assumption) | dsimp only | split | refine keeps_len ?_ id id id id id id id
    | exact keeps_mk ‹_› rfl rfl rfl rfl rfl rfl rfl | intro _

theorem State.satLost_keeps {z : State} (s : State) (k cause : Nat) (hz : z.Keeps s) : z.Keeps (State.satLost s k cause) := by
  unfold State.satLost
  repeat' first
    | with_reducible assumption | with_reducible apply State.set_keeps | with_reducible apply State.emitC_keeps
    | with_reducible apply State.raise_keeps | with_reducible apply State.satLog_keeps | with_reducible apply State.satFail_keeps
    | with_reducible apply keeps_ite | (with_reducible exact fun k => k) | (intro _; with_reducible assumption) | dsimp only | split | intro _

theorem State.contactEnd_keeps {z : State} (s : State) (k : Nat) (last : Bool) (cause : Nat) (hz : z.Keeps s) :
    z.Keeps (State.contactEnd s k last cause) := by
  unfold State.contactEnd
  repeat' first
    | with_reducible assumption | with_reducible apply State.set_keeps | with_reducible apply State.emit_keeps
    | with_reducible apply State.contactDiscard_keeps | with_reducible apply State.satFail_keeps | with_reducible apply keeps_ite
    | (with_reducible exact fun k => k) | (intro _; with_reducible assumption) | dsimp only | split | refine keeps_len ?_ id id id id id id id
    | exact keeps_mk ‹_› rfl rfl rfl rfl rfl rfl rfl | intro _

theorem State.beatEnd_keeps {z : State} (s : State) (k cause : Nat) (hz : z.Keeps s) : z.Keeps (State.beatEnd s k cause) := by
  unfold State.beatEnd
  repeat' first
    | with_reducible assumption | with_reducible apply State.set_keeps | with_reducible apply State.satLost_keeps
    | with_reducible apply keeps_ite | (with_reducible exact fun k => k) | (intro _; with_reducible assumption) | dsimp only | split | intro _

theorem State.sendEnd_keeps {z : State} (s : State) (k cause : Nat) (hz : z.Keeps s) : z.Keeps (State.sendEnd s k cause) := by
  unfold State.sendEnd
  repeat' first
    | with_reducible assumption | with_reducible apply State.setStage_keeps | with_reducible apply State.satFail_keeps
    | with_reducible apply keeps_ite | (with_reducible exact fun k => k) | (intro _; with_reducible assumption) | dsimp only | split | intro _

theorem State.hxStore_keeps {z : State} (s : State) (l : List Byte) (hz : z.Keeps s) : z.Keeps (State.hxStore s l) := by
  unfold State.hxStore
  repeat' first
    | with_reducible assumption | with_reducible apply State.set_keeps | with_reducible apply forEach_keeps | with_reducible apply forEach_keeps
    | with_reducible apply keeps_ite | (with_reducible exact fun k => k) | (intro _; with_reducible assumption) | dsimp only | split | intro _

theorem State.hxEnd_keeps {z : State} (s : State) (t : Tx) (cause : Nat) (data : List Byte) (hz : z.Keeps s) :
    z.Keeps (State.hxEnd s t cause data) := by
  unfold State.hxEnd
  repeat' first
    | with_reducible assumption | with_reducible apply State.set_keeps | with_reducible apply State.frameDone_keeps
    | with_reducible apply State.hxStore_keeps | with_reducible apply keeps_ite | (with_reducible exact fun k => k)
    | (intro _; with_reducible assumption) | dsimp only | split | intro _

theorem State.twcFinish_keeps {z : State} (s : State) (t : Tx) (cause : Nat) (data : List Byte) (hz : z.Keeps s) :
    z.Keeps (State.twcFinish s t cause data) := by
  unfold State.twcFinish
  repeat' first
    | with_reducible assumption | with_reducible apply State.set_keeps | with_reducible apply State.twcPump_keeps
    | with_reducible apply State.contact_keeps | with_reducible apply State.contactEnd_keeps | with_reducible apply State.beatEnd_keeps
    | with_reducible apply State.sendEnd_keeps | with_reducible apply State.hxEnd_keeps | with_reducible apply keeps_ite
    | (with_reducible exact fun k => k) | (intro _; with_reducible assumption) | dsimp only | split | with_reducible apply keeps_len
    | exact fun k => k | intro _
  all_goals first | exact ‹_› | exact Nat.zero_le _ | exact List.Pairwise.nil | exact Nat.le_trans (List.length_filter_le _ _) ‹_› | exact Nat.le_trans (takeFirst_length ‹_›) ‹_› | (simp only [List.length_append, List.length_take, List.length_drop, List.length_map, List.length_singleton, State.adcUsed] at *; omega) | (simp_all only [List.length_cons, List.length_append, List.length_take, List.length_drop]; omega)

theorem execTwcTransaction_keeps {z : State} (stuck : Bool) (pulses : Nat) (freed sclLow : Bool) (arb : Fin 4) (s : State) (hz : z.Keeps s) :
    OutKeeps z (execTwcTransaction stuck pulses freed sclLow arb s) := by
  unfold execTwcTransaction
  repeat' first
    | with_reducible assumption | with_reducible apply State.set_keeps | with_reducible apply State.addSatF_keeps
    | with_reducible apply State.emit_keeps | with_reducible apply State.twcFinish_keeps | with_reducible apply outKeeps_next
    | with_reducible apply keeps_ite | (with_reducible exact fun k => k) | (intro _; with_reducible assumption) | dsimp only | split
    | refine keeps_len ?_ id id id id id id id | exact keeps_mk ‹_› rfl rfl rfl rfl rfl rfl rfl | intro _

theorem execTwcTransactionEnd_keeps {z : State} (cause : Fin 8) (data : List Byte) (s : State) (hz : z.Keeps s) :
    OutKeeps z (execTwcTransactionEnd cause data s) := by
  unfold execTwcTransactionEnd
  repeat' first
    | with_reducible assumption | with_reducible apply State.twcFinish_keeps | with_reducible apply outKeeps_next
    | with_reducible apply keeps_ite | (with_reducible exact fun k => k) | (intro _; with_reducible assumption) | dsimp only | split
    | refine keeps_len ?_ id id id id id id id | exact keeps_mk ‹_› rfl rfl rfl rfl rfl rfl rfl | intro _

theorem execTwcRetry_keeps {z : State} (arb : Fin 4) (s : State) (hz : z.Keeps s) : OutKeeps z (execTwcRetry arb s) := by
  unfold execTwcRetry
  repeat' first
    | with_reducible assumption | with_reducible apply State.incSatF_keeps | with_reducible apply State.addSatF_keeps
    | with_reducible apply State.due_keeps | with_reducible apply State.twcFinish_keeps | with_reducible apply outKeeps_next
    | with_reducible apply keeps_ite | (with_reducible exact fun k => k) | (intro _; with_reducible assumption) | dsimp only | split
    | refine keeps_len ?_ id id id id id id id | exact keeps_mk ‹_› rfl rfl rfl rfl rfl rfl rfl | intro _

theorem State.hxWrite_keeps {z : State} (s : State) (v : Nat) (frame : Option Nat) (hz : z.Keeps s) :
    z.Keeps (State.hxWrite s v frame) := by
  unfold State.hxWrite
  repeat' first
    | with_reducible assumption | with_reducible apply State.set_keeps | with_reducible apply State.frameDone_keeps
    | with_reducible apply State.storeAcc_keeps | with_reducible apply State.clearW1c_keeps | with_reducible apply State.twcPush_keeps
    | with_reducible apply keeps_ite | (with_reducible exact fun k => k) | (intro _; with_reducible assumption) | dsimp only | split | intro _

theorem execHeartbeatTimer_keeps {z : State} (s : State) (hz : z.Keeps s) : OutKeeps z (execHeartbeatTimer s) := by
  unfold execHeartbeatTimer
  repeat' first
    | with_reducible assumption | with_reducible apply State.due_keeps | with_reducible apply forEach_keeps
    | with_reducible apply State.twcPush_keeps | with_reducible apply forEach_keeps | with_reducible apply outKeeps_next
    | with_reducible apply keeps_ite | (with_reducible exact fun k => k) | (intro _; with_reducible assumption) | dsimp only | split
    | refine keeps_len ?_ id id id id id id id | exact keeps_mk ‹_› rfl rfl rfl rfl rfl rfl rfl | intro _

theorem State.masterLost_keeps {z : State} (s : State) (hz : z.Keeps s) : z.Keeps (State.masterLost s) := by
  unfold State.masterLost
  repeat' first
    | with_reducible assumption | with_reducible apply State.set_keeps | with_reducible apply State.draw_keeps
    | with_reducible apply State.emitC_keeps | with_reducible apply State.raise_keeps | with_reducible apply State.satLog_keeps
    | with_reducible apply State.seqPush_keeps | with_reducible apply keeps_ite | (with_reducible exact fun k => k)
    | (intro _; with_reducible assumption) | dsimp only | split | intro _

theorem execMasterWindowEnd_keeps {z : State} (s : State) (hz : z.Keeps s) : OutKeeps z (execMasterWindowEnd s) := by
  unfold execMasterWindowEnd
  repeat' first
    | with_reducible assumption | with_reducible apply State.set_keeps | with_reducible apply State.due_keeps
    | with_reducible apply State.masterLost_keeps | with_reducible apply outKeeps_next | with_reducible apply keeps_ite
    | (with_reducible exact fun k => k) | (intro _; with_reducible assumption) | dsimp only | split | refine keeps_len ?_ id id id id id id id
    | exact keeps_mk ‹_› rfl rfl rfl rfl rfl rfl rfl | intro _

theorem execTwoWireTimeout_keeps {z : State} (target ctl : Bool) (s : State) (hz : z.Keeps s) :
    OutKeeps z (execTwoWireTimeout target ctl s) := by
  unfold execTwoWireTimeout
  repeat' first
    | with_reducible assumption | with_reducible apply State.incSatF_keeps | with_reducible apply State.twcFinish_keeps
    | with_reducible apply outKeeps_next | with_reducible apply keeps_ite | (with_reducible exact fun k => k)
    | (intro _; with_reducible assumption) | dsimp only | split | refine keeps_len ?_ id id id id id id id
    | exact keeps_mk ‹_› rfl rfl rfl rfl rfl rfl rfl | intro _

theorem execTwbAlert_keeps {z : State} (k : Fin 12) (s : State) (hz : z.Keeps s) : OutKeeps z (execTwbAlert k s) := by
  unfold execTwbAlert
  repeat' first
    | with_reducible assumption | with_reducible apply State.set_keeps | with_reducible apply State.emit_keeps
    | with_reducible apply outKeeps_next | with_reducible apply keeps_ite | (with_reducible exact fun k => k)
    | (intro _; with_reducible assumption) | dsimp only | split | refine keeps_len ?_ id id id id id id id
    | exact keeps_mk ‹_› rfl rfl rfl rfl rfl rfl rfl | intro _

theorem State.journalWord_keeps {z : State} (s : State) (hz : z.Keeps s) : z.Keeps (State.journalWord s).2 := by
  unfold State.journalWord
  repeat' first
    | with_reducible assumption | with_reducible apply State.draw_keeps | with_reducible apply State.checkerRaise_keeps
    | with_reducible apply keeps_ite | (with_reducible exact fun k => k) | (intro _; with_reducible assumption) | dsimp only | split | intro _

theorem State.readChecks_keeps {z : State} (s : State) (a : Nat) (hz : z.Keeps s) : z.Keeps (State.readChecks s a) := by
  unfold State.readChecks
  repeat' first
    | with_reducible assumption | with_reducible apply State.injCheck_keeps | with_reducible apply keeps_ite | (with_reducible exact fun k => k)
    | (intro _; with_reducible assumption) | dsimp only | split | intro _

theorem State.readAt_keeps {z : State} (s : State) (a : Nat) (hz : z.Keeps s) : z.Keeps (State.readAt s a).2 := by
  unfold State.readAt
  repeat' first
    | with_reducible assumption | with_reducible apply State.draw_keeps | with_reducible apply State.diodeSee_keeps
    | with_reducible apply State.probeLatch_keeps | with_reducible apply State.journalWord_keeps | with_reducible apply keeps_ite
    | (with_reducible exact fun k => k) | (intro _; with_reducible assumption) | dsimp only | split | intro _

theorem State.readWord_keeps {z : State} (s : State) (a : Nat) (hz : z.Keeps s) : z.Keeps (State.readWord s a).2 := by
  unfold State.readWord
  repeat' first
    | with_reducible assumption | with_reducible apply State.readChecks_keeps | with_reducible apply State.readAt_keeps
    | with_reducible apply keeps_ite | (with_reducible exact fun k => k) | (intro _; with_reducible assumption) | dsimp only | split | intro _

theorem State.plainWrite_keeps {z : State} (s : State) (a v : Nat) (hz : z.Keeps s) : z.Keeps (State.plainWrite s a v) := by
  unfold State.plainWrite
  repeat' first
    | with_reducible assumption | with_reducible apply State.setDisc_keeps | with_reducible apply State.storeAcc_keeps
    | with_reducible apply State.clearW1c_keeps | with_reducible apply keeps_ite | (with_reducible exact fun k => k)
    | (intro _; with_reducible assumption) | dsimp only | split | intro _

theorem State.unlessBad_keeps {z : State} (s : State) (a v : Nat) (t : State) (h : z.Keeps s) (ht : z.Keeps t) : z.Keeps (State.unlessBad s a v t).1 :=
  keeps_ite (fun _ => State.setDisc_keeps _ h) fun _ => ht

theorem State.gpioOutWrite_keeps {z : State} (s : State) (v : Nat) (hz : z.Keeps s) : z.Keeps (State.gpioOutWrite s v).1 := by
  unfold State.gpioOutWrite
  repeat' first
    | with_reducible assumption | with_reducible apply State.set_keeps | with_reducible apply keeps_ite | (with_reducible exact fun k => k)
    | (intro _; with_reducible assumption) | dsimp only | split | intro _

theorem State.overrunClear_keeps {z : State} (s : State) (v : Nat) (hz : z.Keeps s) : z.Keeps (State.overrunClear s v) := by
  unfold State.overrunClear
  repeat' first
    | with_reducible assumption | with_reducible apply State.set_keeps | with_reducible apply forEach_keeps
    | with_reducible apply State.clearW1c_keeps | with_reducible apply forEach_keeps | with_reducible apply keeps_ite
    | (with_reducible exact fun k => k) | (intro _; with_reducible assumption) | dsimp only | split | intro _

theorem State.wordSys_keeps {z : State} (s : State) (a v : Nat) (f : Option Nat) (hz : z.Keeps s) : z.Keeps (State.wordSys s a v f).1 := by
  unfold State.wordSys
  repeat' first
    | with_reducible assumption | with_reducible apply State.frameHold_keeps | with_reducible apply State.mapCtrlWrite_keeps
    | with_reducible apply State.frmCfgWrite_keeps | with_reducible apply State.frmStatClear_keeps | with_reducible apply State.slotWrite_keeps
    | with_reducible apply State.pwrReqWrite_keeps | with_reducible apply State.plainWrite_keeps | with_reducible apply State.unlessBad_keeps
    | with_reducible apply State.gpioOutWrite_keeps | with_reducible apply State.overrunClear_keeps | with_reducible apply keeps_ite
    | (with_reducible exact fun k => k) | (intro _; with_reducible assumption) | dsimp only | split | refine keeps_len ?_ id id id id id id id
    | exact keeps_mk ‹_› rfl rfl rfl rfl rfl rfl rfl | intro _

theorem State.wordTile_keeps {z : State} (s : State) (a v : Nat) (hz : z.Keeps s) : z.Keeps (State.wordTile s a v).1 := by
  unfold State.wordTile
  repeat' first
    | with_reducible assumption | with_reducible apply State.set_keeps | with_reducible apply State.setTile_keeps
    | with_reducible apply State.plainWrite_keeps | with_reducible apply keeps_ite | (with_reducible exact fun k => k)
    | (intro _; with_reducible assumption) | dsimp only | split | refine keeps_len ?_ id id id id id id id
    | exact keeps_mk ‹_› rfl rfl rfl rfl rfl rfl rfl | intro _

theorem State.wordStk_keeps {z : State} (s : State) (a v : Nat) (hz : z.Keeps s) : z.Keeps (State.wordStk s a v).1 := by
  unfold State.wordStk
  repeat' first
    | with_reducible assumption | with_reducible apply State.set_keeps | with_reducible apply State.plainWrite_keeps
    | with_reducible apply keeps_ite | (with_reducible exact fun k => k) | (intro _; with_reducible assumption) | dsimp only | split | intro _

theorem State.wordSeq_keeps {z : State} (s : State) (a v : Nat) (f : Option Nat) (hz : z.Keeps s) : z.Keeps (State.wordSeq s a v f).1 := by
  unfold State.wordSeq
  repeat' first
    | with_reducible assumption | with_reducible apply State.frameHold_keeps | with_reducible apply State.unraise_keeps
    | with_reducible apply State.ldoCfgWrite_keeps | with_reducible apply State.releaseWrite_keeps | with_reducible apply State.seqReqWrite_keeps
    | with_reducible apply State.domFailWrite_keeps | with_reducible apply State.plainWrite_keeps | with_reducible apply keeps_ite
    | (with_reducible exact fun k => k) | (intro _; with_reducible assumption) | dsimp only | split | intro _

theorem State.wordPower_keeps {z : State} (s : State) (a v : Nat) (hz : z.Keeps s) : z.Keeps (State.wordPower s a v).1 := by
  unfold State.wordPower
  repeat' first
    | with_reducible assumption | with_reducible apply State.draw_keeps | with_reducible apply State.chgCheck_keeps
    | with_reducible apply State.unraise_keeps | with_reducible apply State.treqWrite_keeps | with_reducible apply State.chgCfgWrite_keeps
    | with_reducible apply State.chgFaultWrite_keeps | with_reducible apply State.plainWrite_keeps | with_reducible apply keeps_ite
    | (with_reducible exact fun k => k) | (intro _; with_reducible assumption) | dsimp only | split | intro _

theorem State.orOwned_keeps {z : State} (s : State) (r : Option State) (h : z.Keeps s) (hr : OptKeeps z r) : z.Keeps (State.orOwned s r).1 := by
  cases r with
  | none => exact h
  | some t => exact hr

theorem State.held_keeps {z : State} (s : State) (f : Option Nat) (r : State → Option State) (h : z.Keeps s)
    (hr : ∀ t, z.Keeps t → OptKeeps z (r t)) : z.Keeps (State.held s f r).1 :=
  State.orOwned_keeps _ _ h (hr _ (State.frameHold_keeps _ _ h))

theorem State.wordAdc_keeps {z : State} (s : State) (a v : Nat) (f : Option Nat) (hz : z.Keeps s) : z.Keeps (State.wordAdc s a v f).1 := by
  unfold State.wordAdc
  repeat' first
    | with_reducible assumption | with_reducible apply State.setDisc_keeps | with_reducible apply State.adcSingle_keeps
    | with_reducible apply State.adcUrgent_keeps | with_reducible apply State.adcCfgWrite_keeps | with_reducible apply State.dblCfgWrite_keeps
    | with_reducible apply State.winWrite_keeps | with_reducible apply State.brdOff_keeps | with_reducible apply State.plainWrite_keeps
    | with_reducible apply State.orOwned_keeps | with_reducible apply State.held_keeps | with_reducible apply keeps_ite
    | (with_reducible exact fun k => k) | (intro _; with_reducible assumption) | dsimp only | split | refine keeps_len ?_ id id id id id id id
    | exact keeps_mk ‹_› rfl rfl rfl rfl rfl rfl rfl | intro _

theorem State.wordFault_keeps {z : State} (s : State) (a v : Nat) (hz : z.Keeps s) : z.Keeps (State.wordFault s a v).1 := by
  unfold State.wordFault
  repeat' first
    | with_reducible assumption | with_reducible apply State.pendClear_keeps | with_reducible apply State.injWrite_keeps
    | with_reducible apply State.logIdxWrite_keeps | with_reducible apply State.serviceWrite_keeps
    | with_reducible apply State.evidIdxWrite_keeps | with_reducible apply State.plainWrite_keeps | with_reducible apply keeps_ite
    | (with_reducible exact fun k => k) | (intro _; with_reducible assumption) | dsimp only | split | intro _

theorem State.armWrite_keeps {z : State} (s : State) (v : Nat) (hz : z.Keeps s) : z.Keeps (State.armWrite s v) := by
  unfold State.armWrite
  repeat' first
    | with_reducible assumption | with_reducible apply State.disarm_keeps | with_reducible apply State.armKey_keeps
    | with_reducible apply keeps_ite | (with_reducible exact fun k => k) | (intro _; with_reducible assumption) | dsimp only | split | intro _

theorem State.evtClrWrite_keeps {z : State} (s : State) (v : Nat) (hz : z.Keeps s) : z.Keeps (State.evtClrWrite s v) := by
  unfold State.evtClrWrite
  repeat' first
    | with_reducible assumption | with_reducible apply State.clearLost_keeps | with_reducible apply State.clearMasked_keeps
    | with_reducible apply State.clearHlCnt_keeps | with_reducible apply keeps_ite | (with_reducible exact fun k => k)
    | (intro _; with_reducible assumption) | dsimp only | split | intro _

theorem State.wordEvent_keeps {z : State} (s : State) (a v : Nat) (f : Option Nat) (hz : z.Keeps s) :
    z.Keeps (State.wordEvent s a v f).1 := by
  unfold State.wordEvent
  repeat' first
    | with_reducible assumption | with_reducible apply State.frameHold_keeps | with_reducible apply State.consWrite_keeps
    | with_reducible apply State.maskWrite_keeps | with_reducible apply State.ackWrite_keeps | with_reducible apply State.lvlEnWrite_keeps
    | with_reducible apply State.ringCfgWrite_keeps | with_reducible apply State.hxWrite_keeps | with_reducible apply State.plainWrite_keeps
    | with_reducible apply State.unlessBad_keeps | with_reducible apply State.armWrite_keeps | with_reducible apply State.evtClrWrite_keeps
    | with_reducible apply keeps_ite | (with_reducible exact fun k => k) | (intro _; with_reducible assumption) | dsimp only | split | intro _

theorem State.wordStore_keeps {z : State} (s : State) (a v : Nat) (f : Option Nat) (hz : z.Keeps s) :
    z.Keeps (State.wordStore s a v f).1 := by
  unfold State.wordStore
  repeat' first
    | with_reducible assumption | with_reducible apply State.incSatF_keeps | with_reducible apply State.frameHold_keeps
    | with_reducible apply State.chalWrite_keeps | with_reducible apply State.submitWrite_keeps | with_reducible apply State.otpReadWrite_keeps
    | with_reducible apply State.otpProgWrite_keeps | with_reducible apply State.updBlkWrite_keeps
    | with_reducible apply State.updCtrlWrite_keeps | with_reducible apply State.histIdxWrite_keeps | with_reducible apply State.plainWrite_keeps
    | with_reducible apply keeps_ite | (with_reducible exact fun k => k) | (intro _; with_reducible assumption) | dsimp only | split | intro _

theorem State.hostWord_keeps {z : State} (s : State) (a v : Nat) (f : Option Nat) (hz : z.Keeps s) :
    z.Keeps (State.hostWord s a v f).1 := by
  unfold State.hostWord
  repeat' first
    | with_reducible assumption | with_reducible apply State.wordSys_keeps | with_reducible apply State.wordTile_keeps
    | with_reducible apply State.wordStk_keeps | with_reducible apply State.wordSeq_keeps | with_reducible apply State.wordPower_keeps
    | with_reducible apply State.wordAdc_keeps | with_reducible apply State.wordFault_keeps | with_reducible apply State.wordEvent_keeps
    | with_reducible apply State.wordStore_keeps | with_reducible apply keeps_ite | (with_reducible exact fun k => k)
    | (intro _; with_reducible assumption) | dsimp only | split | intro _

theorem Writing.put_keeps {z : State} (w : Writing) (a v : Nat) (f : Option Nat) (hzw : z.Keeps w.st) :
    z.Keeps (Writing.put w a v f).st := by
  unfold Writing.put
  repeat' first
    | with_reducible assumption | with_reducible apply State.setDisc_keeps | with_reducible apply State.hostWord_keeps
    | with_reducible apply keeps_ite | (with_reducible exact fun k => k) | (intro _; with_reducible assumption) | dsimp only | split
    | refine keeps_len ?_ id id id id id id id | exact keeps_mk ‹_› rfl rfl rfl rfl rfl rfl rfl | intro _

theorem Writing.word_keeps {z : State} (w : Writing) (a v : Nat) (f : Option Nat) (hzw : z.Keeps w.st) :
    z.Keeps (Writing.word w a v f).st := by
  unfold Writing.word
  repeat' first
    | with_reducible assumption | with_reducible apply State.put_keeps | with_reducible apply State.injCheck_keeps
    | with_reducible apply Writing.put_keeps | with_reducible apply keeps_ite | (with_reducible exact fun k => k)
    | (intro _; with_reducible assumption) | dsimp only | split | refine keeps_len ?_ id id id id id id id
    | exact keeps_mk ‹_› rfl rfl rfl rfl rfl rfl rfl | intro _

theorem State.stackWords_keeps {z : State} (s : State) (l : List (Nat × Nat × Nat)) (f : Option Nat) (n : Nat) (hz : z.Keeps s) :
    z.Keeps (State.stackWords s l f n) := by
  unfold State.stackWords
  repeat' first
    | with_reducible assumption | with_reducible apply State.frameHold_keeps | with_reducible apply State.mbxPush_keeps
    | with_reducible apply keeps_ite | (with_reducible exact fun k => k) | (intro _; with_reducible assumption) | dsimp only | split | intro _

theorem State.hostWrite_keeps {z : State} (s : State) (l : List (Nat × Nat)) (f : Option Nat) (h : z.Keeps s) : z.Keeps (State.hostWrite s l f).st := by
  have hw : ∀ (l : List (Nat × Nat)) (w : Writing), z.Keeps w.st → z.Keeps (l.foldl (fun (w : Writing) x => w.word x.1 x.2 f) w).st := by
    intro l
    induction l with
    | nil => exact fun _ k => k
    | cons x l ih => exact fun w k => ih _ (Writing.word_keeps _ _ _ _ k)
  unfold State.hostWrite
  exact forEach_keeps _ _ (fun n t k => State.stackWords_keeps _ _ _ _ k) _ (hw l _ h)

theorem Writing.done_keeps {z : State} (w : Writing) (hzw : z.Keeps w.st) : z.Keeps (Writing.done w) := by
  unfold Writing.done
  repeat' first
    | with_reducible assumption | with_reducible apply State.resetWrite_keeps | with_reducible apply keeps_ite
    | (with_reducible exact fun k => k) | (intro _; with_reducible assumption) | dsimp only | split | refine keeps_len ?_ id id id id id id id
    | exact keeps_mk ‹_› rfl rfl rfl rfl rfl rfl rfl | intro _

theorem execRegisterWrite_keeps {z : State} (addr : BitVec 16) (v : Word) (s : State) (hz : z.Keeps s) :
    OutKeeps z (execRegisterWrite addr v s) := by
  unfold execRegisterWrite
  repeat' first
    | with_reducible assumption | with_reducible apply State.hostWrite_keeps | with_reducible apply Writing.done_keeps
    | with_reducible apply outKeeps_next | with_reducible apply keeps_ite | (with_reducible exact fun k => k)
    | (intro _; with_reducible assumption) | dsimp only | split | intro _

theorem execSysGpioOutWrite_keeps {z : State} (v : Word) (s : State) (hz : z.Keeps s) : OutKeeps z (execSysGpioOutWrite v s) := by
  unfold execSysGpioOutWrite
  repeat' first
    | with_reducible assumption | with_reducible apply State.bus_keeps | with_reducible apply State.gpioOutWrite_keeps
    | with_reducible apply outKeeps_next | with_reducible apply keeps_ite | (with_reducible exact fun k => k)
    | (intro _; with_reducible assumption) | dsimp only | split | intro _

theorem execTwbHxStart_keeps {z : State} (v : Word) (s : State) (hz : z.Keeps s) : OutKeeps z (execTwbHxStart v s) := by
  unfold execTwbHxStart
  repeat' first
    | with_reducible assumption | with_reducible apply State.bus_keeps | with_reducible apply State.hxWrite_keeps
    | with_reducible apply State.unlessBad_keeps | with_reducible apply outKeeps_next | with_reducible apply keeps_ite
    | (with_reducible exact fun k => k) | (intro _; with_reducible assumption) | dsimp only | split | intro _

theorem State.admitFrame_keeps {z : State} (s : State) (write : Bool) (l : List Nat) (h : z.Keeps s) (hf : ¬ s.freeHl = 0) :
    z.Keeps (State.admitFrame s write l).1 := by
  unfold State.admitFrame
  refine State.injCheck_keeps _ _ _ (keeps_len h id id (fun _ => ?_) id id id id)
  unfold State.freeHl at hf
  rw [List.length_append, List.length_singleton]
  omega

theorem State.countFrame_keeps {z : State} (s : State) (hz : z.Keeps s) : z.Keeps (State.countFrame s) := by
  unfold State.countFrame
  repeat' first
    | with_reducible assumption | with_reducible apply keeps_ite | (with_reducible exact fun k => k) | (intro _; with_reducible assumption)
    | dsimp only | split | exact keeps_mk ‹_› rfl rfl rfl rfl rfl rfl rfl | refine keeps_len ?_ id id id id id id id | intro _

theorem State.fetchWords_keeps {z : State} (s : State) (l : List Nat) (h : z.Keeps s) : z.Keeps (State.fetchWords s l).2 := by
  induction l generalizing s with
  | nil => exact h
  | cons a r ih => exact ih _ (State.readWord_keeps _ _ h)

theorem State.frameEnd_keeps {z : State} (s : State) (i : Nat) (hz : z.Keeps s) : z.Keeps (State.frameEnd s i) := by
  unfold State.frameEnd
  repeat' first
    | with_reducible assumption | with_reducible apply State.frameDone_keeps | with_reducible apply keeps_ite | (with_reducible exact fun k => k)
    | (intro _; with_reducible assumption) | dsimp only | split | intro _

theorem State.answerBusy_keeps {z : State} (s : State) (zeros : List Nat) (hz : z.Keeps s) : z.Keeps (State.answerBusy s zeros) := by
  unfold State.answerBusy
  repeat' first
    | with_reducible assumption | with_reducible apply State.set_keeps | with_reducible apply State.incSatF_keeps
    | with_reducible apply State.answer_keeps | with_reducible apply keeps_ite | (with_reducible exact fun k => k)
    | (intro _; with_reducible assumption) | dsimp only | split | intro _

theorem State.answerCrc_keeps {z : State} (s : State) (a : Nat) (zeros : List Nat) (hz : z.Keeps s) :
    z.Keeps (State.answerCrc s a zeros) := by
  unfold State.answerCrc
  repeat' first
    | with_reducible assumption | with_reducible apply State.incSatF_keeps | with_reducible apply State.raise_keeps
    | with_reducible apply State.answer_keeps | with_reducible apply keeps_ite | (with_reducible exact fun k => k)
    | (intro _; with_reducible assumption) | dsimp only | split | intro _

theorem State.answerRefused_keeps {z : State} (s : State) (i : Nat) (c : Status) (a : Nat) (zeros : List Nat) (hz : z.Keeps s) :
    z.Keeps (State.answerRefused s i c a zeros) := by
  unfold State.answerRefused
  repeat' first
    | with_reducible assumption | with_reducible apply State.answer_keeps | with_reducible apply State.frameEnd_keeps
    | with_reducible apply State.answerCrc_keeps | with_reducible apply keeps_ite | (with_reducible exact fun k => k)
    | (intro _; with_reducible assumption) | dsimp only | split | intro _

theorem State.hlFetch_keeps {z : State} (s : State) (i : Nat) (l : List Nat) (hz : z.Keeps s) : z.Keeps (State.hlFetch s i l) := by
  unfold State.hlFetch
  repeat' first
    | with_reducible assumption | with_reducible apply State.incSatF_keeps | with_reducible apply State.answer_keeps
    | with_reducible apply State.countFrame_keeps | with_reducible apply State.fetchWords_keeps | with_reducible apply State.frameEnd_keeps
    | with_reducible apply keeps_ite | (with_reducible exact fun k => k) | (intro _; with_reducible assumption) | dsimp only | split | intro _

theorem State.hlStore_keeps {z : State} (s : State) (i : Nat) (l : List (Nat × Nat)) (h : z.Keeps s) : z.Keeps (State.hlStore s i l) := by
  unfold State.hlStore
  have k := State.hostWrite_keeps _ l (some i) (State.countFrame_keeps _ h)
  generalize State.hostWrite s.countFrame l (some i) = w at k ⊢
  exact Writing.done_keeps _ (State.frameEnd_keeps _ _ (State.frameAnswer_keeps _ _ _ k))

theorem State.hlIdle_keeps {z : State} (s : State) (zeros : List Nat) (retOk : Bool) (hz : z.Keeps s) :
    z.Keeps (State.hlIdle s zeros retOk) := by
  unfold State.hlIdle
  repeat' first
    | with_reducible assumption | with_reducible apply State.answer_keeps | with_reducible apply State.wakeFire_keeps
    | with_reducible apply keeps_ite | (with_reducible exact fun k => k) | (intro _; with_reducible assumption) | dsimp only | split
    | refine keeps_len ?_ id id id id id id id | exact keeps_mk ‹_› rfl rfl rfl rfl rfl rfl rfl | intro _

theorem State.frameFrom_keeps {z : State} (s : State) (start : FrameStart) (zeros : List Nat) (retOk : Bool) (t : State) (hz : z.Keeps s) (hzt : z.Keeps t) :
    z.Keeps (State.frameFrom s start zeros retOk t) := by
  unfold State.frameFrom
  repeat' first
    | with_reducible assumption | with_reducible apply State.answer_keeps | with_reducible apply State.hlIdle_keeps
    | with_reducible apply keeps_ite | (with_reducible exact fun k => k) | (intro _; with_reducible assumption) | dsimp only | split
    | refine keeps_len ?_ id id id id id id id | exact keeps_mk ‹_› rfl rfl rfl rfl rfl rfl rfl | intro _

theorem execHlRead_keeps {z : State} (start : FrameStart) (cmd : Byte) (addr : BitVec 16) (n : BitVec 8) (crc : BitVec 16) (retOk : Bool) (s : State)
    (h : z.Keeps s) : OutKeeps z (execHlRead start cmd addr n crc retOk s) := by
  unfold execHlRead
  refine outKeeps_next (State.frameFrom_keeps _ _ _ _ _ h (keeps_ite (fun _ => State.answerBusy_keeps _ _ h) fun hf => ?_))
  dsimp only
  have k := State.admitFrame_keeps s false (wordAddrs addr.toNat n.toNat) h hf
  generalize s.admitFrame false (wordAddrs addr.toNat n.toNat) = x at k ⊢
  split
  · exact State.answerRefused_keeps _ _ _ _ _ k
  · exact State.hlFetch_keeps _ _ _ k

theorem execHlWrite_keeps {z : State} (start : FrameStart) (addr : BitVec 16) (n : BitVec 8) (data : List Word) (crc : BitVec 16) (retOk : Bool) (s : State)
    (h : z.Keeps s) : OutKeeps z (execHlWrite start addr n data crc retOk s) := by
  unfold execHlWrite
  refine outKeeps_next (State.frameFrom_keeps _ _ _ _ _ h (keeps_ite (fun _ => State.answerBusy_keeps _ _ h) fun hf => ?_))
  dsimp only
  have k := State.admitFrame_keeps s true (wordAddrs addr.toNat n.toNat) h hf
  generalize s.admitFrame true (wordAddrs addr.toNat n.toNat) = x at k ⊢
  split
  · exact State.answerRefused_keeps _ _ _ _ _ k
  · exact State.hlStore_keeps _ _ _ k

theorem State.cutResponse_keeps {z : State} (s : State) (k : Nat) (hz : z.Keeps s) : z.Keeps (State.cutResponse s k) := by
  unfold State.cutResponse
  exact keeps_ite (fun _ => keeps_len hz id id (fun k => by simpa using k) id id id id) fun _ => keeps_mk hz rfl rfl rfl rfl rfl rfl rfl

theorem execHlFrameAbort_keeps {z : State} (cut : Option Nat) (retOk : Bool) (s : State) (hz : z.Keeps s) :
    OutKeeps z (execHlFrameAbort cut retOk s) := by
  unfold execHlFrameAbort
  repeat' first
    | with_reducible assumption | with_reducible apply State.incSatF_keeps | with_reducible apply State.wakeFire_keeps
    | with_reducible apply State.cutResponse_keeps | with_reducible apply outKeeps_next | with_reducible apply keeps_ite
    | (with_reducible exact fun k => k) | (intro _; with_reducible assumption) | dsimp only | split | refine keeps_len ?_ id id id id id id id
    | exact keeps_mk ‹_› rfl rfl rfl rfl rfl rfl rfl | intro _

theorem State.keepStatus_keeps {z : State} (s : State) (c : Status) (hz : z.Keeps s) : z.Keeps (State.keepStatus s c) := by
  unfold State.keepStatus
  repeat' first
    | with_reducible assumption | with_reducible apply Writing.word_keeps | with_reducible apply keeps_ite | (with_reducible exact fun k => k)
    | (intro _; with_reducible assumption) | dsimp only | split | refine keeps_len ?_ id id id id id id id
    | exact keeps_mk ‹_› rfl rfl rfl rfl rfl rfl rfl | intro _

theorem State.targetSend_keeps {z : State} (s : State) (req body : List Byte) (hz : z.Keeps s) : z.Keeps (State.targetSend s req body) := by
  unfold State.targetSend
  repeat' first
    | with_reducible assumption | with_reducible apply keeps_ite | (with_reducible exact fun k => k) | (intro _; with_reducible assumption)
    | dsimp only | split | exact keeps_mk ‹_› rfl rfl rfl rfl rfl rfl rfl | refine keeps_len ?_ id id id id id id id | intro _

theorem State.targetStore_keeps {z : State} (s : State) (i : Nat) (l : List (Nat × Nat)) (h : z.Keeps s) : z.Keeps (State.targetStore s i l) := by
  unfold State.targetStore
  have k := State.hostWrite_keeps s l (some i) h
  generalize State.hostWrite s l (some i) = w at k ⊢
  exact Writing.done_keeps _ (State.frameEnd_keeps _ _ (State.keepStatus_keeps _ _ k))

theorem State.targetApply_keeps {z : State} (s : State) (i a : Nat) (data : List Nat) (hz : z.Keeps s) :
    z.Keeps (State.targetApply s i a data) := by
  unfold State.targetApply
  repeat' first
    | with_reducible assumption | with_reducible apply State.frameEnd_keeps | with_reducible apply State.keepStatus_keeps
    | with_reducible apply State.targetStore_keeps | with_reducible apply keeps_ite | (with_reducible exact fun k => k)
    | (intro _; with_reducible assumption) | dsimp only | split | refine keeps_len ?_ id id id id id id id
    | exact keeps_mk ‹_› rfl rfl rfl rfl rfl rfl rfl | intro _

theorem State.targetWrite_keeps {z : State} (s : State) (a : Nat) (data : List Nat) (pec : Option Byte) (count : Nat) (h : z.Keeps s)
    (hf : ¬ s.freeHl = 0) : z.Keeps (State.targetWrite s a data pec count) := by
  unfold State.targetWrite
  have k := State.admitFrame_keeps s true (wordAddrs a data.length) h hf
  generalize s.admitFrame true (wordAddrs a data.length) = x at k ⊢
  have ka : z.Keeps ((x.1.incSatF F.TWB_TGT_CNT_ABORT).frameEnd x.2) := State.frameEnd_keeps _ _ (State.incSatF_keeps _ _ k)
  refine keeps_ite (fun _ => State.frameEnd_keeps _ _ (State.keepStatus_keeps _ _ k)) fun _ => keeps_ite (fun _ => ka) fun _ => ?_
  split
  · exact keeps_ite (fun _ => State.frameEnd_keeps _ _ (State.keepStatus_keeps _ _ (State.incSatF_keeps _ _ k))) fun _ => State.targetApply_keeps _ _ _ _ k
  · exact keeps_ite (fun _ => ka) fun _ => State.targetApply_keeps _ _ _ _ k

theorem State.targetAnswer_keeps {z : State} (s : State) (i : Nat) (req : List Byte) (c : Status) (d : List Nat) (hz : z.Keeps s) :
    z.Keeps (State.targetAnswer s i req c d) := by
  unfold State.targetAnswer
  repeat' first
    | with_reducible assumption | with_reducible apply State.frameEnd_keeps | with_reducible apply State.keepStatus_keeps
    | with_reducible apply State.targetSend_keeps | with_reducible apply keeps_ite | (with_reducible exact fun k => k)
    | (intro _; with_reducible assumption) | dsimp only | split | intro _

theorem State.targetFetch_keeps {z : State} (s : State) (i : Nat) (req : List Byte) (l : List Nat) (h : z.Keeps s) : z.Keeps (State.targetFetch s i req l) := by
  exact State.targetAnswer_keeps _ _ _ _ _ (State.fetchWords_keeps _ _ h)

theorem State.targetRead_keeps {z : State} (s : State) (a k : Nat) (late : Bool) (h : z.Keeps s) (hf : ¬ s.freeHl = 0) :
    z.Keeps (State.targetRead s a k late) := by
  unfold State.targetRead
  dsimp only
  have h1 := State.admitFrame_keeps s false (wordAddrs a k) h hf
  generalize s.admitFrame false (wordAddrs a k) = x at h1 ⊢
  split
  · exact State.targetAnswer_keeps _ _ _ _ _ h1
  · exact keeps_ite (fun _ => State.targetAnswer_keeps _ _ _ _ _ h1) fun _ => State.targetFetch_keeps _ _ _ _ h1

theorem State.targetRun_keeps {z : State} (s : State) (o : TgtOp) (h : z.Keeps s) (hf : s.targetFree o = true) : z.Keeps (State.targetRun s o) := by
  cases o with
  | write a d p c => exact State.targetWrite_keeps _ _ _ _ _ h (by simpa [State.targetFree] using hf)
  | read a n l => exact State.targetRead_keeps _ _ _ _ h (by simpa [State.targetFree] using hf)
  | prog r => exact keeps_ite (fun _ => State.incSatF_keeps _ _ h) fun _ => State.seqPush_keeps _ _ _ h

theorem State.targetTry_keeps {z : State} (s : State) (o : TgtOp) (h : z.Keeps s) : z.Keeps (State.targetTry s o) :=
  keeps_ite (fun k => State.targetRun_keeps _ _ h k) fun _ => State.set_keeps _ _ _ (keeps_mk h rfl rfl rfl rfl rfl rfl rfl)

theorem State.targetLate_keeps {z : State} (s : State) (o : TgtOp) (hz : z.Keeps s) : z.Keeps (State.targetLate s o) := by
  unfold State.targetLate
  repeat' first
    | with_reducible assumption | with_reducible apply State.incSatF_keeps | with_reducible apply State.keepStatus_keeps
    | with_reducible apply keeps_ite | (with_reducible exact fun k => k) | (intro _; with_reducible assumption) | dsimp only | split
    | refine keeps_len ?_ id id id id id id id | exact keeps_mk ‹_› rfl rfl rfl rfl rfl rfl rfl | intro _

theorem State.targetGo_keeps {z : State} (s : State) (h : z.Keeps s) : z.Keeps (State.targetGo s) := by
  unfold State.targetGo
  split
  · rename_i o t _
    refine keeps_ite (fun k => State.targetRun_keeps _ _ (keeps_mk h rfl rfl rfl rfl rfl rfl rfl) ?_) fun _ => h
    rw [Bool.and_eq_true] at k
    cases o <;> exact k.2
  · exact h

theorem State.targetSettle_keeps {z : State} (s : State) (hz : z.Keeps s) : z.Keeps (State.targetSettle s) := by
  unfold State.targetSettle
  repeat' first
    | with_reducible assumption | with_reducible apply State.due_keeps | with_reducible apply State.targetLate_keeps
    | with_reducible apply State.targetGo_keeps | with_reducible apply keeps_ite | (with_reducible exact fun k => k)
    | (intro _; with_reducible assumption) | dsimp only | split | refine keeps_len ?_ id id id id id id id
    | exact keeps_mk ‹_› rfl rfl rfl rfl rfl rfl rfl | intro _

theorem execRegWrite_keeps {z : State} (start : FrameStart) (addr : BitVec 16) (data : List Word) (pec : Option Byte) (count : Byte) (s : State) (hz : z.Keeps s) :
    OutKeeps z (execRegWrite start addr data pec count s) := by
  unfold execRegWrite
  repeat' first
    | with_reducible assumption | with_reducible apply State.targetTry_keeps | with_reducible apply State.targetSettle_keeps
    | with_reducible apply outKeeps_next | with_reducible apply keeps_ite | (with_reducible exact fun k => k)
    | (intro _; with_reducible assumption) | dsimp only | split | intro _

theorem execRegRead_keeps {z : State} (start : FrameStart) (addr : BitVec 16) (n : BitVec 8) (late : Bool) (s : State) (hz : z.Keeps s) :
    OutKeeps z (execRegRead start addr n late s) := by
  unfold execRegRead
  repeat' first
    | with_reducible assumption | with_reducible apply State.targetTry_keeps | with_reducible apply State.targetSettle_keeps
    | with_reducible apply outKeeps_next | with_reducible apply keeps_ite | (with_reducible exact fun k => k)
    | (intro _; with_reducible assumption) | dsimp only | split | intro _

theorem execStatus_keeps {z : State} (start : FrameStart) (s : State) (hz : z.Keeps s) : OutKeeps z (execStatus start s) := by
  unfold execStatus
  repeat' first
    | with_reducible assumption | with_reducible apply State.draw_keeps | with_reducible apply Writing.word_keeps
    | with_reducible apply State.targetSend_keeps | with_reducible apply State.targetSettle_keeps | with_reducible apply outKeeps_next
    | with_reducible apply keeps_ite | (with_reducible exact fun k => k) | (intro _; with_reducible assumption) | dsimp only | split
    | refine keeps_len ?_ id id id id id id id | exact keeps_mk ‹_› rfl rfl rfl rfl rfl rfl rfl | intro _

theorem execHeartbeat_keeps {z : State} (start : FrameStart) (arg : BitVec 16) (pec : Byte) (s : State) (hz : z.Keeps s) :
    OutKeeps z (execHeartbeat start arg pec s) := by
  unfold execHeartbeat
  repeat' first
    | with_reducible assumption | with_reducible apply State.set_keeps | with_reducible apply State.incSatF_keeps
    | with_reducible apply State.emit_keeps | with_reducible apply State.targetSettle_keeps | with_reducible apply outKeeps_next
    | with_reducible apply keeps_ite | (with_reducible exact fun k => k) | (intro _; with_reducible assumption) | dsimp only | split
    | refine keeps_len ?_ id id id id id id id | exact keeps_mk ‹_› rfl rfl rfl rfl rfl rfl rfl | intro _

theorem execProgStart_keeps {z : State} (start : FrameStart) (arg : BitVec 16) (pec : Byte) (s : State) (hz : z.Keeps s) :
    OutKeeps z (execProgStart start arg pec s) := by
  unfold execProgStart
  repeat' first
    | with_reducible assumption | with_reducible apply State.incSatF_keeps | with_reducible apply State.targetTry_keeps
    | with_reducible apply State.targetSettle_keeps | with_reducible apply outKeeps_next | with_reducible apply keeps_ite
    | (with_reducible exact fun k => k) | (intro _; with_reducible assumption) | dsimp only | split | intro _

theorem execTargetCreditTimeout_keeps {z : State} (s : State) (hz : z.Keeps s) : OutKeeps z (execTargetCreditTimeout s) := by
  unfold execTargetCreditTimeout
  repeat' first
    | with_reducible assumption | with_reducible apply State.targetSettle_keeps | with_reducible apply outKeeps_next
    | with_reducible apply keeps_ite | (with_reducible exact fun k => k) | (intro _; with_reducible assumption) | dsimp only | split | intro _

theorem execTargetTransactionAbort_keeps {z : State} (s : State) (hz : z.Keeps s) : OutKeeps z (execTargetTransactionAbort s) := by
  unfold execTargetTransactionAbort
  repeat' first
    | with_reducible assumption | with_reducible apply State.incSatF_keeps | with_reducible apply State.targetSettle_keeps
    | with_reducible apply outKeeps_next | with_reducible apply keeps_ite | (with_reducible exact fun k => k)
    | (intro _; with_reducible assumption) | dsimp only | split | intro _

theorem State.idle_keeps {z : State} (s : State) (hz : z.Keeps s) : z.Keeps (State.idle s) := by
  unfold State.idle
  repeat' first
    | with_reducible assumption | with_reducible apply State.pass_keeps | with_reducible apply State.targetGo_keeps
    | with_reducible apply keeps_ite | (with_reducible exact fun k => k) | (intro _; with_reducible assumption) | dsimp only | split | intro _

theorem State.markSlot_keeps {z : State} (s : State) (k : Nat) (digest : List Byte) (vcres : Nat) (hz : z.Keeps s) :
    z.Keeps (State.markSlot s k digest vcres) := by
  unfold State.markSlot
  repeat' first
    | with_reducible assumption | with_reducible apply State.set_keeps | with_reducible apply State.incSatF_keeps
    | with_reducible apply State.incWrapF_keeps | with_reducible apply State.emit_keeps | with_reducible apply State.commitBytes_keeps
    | with_reducible apply keeps_ite | (with_reducible exact fun k => k) | (intro _; with_reducible assumption) | dsimp only | split
    | refine keeps_len ?_ id id id id id id id | exact keeps_mk ‹_› rfl rfl rfl rfl rfl rfl rfl | intro _

theorem State.slotFailed_keeps {z : State} (s : State) (k : Nat) (f : SlotFail) (v : BootView) (hz : z.Keeps s) :
    z.Keeps (State.slotFailed s k f v) := by
  unfold State.slotFailed
  repeat' first
    | with_reducible assumption | with_reducible apply State.set_keeps | with_reducible apply State.markSlot_keeps
    | with_reducible apply keeps_ite | (with_reducible exact fun k => k) | (intro _; with_reducible assumption) | dsimp only | split | intro _

theorem State.slotSeen_keeps {z : State} (s : State) (k : Nat) (v : BootView) (hz : z.Keeps s) : z.Keeps (State.slotSeen s k v) := by
  unfold State.slotSeen
  repeat' first
    | with_reducible assumption | with_reducible apply State.set_keeps | with_reducible apply keeps_ite | (with_reducible exact fun k => k)
    | (intro _; with_reducible assumption) | dsimp only | split | intro _

theorem State.trySlots_keeps {z : State} (s : State) (v : BootView) (l : List Nat) (h : z.Keeps s) : z.Keeps (State.trySlots s v l).1 := by
  induction l generalizing s with
  | nil => exact h
  | cons k r ih =>
    rw [State.trySlots]
    split
    · rename_i t e
      have r' := State.slotCheck_keeps (s.slotSeen k v) k (bootAnswers v k) (State.slotSeen_keeps _ _ _ h)
      rw [e] at r'
      exact r'
    · exact ih _ (State.slotFailed_keeps _ _ _ _ (State.slotSeen_keeps _ _ _ h))

theorem State.bootChoice_keeps {z : State} (s : State) (v : BootView) (hz : z.Keeps s) : z.Keeps (State.bootChoice s v).1 := by
  unfold State.bootChoice
  repeat' first
    | with_reducible assumption | with_reducible apply State.trySlots_keeps | with_reducible apply keeps_ite | (with_reducible exact fun k => k)
    | (intro _; with_reducible assumption) | dsimp only | split | intro _

theorem State.catchAbort_keeps {z : State} (s : State) (hz : z.Keeps s) : z.Keeps (State.catchAbort s) := by
  unfold State.catchAbort
  repeat' first
    | with_reducible assumption | with_reducible apply State.draw_keeps | with_reducible apply State.historyOf_keeps
    | with_reducible apply State.slotCommit_keeps | with_reducible apply keeps_ite | (with_reducible exact fun k => k)
    | (intro _; with_reducible assumption) | dsimp only | split | intro _

theorem State.catchMarks_keeps {z : State} (s : State) (hz : z.Keeps s) : z.Keeps (State.catchMarks s) := by
  unfold State.catchMarks
  repeat' first
    | with_reducible assumption | with_reducible apply forEach_keeps | with_reducible apply State.historyOf_keeps
    | with_reducible apply forEach_keeps | with_reducible apply keeps_ite | (with_reducible exact fun k => k)
    | (intro _; with_reducible assumption) | dsimp only | split | intro _

theorem State.catchUp_keeps {z : State} (s : State) (hz : z.Keeps s) : z.Keeps (State.catchUp s) := by
  unfold State.catchUp
  repeat' first
    | with_reducible assumption | with_reducible apply State.logTokensFill_keeps | with_reducible apply State.evidencePush_keeps
    | with_reducible apply State.historyOf_keeps | with_reducible apply State.catchAbort_keeps | with_reducible apply State.catchMarks_keeps
    | with_reducible apply keeps_ite | (with_reducible exact fun k => k) | (intro _; with_reducible assumption) | dsimp only | split | intro _

theorem State.runImage_keeps {z : State} (s : State) (k : Nat) (v : BootView) (hz : z.Keeps s) : z.Keeps (State.runImage s k v) := by
  unfold State.runImage
  repeat' first
    | with_reducible assumption | with_reducible apply State.set_keeps | with_reducible apply State.put_keeps
    | with_reducible apply Writing.put_keeps | with_reducible apply keeps_ite | (with_reducible exact fun k => k)
    | (intro _; with_reducible assumption) | dsimp only | split | refine keeps_len ?_ id id id id id id id
    | exact keeps_mk ‹_› rfl rfl rfl rfl rfl rfl rfl | intro _

theorem State.runBlocks_keeps {z : State} (s : State) (hz : z.Keeps s) : z.Keeps (State.runBlocks s) := by
  unfold State.runBlocks
  repeat' first
    | with_reducible assumption | with_reducible apply State.draw_keeps | with_reducible apply forEach_keeps
    | with_reducible apply State.setGg_keeps | with_reducible apply State.gaugeStartCheck_keeps | with_reducible apply State.treqWrite_keeps
    | with_reducible apply State.chgEnable_keeps | with_reducible apply State.setFrm_keeps | with_reducible apply State.runStart_keeps
    | with_reducible apply State.secRestore_keeps | with_reducible apply State.srcTake_keeps | with_reducible apply forEach_keeps
    | with_reducible apply keeps_ite | (with_reducible exact fun k => k) | (intro _; with_reducible assumption) | dsimp only | split
    | refine keeps_len ?_ id id id id id id id | exact keeps_mk ‹_› rfl rfl rfl rfl rfl rfl rfl | intro _

theorem State.runProgram_keeps {z : State} (s : State) (onReq : Bool) (hz : z.Keeps s) : z.Keeps (State.runProgram s onReq) := by
  unfold State.runProgram
  repeat' first
    | with_reducible assumption | with_reducible apply State.upOrDwell_keeps | with_reducible apply State.pmidRequest_keeps
    | with_reducible apply State.takePower_keeps | with_reducible apply keeps_ite | (with_reducible exact fun k => k)
    | (intro _; with_reducible assumption) | dsimp only | split | intro _

theorem State.runRaises_keeps {z : State} (s : State) (v : BootView) (hz : z.Keeps s) : z.Keeps (State.runRaises s v) := by
  unfold State.runRaises
  repeat' first
    | with_reducible assumption | with_reducible apply State.set_keeps | with_reducible apply State.raiseAll_keeps
    | with_reducible apply State.engHalt_keeps | with_reducible apply State.xtalMark_keeps | with_reducible apply keeps_ite
    | (with_reducible exact fun k => k) | (intro _; with_reducible assumption) | dsimp only | split | refine keeps_len ?_ id id id id id id id
    | exact keeps_mk ‹_› rfl rfl rfl rfl rfl rfl rfl | intro _

theorem execRunEntry_keeps {z : State} (v : BootView) (s : State) (h : z.Keeps s) : OutKeeps z (execRunEntry v s) := by
  unfold execRunEntry
  refine outKeeps_next (keeps_ite (fun _ => ?_) fun _ => h)
  have k := State.bootChoice_keeps _ v (State.due_keeps _ s.dev.shadowAt h)
  generalize (s.due s.dev.shadowAt).bootChoice v = x at k ⊢
  split
  · have k1 := State.runImage_keeps _ ‹_› v (State.setMode_keeps _ .run k)
    exact State.runRaises_keeps _ _ (State.catchUp_keeps _ (State.runProgram_keeps _ _ (State.runBlocks_keeps _
      (keeps_mk k1 rfl rfl rfl rfl rfl rfl rfl))))
  · exact h

theorem execRecoveryEntry_keeps {z : State} (v : BootView) (s : State) (h : z.Keeps s) : OutKeeps z (execRecoveryEntry v s) := by
  unfold execRecoveryEntry
  refine outKeeps_next (keeps_ite (fun _ => ?_) fun _ => h)
  have k := State.bootChoice_keeps _ v (State.due_keeps _ s.dev.shadowAt h)
  generalize (s.due s.dev.shadowAt).bootChoice v = x at k ⊢
  split
  · have k1 : ∀ u, z.Keeps u → z.Keeps (if u.dev.xtalFailed && !u.active 10 then u.xtalSet else u) := fun _ h => keeps_ite (fun _ => State.xtalSet_keeps _ h) fun _ => h
    exact k1 _ (State.catchUp_keeps _ (State.coreWdgRestart_keeps _ (keeps_mk (State.setMode_keeps _ .recovery k) rfl rfl rfl rfl rfl rfl rfl)))
  · exact h

end Sys2Proof.Machine
end

