-- ==== Sys2Proof/Tests/Slice0.lean ====
section
/-! SUPPORT. The model's own tests: a state that meets the hypotheses of every clause of every
obligation, the worked examples of the spec, and the terms that the well-formedness check
refuses. -/

namespace Tests
set_option Elab.async false
open Sys2Proof Sys2Proof.Machine

/-! Small states for the tests. -/

/-- Reset with the device in state `m` and some register fields set. -/
def at_ (m : Mode) (l : List (FRef × Nat)) : State :=
  l.foldl (fun s p => s.set p.1 p.2) { State.reset with dev := { State.reset.dev with mode := m } }
/-- A claim of the image. -/
def claim_ (s : State) (c i o q : Nat) : State := { s with image := { s.image with claims := tset s.image.claims (c * 256 + i) none (some (o, q)) } }
/-- A satellite with no payload. -/
def sat_ (s : State) (k a d : Nat) : State := { s with image := { s.image with sats := tset s.image.sats k none (some (a, d, [])) } }
def dom_ (s : State) (d : Nat) (st : DomState) (raw pg : Bool) : State := s.setDom d { s.dom d with st := st, raw := raw, pg := pg }
def seat_ (s : State) (n : Nat) (first served : Bool) : State := s.setSeat n { s.seat n with first := first, served := served }
def stk_ (s : State) (n : Nat) (x : Stack) : State := s.setStk n x
def map_ (s : State) (m : Nat) : State := { s with frm := { s.frm with persistent := m } }
/-- A setup section of a DEVICE record, a REG record that enables seat 0, four programs of one END step, and its END record (R76 to R89). -/
def setup_ : List Byte :=
  leBytes 4 0x53544445 ++ leBytes 2 1 ++ leBytes 2 7 ++ leBytes 4 92 ++ leBytes 4 0 ++
  [byte 1, byte 0] ++ leBytes 2 12 ++ leBytes 8 0 ++
  [byte 6, byte 0] ++ leBytes 2 12 ++ leBytes 2 0x3040 ++ leBytes 2 1 ++ leBytes 4 0x800003E8 ++
  ((List.range 4).flatMap fun p => [byte 7, byte p] ++ leBytes 2 12 ++ leBytes 2 p ++ leBytes 2 0 ++ leBytes 4 0) ++
  [byte 0xFF, byte 0] ++ leBytes 2 4
/-- The public key of RFC 6979, A.2.5, whose hash the reset OTP holds for the vendor (R429). -/
def key_ : List Byte := leBytes 64 0x7903fe1008b8bc99a41ae9e95628bc64f2f1b20c2d7e9f5177a3c294d446229960fed4ba255a9d31c961eb74c6356d68c049b8923b61fa6ce669622e60f29fb6
/-- An image header (R454) over a blank code region and that setup section, signed twice with that key (R430). -/
def header_ : List Byte :=
  leBytes 16 0x425c0000000149544445 ++ leBytes 32 0xee0de6102e611c80b8296d5ca0808fbaa0613631af4e02c7cf4d3d837aa0bb0f ++ leBytes 16 0x42000000420000000200 ++ key_ ++ leBytes 4 0 ++ leBytes 12 0 ++ leBytes 4 92 ++ leBytes 108 0 ++
  leBytes 64 0x26b2de60d34c191a05902852d2310f1b83661488cd4a7a8bb2a310011a19e090088bb9ff22ab291a74c86fc677ba897baadee370cc6129b82d170ba3fc26415c ++
  leBytes 64 0x9dc9b8efa6e2a566e1bb3bfc01b7b0fd6b8a9b31a649fc56a1d0d46eccf00901088bb9ff22ab291a74c86fc677ba897baadee370cc6129b82d170ba3fc26415c ++ leBytes 128 0
/-- The attached memory with that image in slot 0. -/
def image_ : List Host.Cell :=
  ((List.range 512).zip header_ ++ ((List.range 92).map (· + 16896)).zip setup_).filter fun e => decide (e.2 ≠ flashBlank)
def withImage_ (s : State) : State := { s with nv := { s.nv with flash := image_ } }
/-- RUN with that image being verified, and with a header that gives no code and no digest in its place. -/
def verifying_ : State := withImage_ (at_ .run [(F.UPD_STAT_PHASE, 3), (F.UPD_STAT_BUSY, 1)])
def broken_ : State := { verifying_ with nv := { verifying_.nv with flash := [(56, 0), (57, 2), (58, 0), (59, 0)] } }
def bootView_ (ok : Bool) : BootView := ⟨ok, false, none, 0, true, true, false, 3300⟩
/-- A grant in the format of R433, signed with that key. -/
def grant_ : List Byte :=
  leBytes 4 0x544E5247 ++ [byte 1] ++ leBytes 3 0 ++ leBytes 4 0 ++ leBytes 8 0 ++ leBytes 4 0 ++ leBytes 4 0 ++ leBytes 4 10 ++ leBytes 4 0 ++
  leBytes 16 7 ++ leBytes 12 0 ++
  leBytes 64 0xb395cd3c0ea638e6e661aac6a159a7b23af5a224bcdfae88d1a75363dbbe7bc9088bb9ff22ab291a74c86fc677ba897baadee370cc6129b82d170ba3fc26415c
/-- The state a step answers. -/
def nextOf_ (o : Host.Outcome State Fault Refusal) : State := match o with
  | .next t => t
  | _ => State.reset
def isNext_ (o : Host.Outcome State Fault Refusal) : Bool := match o with
  | .next _ => true
  | _ => false
theorem next_ (o : Host.Outcome State Fault Refusal) (h : isNext_ o = true) : o = .next (nextOf_ o) := by cases o <;> first | rfl | cases h
theorem pair_ {α β : Type} (x : α × β) (b : β) (h : x.2 = b) : x = (x.1, b) := by rw [← h]
theorem pairl_ {α β : Type} (x : α × β) (a : α) (h : x.1 = a) : x = (a, x.2) := by rw [← h]
theorem ok_ {ε α : Type} : (x : Except ε α) → x.toBool = true → ∃ u, x = .ok u
  | .ok u, _ => ⟨u, rfl⟩
  | .error _, h => by cases h
theorem err_ {ε α : Type} : (x : Except ε α) → x.toBool = false → ∃ f, x = .error f
  | .error f, _ => ⟨f, rfl⟩
  | .ok _, h => by cases h
/-- The update buffer holds the first 256 bytes of that image. -/
def buf_ (s : State) : State :=
  (List.range 64).foldl (fun t j => t.set (F.UPD_BUF_BYTES j) (ofLe ((List.range 4).map fun k => tget image_ (4 * j + k) flashBlank))) s

/-! ## The hypotheses can be met

One theorem per obligation, more for the longest: for each of its clauses that has hypotheses, in their order, a state
and operands that meet them together. A variable that a hypothesis defines (`w = e`) stands as its
definition, and one that only names the answer (`exec c s = .next t`) is left out. -/

theorem witness_StepIdles :
    (∃ (s : State), s.pending = [] ∧ s.overflowOwed = false ∧ s.twt.wait = none ∧ s.counting = false) ∧
    (∃ (s : State), s.pending = [] ∧ s.overflowOwed = false ∧ s.twt.wait = none ∧ s.counting = true) ∧
    (∃ (s : State) (o : TgtOp) (a : Nat), s.pending = [] ∧ (s.pass 1).twt.wait = some (o, a) ∧ (s.pass 1).targetOn = true ∧ (s.pass 1).targetFree o = true) ∧
    (∃ (s : State), s.overflowOwed = true ∧ s.evt.ovfAt = some s.coreClk ∧ s.now < 2 * (s.coreClk + 1) ∧ 2 * (s.coreClk + 1) = s.now + 1) :=
  ⟨⟨({ at_ .run [] with twt := { (at_ .run []).twt with wait := none } } : State), by decide +kernel⟩,
   ⟨({ at_ .run [(F.FRM_STATE_STATE, 3)] with twt := { (at_ .run [(F.FRM_STATE_STATE, 3)]).twt with wait := none } } : State), by decide +kernel⟩,
   ⟨({ at_ .run [] with twt := { (at_ .run []).twt with wait := some (.read 0 1 false, 0) } } : State), (.read 0 1 false), 0, by decide +kernel⟩,
   ⟨({ ({ at_ .run [] with evt := { (at_ .run []).evt with lostG := 1, ovfAt := some 0 } }) with now := 1 } : State), by decide +kernel⟩⟩

theorem witness_MemoriesStayCanonical :
    ∃ (s : State), Memory.wf s.nv :=
  ⟨(at_ .run [] : State), by decide +kernel⟩

theorem witness_CreditsHold :
    ∃ (s : State), s.Credited :=
  ⟨(State.reset : State), (⟨by decide, by decide, by decide, by decide, by decide, by decide, by decide⟩ : State.reset.Credited)⟩

theorem witness_SuppliesAndResets :
    (∃ (strap : Bool) (pack : Bool) (s : State), s.dev.mode = .off ∧ s.dev.vaoGood = false) ∧
    (∃ (s : State), s.aoGood = true ∧ s.dev.mode = .off) ∧
    (∃ (s : State), s.aoGood = true ∧ s.dev.mode = .boot ∧ s.dev.stage = .waiting ∧ s.dev.resetNLow = false) ∧
    (∃ (s : State), s.aoGood = true ∧ s.dev.mode = .boot ∧ s.dev.stage = .waiting ∧ s.dev.resetNLow = true) ∧
    (∃ (s : State), s.aoGood = false) ∧
    (∃ (strap : Bool) (s : State), s.dev.pmidGood = false) ∧
    (∃ (s : State), s.dev.vaoGood = true ∧ s.otp.prog = none) ∧
    (∃ (s : State), s.dev.pmidGood = true ∧ s.dev.mode ≠ .off ∧ s.dev.mode ≠ .hibernate) ∧
    (∃ (s : State), s.dev.pmidGood = true ∧ (s.dev.mode = .off ∨ s.dev.mode = .hibernate)) ∧
    (∃ (s : State), s.dev.vaoGood = true) ∧
    (∃ (s : State), s.writeOk 0x0008 = true ∧ s.injects 4 = false) ∧
    (∃ (s : State), s.writeOk 0x0008 = true ∧ s.injects 4 = false) ∧
    (∃ (s : State), s.dev.stage = .powerDown) ∧
    (∃ (strap : Bool) (s : State), s.dev.stage = .waiting ∧ s.aoGood = true) ∧
    (∃ (strap : Bool) (s : State), s.dev.stage ≠ .waiting) ∧
    (∃ (strap : Bool) (s : State), s.dev.stage = .waiting ∧ s.aoGood = false) ∧
    (∃ (w : Nat) (d : Nat) (s : State), s.dev.vaoGood = true ∧ s.otp.prog = some (w, d)) ∧
    (∃ (strap : Bool) (s : State), s.dev.pmidGood = true) :=
  ⟨⟨false, false, ({ at_ .off [] with dev := { (at_ .off []).dev with vaoGood := false } } : State), by decide +kernel⟩,
   ⟨(at_ .off [] : State), by decide +kernel⟩,
   ⟨({ at_ .boot [] with dev := { (at_ .boot []).dev with stage := .waiting, resetNLow := false } } : State), by decide +kernel⟩,
   ⟨({ at_ .boot [] with dev := { (at_ .boot []).dev with stage := .waiting, resetNLow := true } } : State), by decide +kernel⟩,
   ⟨({ at_ .run [] with dev := { (at_ .run []).dev with vaoGood := false } } : State), by decide +kernel⟩,
   ⟨false, ({ at_ .run [] with dev := { (at_ .run []).dev with pmidGood := false } } : State), by decide +kernel⟩,
   ⟨({ at_ .run [] with dev := { (at_ .run []).dev with vaoGood := true }, otp := { (at_ .run []).otp with prog := none } } : State), by decide +kernel⟩,
   ⟨({ at_ .run [] with dev := { (at_ .run []).dev with pmidGood := true } } : State), by decide +kernel⟩,
   ⟨({ at_ .off [] with dev := { (at_ .off []).dev with pmidGood := true } } : State), by decide +kernel⟩,
   ⟨({ at_ .run [] with dev := { (at_ .run []).dev with vaoGood := true } } : State), by decide +kernel⟩,
   ⟨(at_ .run [] : State), by decide +kernel⟩,
   ⟨(at_ .run [] : State), by decide +kernel⟩,
   ⟨({ at_ .run [] with dev := { (at_ .run []).dev with stage := .powerDown } } : State), by decide +kernel⟩,
   ⟨false, ({ at_ .run [] with dev := { (at_ .run []).dev with stage := .waiting } } : State), by decide +kernel⟩,
   ⟨false, (at_ .run [] : State), by decide +kernel⟩,
   ⟨false, ({ at_ .run [] with dev := { (at_ .run []).dev with stage := .waiting, vaoGood := false } } : State), by decide +kernel⟩,
   ⟨0, 0, ({ at_ .run [] with dev := { (at_ .run []).dev with vaoGood := true }, otp := { (at_ .run []).otp with prog := some ((0 : Nat), (0 : Nat)) } } : State), by decide +kernel⟩,
   ⟨false, ({ at_ .run [] with dev := { (at_ .run []).dev with pmidGood := true } } : State), by decide +kernel⟩⟩

theorem witness_SuppliesAndResets_more :
    ∃ (strap : Bool) (pack : Bool) (s : State), (s.dev.mode ≠ .off ∨ s.dev.vaoGood = true) :=
  ⟨false, false, (at_ .run [] : State), by decide +kernel⟩

theorem witness_FullResetStarts :
    (∃ (s : State) (c : FRef), s.dev.mode = .off) ∧
    (∃ (s : State) (c : FRef), s.dev.stage = .none ∧ (s.dev.mode = .boot ∨ s.dev.mode = .black ∨ s.dev.mode = .recovery)) ∧
    (∃ (s : State) (c : FRef), s.dev.stage = .none ∧ (s.dev.mode = .run ∨ s.dev.mode = .park) ∧ c ≠ F.SYS_RESET_CAUSE_PMID_LOSS ∧ (s.set c 1).seatsStop.updAbandon.jnl.busy = false) ∧
    (∃ (s : State) (c : FRef), s.dev.stage = .none ∧ (s.dev.mode = .run ∨ s.dev.mode = .park) ∧ c ≠ F.SYS_RESET_CAUSE_PMID_LOSS ∧ (s.set c 1).seatsStop.updAbandon.jnl.busy = true) ∧
    (∃ (s : State), s.dev.stage = .powerDown ∧ s.dev.mode ≠ .off) ∧
    (∃ (s : State), s.dev.stage = .powerDown ∧ s.dev.mode ≠ .off) :=
  ⟨⟨(at_ .off [] : State), F.SYS_RESET_CAUSE_PIN, by decide +kernel⟩,
   ⟨({ at_ .boot [] with dev := { (at_ .boot []).dev with stage := .none } } : State), F.SYS_RESET_CAUSE_PIN, by decide +kernel⟩,
   ⟨({ at_ .run [] with dev := { (at_ .run []).dev with stage := .none } } : State), F.SYS_RESET_CAUSE_PIN, by decide +kernel⟩,
   ⟨({ at_ .run [] with dev := { (at_ .run []).dev with stage := .none }, jnl := { (at_ .run []).jnl with busy := true } } : State), F.SYS_RESET_CAUSE_PIN, by decide +kernel⟩,
   ⟨({ at_ .run [] with dev := { (at_ .run []).dev with stage := .powerDown } } : State), by decide +kernel⟩,
   ⟨({ at_ .run [] with dev := { (at_ .run []).dev with stage := .powerDown } } : State), by decide +kernel⟩⟩

theorem witness_FullResetRestores :
    ∃ (s : State) (f : FRef), f.key ∉ keptKeys :=
  ⟨(at_ .run [] : State), F.SEQ_STAT_PEND, by decide +kernel⟩

theorem witness_BootChoosesAndEnds :
    (∃ (v : BootView) (s t : State) (k : Nat), s.bootEnds = true ∧ s.bootChoice v = (t, some k)) ∧
    (∃ (v : BootView) (s t : State), s.bootEnds = true ∧ s.bootChoice v = (t, none)) ∧
    (∃ (v : BootView) (s : State), s.flag F.SYS_BOOT_STATUS_STRAP = true ∨ s.dev.toRecovery = true) ∧
    (∃ (s : State), s.dev.mode = .recovery ∧ s.dev.hostRstReleased = false) ∧
    (∃ s : State, s.noSlots = false) :=
  ⟨⟨bootView_ true, withImage_ State.reset, _, 0, by decide +kernel, pair_ _ _ (by decide +kernel)⟩,
   ⟨bootView_ false, State.reset, _, by decide +kernel, pair_ _ _ (by decide +kernel)⟩,
   ⟨bootView_ true, at_ .boot [(F.SYS_BOOT_STATUS_STRAP, 1)], by decide +kernel⟩,
   ⟨({ at_ .recovery [] with dev := { (at_ .recovery []).dev with hostRstReleased := false } } : State), by decide +kernel⟩,
   ⟨State.reset, by decide +kernel⟩⟩

theorem witness_ParkWakesAndSeconds :
    (∃ (s : State), s.writeOk 0x020C = true ∧ s.injects 4 = false) ∧
    (∃ (s : State), s.writeOk 0x020C = true ∧ s.injects 4 = false) ∧
    (∃ (k : Fin 12) (s : State), (s.dev.mode = .run ∨ s.dev.mode = .park ∨ s.dev.mode = .black) ∧ s.gpioCode k = 7 ∧ bitOf s.dev.parkPinTaken k = false) ∧
    (∃ (s : State), s.dev.mode = .run ∧ s.dev.stage = .none ∧ s.phase = 6 ∧ s.progRuns = false ∧ s.seq.shut = none ∧ s.seq.failQueue = [] ∧ s.updRuns = false ∧ s.queuesEmpty = true ∧ (s.dblAct = false ∨ s.adc.dblHeld = true)) ∧
    (∃ (s : State), s.dev.mode = .run ∧ s.dev.stage = .none ∧ s.phase = 6 ∧ s.progRuns = false ∧ s.seq.shut = none ∧ s.seq.failQueue = [] ∧ s.updRuns = false ∧ s.queuesEmpty = true ∧ s.dblAct = true ∧ s.adc.dblHeld = false) ∧
    (∃ (s : State), s.dev.mode = .run ∧ s.dev.stage = .none ∧ s.phase = 6 ∧ s.progRuns = false ∧ s.seq.shut = none ∧ s.seq.failQueue = [] ∧ s.updRuns = true) ∧
    (∃ (k : Fin 8) (retOk : Bool) (strap : Bool) (s : State), s.dev.vaoGood = true ∧ ((k.val = 5 → s.rtcSec = s.get F.SYS_WAKE_ALARM_SEC ∧ s.rtcSec ≠ 0)) ∧ ((k.val = 6 → s.get F.PP_FE_STAT_STATE ≠ 0)) ∧ s.dev.mode = .run ∧ k.val ≠ 7 ∧ s.dev.stage = .none ∧ s.phase ≠ 6 ∧ s.hibGoing = false) ∧
    (∃ (k : Fin 8) (retOk : Bool) (strap : Bool) (s : State), s.dev.vaoGood = true ∧ ((k.val = 5 → s.rtcSec = s.get F.SYS_WAKE_ALARM_SEC ∧ s.rtcSec ≠ 0)) ∧ ((k.val = 6 → s.get F.PP_FE_STAT_STATE ≠ 0)) ∧ s.dev.mode = .run ∧ k.val < 7 ∧ s.dev.stage = .none ∧ s.hibGoing = true ∧ s.bitF F.SYS_WAKE_CFG_HIB_EN k = true) ∧
    (∃ (k : Fin 8) (retOk : Bool) (strap : Bool) (s : State), s.dev.vaoGood = true ∧ ((k.val = 5 → s.rtcSec = s.get F.SYS_WAKE_ALARM_SEC ∧ s.rtcSec ≠ 0)) ∧ ((k.val = 6 → s.get F.PP_FE_STAT_STATE ≠ 0)) ∧ s.dev.mode = .black ∧ k.val ≤ 4) ∧
    (∃ (k : Fin 8) (retOk : Bool) (strap : Bool) (s : State), s.dev.vaoGood = true ∧ ((k.val = 5 → s.rtcSec = s.get F.SYS_WAKE_ALARM_SEC ∧ s.rtcSec ≠ 0)) ∧ ((k.val = 6 → s.get F.PP_FE_STAT_STATE ≠ 0)) ∧ s.dev.mode = .hibernate ∧ k.val < 7 ∧ s.dev.stage = .none ∧ s.bitF F.SYS_WAKE_CFG_HIB_EN k = true ∧ s.aoGood = true ∧ s.flag F.THM_STAT_LATCH = false) ∧
    (∃ (k : Fin 8) (retOk : Bool) (strap : Bool) (s : State), s.dev.vaoGood = true ∧ ((k.val = 5 → s.rtcSec = s.get F.SYS_WAKE_ALARM_SEC ∧ s.rtcSec ≠ 0)) ∧ ((k.val = 6 → s.get F.PP_FE_STAT_STATE ≠ 0)) ∧ s.dev.mode = .park ∧ s.dev.stage = .none ∧ s.phase = 7 ∧ s.hibGoing = false ∧ s.bitF F.SYS_WAKE_CFG_PARK_EN k = true ∧ s.dev.wakeLatch = 0) ∧
    (∃ (s : State), s.dev.mode = .park ∧ s.dev.wakeLatch ≠ 0 ∧ s.seq.shut = none ∧ s.progRuns = false ∧ s.hibGoing = false ∧ s.dev.stage = .none) ∧
    (∃ (retOk : Bool) (strap : Bool) (s : State), s.dev.vaoGood = true ∧ (s.rtcSec + 1) % 2 ^ 32 ≠ s.get F.SYS_WAKE_ALARM_SEC) ∧
    (∃ (retOk : Bool) (strap : Bool) (s : State), s.dev.vaoGood = true ∧ s.dev.mode ≠ .hibernate ∧ (s.rtcSec + 1) % 2 ^ 32 = s.get F.SYS_WAKE_ALARM_SEC ∧ s.get F.SYS_WAKE_ALARM_SEC ≠ 0) ∧
    (∃ (s : State), s.dev.vaoGood = true ∧ s.dev.xtalFailed = false ∧ s.dev.mode ≠ .run) ∧
    (∃ (s : State), s.dev.vaoGood = true ∧ s.dev.xtalFailed = false ∧ s.dev.mode = .run) ∧
    (∃ (s : State), s.dev.xtalFailed = true) ∧
    (∃ (k : Fin 8) (retOk : Bool) (strap : Bool) (s : State), s.dev.vaoGood = true ∧ s.dev.mode ≠ .hibernate ∧ ((k.val = 7 → s.dev.mode = .park)) ∧ ((k.val = 5 → s.rtcSec = s.get F.SYS_WAKE_ALARM_SEC ∧ s.rtcSec ≠ 0)) ∧ ((k.val = 6 → s.get F.PP_FE_STAT_STATE ≠ 0))) :=
  ⟨⟨(at_ .run [] : State), by decide +kernel⟩,
   ⟨(at_ .run [] : State), by decide +kernel⟩,
   ⟨1, (claim_ (at_ .run []) 2 1 0 7 : State), by decide +kernel⟩,
   ⟨({ at_ .run [(F.SEQ_STAT_PHASE, 6), (F.SEQ_STAT_RUN, 0)] with dev := { (at_ .run [(F.SEQ_STAT_PHASE, 6), (F.SEQ_STAT_RUN, 0)]).dev with stage := .none }, seq := { (at_ .run [(F.SEQ_STAT_PHASE, 6), (F.SEQ_STAT_RUN, 0)]).seq with shut := none, failQueue := [] } } : State), by decide +kernel⟩,
   ⟨({ at_ .run [(F.SEQ_STAT_PHASE, 6), (F.SEQ_STAT_RUN, 0), (F.ADC_STAT_DBL_ACT, 1)] with dev := { (at_ .run [(F.SEQ_STAT_PHASE, 6), (F.SEQ_STAT_RUN, 0), (F.ADC_STAT_DBL_ACT, 1)]).dev with stage := .none }, seq := { (at_ .run [(F.SEQ_STAT_PHASE, 6), (F.SEQ_STAT_RUN, 0), (F.ADC_STAT_DBL_ACT, 1)]).seq with shut := none, failQueue := [] }, adc := { (at_ .run [(F.SEQ_STAT_PHASE, 6), (F.SEQ_STAT_RUN, 0), (F.ADC_STAT_DBL_ACT, 1)]).adc with dblHeld := false } } : State), by decide +kernel⟩,
   ⟨({ at_ .run [(F.SEQ_STAT_PHASE, 6), (F.SEQ_STAT_RUN, 0), (F.UPD_STAT_PHASE, 1)] with dev := { (at_ .run [(F.SEQ_STAT_PHASE, 6), (F.SEQ_STAT_RUN, 0), (F.UPD_STAT_PHASE, 1)]).dev with stage := .none }, seq := { (at_ .run [(F.SEQ_STAT_PHASE, 6), (F.SEQ_STAT_RUN, 0), (F.UPD_STAT_PHASE, 1)]).seq with shut := none, failQueue := [] } } : State), by decide +kernel⟩,
   ⟨0, false, false, ({ at_ .run [] with dev := { (at_ .run []).dev with vaoGood := true, stage := .none } } : State), by decide +kernel⟩,
   ⟨0, false, false, ({ at_ .run [(F.SYS_WAKE_CFG_HIB_EN, (2 ^ ((0 : Fin 8) : Nat))), (F.THM_STAT_LATCH, 1)] with dev := { (at_ .run [(F.SYS_WAKE_CFG_HIB_EN, (2 ^ ((0 : Fin 8) : Nat))), (F.THM_STAT_LATCH, 1)]).dev with vaoGood := true, stage := .none } } : State), by decide +kernel⟩,
   ⟨0, false, false, ({ at_ .black [] with dev := { (at_ .black []).dev with vaoGood := true } } : State), by decide +kernel⟩,
   ⟨0, false, false, ({ at_ .hibernate [(F.SYS_WAKE_CFG_HIB_EN, (2 ^ ((0 : Fin 8) : Nat))), (F.THM_STAT_LATCH, 0)] with dev := { (at_ .hibernate [(F.SYS_WAKE_CFG_HIB_EN, (2 ^ ((0 : Fin 8) : Nat))), (F.THM_STAT_LATCH, 0)]).dev with vaoGood := true, stage := .none } } : State), by decide +kernel⟩,
   ⟨0, false, false, ({ at_ .park [(F.SEQ_STAT_PHASE, 7), (F.SYS_WAKE_CFG_PARK_EN, (2 ^ ((0 : Fin 8) : Nat)))] with dev := { (at_ .park [(F.SEQ_STAT_PHASE, 7), (F.SYS_WAKE_CFG_PARK_EN, (2 ^ ((0 : Fin 8) : Nat)))]).dev with vaoGood := true, stage := .none, wakeLatch := 0 } } : State), by decide +kernel⟩,
   ⟨({ at_ .park [(F.SEQ_STAT_RUN, 0)] with seq := { (at_ .park [(F.SEQ_STAT_RUN, 0)]).seq with shut := none }, dev := { (at_ .park [(F.SEQ_STAT_RUN, 0)]).dev with stage := .none, wakeLatch := 1 } } : State), by decide +kernel⟩,
   ⟨false, false, ({ at_ .run [] with dev := { (at_ .run []).dev with vaoGood := true } } : State), by decide +kernel⟩,
   ⟨false, false, ({ at_ .run [(F.SYS_WAKE_ALARM_SEC, 1)] with dev := { (at_ .run [(F.SYS_WAKE_ALARM_SEC, 1)]).dev with vaoGood := true } } : State), by decide +kernel⟩,
   ⟨({ at_ .black [] with dev := { (at_ .black []).dev with vaoGood := true, xtalFailed := false } } : State), by decide +kernel⟩,
   ⟨({ at_ .run [] with dev := { (at_ .run []).dev with vaoGood := true, xtalFailed := false } } : State), by decide +kernel⟩,
   ⟨({ at_ .run [] with dev := { (at_ .run []).dev with xtalFailed := true } } : State), by decide +kernel⟩,
   ⟨0, false, false, ({ at_ .run [] with dev := { (at_ .run []).dev with vaoGood := true } } : State), by decide +kernel⟩⟩

theorem witness_ParkWakesAndSeconds_more :
    (∃ (k : Fin 8) (retOk : Bool) (strap : Bool) (s : State), s.dev.vaoGood = true ∧ s.dev.mode = .hibernate ∧ ((k.val = 7 → s.dev.mode = .park)) ∧ ((k.val = 5 → s.rtcSec = s.get F.SYS_WAKE_ALARM_SEC ∧ s.rtcSec ≠ 0)) ∧ ((k.val = 6 → s.get F.PP_FE_STAT_STATE ≠ 0))) ∧
    (∃ (k : Nat) (r : Bool) (s : State), (s.dev.mode ≠ .black ∨ 4 < k) ∧ (s.dev.stage ≠ .none ∨ (s.dev.mode = .boot ∧ s.flag F.THM_STAT_LATCH = false) ∨ s.dev.mode = .recovery ∨ s.dev.mode = .black)) ∧
    (∃ (k : Nat) (r : Bool) (s : State), s.dev.mode = .hibernate ∧ s.dev.stage = .none ∧ (s.bitF F.SYS_WAKE_CFG_HIB_EN k = false ∨ 7 ≤ k)) ∧
    (∃ (k : Nat) (r : Bool) (s : State), s.dev.mode = .hibernate ∧ s.dev.stage = .none ∧ s.bitF F.SYS_WAKE_CFG_HIB_EN k = true ∧ k < 7 ∧ (s.aoGood = false ∨ s.flag F.THM_STAT_LATCH = true) ∧ s.dev.wakeLatch = 0) ∧
    (∃ (k : Nat) (r : Bool) (s : State), s.dev.mode = .run ∧ s.dev.stage = .none ∧ ((s.phase = 6 ∧ s.bitF F.SYS_WAKE_CFG_PARK_EN k = true) ∨ (s.phase = 4 ∧ s.seq.after = 1 ∧ k < 7 ∧ s.bitF F.SYS_WAKE_CFG_HIB_EN k = true)) ∧ s.dev.wakeLatch = 0) ∧
    (∃ (k : Nat) (r : Bool) (s : State), s.dev.mode = .park ∧ s.dev.stage = .none ∧ s.phase = 7 ∧ s.hibGoing = false ∧ s.bitF F.SYS_WAKE_CFG_PARK_EN k = false) ∧
    (∃ (k : Nat) (r : Bool) (s : State), s.dev.stage = .none ∧ ((s.dev.mode = .boot ∧ s.flag F.THM_STAT_LATCH = true) ∨ (s.dev.mode = .park ∧ s.hibGoing = true)) ∧ s.bitF F.SYS_WAKE_CFG_HIB_EN k = true ∧ k < 7) ∧
    (∃ (retOk : Bool) (strap : Bool) (s : State), s.dev.vaoGood = true ∧ s.dev.mode = .hibernate ∧ (s.rtcSec + 1) % 2 ^ 32 = s.get F.SYS_WAKE_ALARM_SEC ∧ s.get F.SYS_WAKE_ALARM_SEC ≠ 0) ∧
    (∃ (s : State), s.updRuns = false ∧ s.queuesEmpty = false) :=
  ⟨⟨0, false, false, ({ at_ .hibernate [] with dev := { (at_ .hibernate []).dev with vaoGood := true } } : State), by decide +kernel⟩,
   ⟨0, false, (at_ .boot [] : State), by decide +kernel⟩,
   ⟨7, false, ({ at_ .hibernate [] with dev := { (at_ .hibernate []).dev with stage := .none } } : State), by decide +kernel⟩,
   ⟨0, false, ({ at_ .hibernate [(F.SYS_WAKE_CFG_HIB_EN, (2 ^ ((0 : Nat) : Nat)))] with dev := { (at_ .hibernate [(F.SYS_WAKE_CFG_HIB_EN, (2 ^ ((0 : Nat) : Nat)))]).dev with stage := .none, wakeLatch := 0, pmidGood := false } } : State), by decide +kernel⟩,
   ⟨0, false, ({ at_ .run [(F.SEQ_STAT_PHASE, 6), (F.SYS_WAKE_CFG_PARK_EN, 1)] with dev := { (at_ .run [(F.SEQ_STAT_PHASE, 6), (F.SYS_WAKE_CFG_PARK_EN, 1)]).dev with stage := .none, wakeLatch := 0 } } : State), by decide +kernel⟩,
   ⟨0, false, ({ at_ .park [(F.SEQ_STAT_PHASE, 7), (F.SYS_WAKE_CFG_PARK_EN, 0)] with dev := { (at_ .park [(F.SEQ_STAT_PHASE, 7), (F.SYS_WAKE_CFG_PARK_EN, 0)]).dev with stage := .none } } : State), by decide +kernel⟩,
   ⟨0, false, ({ at_ .park [(F.SYS_WAKE_CFG_HIB_EN, (2 ^ ((0 : Nat) : Nat))), (F.SYS_WAKE_CFG_HIB_EN, 1), (F.THM_STAT_LATCH, 0)] with dev := { (at_ .park [(F.SYS_WAKE_CFG_HIB_EN, (2 ^ ((0 : Nat) : Nat))), (F.SYS_WAKE_CFG_HIB_EN, 1), (F.THM_STAT_LATCH, 0)]).dev with stage := .none }, seq := { (at_ .park [(F.SYS_WAKE_CFG_HIB_EN, (2 ^ ((0 : Nat) : Nat))), (F.SYS_WAKE_CFG_HIB_EN, 1), (F.THM_STAT_LATCH, 0)]).seq with pmidShut := true } } : State), by decide +kernel⟩,
   ⟨false, false, ({ at_ .hibernate [(F.SYS_WAKE_ALARM_SEC, 1)] with dev := { (at_ .hibernate [(F.SYS_WAKE_ALARM_SEC, 1)]).dev with vaoGood := true } } : State), by decide +kernel⟩,
   ⟨({ at_ .run [] with seq := { (at_ .run []).seq with queue := [(1, none)] } } : State), by decide +kernel⟩⟩

theorem witness_WritesAndTheirGate :
    (∃ (a : BitVec 16) (v : Word) (s : State), s.writeOk a.toNat = true ∧ a.toNat % 4 = 0) ∧
    (∃ (a : BitVec 16) (v : Word) (s : State), (s.writeOk a.toNat = false ∨ a.toNat % 4 ≠ 0)) ∧
    (∃ (v : Word) (s : State), s.writeOk 0x0304 = true ∧ s.injects 4 = false) ∧
    (∃ (s : State) (a : Nat), s.dev.mode = .run) ∧
    (∃ (s : State) (a : Nat), s.dev.mode = .black) ∧
    (∃ (s : State) (a : Nat), s.dev.mode = .recovery ∧ s.writeOk a = true) ∧
    (∃ (s : State) (a : Nat), (s.dev.mode = .off ∨ s.dev.mode = .hibernate ∨ s.dev.mode = .boot ∨ s.dev.mode = .park)) :=
  ⟨⟨0, 0, (at_ .run [] : State), by decide +kernel⟩,
   ⟨1, 0, (at_ .run [] : State), by decide +kernel⟩,
   ⟨0, (at_ .run [] : State), by decide +kernel⟩,
   ⟨(at_ .run [] : State), 0, by decide +kernel⟩,
   ⟨(at_ .black [] : State), 0, by decide +kernel⟩,
   ⟨(at_ .recovery [] : State), 0x0008, by decide +kernel⟩,
   ⟨(at_ .off [] : State), 0, by decide +kernel⟩⟩

theorem witness_PlainWordsAreStored :
    (∃ (s : State) (a v : Nat) (l : List FieldRow) (f : FieldRow), regFields a = some l ∧ f ∈ l ∧ f.acc = .rw ∧ s.wordBad a v = false) ∧
    (∃ (s : State) (a v : Nat) (l : List FieldRow) (f : FieldRow), regFields a = some l ∧ f ∈ l ∧ f.acc = .w1c ∧ s.wordBad a v = false) ∧
    (∃ (s : State) (a : Nat) (g : FRef), ∀ l f, regFields a = some l → f ∈ l →
    f.acc = .rw ∨ f.acc = .w1c ∨ (f.acc = .lk ∧ s.dev.mode = .recovery) → g.key ≠ a * 32 + f.lo) ∧
    (∃ (s : State) (a : Nat) (v : Nat), s.wordBad a v = true) ∧
    (∃ (s : State) (a v : Nat) (l : List FieldRow) (f : FieldRow), regFields a = some l ∧ f ∈ l ∧ f.acc = .lk ∧ s.dev.mode = .recovery ∧ s.wordBad a v = false) :=
  ⟨⟨State.reset, 0x0400, 0x08000101, [⟨16, 12, .rw, 256, 16, 2048⟩, ⟨8, 8, .rw, 16, 1, 255⟩, ⟨4, 3, .rw, 1, 0, 7⟩, ⟨1, 1, .rw, 0, 0, 1⟩, ⟨0, 1, .rw, 1, 0, 1⟩],
    ⟨16, 12, .rw, 256, 16, 2048⟩, by decide +kernel⟩,
   ⟨State.reset, 0x1414, 0xFFF, [⟨0, 12, .w1c, 0, 0, 4095⟩], ⟨0, 12, .w1c, 0, 0, 4095⟩, by decide +kernel⟩,
   ⟨State.reset, 0x1414, F.SYS_RESET_CAUSE_PIN, fun l f h hf _ => (by decide +kernel : ∀ f ∈ (regFields 0x1414).getD [], F.SYS_RESET_CAUSE_PIN.key ≠ 0x1414 * 32 + f.lo) f (by rw [h]; exact hf)⟩,
   ⟨(at_ .run [] : State), 0x0400, 0, by decide +kernel⟩,
   ⟨at_ .recovery [], 0x1400, 0x140A04, [⟨16, 9, .rw, 20, 1, 500⟩, ⟨8, 8, .rw, 10, 0, 255⟩, ⟨3, 1, .rw, 0, 0, 1⟩, ⟨2, 1, .lk, 0, 0, 1⟩, ⟨1, 1, .rw, 0, 0, 1⟩],
    ⟨2, 1, .lk, 0, 0, 1⟩, by decide +kernel⟩⟩

theorem witness_SequencerTakesRequests :
    (∃ (rising : Bool) (s : State), (s.dev.mode = .run ∨ s.dev.mode = .park ∨ s.dev.mode = .recovery) ∧ s.flag F.SEQ_CFG_ON_MODE = false ∧ s.flag F.SEQ_CFG_SAT_MODE = false ∧ s.seq.queue.length < 8 ∧ s.seq.qwait = [] ∧ s.injects 8 = false) ∧
    (∃ (rising : Bool) (s : State), s.dev.mode = .boot) ∧
    (∃ (rising : Bool) (s : State), (s.dev.mode = .black ∨ s.dev.mode = .off ∨ s.dev.mode = .hibernate ∨ s.flag F.SEQ_CFG_ON_MODE = true ∨ s.flag F.SEQ_CFG_SAT_MODE = true) ∧ s.dev.mode ≠ .boot) ∧
    (∃ (s : State), s.writeOk 0x1404 = true ∧ s.seq.queue.length < 8 ∧ s.seq.qwait = [] ∧ s.injects 8 = false ∧ s.injects 4 = false) ∧
    (∃ (s : State), s.writeOk 0x1404 = true ∧ s.seq.queue.length < 8 ∧ s.seq.qwait = [] ∧ s.injects 8 = false ∧ s.injects 4 = false) ∧
    (∃ (p : Fin 4) (s : State), s.writeOk 0x1404 = true ∧ s.seq.queue.length < 8 ∧ s.seq.qwait = [] ∧ s.injects 8 = false ∧ s.injects 4 = false) ∧
    (∃ (s : State) (code : Nat) (f : Option Nat), (8 ≤ s.seq.queue.length ∨ s.seq.qwait ≠ [])) ∧
    (∃ (s : State), s.writeOk 0x1404 = true ∧ (8 ≤ s.seq.queue.length ∨ s.seq.qwait ≠ []) ∧ s.injects 4 = false) ∧
    (∃ (s : State), s.writeOk 0x1404 = true ∧ (8 ≤ s.seq.queue.length ∨ s.seq.qwait ≠ []) ∧ s.injects 4 = false) ∧
    (∃ (p : Fin 4) (s : State), s.writeOk 0x1404 = true ∧ (8 ≤ s.seq.queue.length ∨ s.seq.qwait ≠ []) ∧ s.injects 4 = false) ∧
    (∃ (s : State) (code : Nat) (f : Option Nat) (r : List (Nat × Option Nat)), s.coreRuns = true ∧ s.seq.queue = (code, f) :: r) ∧
    (∃ (s : State) (p : Nat) (r : List (Nat × Option Nat)), s.coreRuns = true ∧ s.seq.queue = (0x10 + p, none) :: r ∧ 4 ≤ p ∧ s.phase ≠ 9 ∧ s.pmidGoing = false ∧ s.bitF F.SEQ_STAT_START (p - 4) = false) ∧
    (∃ (s : State) (p : Nat), s.absorbs p = true) ∧
    (∃ (s : State) (p : Nat), s.absorbs p = false ∧ s.seq.masterOff = true ∧ s.get F.SEQ_STAT_PEND = 2) ∧
    (∃ (s : State), s.get F.SEQ_STAT_PEND = 0 ∧ (s.phase = 1 ∨ s.phase = 2 ∨ s.phase = 5)) ∧
    (∃ (s : State), s.get F.SEQ_STAT_PEND = 0 ∧ (s.phase = 0 ∨ s.phase = 3 ∨ s.phase = 4)) ∧
    (∃ (s : State), s.get F.SEQ_STAT_PEND = 0 ∧ (s.phase = 6 ∨ s.phase = 7)) ∧
    (∃ (s : State) (p : Nat), s.progRuns = true ∧ s.phase ≠ 5 ∧ s.get F.SEQ_STAT_PEND ≠ 0 ∧ 1 ≤ p ∧ p ≤ 4 ∧ s.seq.masterOff = false ∧ s.seq.stage = .fetched ∧ s.seq.shut = none ∧ s.seq.failQueue = [] ∧ s.seq.failAct = false ∧ s.seq.pmidShut = false) :=
  ⟨⟨false, ({ at_ .run [(F.SEQ_CFG_ON_MODE, 0), (F.SEQ_CFG_SAT_MODE, 0)] with seq := { (at_ .run [(F.SEQ_CFG_ON_MODE, 0), (F.SEQ_CFG_SAT_MODE, 0)]).seq with qwait := [] } } : State), by decide +kernel⟩,
   ⟨false, (at_ .boot [] : State), by decide +kernel⟩,
   ⟨false, (at_ .black [] : State), by decide +kernel⟩,
   ⟨({ at_ .run [] with seq := { (at_ .run []).seq with qwait := [] } } : State), by decide +kernel⟩,
   ⟨({ at_ .run [] with seq := { (at_ .run []).seq with qwait := [] } } : State), by decide +kernel⟩,
   ⟨0, ({ at_ .run [] with seq := { (at_ .run []).seq with qwait := [] } } : State), by decide +kernel⟩,
   ⟨({ at_ .run [] with seq := { (at_ .run []).seq with qwait := [(0, none)] } } : State), 0, none, by decide +kernel⟩,
   ⟨({ at_ .run [] with seq := { (at_ .run []).seq with qwait := [(0, none)] } } : State), by decide +kernel⟩,
   ⟨({ at_ .run [] with seq := { (at_ .run []).seq with qwait := [(0, none)] } } : State), by decide +kernel⟩,
   ⟨0, ({ at_ .run [] with seq := { (at_ .run []).seq with qwait := [(0, none)] } } : State), by decide +kernel⟩,
   ⟨({ at_ .run [] with seq := { (at_ .run []).seq with queue := ((0 : Nat), (none : Option Nat)) :: ([] : List (Nat × Option Nat)) } } : State), 0, none, [], by decide +kernel⟩,
   ⟨({ at_ .run [(F.SEQ_STAT_PHASE, 1)] with seq := { (at_ .run [(F.SEQ_STAT_PHASE, 1)]).seq with queue := [(20, none)] } } : State), 4, [], by decide +kernel⟩,
   ⟨(at_ .run [(F.SEQ_STAT_PHASE, 1)] : State), 1, by decide +kernel⟩,
   ⟨({ at_ .run [(F.SEQ_STAT_PEND, 2)] with seq := { (at_ .run [(F.SEQ_STAT_PEND, 2)]).seq with masterOff := true } } : State), 0, by decide +kernel⟩,
   ⟨(at_ .run [(F.SEQ_STAT_PEND, 0), (F.SEQ_STAT_PHASE, 1)] : State), by decide +kernel⟩,
   ⟨(at_ .run [(F.SEQ_STAT_PEND, 0), (F.SEQ_STAT_PHASE, 0)] : State), by decide +kernel⟩,
   ⟨(at_ .run [(F.SEQ_STAT_PEND, 0), (F.SEQ_STAT_PHASE, 6)] : State), by decide +kernel⟩,
   ⟨({ at_ .run [(F.SEQ_STAT_RUN, 1), (F.SEQ_STAT_PEND, 1)] with seq := { (at_ .run [(F.SEQ_STAT_RUN, 1), (F.SEQ_STAT_PEND, 1)]).seq with masterOff := false, stage := .fetched, shut := none, failQueue := [], failAct := false, pmidShut := false } } : State), 1, by decide +kernel⟩⟩

theorem witness_SequencerTakesRequests_more :
    (∃ (s : State) (p : Nat), 4 ≤ p ∧ p < 8 ∧ s.bitF F.SEQ_STAT_START (p - 4) = false) ∧
    (∃ (s : State) (p : Nat), (p < 4 ∨ s.bitF F.SEQ_STAT_START (p - 4) = true)) :=
  ⟨⟨(at_ .run [] : State), 4, by decide +kernel⟩,
   ⟨(at_ .run [] : State), 0, by decide +kernel⟩⟩

theorem witness_SequencerSteps :
    (∃ (vos : List Nat) (s : State), s.runs 1 = true ∧ s.operand = 12) ∧
    (∃ (vos : List Nat) (s : State), s.runs 1 = true ∧ s.operand < 12 ∧ ((s.dom s.operand).st = .on ∨ (s.dom s.operand).st = .ramp)) ∧
    (∃ (vos : List Nat) (s : State), s.runs 1 = true ∧ s.operand < 12 ∧ ((s.dom s.operand).st = .off ∨ (s.dom s.operand).st = .stopping) ∧ ((∀ k : Nat, k < 12 → s.reaches s.operand k = true → (s.dom k).st ≠ .failed)) ∧ ((∀ k : Nat, k < 12 → s.depends s.operand k = true → (s.dom k).st = .on))) ∧
    (∃ (vos : List Nat) (k : Nat) (s : State), s.runs 1 = true ∧ s.operand < 12 ∧ ((s.dom s.operand).st = .off ∨ (s.dom s.operand).st = .stopping) ∧ ((∀ j : Nat, j < 12 → s.reaches s.operand j = true → (s.dom j).st ≠ .failed)) ∧ k < 12 ∧ s.depends s.operand k = true ∧ (s.dom k).st ≠ .on) ∧
    (∃ (s : State), s.runs 2 = true ∧ s.operand = 12) ∧
    (∃ (s : State), s.runs 2 = true ∧ s.operand < 12 ∧ ((s.dom s.operand).st = .off ∨ (s.dom s.operand).st = .failed)) ∧
    (∃ (s : State), s.runs 2 = true ∧ s.operand < 12 ∧ ((s.dom s.operand).st = .on ∨ (s.dom s.operand).st = .ramp) ∧ ((s.dependants s.operand).filter fun m => s.domEnabled m) = [] ∧ s.get F.SEQ_STAT_PROG ≠ 1) ∧
    (∃ (s : State), s.runs 2 = true ∧ s.operand < 12 ∧ ((s.dom s.operand).st = .on ∨ (s.dom s.operand).st = .ramp) ∧ ((s.dependants s.operand).filter fun m => s.domEnabled m) = [] ∧ s.get F.SEQ_STAT_PROG = 1) ∧
    (∃ (s : State), s.runs 3 = true) ∧
    (∃ (s : State), s.seqOn = true ∧ s.progRuns = true ∧ s.seq.stage = .waiting ∧ s.seq.shut = none) ∧
    (∃ (s : State), s.runs 4 = true ∧ ((s.dom s.operand).st = .ramp ∨ (s.dom s.operand).st = .on ∨ (s.dom s.operand).st = .stopping)) ∧
    (∃ (s : State), s.runs 4 = true ∧ (s.dom s.operand).st = .failed) ∧
    (∃ (t : Nat) (s : State), s.seqOn = true ∧ s.progRuns = true ∧ s.seq.stage = .checking ∧ s.seq.shut = none ∧ s.checkOff = false ∧ s.passIn = some t ∧ s.domEnabled s.operand = true) ∧
    (∃ (t : Nat) (s : State), s.seqOn = true ∧ s.progRuns = true ∧ s.seq.stage = .checking ∧ s.seq.shut = none ∧ s.checkOff = true ∧ s.passIn = some t) ∧
    (∃ (s : State), s.seqOn = true ∧ s.progRuns = true ∧ s.seq.stage = .checking ∧ s.seq.shut = none ∧ s.passIn = none ∧ s.checkOff = false) ∧
    (∃ (s : State), s.runs 5 = true ∧ s.jumps = true) ∧
    (∃ (s : State), s.runs 5 = true ∧ s.jumps = false) ∧
    (∃ (s : State), s.runs 7 = true ∧ s.get F.SEQ_STAT_PROG ≠ 0 ∧ bitOf s.seq.word 8 = false) :=
  ⟨⟨[], ({ at_ .run [(F.SEQ_STAT_RUN, 1)] with seq := { (at_ .run [(F.SEQ_STAT_RUN, 1)]).seq with stage := .fetched, word := (1 * 2 ^ 28 + 12 * 2 ^ 24) } } : State), by decide +kernel⟩,
   ⟨[], (dom_ ({ at_ .run [(F.SEQ_STAT_RUN, 1)] with seq := { (at_ .run [(F.SEQ_STAT_RUN, 1)]).seq with stage := .fetched, word := (1 * 2 ^ 28 + 0) } }) 0 .on false false : State), by decide +kernel⟩,
   ⟨[], ({ at_ .run [(F.SEQ_STAT_RUN, 1)] with seq := { (at_ .run [(F.SEQ_STAT_RUN, 1)]).seq with stage := .fetched, word := (1 * 2 ^ 28 + 0) } } : State), by decide +kernel⟩,
   ⟨[], 1, ({ at_ .run [(F.SEQ_STAT_RUN, 1), (F.SEQ_DOM_CFG_DEP 0, 2)] with seq := { (at_ .run [(F.SEQ_STAT_RUN, 1), (F.SEQ_DOM_CFG_DEP 0, 2)]).seq with stage := .fetched, word := (1 * 2 ^ 28 + 0) } } : State), by decide +kernel⟩,
   ⟨({ at_ .run [(F.SEQ_STAT_RUN, 1)] with seq := { (at_ .run [(F.SEQ_STAT_RUN, 1)]).seq with stage := .fetched, word := (2 * 2 ^ 28 + 12 * 2 ^ 24) } } : State), by decide +kernel⟩,
   ⟨({ at_ .run [(F.SEQ_STAT_RUN, 1)] with seq := { (at_ .run [(F.SEQ_STAT_RUN, 1)]).seq with stage := .fetched, word := (2 * 2 ^ 28 + 0) } } : State), by decide +kernel⟩,
   ⟨(dom_ ({ at_ .run [(F.SEQ_STAT_RUN, 1)] with seq := { (at_ .run [(F.SEQ_STAT_RUN, 1)]).seq with stage := .fetched, word := (2 * 2 ^ 28 + 0) } }) 0 .on false false : State), by decide +kernel⟩,
   ⟨(dom_ ({ at_ .run [(F.SEQ_STAT_PROG, 1), (F.SEQ_STAT_RUN, 1)] with seq := { (at_ .run [(F.SEQ_STAT_PROG, 1), (F.SEQ_STAT_RUN, 1)]).seq with stage := .fetched, word := (2 * 2 ^ 28 + 0) } }) 0 .on false false : State), by decide +kernel⟩,
   ⟨({ at_ .run [(F.SEQ_STAT_RUN, 1)] with seq := { (at_ .run [(F.SEQ_STAT_RUN, 1)]).seq with stage := .fetched, word := (3 * 2 ^ 28 + 0) } } : State), by decide +kernel⟩,
   ⟨({ at_ .run [(F.SEQ_STAT_RUN, 1)] with seq := { (at_ .run [(F.SEQ_STAT_RUN, 1)]).seq with stage := .waiting, shut := none } } : State), by decide +kernel⟩,
   ⟨(dom_ ({ at_ .run [(F.SEQ_STAT_RUN, 1)] with seq := { (at_ .run [(F.SEQ_STAT_RUN, 1)]).seq with stage := .fetched, word := (4 * 2 ^ 28 + 0) } }) 0 .ramp false false : State), by decide +kernel⟩,
   ⟨(dom_ ({ at_ .run [(F.SEQ_STAT_RUN, 1)] with seq := { (at_ .run [(F.SEQ_STAT_RUN, 1)]).seq with stage := .fetched, word := (4 * 2 ^ 28 + 0) } }) 0 .failed false false : State), by decide +kernel⟩,
   ⟨(((dom_ ({ at_ .run [(F.SEQ_STAT_RUN, 1), (F.SEQ_STAT_RUN, 1), (F.SEQ_DOM_STATE_EN, 1)] with seq := { (at_ .run [(F.SEQ_STAT_RUN, 1), (F.SEQ_STAT_RUN, 1), (F.SEQ_DOM_STATE_EN, 1)]).seq with stage := .checking, shut := none, word := (4 * 2 ^ 28 + 1023) } }) 0 .ramp true true : State)).passIn.getD 0), (dom_ ({ at_ .run [(F.SEQ_STAT_RUN, 1), (F.SEQ_STAT_RUN, 1), (F.SEQ_DOM_STATE_EN, 1)] with seq := { (at_ .run [(F.SEQ_STAT_RUN, 1), (F.SEQ_STAT_RUN, 1), (F.SEQ_DOM_STATE_EN, 1)]).seq with stage := .checking, shut := none, word := (4 * 2 ^ 28 + 1023) } }) 0 .ramp true true : State), by decide +kernel⟩,
   ⟨(((dom_ ({ at_ .run [(F.SEQ_STAT_RUN, 1), (F.SEQ_STAT_RUN, 1)] with seq := { (at_ .run [(F.SEQ_STAT_RUN, 1), (F.SEQ_STAT_RUN, 1)]).seq with stage := .checking, shut := none, word := (4 * 2 ^ 28 + 2 ^ 21 + 1023) } }) 0 .off false false : State)).passIn.getD 0), (dom_ ({ at_ .run [(F.SEQ_STAT_RUN, 1), (F.SEQ_STAT_RUN, 1)] with seq := { (at_ .run [(F.SEQ_STAT_RUN, 1), (F.SEQ_STAT_RUN, 1)]).seq with stage := .checking, shut := none, word := (4 * 2 ^ 28 + 2 ^ 21 + 1023) } }) 0 .off false false : State), by decide +kernel⟩,
   ⟨({ at_ .run [(F.SEQ_STAT_RUN, 1)] with seq := { (at_ .run [(F.SEQ_STAT_RUN, 1)]).seq with stage := .checking, shut := none } } : State), by decide +kernel⟩,
   ⟨({ at_ .run [(F.SEQ_STAT_RUN, 1)] with seq := { (at_ .run [(F.SEQ_STAT_RUN, 1)]).seq with stage := .fetched, word := (5 * 2 ^ 28 + 0) } } : State), by decide +kernel⟩,
   ⟨({ at_ .run [(F.SEQ_STAT_RUN, 1)] with seq := { (at_ .run [(F.SEQ_STAT_RUN, 1)]).seq with stage := .fetched, word := (5 * 2 ^ 28 + 2 ^ 24) } } : State), by decide +kernel⟩,
   ⟨({ at_ .run [(F.SEQ_STAT_PROG, 1), (F.SEQ_STAT_RUN, 1), (F.SEQ_STAT_PROG, 1)] with seq := { (at_ .run [(F.SEQ_STAT_PROG, 1), (F.SEQ_STAT_RUN, 1), (F.SEQ_STAT_PROG, 1)]).seq with stage := .fetched, word := (7 * 2 ^ 28 + 0) } } : State), by decide +kernel⟩⟩

theorem witness_SequencerSteps_more :
    (∃ (s : State), s.runs 7 = true ∧ s.get F.SEQ_STAT_PROG = 0 ∧ bitOf s.seq.word 8 = true) ∧
    (∃ (a : Nat) (d : Nat) (p : List Byte) (s : State), s.runs 6 = true ∧ bitOf s.seq.word 27 = false ∧ (s.dom d).st = .on ∧ s.get (F.TWB_SAT_STAT_STATE (bits s.seq.word 24 3)) ≠ 2 ∧ s.satCfg (bits s.seq.word 24 3) = some (a, d, p) ∧ s.twc.queue.length < 8 ∧ s.twc.waiting = []) ∧
    (∃ (s : State), s.runs 0 = true) ∧
    (∃ (s : State), s.sampleDue = true ∧ s.seq.pmidShut = false ∧ s.get F.SEQ_STAT_PEND = 0) ∧
    (∃ (s : State), s.sampleDue = true ∧ s.seq.pmidShut = true ∧ s.phase = 4) ∧
    (∃ (s : State), s.injCheck 6 s.nextWord = s ∧ s.sampleDue = true) ∧
    (∃ (s : State), s.sampleDue = true ∧ s.seq.pmidShut = false ∧ s.phase = 1 ∧ (s.get F.SEQ_STAT_PEND = 2 ∨ s.get F.SEQ_STAT_PEND = 4)) ∧
    (∃ (s : State), s.sampleDue = true ∧ s.seq.pmidShut = false ∧ s.phase ≠ 1 ∧ 4 ≤ s.get F.SEQ_STAT_PROG ∧ s.get F.SEQ_STAT_PEND ≠ 0) ∧
    (∃ (s : State), s.seqOn = true ∧ s.progRuns = true ∧ s.seq.stage = .ended ∧ s.seq.shut = none ∧ 256 ≤ s.seq.steps ∧ ((s.set F.SEQ_FLAGS_RUNAWAY 1).raise 22 (s.get F.SEQ_STAT_PROG)).progRuns = true) ∧
    (∃ (s : State), s.runs 2 = true ∧ s.operand < 12 ∧ (s.dom s.operand).st ≠ .off ∧ (s.dom s.operand).st ≠ .failed ∧ (((s.dependants s.operand).filter fun m => s.domEnabled m)) ≠ []) ∧
    (∃ (s : State), s.runs 2 = true ∧ s.operand < 12 ∧ (s.dom s.operand).st = .stopping ∧ ((s.dependants s.operand).filter fun m => s.domEnabled m) = []) ∧
    (∃ (s : State), s.runs 4 = true ∧ (s.dom s.operand).st = .off ∧ (s.dom s.operand).skipped = true) ∧
    (∃ (s : State), s.runs 4 = true ∧ (s.dom s.operand).st = .off ∧ s.checkOff = true ∧ s.get F.SEQ_STAT_PROG = 1 ∧ bitOf s.seq.downMask s.operand = false) ∧
    (∃ (s : State), s.runs 4 = true ∧ (s.dom s.operand).st = .off ∧ (s.dom s.operand).skipped = false ∧ (s.checkOff = false ∨ s.get F.SEQ_STAT_PROG ≠ 1 ∨ bitOf s.seq.downMask s.operand = true)) ∧
    (∃ (t : Nat) (s : State), s.seqOn = true ∧ s.progRuns = true ∧ s.seq.stage = .checking ∧ s.seq.shut = none ∧ s.checkOff = false ∧ s.passIn = some t ∧ s.domEnabled s.operand = false) ∧
    (∃ (s : State), s.seqOn = true ∧ s.progRuns = true ∧ s.seq.stage = .checking ∧ s.seq.shut = none ∧ s.passIn = none ∧ s.checkOff = true) ∧
    (∃ (d : Nat) (s : State), s.runs 6 = true ∧ s.satDomain (bits s.seq.word 24 3) = some d ∧ (s.dom d).st ≠ .on) ∧
    (∃ (d : Nat) (s : State), s.runs 6 = true ∧ s.satDomain (bits s.seq.word 24 3) = some d ∧ (s.dom d).st = .on ∧
    s.get (F.TWB_SAT_STAT_STATE (bits s.seq.word 24 3)) = 2) :=
  ⟨⟨({ at_ .run [(F.SEQ_STAT_PROG, 0), (F.SEQ_STAT_RUN, 1)] with seq := { (at_ .run [(F.SEQ_STAT_PROG, 0), (F.SEQ_STAT_RUN, 1)]).seq with stage := .fetched, word := (7 * 2 ^ 28 + 256) } } : State), by decide +kernel⟩,
   ⟨0x20, 0, [], (sat_ (dom_ ({ at_ .run [(F.SEQ_STAT_RUN, 1)] with twc := { (at_ .run [(F.SEQ_STAT_RUN, 1)]).twc with waiting := [] }, seq := { (at_ .run [(F.SEQ_STAT_RUN, 1)]).seq with stage := .fetched, word := (6 * 2 ^ 28 + 0) } }) 0 .on true true) 0 0x20 0 : State), by decide +kernel⟩,
   ⟨({ at_ .run [(F.SEQ_STAT_RUN, 1)] with seq := { (at_ .run [(F.SEQ_STAT_RUN, 1)]).seq with stage := .fetched, word := (0 * 2 ^ 28 + 0) } } : State), by decide +kernel⟩,
   ⟨({ at_ .run [(F.SEQ_STAT_PEND, 0), (F.SEQ_STAT_RUN, 1)] with seq := { (at_ .run [(F.SEQ_STAT_PEND, 0), (F.SEQ_STAT_RUN, 1)]).seq with pmidShut := false, stage := .ended } } : State), by decide +kernel⟩,
   ⟨({ at_ .run [(F.SEQ_STAT_PHASE, 4), (F.SEQ_STAT_RUN, 1)] with seq := { (at_ .run [(F.SEQ_STAT_PHASE, 4), (F.SEQ_STAT_RUN, 1)]).seq with pmidShut := true, stage := .ended } } : State), by decide +kernel⟩,
   ⟨({ at_ .run [(F.SEQ_STAT_RUN, 1)] with seq := { (at_ .run [(F.SEQ_STAT_RUN, 1)]).seq with stage := .ended } } : State), by decide +kernel⟩,
   ⟨({ at_ .run [(F.SEQ_STAT_PHASE, 1), (F.SEQ_STAT_PEND, 2), (F.SEQ_STAT_RUN, 1)] with seq := { (at_ .run [(F.SEQ_STAT_PHASE, 1), (F.SEQ_STAT_PEND, 2), (F.SEQ_STAT_RUN, 1)]).seq with pmidShut := false, stage := .ended } } : State), by decide +kernel⟩,
   ⟨({ at_ .run [(F.SEQ_STAT_PEND, 1), (F.SEQ_STAT_RUN, 1), (F.SEQ_STAT_PROG, 4)] with seq := { (at_ .run [(F.SEQ_STAT_PEND, 1), (F.SEQ_STAT_RUN, 1), (F.SEQ_STAT_PROG, 4)]).seq with pmidShut := false, stage := .ended } } : State), by decide +kernel⟩,
   ⟨({ at_ .run [(F.SEQ_STAT_RUN, 1), (F.SEQ_STAT_RUN, 1)] with seq := { (at_ .run [(F.SEQ_STAT_RUN, 1), (F.SEQ_STAT_RUN, 1)]).seq with stage := .ended, shut := none, steps := 256 } } : State), by decide +kernel⟩,
   ⟨(dom_ (dom_ ({ at_ .run [(F.SEQ_STAT_RUN, 1), (F.SEQ_DOM_CFG_DEP 1, 1), (F.SEQ_DOM_STATE_EN, 3)] with seq := { (at_ .run [(F.SEQ_STAT_RUN, 1), (F.SEQ_DOM_CFG_DEP 1, 1), (F.SEQ_DOM_STATE_EN, 3)]).seq with stage := .fetched, word := (2 * 2 ^ 28 + 0) } }) 0 .on true true) 1 .on true true : State), by decide +kernel⟩,
   ⟨(dom_ ({ at_ .run [(F.SEQ_STAT_RUN, 1)] with seq := { (at_ .run [(F.SEQ_STAT_RUN, 1)]).seq with stage := .fetched, word := (2 * 2 ^ 28 + 0) } }) 0 .stopping true true : State), by decide +kernel⟩,
   ⟨((({ at_ .run [(F.SEQ_STAT_RUN, 1)] with seq := { (at_ .run [(F.SEQ_STAT_RUN, 1)]).seq with stage := .fetched, word := (4 * 2 ^ 28 + 0) } })).setDom 0 { (({ at_ .run [(F.SEQ_STAT_RUN, 1)] with seq := { (at_ .run [(F.SEQ_STAT_RUN, 1)]).seq with stage := .fetched, word := (4 * 2 ^ 28 + 0) } })).dom 0 with skipped := true } : State), by decide +kernel⟩,
   ⟨({ at_ .run [(F.SEQ_STAT_PROG, 1), (F.SEQ_STAT_RUN, 1)] with seq := { (at_ .run [(F.SEQ_STAT_PROG, 1), (F.SEQ_STAT_RUN, 1)]).seq with stage := .fetched, word := (4 * 2 ^ 28 + 2 ^ 21) } } : State), by decide +kernel⟩,
   ⟨({ at_ .run [(F.SEQ_STAT_RUN, 1)] with seq := { (at_ .run [(F.SEQ_STAT_RUN, 1)]).seq with stage := .fetched, word := (4 * 2 ^ 28 + 0) } } : State), by decide +kernel⟩,
   ⟨(((dom_ ({ at_ .run [(F.SEQ_STAT_RUN, 1), (F.SEQ_STAT_RUN, 1)] with seq := { (at_ .run [(F.SEQ_STAT_RUN, 1), (F.SEQ_STAT_RUN, 1)]).seq with stage := .checking, shut := none, word := (4 * 2 ^ 28 + 1023) } }) 0 .ramp true true : State)).passIn.getD 0), (dom_ ({ at_ .run [(F.SEQ_STAT_RUN, 1), (F.SEQ_STAT_RUN, 1)] with seq := { (at_ .run [(F.SEQ_STAT_RUN, 1), (F.SEQ_STAT_RUN, 1)]).seq with stage := .checking, shut := none, word := (4 * 2 ^ 28 + 1023) } }) 0 .ramp true true : State), by decide +kernel⟩,
   ⟨(dom_ ({ at_ .run [(F.SEQ_STAT_RUN, 1), (F.SEQ_STAT_RUN, 1)] with seq := { (at_ .run [(F.SEQ_STAT_RUN, 1), (F.SEQ_STAT_RUN, 1)]).seq with stage := .checking, shut := none, word := (4 * 2 ^ 28 + 2 ^ 21 + 1023) } }) 0 .off true true : State), by decide +kernel⟩,
   ⟨0, (sat_ ({ at_ .run [(F.SEQ_STAT_RUN, 1)] with seq := { (at_ .run [(F.SEQ_STAT_RUN, 1)]).seq with stage := .fetched, word := (6 * 2 ^ 28 + 0) } }) 0 0x20 0 : State), by decide +kernel⟩,
   ⟨0, (sat_ (dom_ ({ at_ .run [(F.SEQ_STAT_RUN, 1), (F.TWB_SAT_STAT_STATE 0, 2)] with seq := { (at_ .run [(F.SEQ_STAT_RUN, 1), (F.TWB_SAT_STAT_STATE 0, 2)]).seq with stage := .fetched, word := 6 * 2 ^ 28 } }) 0 .on true true) 0 0x20 0),
    by decide +kernel⟩⟩

theorem witness_SequencerSteps_more2 :
    (∃ (a : Nat) (d : Nat) (p : List Byte) (s : State), s.runs 6 = true ∧ (s.dom d).st = .on ∧ s.get (F.TWB_SAT_STAT_STATE (bits s.seq.word 24 3)) ≠ 2 ∧ s.satCfg (bits s.seq.word 24 3) = some (a, d, p) ∧ (bitOf s.seq.word 27 = true ∨ 8 ≤ s.twc.queue.length ∨ s.twc.waiting ≠ [])) ∧
    (∃ (s : State), s.runs 7 = true ∧ s.get F.SEQ_STAT_PROG = 0 ∧ bitOf s.seq.word 8 = false) ∧
    (∃ (s : State), s.runs 7 = true ∧ s.get F.SEQ_STAT_PROG ≠ 0 ∧ bitOf s.seq.word 8 = true) ∧
    (∃ (s : State), s.sampleDue = true ∧ s.seq.pmidShut = true ∧ s.phase ≠ 4) ∧
    (∃ (s : State), s.seqOn = true ∧ s.progRuns = true ∧ s.seq.stage = .ended ∧ s.seq.shut = none ∧ 256 ≤ s.seq.steps ∧ ((s.set F.SEQ_FLAGS_RUNAWAY 1).raise 22 (s.get F.SEQ_STAT_PROG)).progRuns = false) :=
  ⟨⟨0x20, 0, [], (sat_ (dom_ ({ at_ .run [(F.SEQ_STAT_RUN, 1)] with seq := { (at_ .run [(F.SEQ_STAT_RUN, 1)]).seq with stage := .fetched, word := (6 * 2 ^ 28 + 2 ^ 27) } }) 0 .on true true) 0 0x20 0 : State), by decide +kernel⟩,
   ⟨({ at_ .run [(F.SEQ_STAT_PROG, 0), (F.SEQ_STAT_RUN, 1)] with seq := { (at_ .run [(F.SEQ_STAT_PROG, 0), (F.SEQ_STAT_RUN, 1)]).seq with stage := .fetched, word := (7 * 2 ^ 28 + 0) } } : State), by decide +kernel⟩,
   ⟨({ at_ .run [(F.SEQ_STAT_PROG, 1), (F.SEQ_STAT_RUN, 1)] with seq := { (at_ .run [(F.SEQ_STAT_PROG, 1), (F.SEQ_STAT_RUN, 1)]).seq with stage := .fetched, word := (7 * 2 ^ 28 + 256) } } : State), by decide +kernel⟩,
   ⟨({ at_ .run [(F.SEQ_STAT_RUN, 1)] with seq := { (at_ .run [(F.SEQ_STAT_RUN, 1)]).seq with pmidShut := true, stage := .ended } } : State), by decide +kernel⟩,
   ⟨({ at_ .run [(F.SEQ_STAT_RUN, 1), (F.SEQ_STAT_RUN, 1), (cfgColourField 22, 3)] with seq := { (at_ .run [(F.SEQ_STAT_RUN, 1), (F.SEQ_STAT_RUN, 1), (cfgColourField 22, 3)]).seq with stage := .ended, shut := none, steps := 256 } } : State), by decide +kernel⟩⟩

theorem witness_ProgramsStart :
    (∃ (s : State), s.seqOn = true ∧ s.phase = 3 ∧ s.anyRamp = false ∧ s.seq.shut = none) ∧
    (∃ (t : Nat) (s : State), s.dev.mode = .run ∧ s.phase = 5 ∧ s.dwellEnd = some t ∧ s.get F.SEQ_STAT_PEND = 0) ∧
    (∃ (s : State), s.dev.mode = .run ∧ s.phase = 5 ∧ s.dwellEnd = none ∧ s.get F.SEQ_STAT_PEND ≠ 0) ∧
    (∃ (k : Nat) (s : State), s.dev.mode = .run ∧ (s.phase = 0 ∨ s.phase = 2) ∧ s.progRuns = false ∧ s.get F.SEQ_STAT_PEND = 0 ∧ s.seq.shut = none ∧ k < 4 ∧ s.bitF F.SEQ_STAT_START k = true ∧ ((∀ j, j < k → s.bitF F.SEQ_STAT_START j = false)) ∧ s.get (F.SEQ_PROG_LEN (k + 4)) ≠ 0) ∧
    (∃ (k : Nat) (s : State), s.dev.mode = .run ∧ (s.phase = 0 ∨ s.phase = 2) ∧ s.progRuns = false ∧ s.get F.SEQ_STAT_PEND = 0 ∧ s.seq.shut = none ∧ k < 4 ∧ s.bitF F.SEQ_STAT_START k = true ∧ ((∀ j, j < k → s.bitF F.SEQ_STAT_START j = false)) ∧ s.get (F.SEQ_PROG_LEN (k + 4)) = 0) ∧
    (∃ (t : Nat) (s : State), s.dev.mode = .run ∧ s.phase = 5 ∧ s.dwellEnd = some t ∧ s.get F.SEQ_STAT_PEND ≠ 0) ∧
    (∃ (s : State), s.dev.mode = .run ∧ s.phase = 5 ∧ s.dwellEnd = none ∧ s.get F.SEQ_STAT_PEND = 0) ∧
    (∃ (s : State), (s.progRuns = true ∨ s.get F.SEQ_STAT_PEND ≠ 0)) :=
  ⟨⟨({ at_ .run [(F.SEQ_STAT_PHASE, 3)] with seq := { (at_ .run [(F.SEQ_STAT_PHASE, 3)]).seq with shut := none } } : State), by decide +kernel⟩,
   ⟨3277, ({ at_ .run [(F.SEQ_STAT_PHASE, 5), (F.SEQ_STAT_PEND, 0), (F.SEQ_CFG_TOFF_MIN, 100)] with seq := { (at_ .run [(F.SEQ_STAT_PHASE, 5), (F.SEQ_STAT_PEND, 0), (F.SEQ_CFG_TOFF_MIN, 100)]).seq with downAt := some 0 } } : State), by decide +kernel⟩,
   ⟨(at_ .run [(F.SEQ_STAT_PHASE, 5), (F.SEQ_STAT_PEND, 1)] : State), by decide +kernel⟩,
   ⟨0, ({ at_ .run [(F.SEQ_STAT_PHASE, 0), (F.SEQ_STAT_RUN, 0), (F.SEQ_STAT_PEND, 0), (F.SEQ_STAT_START, (2 ^ ((0 : Nat) : Nat))), ((F.SEQ_PROG_LEN ((0 : Nat) + 4)), 1)] with seq := { (at_ .run [(F.SEQ_STAT_PHASE, 0), (F.SEQ_STAT_RUN, 0), (F.SEQ_STAT_PEND, 0), (F.SEQ_STAT_START, (2 ^ ((0 : Nat) : Nat))), ((F.SEQ_PROG_LEN ((0 : Nat) + 4)), 1)]).seq with shut := none } } : State), by decide +kernel⟩,
   ⟨0, ({ at_ .run [(F.SEQ_STAT_PHASE, 0), (F.SEQ_STAT_RUN, 0), (F.SEQ_STAT_PEND, 0), (F.SEQ_STAT_START, (2 ^ ((0 : Nat) : Nat))), ((F.SEQ_PROG_LEN ((0 : Nat) + 4)), 0)] with seq := { (at_ .run [(F.SEQ_STAT_PHASE, 0), (F.SEQ_STAT_RUN, 0), (F.SEQ_STAT_PEND, 0), (F.SEQ_STAT_START, (2 ^ ((0 : Nat) : Nat))), ((F.SEQ_PROG_LEN ((0 : Nat) + 4)), 0)]).seq with shut := none } } : State), by decide +kernel⟩,
   ⟨3277, ({ at_ .run [(F.SEQ_STAT_PHASE, 5), (F.SEQ_STAT_PEND, 1), (F.SEQ_CFG_TOFF_MIN, 100)] with seq := { (at_ .run [(F.SEQ_STAT_PHASE, 5), (F.SEQ_STAT_PEND, 1), (F.SEQ_CFG_TOFF_MIN, 100)]).seq with downAt := some 0 } } : State), by decide +kernel⟩,
   ⟨(at_ .run [(F.SEQ_STAT_PHASE, 5), (F.SEQ_STAT_PEND, 0)] : State), by decide +kernel⟩,
   ⟨(at_ .run [(F.SEQ_STAT_RUN, 1)] : State), by decide +kernel⟩⟩

theorem witness_ProgramStartSets :
    (∃ (s : State) (p : Nat) (r : Nat) (o : Nat), 4 ≤ p ∧ p < 8) ∧
    (∃ (s : State) (p : Nat) (r : Nat) (o : Nat) (g : FRef), 4 ≤ p ∧ g.key ≠ F.SEQ_STAT_RUN.key ∧ g.key ≠ F.SEQ_STAT_PROG.key) ∧
    (∃ (s : State) (p : Nat) (r : Nat) (o : Nat), p ≠ 1) :=
  ⟨⟨(at_ .run [] : State), 4, 0, 0, by decide +kernel⟩,
   ⟨(at_ .run [] : State), 4, 0, 0, F.SYS_RESET_CAUSE_PIN, by decide +kernel⟩,
   ⟨(at_ .run [] : State), 0, 0, 0, by decide +kernel⟩⟩

theorem witness_DomainsFollowAndLockOut :
    (∃ (d : Fin 12) (s : State), s.seqOn = true ∧ (s.dom d).raw ≠ (s.dom d).pg ∧ s.checks d = false ∧ ((s.dom d).st ≠ .on ∨ (s.dom d).raw = true)) ∧
    (∃ (d : Fin 12) (s : State), s.seqOn = true ∧ (s.dom d).raw = false ∧ (s.dom d).pg = true ∧ (s.dom d).st = .on ∧ s.latchCut d = false ∧ s.checks d = false) ∧
    (∃ (d : Fin 12) (s : State), s.seqOn = true ∧ (s.dom d).raw = false ∧ (s.dom d).pg = true ∧ s.latchCut d = true ∧ s.checks d = false) ∧
    (∃ (d : Fin 12) (s : State), s.seqOn = true ∧ (s.dom d).st = .ramp ∧ (s.dom d).pg = true) ∧
    (∃ (x : Shutdown) (s : State), s.seqOn = true ∧ s.seq.shut = some x ∧ x.left ≠ 0) ∧
    (∃ (m : BitVec 12) (s : State), s.writeOk 0x1414 = true ∧ s.injects 4 = false) ∧
    (∃ (vos : List Nat) (s : State), s.runs 1 = true ∧ s.operand < 12 ∧ (s.dom s.operand).st ≠ .on ∧ (s.dom s.operand).st ≠ .ramp ∧ (((s.dom s.operand).st = .failed ∨ ∃ k, k < 12 ∧ s.reaches s.operand k = true ∧ (s.dom k).st = .failed))) ∧
    (∃ (d : Fin 12) (s : State), s.seqOn = true ∧ (s.dom d).raw ≠ (s.dom d).pg ∧ ((s.dom d).st ≠ .on ∨ (s.dom d).raw = true) ∧ ((((s.due ((s.dom d).rawSince + s.get (F.SEQ_DOM_PG_PG_FILT d) * engPerUs)).setDom d { s.dom d with pg := (s.dom d).raw, lastChange := (s.due ((s.dom d).rawSince + s.get (F.SEQ_DOM_PG_PG_FILT d) * engPerUs)).now }).putBitF F.SEQ_DOM_STATE_PG d (s.dom d).raw).put (F.SEQ_DOM_STAT_PG d) (s.dom d).raw).checks d = true) :=
  ⟨⟨0, (dom_ (at_ .run []) 0 .off true false : State), by decide +kernel⟩,
   ⟨0, (dom_ (at_ .run []) 0 .on false true : State), by decide +kernel⟩,
   ⟨0, (dom_ ({ at_ .run [(F.THM_STAT_LATCH, 1)] with seq := { (at_ .run [(F.THM_STAT_LATCH, 1)]).seq with latchMask := 1 } }) 0 .on false true : State), by decide +kernel⟩,
   ⟨0, (dom_ (at_ .run []) 0 .ramp true true : State), by decide +kernel⟩,
   ⟨⟨.residue 0, 0, 1, 0⟩, ({ at_ .run [] with seq := { (at_ .run []).seq with shut := some (⟨.residue 0, 0, 1, 0⟩ : Shutdown) } } : State), by decide +kernel⟩,
   ⟨0, (at_ .run [] : State), by decide +kernel⟩,
   ⟨[], (dom_ ({ at_ .run [(F.SEQ_STAT_RUN, 1)] with seq := { (at_ .run [(F.SEQ_STAT_RUN, 1)]).seq with stage := .fetched, word := (1 * 2 ^ 28 + 0) } }) 0 .failed false false : State), by decide +kernel, by decide +kernel, by decide +kernel, by decide +kernel, Or.inl (by decide +kernel)⟩,
   ⟨0, (dom_ ({ at_ .run [(F.SEQ_STAT_RUN, 1)] with seq := { (at_ .run [(F.SEQ_STAT_RUN, 1)]).seq with stage := .checking, word := (4 * 2 ^ 28 + 1023) } }) 0 .ramp true false : State), by decide +kernel⟩⟩

theorem witness_FaultCommands :
    (∃ (src : Fin 41) (d : BitVec 16) (s : State), s.coreRuns = true ∧ s.flag F.FLT_INJ_STAT_ARMED = false ∧ s.levelHolds src = true ∧ src.val ≠ 12 ∧ src.val ≠ 13 ∧ src.val ≠ 37 ∧ ((src.val = 7 → s.dev.mode ≠ .run))) ∧
    (∃ (d : BitVec 16) (s : State), s.dev.mode = .run ∧ s.flag F.FLT_INJ_STAT_ARMED = false ∧ s.flag F.ENG_STAT_HALT = true) ∧
    (∃ (d : BitVec 16) (s : State), s.dev.mode = .run ∧ s.coreRuns = true ∧ s.flag F.FLT_INJ_STAT_ARMED = false ∧ s.flag F.ENG_STAT_HALT = false) ∧
    (∃ (src : Fin 41) (d : BitVec 16) (s : State), s.levelHolds src = false) ∧
    (∃ (d : BitVec 16) (s : State), s.coreRuns = true ∧ s.flag F.FLT_INJ_STAT_ARMED = false) ∧
    (∃ (d : BitVec 16) (s : State), s.coreRuns = true ∧ s.flag F.FLT_INJ_STAT_ARMED = false ∧ s.levelHolds 13 = true) ∧
    (∃ (d : BitVec 16) (s : State), s.coreRuns = true ∧ s.flag F.FLT_INJ_STAT_ARMED = false) ∧
    (∃ (src : Fin 41) (s : State), (src.val = 9 ∨ src.val = 11)) ∧
    (∃ (v : Word) (s : State), s.writeOk 0x2C08 = true ∧ s.injects 4 = false) ∧
    (∃ (v : Word) (s : State), s.writeOk 0x2C0C = true ∧ s.injects 4 = false) ∧
    (∃ (a : Nat) (s : State), s.dev.mode = .run ∧ s.flag F.ENG_STAT_HALT = false) ∧
    (∃ (mem : Fin 4) (e : Fin 3) (a : BitVec 16) (s : State), s.dev.mode = .run) ∧
    (∃ (s : State) (a : Nat), s.flag F.FLT_INJ_STAT_ARMED = false) ∧
    (∃ (s : State) (src : Nat) (a : Nat), s.injects src = false) ∧
    (∃ (s : State) (src : Nat) (a : Nat), s.injects src = true ∧ (s.raiseI src a true).injects src = true) ∧
    (∃ (s : State) (src : Nat) (a : Nat), s.injects src = true ∧ (s.raiseI src a true).injects src = false) ∧
    (∃ (s : State) (a : Nat) (f : State → State), s.writeOk a = true ∧ s.injects 4 = true ∧ (s.checkerRaise 4 0).dev.stage = s.dev.stage) ∧
    (∃ (s : State), s.coreRuns = true ∧ s.dev.mode ≠ .boot ∧ s.logTokens < s.flt.bodies.length) :=
  ⟨⟨0, 0, (at_ .run [(F.FLT_INJ_STAT_ARMED, 0)] : State), by decide +kernel⟩,
   ⟨0, (at_ .run [(F.FLT_INJ_STAT_ARMED, 0), (F.ENG_STAT_HALT, 1)] : State), by decide +kernel⟩,
   ⟨0, (at_ .run [(F.FLT_INJ_STAT_ARMED, 0), (F.ENG_STAT_HALT, 0)] : State), by decide +kernel⟩,
   ⟨10, 0, (at_ .run [] : State), by decide +kernel⟩,
   ⟨0, (at_ .run [(F.FLT_INJ_STAT_ARMED, 0)] : State), by decide +kernel⟩,
   ⟨0, ({ (at_ .run [(F.FLT_INJ_STAT_ARMED, 0)]) with now := 10 ^ 9 } : State), by decide +kernel⟩,
   ⟨0, (at_ .run [(F.FLT_INJ_STAT_ARMED, 0)] : State), by decide +kernel⟩,
   ⟨9, (at_ .run [] : State), by decide +kernel⟩,
   ⟨0, (at_ .run [] : State), by decide +kernel⟩,
   ⟨0, (at_ .run [] : State), by decide +kernel⟩,
   ⟨0, (at_ .run [(F.ENG_STAT_HALT, 0)] : State), by decide +kernel⟩,
   ⟨0, 0, 0, (at_ .run [] : State), by decide +kernel⟩,
   ⟨(at_ .run [(F.FLT_INJ_STAT_ARMED, 0)] : State), 0, by decide +kernel⟩,
   ⟨(at_ .run [] : State), 0, 0, by decide +kernel⟩,
   ⟨(at_ .run [(F.FLT_INJ_STAT_ARMED, 1), (F.FLT_INJ_STAT_SRC, 0)] : State), 0, 0, by decide +kernel⟩,
   ⟨({ at_ .run [(F.FLT_INJ_STAT_ARMED, 1), (F.FLT_INJ_STAT_SRC, 3), (cfgColourField 3, 3)] with dev := { (at_ .run [(F.FLT_INJ_STAT_ARMED, 1), (F.FLT_INJ_STAT_SRC, 3), (cfgColourField 3, 3)]).dev with stage := .commit } } : State), 3, 0, by decide +kernel⟩,
   ⟨(at_ .run [(F.FLT_INJ_STAT_ARMED, 1), (F.FLT_INJ_STAT_SRC, 4)] : State), 0, id, by decide +kernel⟩,
   ⟨({ at_ .run [] with flt := { (at_ .run []).flt with bodies := List.replicate 100 [] } } : State), by decide +kernel⟩⟩

theorem witness_FaultCommands_more :
    (∃ (v : Word) (s : State), s.writeOk 0x2C60 = true ∧ bits v.toNat 16 16 = 0x1F3C ∧ v.toNat % 256 ∈ [2, 3, 4, 5, 6, 7, 8, 12] ∧ s.flag F.FLT_CFG_INJ_EN = true ∧ s.dev.mode = .run ∧ s.flag F.FLT_INJ_STAT_ARMED = false ∧ s.flag (F.OUT_G_STAT_ON 0) = false ∧ s.flag (F.OUT_G_STAT_ON 1) = false ∧ s.injects 4 = false) ∧
    (∃ (v : Word) (s : State), s.writeOk 0x2C60 = true ∧ bits v.toNat 16 16 = 0x1F3C ∧ (s.flag F.FLT_CFG_INJ_EN = false ∨ s.flag F.FLT_INJ_STAT_ARMED = true ∨ v.toNat % 256 ∉ [2, 3, 4, 5, 6, 7, 8, 12]) ∧ s.injects 4 = false) ∧
    (∃ (s : State), s.flag F.FLT_INJ_STAT_ARMED = true) ∧
    (∃ (v : Word) (s : State), s.writeOk 0x2C68 = true ∧ s.injects 4 = false) ∧
    (∃ (src : Fin 41) (d : BitVec 16) (s : State), s.coreRuns = true ∧ s.levelHolds src = true ∧ src.val ≠ 12 ∧ src.val ≠ 13 ∧ src.val ≠ 37) ∧
    (∃ (s : State) (src : Nat) (d : Nat), s.injects src = true ∧ (s.raiseI src d true).injects src = true) ∧
    (∃ (s : State) (src : Nat) (d : Nat), s.injects src = false) ∧
    (∃ (v : Word) (s : State), s.writeOk 0x2C60 = true ∧ bits v.toNat 16 16 ≠ 0x1F3C ∧ s.injects 4 = false) ∧
    (∃ (v : Word) (s : State), s.writeOk 0x2C60 = true ∧ bits v.toNat 16 16 = 0x1F3C ∧ (s.dev.mode ≠ .run ∨ s.flag (F.OUT_G_STAT_ON 0) = true ∨ s.flag (F.OUT_G_STAT_ON 1) = true) ∧ s.injects 4 = false) ∧
    (∃ (a : Nat) (s : State), (s.dev.mode ≠ .run ∨ s.flag F.ENG_STAT_HALT = true)) :=
  ⟨⟨0x1F3C0002, (at_ .run [(F.FLT_CFG_INJ_EN, 1), (F.FLT_INJ_STAT_ARMED, 0), ((F.OUT_G_STAT_ON 0), 0), ((F.OUT_G_STAT_ON 1), 0)] : State), by decide +kernel⟩,
   ⟨0x1F3C0001, (at_ .run [(F.FLT_CFG_INJ_EN, 0)] : State), by decide +kernel⟩,
   ⟨(at_ .run [(F.FLT_INJ_STAT_ARMED, 1)] : State), by decide +kernel⟩,
   ⟨0, (at_ .run [] : State), by decide +kernel⟩,
   ⟨0, 0, (at_ .run [] : State), by decide +kernel⟩,
   ⟨(at_ .run [(F.FLT_INJ_STAT_ARMED, 1)] : State), 0, 0, by decide +kernel⟩,
   ⟨(at_ .run [] : State), 0, 0, by decide +kernel⟩,
   ⟨0, (at_ .run [] : State), by decide +kernel⟩,
   ⟨0x1F3C0000, (at_ .run [(F.OUT_G_STAT_ON 0, 1)] : State), by decide +kernel⟩,
   ⟨0, (at_ .boot [] : State), by decide +kernel⟩⟩

theorem witness_RaisingsAndTheirColour :
    (∃ (s : State) (src : Nat) (d : Nat), src < 41 ∧ s.coreRuns = true ∧ s.dev.stage = .none ∧ s.injects 8 = false) ∧
    (∃ (s : State) (src : Nat) (d : Nat), src < 41 ∧ s.effColour src = 3 ∧ s.pended src = false ∧ s.dev.stage = .none ∧ (s.dev.mode = .run ∨ s.dev.mode = .boot ∨ s.dev.mode = .park)) ∧
    (∃ (s : State) (src : Nat) (d : Nat), s.effColour src < 3 ∧ s.injects 8 = false) :=
  ⟨⟨({ at_ .run [] with dev := { (at_ .run []).dev with stage := .none } } : State), 0, 0, by decide +kernel⟩,
   ⟨({ at_ .run [(cfgColourField 20, 3)] with dev := { (at_ .run [(cfgColourField 20, 3)]).dev with stage := .none } } : State), 20, 0, by decide +kernel⟩,
   ⟨(at_ .run [] : State), 0, 0, by decide +kernel⟩⟩

theorem witness_BlackTurnsOutputsOff :
    ∃ (s : State) (src : Nat), src < 41 :=
  ⟨(at_ .run [] : State), 0, by decide +kernel⟩

theorem witness_WatchdogCommands :
    (∃ (v : Word) (s : State), s.writeOk 0x3004 = true ∧ bits v.toNat 16 16 = 0x5EA7 ∧ bits v.toNat 8 8 < 8 ∧ s.seatRuns (bits v.toNat 8 8) = true ∧ s.wdg.stage2 = none ∧ s.vioNow = false ∧ (s.seat (bits v.toNat 8 8)).first = true ∧ s.injects 4 = false) ∧
    (∃ (v : Word) (s : State), s.writeOk 0x3004 = true ∧ bits v.toNat 16 16 = 0x5EA7 ∧ bits v.toNat 8 8 < 8 ∧ s.seatRuns (bits v.toNat 8 8) = true ∧ s.wdg.stage2 = none ∧ s.vioNow = false ∧ (s.seat (bits v.toNat 8 8)).first = false ∧ s.seatOp (bits v.toNat 8 8) ≤ s.seatT (bits v.toNat 8 8) ∧ (s.seat (bits v.toNat 8 8)).served = false ∧ s.injects 4 = false) ∧
    (∃ (v : Word) (s : State), s.writeOk 0x3004 = true ∧ (bits v.toNat 16 16 ≠ 0x5EA7 ∨ 8 ≤ bits v.toNat 8 8 ∨ s.flag (F.WDG_SEAT_CFG_EN (bits v.toNat 8 8)) = false) ∧ s.injects 4 = false) ∧
    (∃ (n : Fin 8) (pc : Word) (s : State), s.seatRuns n = true ∧ (s.seat n).first = true ∧ ((∀ m, m < 8 → s.seatRuns m = true → s.seatEnd n ≤ s.seatEnd m))) ∧
    (∃ (n : Fin 8) (pc : Word) (s : State), s.seatRuns n = true ∧ (s.seat n).first = false ∧ ((∀ m, m < 8 → s.seatRuns m = true → s.seatEnd n ≤ s.seatEnd m))) ∧
    (∃ (k : Nat) (len : Nat) (s : State), s.wdg.stage2 = some (k, len)) ∧
    (∃ (p : Nat) (s : State), s.corePeriod = some p ∧ (s.dev.mode ≠ .black ∨ s.dev.blackFromBoot = false)) ∧
    (∃ (pc : Word) (p : Nat) (s : State), s.corePeriod = some p) ∧
    (∃ (s : State), s.dev.wdxPulse = true) ∧
    (∃ (t : Nat) (s : State), (s.dev.mode = .run ∨ s.dev.mode = .black ∨ s.dev.mode = .recovery) ∧ s.wdg.latch.isSome = true ∧ s.evidenceQueued = false ∧ s.wdg.retryAt = some t) ∧
    (∃ (s : State), s.wdg.retryAt = none) ∧
    (∃ (v : Word) (s : State), s.writeOk 0x3080 = true ∧ s.injects 4 = false) ∧
    (∃ (v : Word) (s : State), s.writeOk 0x3004 = true ∧ bits v.toNat 16 16 = 0x5EA7 ∧ bits v.toNat 8 8 < 8 ∧ s.seatRuns (bits v.toNat 8 8) = true ∧ s.wdg.stage2 = none ∧ s.vioNow = false ∧ s.injects 4 = false ∧ ((({ s with draws := s.draws + 1 } : State).set (F.WDG_SEAT_STAT_TAG (bits v.toNat 8 8)) (v.toNat % 256)).serviceCause (bits v.toNat 8 8)) ≠ 0) ∧
    (∃ (v : Word) (s : State), s.writeOk 0x3004 = true ∧ bits v.toNat 16 16 = 0x5EA7 ∧ bits v.toNat 8 8 < 8 ∧ s.seatRuns (bits v.toNat 8 8) = true ∧ s.wdg.stage2.isSome = true ∧ s.vioNow = false ∧ s.injects 4 = false) ∧
    (∃ (s : State) (n : Nat), (s.seat n).first = true) ∧
    (∃ (s : State) (n : Nat), (s.seat n).first = false ∧ s.seatT n < s.seatOp n) ∧
    (∃ (s : State) (n : Nat), (s.seat n).first = false ∧ s.seatOp n ≤ s.seatT n ∧ (s.seat n).served = true) ∧
    (∃ (v : Word) (s : State), s.writeOk 0x3004 = true ∧ bits v.toNat 16 16 = 0x5EA7 ∧ bits v.toNat 8 8 < 8 ∧ s.flag (F.WDG_SEAT_CFG_EN (bits v.toNat 8 8)) = true ∧ s.seatRuns (bits v.toNat 8 8) = false ∧ s.vioNow = false ∧ s.injects 4 = false) :=
  ⟨⟨0x5EA70000, (seat_ ({ at_ .run [(F.WDG_STAT_RUN, 1), (F.WDG_SEAT_CFG_EN 0, 1)] with wdg := { (at_ .run [(F.WDG_STAT_RUN, 1), (F.WDG_SEAT_CFG_EN 0, 1)]).wdg with stage2 := none } }) 0 true false : State), by decide +kernel⟩,
   ⟨0x5EA70000, ({ seat_ ({ at_ .run [(F.WDG_STAT_RUN, 1), (F.WDG_SEAT_CFG_EN 0, 1)] with wdg := { (at_ .run [(F.WDG_STAT_RUN, 1), (F.WDG_SEAT_CFG_EN 0, 1)]).wdg with stage2 := none } }) 0 false false with now := 10 ^ 13 } : State), by decide +kernel⟩,
   ⟨0, (at_ .run [] : State), by decide +kernel⟩,
   ⟨0, 0, (seat_ (at_ .run [(F.WDG_STAT_RUN, 1), (F.WDG_SEAT_CFG_EN 0, 1)]) 0 true false : State), by decide +kernel⟩,
   ⟨0, 0, (seat_ (at_ .run [(F.WDG_STAT_RUN, 1), (F.WDG_SEAT_CFG_EN 0, 1)]) 0 false false : State), by decide +kernel⟩,
   ⟨0, 0, ({ at_ .run [] with wdg := { (at_ .run []).wdg with stage2 := some ((0 : Nat), (0 : Nat)) } } : State), by decide +kernel⟩,
   ⟨(((at_ .run [] : State)).get F.WDG_CORE_CFG_PER), (at_ .run [] : State), by decide +kernel⟩,
   ⟨0, (((at_ .run [] : State)).get F.WDG_CORE_CFG_PER), (at_ .run [] : State), by decide +kernel⟩,
   ⟨({ at_ .run [] with dev := { (at_ .run []).dev with wdxPulse := true } } : State), by decide +kernel⟩,
   ⟨0, ({ at_ .run [] with wdg := { (at_ .run []).wdg with retryAt := some (0 : Nat), latch := some [] } } : State), by decide +kernel⟩,
   ⟨({ at_ .run [] with wdg := { (at_ .run []).wdg with retryAt := none } } : State), by decide +kernel⟩,
   ⟨0, (at_ .run [] : State), by decide +kernel⟩,
   ⟨0x5EA70000, ({ seat_ ({ at_ .run [(F.WDG_STAT_RUN, 1), (F.WDG_SEAT_CFG_EN 0, 1)] with wdg := { (at_ .run [(F.WDG_STAT_RUN, 1), (F.WDG_SEAT_CFG_EN 0, 1)]).wdg with stage2 := none } }) 0 false true with now := 10 ^ 13 } : State), by decide +kernel⟩,
   ⟨0x5EA70000, ({ at_ .run [(F.WDG_STAT_RUN, 1), (F.WDG_SEAT_CFG_EN 0, 1)] with wdg := { (at_ .run [(F.WDG_STAT_RUN, 1), (F.WDG_SEAT_CFG_EN 0, 1)]).wdg with stage2 := some (0, 0) } } : State), by decide +kernel⟩,
   ⟨(seat_ (at_ .run []) 0 true false : State), 0, by decide +kernel⟩,
   ⟨(at_ .run [] : State), 0, by decide +kernel⟩,
   ⟨({ seat_ (at_ .run []) 0 false true with now := 10 ^ 13 } : State), 0, by decide +kernel⟩,
   ⟨0x5EA70000, (at_ .run [((F.WDG_SEAT_CFG_EN (bits (0x5EA70000 : Word).toNat 8 8)), 1)] : State), by decide +kernel⟩⟩

theorem witness_WatchdogCommands_more :
    (∃ (pc : Word) (s : State), s.corePeriod = none) ∧
    (∃ (s : State), (s.corePeriod = none ∨ (s.dev.mode = .black ∧ s.dev.blackFromBoot = true))) ∧
    (∃ (s : State), s.wdg.stage2 = none) :=
  ⟨⟨0, (at_ .off [] : State), by decide +kernel⟩,
   ⟨(at_ .off [] : State), by decide +kernel⟩,
   ⟨({ at_ .run [] with wdg := { (at_ .run []).wdg with stage2 := none } } : State), by decide +kernel⟩⟩

theorem witness_SeatsExpireTogether :
    (∃ (s : State) (k : Nat) (pc : Nat) (n : Nat) (r : List Nat), (((List.range 8).filter fun n => s.seatRuns n && decide (s.seatEnd n ≤ k)).filter fun n => (s.seat n).first || !(s.seat n).served) = n :: r ∧ s.wdg.stage2 = none ∧ s.flag F.WDG_CFG_COMPAT = false) ∧
    (∃ (s : State) (k : Nat) (pc : Nat), s.flag F.WDG_STAT_RUN = true ∧ ((∀ n, n < 8 → s.seatRuns n = true → s.seatEnd n ≤ k → (s.seat n).first = false ∧ (s.seat n).served = true))) :=
  ⟨⟨(seat_ ({ at_ .run [(F.WDG_CFG_COMPAT, 0), (F.WDG_STAT_RUN, 1), (F.WDG_SEAT_CFG_EN 0, 1)] with wdg := { (at_ .run [(F.WDG_CFG_COMPAT, 0), (F.WDG_STAT_RUN, 1), (F.WDG_SEAT_CFG_EN 0, 1)]).wdg with stage2 := none } }) 0 true false : State), (10 ^ 15), 0, 0, [], by decide +kernel⟩,
   ⟨(seat_ (at_ .run [(F.WDG_STAT_RUN, 1), (F.WDG_STAT_RUN, 1), (F.WDG_SEAT_CFG_EN 0, 1)]) 0 false true : State), (10 ^ 15), 0, by decide +kernel⟩⟩

theorem witness_BufferAdmission :
    (∃ (s : State) (q : Req) (l : List Req), s.coreRuns = true ∧ (s.dev.mode ≠ .boot ∨ s.otp.prog = none) ∧ s.evt.reqs = q :: l ∧ (s.due (2 * q.clk)).masked q.block q.code = false ∧ ((q.colour < 2 ∧ (({ (s.due (2 * q.clk)) with evt := { (s.due (2 * q.clk)).evt with reqs := l } } : State).fillOverflow).evt.buf.length < 28 ∧ (({ (s.due (2 * q.clk)) with evt := { (s.due (2 * q.clk)).evt with reqs := l } } : State).fillOverflow).evt.ovfAt ≠ some (({ (s.due (2 * q.clk)) with evt := { (s.due (2 * q.clk)).evt with reqs := l } } : State).fillOverflow).coreClk) ∨ (2 ≤ q.colour ∧ (({ (s.due (2 * q.clk)) with evt := { (s.due (2 * q.clk)).evt with reqs := l } } : State).fillOverflow).evt.buf.length < 32))) ∧
    (∃ (s : State) (q : Req) (l : List Req), s.coreRuns = true ∧ (s.dev.mode ≠ .boot ∨ s.otp.prog = none) ∧ s.evt.reqs = q :: l ∧ (s.due (2 * q.clk)).masked q.block q.code = false ∧ q.colour < 2 ∧ (({ (s.due (2 * q.clk)) with evt := { (s.due (2 * q.clk)).evt with reqs := l } } : State).fillOverflow).evt.ovfAt = some (({ (s.due (2 * q.clk)) with evt := { (s.due (2 * q.clk)).evt with reqs := l } } : State).fillOverflow).coreClk) ∧
    (∃ (s : State) (q : Req) (l : List Req), s.coreRuns = true ∧ (s.dev.mode ≠ .boot ∨ s.otp.prog = none) ∧ s.evt.reqs = q :: l ∧ (s.due (2 * q.clk)).masked q.block q.code = false ∧ q.colour = 0 ∧ 28 ≤ (s.due (2 * q.clk)).evt.buf.length) ∧
    (∃ (s : State) (q : Req) (l : List Req), s.coreRuns = true ∧ (s.dev.mode ≠ .boot ∨ s.otp.prog = none) ∧ s.evt.reqs = q :: l ∧ (s.due (2 * q.clk)).masked q.block q.code = false ∧ q.colour = 1 ∧ 28 ≤ (s.due (2 * q.clk)).evt.buf.length) ∧
    (∃ (s : State) (q : Req) (l : List Req), s.coreRuns = true ∧ (s.dev.mode ≠ .boot ∨ s.otp.prog = none) ∧ s.evt.reqs = q :: l ∧ (s.due (2 * q.clk)).masked q.block q.code = false ∧ 2 ≤ q.colour ∧ 32 ≤ (s.due (2 * q.clk)).evt.buf.length) ∧
    (∃ (s : State), (s.evt.lostG ≠ 0 ∨ s.evt.lostA ≠ 0 ∨ s.evt.lostR ≠ 0) ∧ s.evt.buf.length < 28 ∧ s.evt.ovfAt ≠ some s.coreClk) ∧
    (∃ (s : State), ((s.evt.lostG = 0 ∧ s.evt.lostA = 0 ∧ s.evt.lostR = 0) ∨ 28 ≤ s.evt.buf.length ∨ s.evt.ovfAt = some s.coreClk)) ∧
    (∃ (s t : State), (s.overflowOwed = true → s.evt.ovfAt = some s.coreClk) ∧ exec .eventRequest s = .next t ∧ t.overflowOwed = true) ∧
    (∃ (s : State) (v : Word), s.evt.buf.length ≤ 32) :=
  ⟨⟨({ at_ .run [] with evt := { (at_ .run []).evt with reqs := (⟨1, 1, 0, [], none, 0⟩ : Req) :: ([] : List Req), buf := List.replicate 27 ⟨[]⟩ } } : State), ⟨1, 1, 0, [], none, 0⟩, [], by decide +kernel⟩,
   ⟨({ at_ .run [] with evt := { (at_ .run []).evt with reqs := (⟨1, 1, 0, [], none, 0⟩ : Req) :: ([] : List Req), ovfAt := some 0 } } : State), ⟨1, 1, 0, [], none, 0⟩, [], by decide +kernel⟩,
   ⟨({ at_ .run [] with evt := { (at_ .run []).evt with reqs := (⟨1, 1, 0, [], none, 0⟩ : Req) :: ([] : List Req), buf := List.replicate 28 ⟨[]⟩ } } : State), ⟨1, 1, 0, [], none, 0⟩, [], by decide +kernel⟩,
   ⟨({ at_ .run [] with evt := { (at_ .run []).evt with reqs := (⟨1, 1, 1, [], none, 0⟩ : Req) :: ([] : List Req), buf := List.replicate 28 ⟨[]⟩ } } : State), ⟨1, 1, 1, [], none, 0⟩, [], by decide +kernel⟩,
   ⟨({ at_ .run [] with evt := { (at_ .run []).evt with reqs := (⟨1, 1, 2, [], none, 0⟩ : Req) :: ([] : List Req), buf := List.replicate 32 ⟨[]⟩ } } : State), ⟨1, 1, 2, [], none, 0⟩, [], by decide +kernel⟩,
   ⟨({ at_ .run [] with evt := { (at_ .run []).evt with lostG := 1 } } : State), by decide +kernel⟩,
   ⟨({ at_ .run [] with evt := { (at_ .run []).evt with ovfAt := some 0 } } : State), by decide +kernel⟩,
   ⟨({ at_ .run [] with evt := { State.reset.evt with lostG := 1, ovfAt := some 0, reqs := [⟨1, 1, 0, [], none, 0⟩] } } : State), nextOf_ (exec .eventRequest ({ at_ .run [] with evt := { State.reset.evt with lostG := 1, ovfAt := some 0, reqs := [⟨1, 1, 0, [], none, 0⟩] } } : State)), by decide +kernel, next_ _ (by decide +kernel), by decide +kernel⟩,
   ⟨(at_ .run [] : State), 0, by decide +kernel⟩⟩

theorem witness_RingCommands :
    (∃ (s : State) (r : Rec) (l : List Rec), s.dev.mode = .run ∧ s.evt.armed = true ∧ s.evt.pushHeld = false ∧ 0 < s.ringFree ∧ s.evt.pb.length < 4 ∧ s.evt.buf = r :: l) ∧
    (∃ (s : State) (k : Nat) (r : Rec) (l : List Rec), s.dev.mode = .run ∧ s.evt.pushAt = some k ∧ s.evt.pb = r :: l) ∧
    (∃ (s : State), s.evt.pb ≠ [] ∧ s.evt.pushAt = none ∧ s.quietIn F.FRM_QUIET_CFG_EP_HOLD (s.evt.pushFree - s.now) = false) ∧
    (∃ (s : State), s.quietIn F.FRM_QUIET_CFG_EP_HOLD (s.evt.pushFree - s.now) = true) ∧
    (∃ (v : Word) (s : State), s.writeOk 0x3414 = true ∧ wrap16 ((↑(v.toNat % 65536) : Int) - s.get F.EVT_CONS_CONS) ≤ wrap16 ((s.get F.EVT_PROD_DONE : Int) - s.get F.EVT_CONS_CONS) ∧ s.injects 4 = false) ∧
    (∃ (v : Word) (s : State), s.writeOk 0x3414 = true ∧ wrap16 ((s.get F.EVT_PROD_DONE : Int) - s.get F.EVT_CONS_CONS) < wrap16 ((↑(v.toNat % 65536) : Int) - s.get F.EVT_CONS_CONS) ∧ s.injects 4 = false) ∧
    (∃ (s : State), s.writeOk 0x3408 = true ∧ s.evt.armed = false ∧ s.evt.pb = [] ∧ s.injects 4 = false) ∧
    (∃ (s : State), s.writeOk 0x3408 = true ∧ s.evt.armed = false ∧ s.evt.pb ≠ [] ∧ s.injects 4 = false) ∧
    (∃ (s : State), s.writeOk 0x3408 = true ∧ s.injects 4 = false) ∧
    (∃ (v : Word) (s : State), s.writeOk 0x3418 = true ∧ s.injects 4 = false) ∧
    (∃ (v : Word) (s : State), s.writeOk 0x3424 = true ∧ s.injects 4 = false) ∧
    (∃ (k : Fin 8) (s : State), s.coreRuns = true ∧ s.bitF F.EVT_LVL_EN_EN k = true ∧ s.bitF F.EVT_LVL_REPORTED k = false ∧ s.levelActive k = true) ∧
    (∃ (s : State), s.writeOk 0x3430 = true ∧ s.injects 4 = false) ∧
    (∃ (s : State), s.writeOk 0x3430 = true ∧ s.injects 4 = false) ∧
    (∃ (s : State), s.writeOk 0x3430 = true ∧ s.injects 4 = false) ∧
    (∃ (t : Nat) (s : State), s.ringDue = some t) ∧
    (∃ (s : State), s.ringDue = none) ∧
    (∃ (s : State) (t : Nat) (l : List Nat), s.get F.EVT_IRQ_CFG_HOLDOFF ≠ 0 ∧ s.evt.delivered = t :: l) :=
  ⟨⟨({ at_ .run [] with evt := { (at_ .run []).evt with armed := true, pushHeld := false, buf := (⟨[]⟩ : Rec) :: ([] : List Rec) } } : State), ⟨[]⟩, [], by decide +kernel⟩,
   ⟨({ at_ .run [] with evt := { (at_ .run []).evt with pushAt := some (0 : Nat), pb := (⟨[]⟩ : Rec) :: ([] : List Rec) } } : State), 0, ⟨[]⟩, [], by decide +kernel⟩,
   ⟨({ at_ .run [] with evt := { (at_ .run []).evt with pushAt := none, pb := [⟨[]⟩] } } : State), by decide +kernel⟩,
   ⟨(map_ (at_ .run [(F.FRM_STATE_STATE, 3), (F.FRM_QUIET_CFG_EP_HOLD, 1)]) 2 : State), by decide +kernel⟩,
   ⟨1, (at_ .run [(F.EVT_PROD_DONE, 1)] : State), by decide +kernel⟩,
   ⟨1, (at_ .run [] : State), by decide +kernel⟩,
   ⟨({ at_ .run [] with evt := { (at_ .run []).evt with armed := false, pb := [] } } : State), by decide +kernel⟩,
   ⟨({ at_ .run [] with evt := { (at_ .run []).evt with armed := false, pb := [⟨[]⟩] } } : State), by decide +kernel⟩,
   ⟨(at_ .run [] : State), by decide +kernel⟩,
   ⟨0, (at_ .run [] : State), by decide +kernel⟩,
   ⟨0, (at_ .run [] : State), by decide +kernel⟩,
   ⟨3, (at_ .run [(F.EVT_LVL_EN_EN, (2 ^ ((3 : Fin 8) : Nat))), (F.THM_STAT_WARN, 1)] : State), by decide +kernel⟩,
   ⟨(at_ .run [] : State), by decide +kernel⟩,
   ⟨(at_ .run [] : State), by decide +kernel⟩,
   ⟨(at_ .run [] : State), by decide +kernel⟩,
   ⟨((({ at_ .run [(F.EVT_IRQ_CFG_HOLDOFF, 1)] with evt := { (at_ .run [(F.EVT_IRQ_CFG_HOLDOFF, 1)]).evt with delivered := [0] } } : State)).ringDue.getD 0), ({ at_ .run [(F.EVT_IRQ_CFG_HOLDOFF, 1)] with evt := { (at_ .run [(F.EVT_IRQ_CFG_HOLDOFF, 1)]).evt with delivered := [0] } } : State), by decide +kernel⟩,
   ⟨(at_ .run [] : State), by decide +kernel⟩,
   ⟨({ at_ .run [(F.EVT_IRQ_CFG_HOLDOFF, 1)] with evt := { (at_ .run [(F.EVT_IRQ_CFG_HOLDOFF, 1)]).evt with delivered := (0 : Nat) :: ([] : List Nat) } } : State), 0, [], by decide +kernel⟩⟩

theorem witness_RingCommands_more :
    (∃ (s : State) (q : Req) (l : List Req), s.coreRuns = true ∧ (s.dev.mode ≠ .boot ∨ s.otp.prog = none) ∧ s.evt.reqs = q :: l ∧ (s.due (2 * q.clk)).masked q.block q.code = true) ∧
    (∃ (s : State), s.evt.reqs = []) ∧
    (∃ (s : State) (p : Nat × Nat), s.dev.mode = .boot ∧ s.otp.prog = some p) ∧
    (∃ (r : Rec) (l : List Rec) (s : State), s.dev.mode = .run ∧ s.evt.armed = true ∧ s.evt.pushHeld = false ∧ 0 < s.ringFree ∧ 4 ≤ s.evt.pb.length ∧ s.evt.buf = r :: l) ∧
    (∃ (r : Rec) (l : List Rec) (s : State), s.evt.buf = r :: l ∧ (s.dev.mode ≠ .run ∨ s.evt.armed = false ∨ s.evt.pushHeld = true ∨ s.ringFree ≤ 0)) ∧
    (∃ (s : State), s.evt.buf = []) ∧
    (∃ (s : State), s.writeOk 0x3408 = true ∧ s.evt.armed = true ∧ s.injects 4 = false) ∧
    (∃ (s : State), (s.dev.mode ≠ .run ∨ s.pushTry.evt.pushAt = none)) ∧
    (∃ (k : Fin 8) (s : State), (s.coreRuns = false ∨ s.bitF F.EVT_LVL_EN_EN k = false ∨ s.bitF F.EVT_LVL_REPORTED k = true ∨ s.levelActive k = false)) :=
  ⟨⟨({ at_ .run [(F.EVT_MASK_MASK, 2)] with evt := { (at_ .run [(F.EVT_MASK_MASK, 2)]).evt with reqs := (⟨1, 1, 0, [], none, 0⟩ : Req) :: ([] : List Req) } } : State), ⟨1, 1, 0, [], none, 0⟩, [], by decide +kernel⟩,
   ⟨({ at_ .run [] with evt := { (at_ .run []).evt with reqs := [] } } : State), by decide +kernel⟩,
   ⟨({ at_ .boot [] with otp := { (at_ .boot []).otp with prog := some ((0, 0) : Nat × Nat) } } : State), (0, 0), by decide +kernel⟩,
   ⟨⟨[]⟩, [], ({ at_ .run [] with evt := { (at_ .run []).evt with armed := true, pushHeld := false, buf := (⟨[]⟩ : Rec) :: ([] : List Rec), pb := List.replicate 4 ⟨[]⟩ } } : State), by decide +kernel⟩,
   ⟨⟨[]⟩, [], ({ at_ .run [] with evt := { (at_ .run []).evt with buf := (⟨[]⟩ : Rec) :: ([] : List Rec) } } : State), by decide +kernel⟩,
   ⟨({ at_ .run [] with evt := { (at_ .run []).evt with buf := [] } } : State), by decide +kernel⟩,
   ⟨({ at_ .run [] with evt := { (at_ .run []).evt with armed := true } } : State), by decide +kernel⟩,
   ⟨(at_ .run [] : State), by decide +kernel⟩,
   ⟨0, (at_ .run [] : State), by decide +kernel⟩⟩

theorem witness_RingCounts :
    (∃ (s : State), s.evt.buf ≠ [] ∧ s.dev.mode = .run ∧ s.evt.armed = true ∧ s.evt.pushHeld = false ∧ 0 < s.ringFree ∧ s.evt.pb.length < 4 ∧ s.get F.EVT_RING_CFG_LOG2N ≤ 12) ∧
    (∃ (s : State), s.evt.armWaiting = false) ∧
    (∃ (s : State), s.writeOk 0x3408 = true ∧ s.injects 4 = false ∧ s.evt.armed = false ∧ s.evt.pb = []) ∧
    (∃ (s : State), s.evt.buf ≠ [] ∧ s.dev.mode = .run ∧ s.evt.armed = true ∧ s.evt.pushHeld = false ∧ 0 < s.ringFree ∧ s.evt.pb.length < 4 ∧ s.get F.EVT_RING_CFG_LOG2N ≤ 12) ∧
    (∃ (v : Word) (s : State), s.writeOk 0x3414 = true ∧ wrap16 ((↑(v.toNat % 65536) : Int) - s.get F.EVT_CONS_CONS) ≤ wrap16 ((s.get F.EVT_PROD_DONE : Int) - s.get F.EVT_CONS_CONS) ∧ wrap16 ((↑(v.toNat % 65536) : Int) - s.get F.EVT_CONS_CONS) ≤ wrap16 ((s.get F.EVT_PROD_PROD : Int) - s.get F.EVT_CONS_CONS)) :=
  ⟨⟨({ at_ .run [] with evt := { (at_ .run []).evt with armed := true, pushHeld := false, buf := [⟨[]⟩] } } : State), by decide +kernel⟩,
   ⟨({ at_ .run [] with evt := { (at_ .run []).evt with armWaiting := false } } : State), by decide +kernel⟩,
   ⟨({ at_ .run [] with evt := { (at_ .run []).evt with armed := false, pb := [] } } : State), by decide +kernel⟩,
   ⟨({ at_ .run [] with evt := { (at_ .run []).evt with armed := true, pushHeld := false, buf := [⟨[]⟩] } } : State), by decide +kernel⟩,
   ⟨0, (at_ .run [] : State), by decide +kernel⟩⟩

theorem witness_HostFrames :
    (∃ (a : BitVec 16) (n : BitVec 8) (crc : BitVec 16) (b : Bool) (t : State) (i : Nat) (s : State), s.hlLive = true ∧ s.freeHl ≠ 0 ∧ s.admitFrame false (wordAddrs a.toNat n.toNat) = (t, i) ∧ 1 ≤ n.toNat ∧ n.toNat ≤ 64 ∧ spanOk a.toNat n.toNat = true ∧ crc16 ([0x52] ++ beBytes 2 a.toNat ++ [byte n.toNat]) = crc.toNat ∧ t.refuses false (wordAddrs a.toNat n.toNat) = false ∧ t.readBlocked (wordAddrs a.toNat n.toNat) = false) ∧
    (∃ (a : BitVec 16) (n : BitVec 8) (crc : BitVec 16) (b : Bool) (t : State) (i : Nat) (s : State), s.hlLive = true ∧ s.freeHl ≠ 0 ∧ s.admitFrame false (wordAddrs a.toNat n.toNat) = (t, i) ∧ 1 ≤ n.toNat ∧ n.toNat ≤ 64 ∧ spanOk a.toNat n.toNat = true ∧ crc16 ([0x52] ++ beBytes 2 a.toNat ++ [byte n.toNat]) = crc.toNat ∧ t.refuses false (wordAddrs a.toNat n.toNat) = false ∧ t.readBlocked (wordAddrs a.toNat n.toNat) = true) ∧
    (∃ (a : BitVec 16) (n : BitVec 8) (crc : BitVec 16) (b : Bool) (t : State) (i : Nat) (s : State), s.hlLive = true ∧ s.freeHl ≠ 0 ∧ s.admitFrame false (wordAddrs a.toNat n.toNat) = (t, i) ∧ 1 ≤ n.toNat ∧ n.toNat ≤ 64 ∧ spanOk a.toNat n.toNat = true ∧ crc16 ([0x52] ++ beBytes 2 a.toNat ++ [byte n.toNat]) = crc.toNat ∧ t.refuses false (wordAddrs a.toNat n.toNat) = true) ∧
    (∃ (a : BitVec 16) (n : BitVec 8) (crc : BitVec 16) (b : Bool) (t : State) (i : Nat) (s : State), s.hlLive = true ∧ s.freeHl ≠ 0 ∧ s.admitFrame false (wordAddrs a.toNat n.toNat) = (t, i) ∧ 1 ≤ n.toNat ∧ n.toNat ≤ 64 ∧ crc16 ([0x52] ++ beBytes 2 a.toNat ++ [byte n.toNat]) ≠ crc.toNat) ∧
    (∃ (cmd : Byte) (a : BitVec 16) (n : BitVec 8) (crc : BitVec 16) (b : Bool) (t : State) (i : Nat) (s : State), s.hlLive = true ∧ s.freeHl ≠ 0 ∧ s.admitFrame false (wordAddrs a.toNat n.toNat) = (t, i) ∧ (cmd ≠ 0x52 ∨ n.toNat < 1 ∨ 64 < n.toNat ∨ (spanOk a.toNat n.toNat = false ∧ crc16 ([cmd] ++ beBytes 2 a.toNat ++ [byte n.toNat]) = crc.toNat))) ∧
    (∃ (a : BitVec 16) (n : BitVec 8) (d : List Word) (crc : BitVec 16) (b : Bool) (t : State) (i : Nat) (s : State), s.hlLive = true ∧ s.freeHl ≠ 0 ∧ s.admitFrame true (wordAddrs a.toNat n.toNat) = (t, i) ∧ 1 ≤ n.toNat ∧ n.toNat ≤ 64 ∧ d.length = n.toNat ∧ spanOk a.toNat n.toNat = true ∧ crc16 ([0x57] ++ beBytes 2 a.toNat ++ [byte n.toNat] ++ (d.map fun x => x.toNat).flatMap (beBytes 4)) = crc.toNat ∧ t.refuses true (wordAddrs a.toNat n.toNat) = false) ∧
    (∃ (a : BitVec 16) (n : BitVec 8) (d : List Word) (crc : BitVec 16) (b : Bool) (t : State) (i : Nat) (s : State), s.hlLive = true ∧ s.freeHl ≠ 0 ∧ s.admitFrame true (wordAddrs a.toNat n.toNat) = (t, i) ∧ 1 ≤ n.toNat ∧ n.toNat ≤ 64 ∧ d.length = n.toNat ∧ spanOk a.toNat n.toNat = true ∧ crc16 ([0x57] ++ beBytes 2 a.toNat ++ [byte n.toNat] ++ (d.map fun x => x.toNat).flatMap (beBytes 4)) = crc.toNat ∧ t.refuses true (wordAddrs a.toNat n.toNat) = true) ∧
    (∃ (a : BitVec 16) (n : BitVec 8) (d : List Word) (crc : BitVec 16) (b : Bool) (t : State) (i : Nat) (s : State), s.hlLive = true ∧ s.freeHl ≠ 0 ∧ s.admitFrame true (wordAddrs a.toNat n.toNat) = (t, i) ∧ 1 ≤ n.toNat ∧ n.toNat ≤ 64 ∧ d.length = n.toNat ∧ crc16 ([0x57] ++ beBytes 2 a.toNat ++ [byte n.toNat] ++ (d.map fun x => x.toNat).flatMap (beBytes 4)) ≠ crc.toNat) ∧
    (∃ (a : BitVec 16) (n : BitVec 8) (d : List Word) (crc : BitVec 16) (b : Bool) (t : State) (i : Nat) (s : State), s.hlLive = true ∧ s.freeHl ≠ 0 ∧ s.admitFrame true (wordAddrs a.toNat n.toNat) = (t, i) ∧ d.length = n.toNat ∧ (n.toNat < 1 ∨ 64 < n.toNat ∨ (spanOk a.toNat n.toNat = false ∧ crc16 ([0x57] ++ beBytes 2 a.toNat ++ [byte n.toNat] ++ (d.map fun x => x.toNat).flatMap (beBytes 4)) = crc.toNat))) ∧
    (∃ (cmd : Byte) (a : BitVec 16) (n : BitVec 8) (crc : BitVec 16) (b : Bool) (s : State), s.hlLive = true ∧ s.freeHl = 0) ∧
    (∃ (a : BitVec 16) (n : BitVec 8) (d : List Word) (crc : BitVec 16) (b : Bool) (s : State), s.hlLive = true ∧ s.freeHl = 0) ∧
    (∃ (x : FrameStart) (cmd : Byte) (a : BitVec 16) (n : BitVec 8) (crc : BitVec 16) (b : Bool) (s : State), s.dev.mode = .boot ∧ s.dev.stage ≠ .waiting) ∧
    (∃ (x : FrameStart) (a : BitVec 16) (n : BitVec 8) (d : List Word) (crc : BitVec 16) (b : Bool) (s : State), s.dev.mode = .boot ∧ s.dev.stage ≠ .waiting) ∧
    (∃ (cmd : Byte) (a : BitVec 16) (n : BitVec 8) (crc : BitVec 16) (b : Bool) (s : State), s.hlLive = true) ∧
    (∃ (cmd : Byte) (a : BitVec 16) (n : BitVec 8) (crc : BitVec 16) (b : Bool) (s : State), s.hlLive = true) ∧
    (∃ (a : BitVec 16) (n : BitVec 8) (d : List Word) (crc : BitVec 16) (b : Bool) (s : State), s.hlLive = true) ∧
    (∃ (a : BitVec 16) (n : BitVec 8) (d : List Word) (crc : BitVec 16) (b : Bool) (s : State), s.hlLive = true) ∧
    (∃ (x : FrameStart) (cmd : Byte) (a : BitVec 16) (n : BitVec 8) (crc : BitVec 16) (b : Bool) (s : State), s.dev.mode = .park ∧ s.dev.stage ≠ .waiting) :=
  ⟨⟨0, 1, (BitVec.ofNat 16 (crc16 ([0x52] ++ beBytes 2 0 ++ [byte 1]))), false, (((at_ .run [] : State)).admitFrame false (wordAddrs 0 1)).1, 0, (at_ .run [] : State), by decide +kernel⟩,
   ⟨0, 1, (BitVec.ofNat 16 (crc16 ([0x52] ++ beBytes 2 0 ++ [byte 1]))), false, ((({ at_ .run [] with hl := { (at_ .run []).hl with frames := [⟨9, true, blocksOf (wordAddrs 0 1), 1, 0, none⟩] } } : State)).admitFrame false (wordAddrs 0 1)).1, 0, ({ at_ .run [] with hl := { (at_ .run []).hl with frames := [⟨9, true, blocksOf (wordAddrs 0 1), 1, 0, none⟩] } } : State), by decide +kernel⟩,
   ⟨0x2400, 1, (BitVec.ofNat 16 (crc16 ([0x52] ++ beBytes 2 0x2400 ++ [byte 1]))), false, (((at_ .recovery [] : State)).admitFrame false (wordAddrs 0x2400 1)).1, 0, (at_ .recovery [] : State), by decide +kernel⟩,
   ⟨0, 1, 0, false, (((at_ .run [] : State)).admitFrame false (wordAddrs 0 1)).1, 0, (at_ .run [] : State), by decide +kernel⟩,
   ⟨0, 0, 0, 0, false, (((at_ .run [] : State)).admitFrame false (wordAddrs 0 0)).1, 0, (at_ .run [] : State), by decide +kernel⟩,
   ⟨0, 1, [0], (BitVec.ofNat 16 (crc16 ([0x57] ++ beBytes 2 0 ++ [byte 1] ++ beBytes 4 0))), false, (((at_ .run [] : State)).admitFrame true (wordAddrs 0 1)).1, 0, (at_ .run [] : State), by decide +kernel⟩,
   ⟨0, 1, [0], (BitVec.ofNat 16 (crc16 ([0x57] ++ beBytes 2 0 ++ [byte 1] ++ beBytes 4 0))), false, (((at_ .black [] : State)).admitFrame true (wordAddrs 0 1)).1, 0, (at_ .black [] : State), by decide +kernel⟩,
   ⟨0, 1, [0], 0, false, (((at_ .run [] : State)).admitFrame true (wordAddrs 0 1)).1, 0, (at_ .run [] : State), by decide +kernel⟩,
   ⟨0, 0, [], 0, false, (((at_ .run [] : State)).admitFrame true (wordAddrs 0 0)).1, 0, (at_ .run [] : State), by decide +kernel⟩,
   ⟨0, 0, 0, 0, false, ({ at_ .run [] with hl := { (at_ .run []).hl with frames := List.replicate 12 ⟨0, false, 0, 0, 0, none⟩ } } : State), by decide +kernel⟩,
   ⟨0, 0, [], 0, false, ({ at_ .run [] with hl := { (at_ .run []).hl with frames := List.replicate 12 ⟨0, false, 0, 0, 0, none⟩ } } : State), by decide +kernel⟩,
   ⟨.here, 0, 0, 0, 0, false, (at_ .boot [] : State), by decide +kernel⟩,
   ⟨.here, 0, 0, [], 0, false, (at_ .boot [] : State), by decide +kernel⟩,
   ⟨0, 0, 0, 0, false, (at_ .run [] : State), by decide +kernel⟩,
   ⟨0, 0, 0, 0, false, (at_ .run [] : State), by decide +kernel⟩,
   ⟨0, 0, [], 0, false, (at_ .run [] : State), by decide +kernel⟩,
   ⟨0, 0, [], 0, false, (at_ .run [] : State), by decide +kernel⟩,
   ⟨.here, 0, 0, 0, 0, false, (at_ .park [] : State), by decide +kernel⟩⟩

theorem witness_HostFrames_more :
    (∃ (x : FrameStart) (a : BitVec 16) (n : BitVec 8) (d : List Word) (crc : BitVec 16) (b : Bool) (s : State), s.dev.mode = .park ∧ s.dev.stage ≠ .waiting) ∧
    (∃ (b : Bool) (s : State), (s.hlLive = true ∨ s.dev.mode = .boot) ∧ s.dev.stage ≠ .waiting) ∧
    (∃ (b : Bool) (s : State), s.dev.mode = .park ∧ s.dev.stage ≠ .waiting) ∧
    (∃ (b : Bool) (s : State), s.dev.stage = .waiting) ∧
    (∃ (k : Nat) (b : Bool) (s : State), ((∀ x ∈ s.hl.frames, x.owed = none)) ∧ 4 ≤ k) ∧
    (∃ (k : Nat) (b : Bool) (s : State), ((∀ x ∈ s.hl.frames, x.owed = none)) ∧ k < 4) ∧
    (∃ (x : Frame) (k : Nat) (b : Bool) (s : State), x ∈ s.hl.frames ∧ x.owed.isSome = true) ∧
    (∃ (s : State) (w : Bool) (l : List Nat), s.injects 8 = false) ∧
    (∃ (s : State) (c : Status), c ≠ .booting ∧ c ≠ .parked) ∧
    (∃ (s : State) (l : List Nat), s.flag F.FLT_INJ_STAT_ARMED = false ∧ ((∀ a ∈ l, a ≠ 0x1010 ∧ a ≠ 0x4410 ∧ a ≠ 0x4404))) :=
  ⟨⟨.here, 0, 0, [], 0, false, (at_ .park [] : State), by decide +kernel⟩,
   ⟨false, (at_ .run [] : State), by decide +kernel⟩,
   ⟨false, (at_ .park [] : State), by decide +kernel⟩,
   ⟨false, ({ at_ .run [] with dev := { (at_ .run []).dev with stage := .waiting } } : State), by decide +kernel⟩,
   ⟨4, false, (at_ .run [] : State), by decide +kernel⟩,
   ⟨0, false, (at_ .run [] : State), by decide +kernel⟩,
   ⟨⟨0, false, 0, 0, 1, some .ok⟩, 0, false, ({ at_ .run [] with hl := { (at_ .run []).hl with frames := [⟨0, false, 0, 0, 1, some .ok⟩] } } : State), by decide +kernel⟩,
   ⟨(at_ .run [] : State), false, [], by decide +kernel⟩,
   ⟨(at_ .run [] : State), .ok, by decide +kernel⟩,
   ⟨(at_ .run [(F.FLT_INJ_STAT_ARMED, 0)] : State), [], by decide +kernel⟩⟩

theorem witness_FrameTimingCommands :
    (∃ (w : Nat) (n : Nat) (r : Bool) (s : State), s.dev.mode = .run ∧ s.frmState ≠ 0) ∧
    (∃ (w : Nat) (n : Nat) (r : Bool) (s : State), (s.dev.mode ≠ .run ∨ s.frmState = 0)) ∧
    (∃ (s : State) (r : Bool) (n : Nat), r ≠ s.flag F.FRM_CFG_POL ∧ 100 ≤ n) ∧
    (∃ (s : State), s.frmState = 3 ∧ s.pip < ((s.get F.FRM_SYNC_SYNC_PIP + s.get F.FRM_CFG_WIN + 1) % 65536) ∧ (32768 ≤ (s.pip + 65536 - ((s.get F.FRM_SYNC_SYNC_PIP + s.get F.FRM_CFG_WIN + 1) % 65536)) % 65536 ∨ s.missDue = false) ∧ (s.toPip ((s.get F.FRM_SYNC_SYNC_PIP + s.get F.FRM_CFG_WIN + 1) % 65536)).missDue = true) ∧
    (∃ (s : State), s.frmState = 4 ∧ s.flag F.SYS_STATE_XTAL_FAIL = false ∧ s.get F.FRM_SYNC_HOLD_MAX ≤ s.get F.FRM_STATE_HELD) ∧
    (∃ (s : State), s.counting = true) ∧
    (∃ (s : State), s.counting = true) ∧
    (∃ (s : State), s.writeOk 0x0440 = true ∧ s.injects 4 = false) ∧
    (∃ (s : State), s.writeOk 0x0440 = true ∧ s.injects 4 = false) ∧
    (∃ (v : Word) (s : State), s.writeOk 0x0400 = true ∧ 16 ≤ bits v.toNat 16 12 ∧ bits v.toNat 16 12 ≤ 2048 ∧ 1 ≤ bits v.toNat 8 8 ∧ bits v.toNat 8 8 ≤ bits v.toNat 16 12 ∧ s.injects 4 = false) ∧
    (∃ (s : State) (r : Bool) (n : Nat), r ≠ s.flag F.FRM_CFG_POL ∧ 50 ≤ n ∧ n < 100) ∧
    (∃ (s : State), s.frmState = 3 ∧ (s.pip + 65536 - ((s.get F.FRM_SYNC_SYNC_PIP + s.get F.FRM_CFG_WIN + 1) % 65536)) % 65536 < 32768 ∧ 2 ^ 47 / s.get F.FRM_INC_INC ≤ s.now - s.frm.lastWin) ∧
    (∃ (s : State), s.frmState = 3 ∧ (32768 ≤ (s.pip + 65536 - ((s.get F.FRM_SYNC_SYNC_PIP + s.get F.FRM_CFG_WIN + 1) % 65536)) % 65536 ∨ s.missDue = false) ∧ (((s.get F.FRM_SYNC_SYNC_PIP + s.get F.FRM_CFG_WIN + 1) % 65536) ≤ s.pip ∨ (s.toPip ((s.get F.FRM_SYNC_SYNC_PIP + s.get F.FRM_CFG_WIN + 1) % 65536)).missDue = false)) ∧
    (∃ (s : State), s.frmState ≠ 3) ∧
    (∃ (s : State), s.frmState = 4 ∧ s.flag F.SYS_STATE_XTAL_FAIL = true) ∧
    (∃ (s : State), (s.frmState ≠ 4 ∨ (s.flag F.SYS_STATE_XTAL_FAIL = false ∧ s.get F.FRM_STATE_HELD < s.get F.FRM_SYNC_HOLD_MAX))) ∧
    (∃ (v : Word) (s : State), s.writeOk 0x0400 = true ∧ (bits v.toNat 16 12 < 16 ∨ 2048 < bits v.toNat 16 12 ∨ bits v.toNat 8 8 = 0 ∨ bits v.toNat 16 12 < bits v.toNat 8 8) ∧ s.injects 4 = false) ∧
    (∃ (s : State), s.counting = false) :=
  ⟨⟨0, 0, false, (at_ .run [(F.FRM_STATE_STATE, 1)] : State), by decide +kernel⟩,
   ⟨0, 0, false, (at_ .boot [] : State), by decide +kernel⟩,
   ⟨(at_ .run [] : State), true, 100, by decide +kernel⟩,
   ⟨({ (at_ .run [(F.FRM_STATE_STATE, 3), (F.FRM_INC_INC, 175921860)]) with now := 10 ^ 7 } : State), by decide +kernel⟩,
   ⟨(at_ .run [(F.SYS_STATE_XTAL_FAIL, 0), (F.FRM_STATE_STATE, 4), (F.FRM_STATE_HELD, 64), (F.FRM_SYNC_HOLD_MAX, 64)] : State), by decide +kernel⟩,
   ⟨(at_ .run [(F.FRM_STATE_STATE, 3)] : State), by decide +kernel⟩,
   ⟨(at_ .run [(F.FRM_STATE_STATE, 3)] : State), by decide +kernel⟩,
   ⟨(at_ .run [] : State), by decide +kernel⟩,
   ⟨(at_ .run [] : State), by decide +kernel⟩,
   ⟨0x00100100, (at_ .run [] : State), by decide +kernel⟩,
   ⟨(at_ .run [] : State), true, 50, by decide +kernel⟩,
   ⟨({ ({ at_ .run [(F.FRM_STATE_STATE, 3), (F.FRM_INC_INC, 175921860)] with frm := { (at_ .run [(F.FRM_STATE_STATE, 3), (F.FRM_INC_INC, 175921860)]).frm with phase := 300 * 2 ^ 32 } }) with now := 10 ^ 7 } : State), by decide +kernel⟩,
   ⟨({ at_ .run [(F.FRM_STATE_STATE, 3), (F.FRM_INC_INC, 175921860)] with frm := { (at_ .run [(F.FRM_STATE_STATE, 3), (F.FRM_INC_INC, 175921860)]).frm with phase := 300 * 2 ^ 32 } } : State), by decide +kernel⟩,
   ⟨(at_ .run [] : State), by decide +kernel⟩,
   ⟨(at_ .run [(F.SYS_STATE_XTAL_FAIL, 1), (F.FRM_STATE_STATE, 4)] : State), by decide +kernel⟩,
   ⟨(at_ .run [] : State), by decide +kernel⟩,
   ⟨0, (at_ .run [] : State), by decide +kernel⟩,
   ⟨(at_ .run [] : State), by decide +kernel⟩⟩

theorem witness_FrameTimingCommands_more :
    (∃ (s : State), s.counting = false) ∧
    (∃ (s : State), s.flag F.FRM_CFG_EN = true ∧ s.frmState = 0) :=
  ⟨⟨(at_ .run [] : State), by decide +kernel⟩,
   ⟨(at_ .run [(F.FRM_CFG_EN, 1)] : State), by decide +kernel⟩⟩

theorem witness_MissesEnterHoldover :
    (∃ (s : State), s.frm.misses + 1 ≤ s.get F.FRM_CFG_MISS) ∧
    (∃ (s : State), s.get F.FRM_CFG_MISS ≤ s.frm.misses ∧ s.flag F.SYS_STATE_XTAL_FAIL = false ∧ 1 ≤ s.get F.FRM_SYNC_HOLD_MAX) ∧
    (∃ (s : State), s.get F.FRM_CFG_MISS ≤ s.frm.misses ∧ (s.flag F.SYS_STATE_XTAL_FAIL = true ∨ s.get F.FRM_SYNC_HOLD_MAX = 0)) :=
  ⟨⟨(at_ .run [] : State), by decide +kernel⟩,
   ⟨({ at_ .run [(F.SYS_STATE_XTAL_FAIL, 0), (F.FRM_SYNC_HOLD_MAX, 1)] with frm := { (at_ .run [(F.SYS_STATE_XTAL_FAIL, 0), (F.FRM_SYNC_HOLD_MAX, 1)]).frm with misses := 8 } } : State), by decide +kernel⟩,
   ⟨({ at_ .run [(F.SYS_STATE_XTAL_FAIL, 1), (F.SYS_STATE_XTAL_FAIL, 1)] with frm := { (at_ .run [(F.SYS_STATE_XTAL_FAIL, 1), (F.SYS_STATE_XTAL_FAIL, 1)]).frm with misses := 8 } } : State), by decide +kernel⟩⟩

theorem witness_MapsTakeTheirFrame :
    (∃ (s : State) (one : Bool), s.pip ≤ 61440) ∧
    (∃ (s : State) (m : Bool × Nat), s.frm.latched = false ∧ s.frm.pendMap = some m) ∧
    (∃ (s : State) (x : Nat), s.frm.latchMap = some (true, x)) ∧
    (∃ (s : State) (x : Nat), s.frm.latchMap = some (false, x)) ∧
    (∃ (s : State), s.frm.latchMap = none) ∧
    (∃ (s : State) (x : Nat), s.frm.firstLock = true ∧ s.frmState = 3) ∧
    (∃ (s : State) (one : Bool), s.counting = true ∧ 61440 < s.pip ∧ s.frm.latched = false) ∧
    (∃ (s : State) (one : Bool), (s.pip ≤ 61440 ∨ s.frm.latched = true) ∧ s.frm.pendMap.isSome = true) :=
  ⟨⟨(at_ .run [] : State), false, by decide +kernel⟩,
   ⟨({ at_ .run [] with frm := { (at_ .run []).frm with latched := false, pendMap := some ((false, 0) : Bool × Nat) } } : State), (false, 0), by decide +kernel⟩,
   ⟨({ at_ .run [] with frm := { (at_ .run []).frm with latchMap := some (true, (0 : Nat)) } } : State), 0, by decide +kernel⟩,
   ⟨({ at_ .run [] with frm := { (at_ .run []).frm with latchMap := some (false, (0 : Nat)) } } : State), 0, by decide +kernel⟩,
   ⟨({ at_ .run [] with frm := { (at_ .run []).frm with latchMap := none } } : State), by decide +kernel⟩,
   ⟨({ at_ .run [(F.FRM_STATE_STATE, 3)] with frm := { (at_ .run [(F.FRM_STATE_STATE, 3)]).frm with firstLock := true } } : State), 0, by decide +kernel⟩,
   ⟨({ at_ .run [(F.FRM_STATE_STATE, 3)] with frm := { (at_ .run [(F.FRM_STATE_STATE, 3)]).frm with latched := false, phase := 62000 * 2 ^ 32 } } : State), false, by decide +kernel⟩,
   ⟨({ at_ .run [] with frm := { (at_ .run []).frm with pendMap := some (true, 0) } } : State), false, by decide +kernel⟩⟩

theorem witness_SchedulerCommands :
    (∃ (n : Fin 32) (s : State), s.firing = true ∧ s.lateFire n = none ∧ s.duePip n (s.get (F.FRM_SLOT_CFG_PIP n)) = true ∧ s.pip ≤ (s.get (F.FRM_SLOT_CFG_PIP n)) + (s.lowerDue n (s.get (F.FRM_SLOT_CFG_PIP n))).length ∧ s.lowerWaits false n (s.get (F.FRM_SLOT_CFG_PIP n)) = false) ∧
    (∃ (n : Fin 32) (w : Nat) (s : State), s.firing = true ∧ s.lateFire n = some (true, w) ∧ s.lowerWaits true n (w % 65536) = false) ∧
    (∃ (n : Fin 32) (w : Nat) (s : State), s.firing = true ∧ s.lateFire n = some (false, w) ∧ s.lowerWaits false n (w % 65536) = false) ∧
    (∃ (k : Fin 12) (e : Nat) (s : State), tget s.frm.pulses k 0 = e + 1 ∧ ((e + 2 ^ 48 - pipCount (s.get F.FRM_FRAME_FRAME) 0) % 2 ^ 48) < 65536) ∧
    (∃ (k : Fin 12) (e : Nat) (s : State), tget s.frm.pulses k 0 = e + 1 ∧ 2 ^ 47 ≤ ((e + 2 ^ 48 - pipCount (s.get F.FRM_FRAME_FRAME) 0) % 2 ^ 48)) ∧
    (∃ (s : State), s.counting = true) ∧
    (∃ (s : State), s.counting = false) ∧
    (∃ (s : State), s.firing = true ∧ s.frm.probeDefer ≠ 0 ∧ s.segAt s.seg = 0) ∧
    (∃ (k : Nat) (s : State), s.firing = true ∧ s.frm.probeDefer ≠ 0 ∧ s.segAt s.seg ≠ 0 ∧ s.nextFree s.seg = some k) ∧
    (∃ (k : Nat) (s : State), s.mapsLive = true ∧ s.segAt s.seg = 2 ∧ ((List.range 32).find? fun j => decide (s.seg < j) && decide (s.segAt j ≠ 2)) = some k) ∧
    (∃ (s : State), s.mapsLive = true ∧ s.segAt s.seg = 2 ∧ ((List.range 32).find? fun j => decide (s.seg < j) && decide (s.segAt j ≠ 2)) = none) :=
  ⟨⟨0, (at_ .run [(F.FRM_STATE_STATE, 3), (F.FRM_SLOT_CFG_EN 0, 1)] : State), by decide +kernel⟩,
   ⟨0, 0, ({ at_ .run [(F.FRM_STATE_STATE, 3)] with frm := { (at_ .run [(F.FRM_STATE_STATE, 3)]).frm with late := tset [] 0 none (some (true, 0, 0)) } } : State), by decide +kernel⟩,
   ⟨0, 0, ({ at_ .run [(F.FRM_STATE_STATE, 3)] with frm := { (at_ .run [(F.FRM_STATE_STATE, 3)]).frm with late := tset [] 0 none (some (false, 0, 0)) } } : State), by decide +kernel⟩,
   ⟨0, 5, ({ at_ .run [] with frm := { (at_ .run []).frm with pulses := tset [] 0 0 6 } } : State), by decide +kernel⟩,
   ⟨0, (2 ^ 48 - 1), ({ at_ .run [] with frm := { (at_ .run []).frm with pulses := tset [] 0 0 (2 ^ 48) } } : State), by decide +kernel⟩,
   ⟨(at_ .run [(F.FRM_STATE_STATE, 3)] : State), by decide +kernel⟩,
   ⟨(at_ .run [] : State), by decide +kernel⟩,
   ⟨({ at_ .run [(F.FRM_STATE_STATE, 3)] with frm := { (at_ .run [(F.FRM_STATE_STATE, 3)]).frm with probeDefer := 1 } } : State), by decide +kernel⟩,
   ⟨1, (map_ ({ at_ .run [(F.FRM_STATE_STATE, 3)] with frm := { (at_ .run [(F.FRM_STATE_STATE, 3)]).frm with probeDefer := 1 } }) 1 : State), by decide +kernel⟩,
   ⟨1, (map_ (at_ .run [(F.FRM_STATE_STATE, 3)]) 2 : State), by decide +kernel⟩,
   ⟨(map_ (at_ .run [(F.FRM_STATE_STATE, 3)]) 0xAAAAAAAAAAAAAAAA : State), by decide +kernel⟩⟩

theorem witness_SlotActions :
    (∃ (s : State) (n : Nat) (w : Nat), bits w 24 4 = 1) ∧
    (∃ (s : State) (n : Nat) (w : Nat), bits w 24 4 = 2 ∧ s.gpioCode (bits w 16 8 % 16) = 0xA) ∧
    (∃ (s : State) (n : Nat) (w : Nat) (x : Nat), (bits w 24 4 = 3 ∧ x = 1 ∨ bits w 24 4 ∈ [4, 6, 7] ∧ x = 0) ∧ (s.crossing x n).1 = true) ∧
    (∃ (s t : State) (n w : Nat), bits w 24 4 = 3 ∧ s.crossing 1 n = (false, t)) ∧
    (∃ (s t : State) (n w : Nat), bits w 24 4 = 4 ∧ s.crossing 0 n = (false, t)) ∧
    (∃ (s : State) (n : Nat) (w : Nat), bits w 24 4 = 5) ∧
    (∃ (s t : State) (n w : Nat), bits w 24 4 = 6 ∧ s.crossing 0 n = (false, t)) ∧
    (∃ (s t : State) (n w : Nat), bits w 24 4 = 7 ∧ s.crossing 0 n = (false, t)) ∧
    (∃ (s : State) (n : Nat) (w : Nat), n < 32 ∧ bits w 24 4 = 5) :=
  ⟨⟨(at_ .run [] : State), 0, 0x01000000, by decide +kernel⟩,
   ⟨(claim_ (at_ .run []) 2 0 0 0xA : State), 0, 0x02000000, by decide +kernel⟩,
   ⟨({ (at_ .run []) with xpend := tset [] 32 0 5 } : State), 0, 0x03000000, 1, by decide +kernel⟩,
   ⟨State.reset, (State.reset.crossing 1 0).2, 0, 0x03000000, by decide +kernel, Prod.ext (by decide +kernel) rfl⟩,
   ⟨State.reset, (State.reset.crossing 0 0).2, 0, 0x04000000, by decide +kernel, Prod.ext (by decide +kernel) rfl⟩,
   ⟨(at_ .run [] : State), 0, 0x05000000, by decide +kernel⟩,
   ⟨State.reset, (State.reset.crossing 0 0).2, 0, 0x06000000, by decide +kernel, Prod.ext (by decide +kernel) rfl⟩,
   ⟨State.reset, (State.reset.crossing 0 0).2, 0, 0x07000000, by decide +kernel, Prod.ext (by decide +kernel) rfl⟩,
   ⟨(at_ .run [] : State), 0, 0x05000000, by decide +kernel⟩⟩

theorem witness_TargetPort :
    (∃ (s : State), s.twt.wait = none) ∧
    (∃ (o : TgtOp) (k : Nat) (s : State), s.twt.wait = some (o, k) ∧ s.targetOn = true ∧ s.targetFree o = true ∧ (({ s with twt := { s.twt with wait := none } } : State).targetRun o).twt.wait = none) ∧
    (∃ (o : TgtOp) (k : Nat) (s : State), s.twt.wait = some (o, k) ∧ s.targetOn = true ∧ s.targetFree o = false) ∧
    (∃ (o : TgtOp) (k : Nat) (s : State), s.twt.wait = some (o, k) ∧ s.targetOn = false) ∧
    (∃ (o : TgtOp) (s : State), ((∀ r, o ≠ .prog r))) ∧
    (∃ (a : BitVec 16) (d : List Word) (pec : Option Byte) (count : Byte) (s : State), (s.targetSettle).targetOn = true ∧ (s.targetSettle).freeHl ≠ 0 ∧ 1 ≤ d.length ∧ d.length ≤ 7 ∧ count.toNat = 2 + 4 * d.length ∧ ((pec = none ∧ (s.targetSettle).flag F.TWB_TGT_CFG_PEC_REQ = false) ∨ (∃ p, pec = some p ∧ (s.targetSettle).pecBad ([0x10, count] ++ leBytes 2 a.toNat ++ (d.map fun x => x.toNat).flatMap (leBytes 4)) p = false)) ∧ ((s.targetSettle).admitFrame true (wordAddrs a.toNat d.length)).1.targetStatus true a.toNat d.length = none) ∧
    (∃ (a : BitVec 16) (d : List Word) (pec : Option Byte) (count : Byte) (s : State) (c : Status), (s.targetSettle).targetOn = true ∧ (s.targetSettle).freeHl ≠ 0 ∧ 1 ≤ d.length ∧ d.length ≤ 7 ∧ count.toNat = 2 + 4 * d.length ∧ ((pec = none ∧ (s.targetSettle).flag F.TWB_TGT_CFG_PEC_REQ = false) ∨ (∃ p, pec = some p ∧ (s.targetSettle).pecBad ([0x10, count] ++ leBytes 2 a.toNat ++ (d.map fun x => x.toNat).flatMap (leBytes 4)) p = false)) ∧ ((s.targetSettle).admitFrame true (wordAddrs a.toNat d.length)).1.targetStatus true a.toNat d.length = some c) ∧
    (∃ (a : BitVec 16) (d : List Word) (pec : Option Byte) (count : Byte) (s : State), (s.targetSettle).targetOn = true ∧ (s.targetSettle).freeHl ≠ 0 ∧ (count.toNat < 6 ∨ 30 < count.toNat ∨ count.toNat % 4 ≠ 2)) ∧
    (∃ (a : BitVec 16) (d : List Word) (pec : Option Byte) (count : Byte) (s : State), (s.targetSettle).targetOn = true ∧ (s.targetSettle).freeHl ≠ 0 ∧ 6 ≤ count.toNat ∧ count.toNat ≤ 30 ∧ count.toNat % 4 = 2 ∧ (count.toNat ≠ 2 + 4 * d.length ∨ (pec = none ∧ (s.targetSettle).flag F.TWB_TGT_CFG_PEC_REQ = true))) ∧
    (∃ (a : BitVec 16) (d : List Word) (pec : Option Byte) (count : Byte) (s : State) (p : Byte), (s.targetSettle).targetOn = true ∧ (s.targetSettle).freeHl ≠ 0 ∧ 1 ≤ d.length ∧ d.length ≤ 7 ∧ count.toNat = 2 + 4 * d.length ∧ pec = some p ∧ (s.targetSettle).pecBad ([0x10, count] ++ leBytes 2 a.toNat ++ (d.map fun x => x.toNat).flatMap (leBytes 4)) p = true) ∧
    (∃ (a : BitVec 16) (n : BitVec 8) (s : State), (s.targetSettle).targetOn = true ∧ (s.targetSettle).freeHl ≠ 0 ∧ ((s.targetSettle).admitFrame false (wordAddrs a.toNat n.toNat)).1.targetStatus false a.toNat n.toNat = none ∧ ((s.targetSettle).admitFrame false (wordAddrs a.toNat n.toNat)).1.readBlocked (wordAddrs a.toNat n.toNat) = false) ∧
    (∃ (a : BitVec 16) (n : BitVec 8) (k : Bool) (s : State) (c : Status), (s.targetSettle).targetOn = true ∧ (s.targetSettle).freeHl ≠ 0 ∧ ((s.targetSettle).admitFrame false (wordAddrs a.toNat n.toNat)).1.targetStatus false a.toNat n.toNat = some c) ∧
    (∃ (a : BitVec 16) (n : BitVec 8) (k : Bool) (s : State), (s.targetSettle).targetOn = true ∧ (s.targetSettle).freeHl ≠ 0 ∧ ((s.targetSettle).admitFrame false (wordAddrs a.toNat n.toNat)).1.targetStatus false a.toNat n.toNat = none ∧ (((s.targetSettle).admitFrame false (wordAddrs a.toNat n.toNat)).1.readBlocked (wordAddrs a.toNat n.toNat) = true ∨ k = true)) ∧
    (∃ (a : BitVec 16) (d : List Word) (pec : Option Byte) (count : Byte) (s : State), (s.targetSettle).targetOn = true ∧ (s.targetSettle).freeHl = 0) ∧
    (∃ (a : BitVec 16) (n : BitVec 8) (k : Bool) (s : State), (s.targetSettle).targetOn = true ∧ (s.targetSettle).freeHl = 0) ∧
    (∃ (f : FrameStart) (a : BitVec 16) (d : List Word) (n : BitVec 8) (pec : Option Byte) (count : Byte) (k : Bool) (s : State), ((s.targetSettle).targetOn = false ∨ f ≠ .here)) ∧
    (∃ (w : Nat) (s : State), (s.targetSettle).targetOn = true ∧ (s.targetSettle).twt.word = some w) ∧
    (∃ (s : State), (s.targetSettle).targetOn = true ∧ (s.targetSettle).twt.word = none) :=
  ⟨⟨({ at_ .run [] with twt := { (at_ .run []).twt with wait := none } } : State), by decide +kernel⟩,
   ⟨(.read 0 1 false), 0, ({ at_ .run [] with twt := { (at_ .run []).twt with wait := some (((.read 0 1 false) : TgtOp), (0 : Nat)) } } : State), by decide +kernel⟩,
   ⟨(.read 0 1 false), 0, ({ at_ .run [] with twt := { (at_ .run []).twt with wait := some (.read 0 1 false, 0) }, hl := { (at_ .run []).hl with frames := List.replicate 12 ⟨0, false, 0, 0, 0, none⟩ } } : State), by decide +kernel⟩,
   ⟨(.read 0 1 false), 0, ({ at_ .park [] with twt := { (at_ .park []).twt with wait := some (((.read 0 1 false) : TgtOp), (0 : Nat)) } } : State), by decide +kernel⟩,
   ⟨(.read 0 1 false), (at_ .run [] : State), fun _ h => TgtOp.noConfusion h⟩,
   ⟨0, [0], none, 6, (at_ .run [] : State), by decide +kernel, by decide +kernel, by decide +kernel, by decide +kernel, by decide +kernel, Or.inl (by decide +kernel), by decide +kernel⟩,
   ⟨0x0800, [0], none, 6, (at_ .black [] : State), .refused, by decide +kernel, by decide +kernel, by decide +kernel, by decide +kernel, by decide +kernel, Or.inl (by decide +kernel), by decide +kernel⟩,
   ⟨0, [0], none, 0, (at_ .run [] : State), by decide +kernel⟩,
   ⟨0, [0], none, 10, (at_ .run [] : State), by decide +kernel⟩,
   ⟨0, [0], some 0, 6, (at_ .run [] : State), 0, by decide +kernel⟩,
   ⟨0, 1, (at_ .run [] : State), by decide +kernel⟩,
   ⟨0, 0, false, (at_ .run [] : State), .badFrame, by decide +kernel⟩,
   ⟨0, 1, true, (at_ .run [] : State), by decide +kernel⟩,
   ⟨0, [], none, 0, ({ at_ .run [] with hl := { (at_ .run []).hl with frames := List.replicate 12 ⟨0, false, 0, 0, 0, none⟩ } } : State), by decide +kernel⟩,
   ⟨0, 0, false, ({ at_ .run [] with hl := { (at_ .run []).hl with frames := List.replicate 12 ⟨0, false, 0, 0, 0, none⟩ } } : State), by decide +kernel⟩,
   ⟨.here, 0, [], 0, none, 0, false, (at_ .boot [] : State), by decide +kernel⟩,
   ⟨0, ({ at_ .run [] with twt := { (at_ .run []).twt with word := some 0 } } : State), by decide +kernel⟩,
   ⟨(at_ .run [] : State), by decide +kernel⟩⟩

theorem witness_TargetPort_more :
    (∃ (arg : BitVec 16) (p : Byte) (s : State), (s.targetSettle).watching = true ∧ (s.targetSettle).flag F.TWB_SLV_STAT_LOST = false ∧ (s.targetSettle).pecBad (0x20 :: leBytes 2 arg.toNat) p = false) ∧
    (∃ (arg : BitVec 16) (p : Byte) (s : State), (s.targetSettle).watching = true ∧ (s.targetSettle).flag F.TWB_SLV_STAT_LOST = true ∧ (s.targetSettle).pecBad (0x20 :: leBytes 2 arg.toNat) p = false) ∧
    (∃ (arg : BitVec 16) (p : Byte) (s : State), (s.targetSettle).watching = true ∧ (s.targetSettle).pecBad (0x20 :: leBytes 2 arg.toNat) p = true) ∧
    (∃ (arg : BitVec 16) (p : Byte) (s : State), (s.targetSettle).watching = true ∧ (s.targetSettle).pecBad (0x21 :: leBytes 2 arg.toNat) p = true) ∧
    (∃ (arg : BitVec 16) (p : Byte) (s : State), (s.targetSettle).watching = true ∧ (s.targetSettle).pecBad (0x21 :: leBytes 2 arg.toNat) p = false ∧ (s.targetSettle).flag F.TWB_SLV_STAT_LOST = true) ∧
    (∃ (arg : BitVec 16) (p : Byte) (s : State), (s.targetSettle).watching = true ∧ (s.targetSettle).pecBad (0x21 :: leBytes 2 arg.toNat) p = false ∧ (s.targetSettle).flag F.TWB_SLV_STAT_LOST = false ∧ 8 ≤ arg.toNat) ∧
    (∃ (arg : BitVec 16) (p : Byte) (s : State), (s.targetSettle).watching = true ∧ (s.targetSettle).pecBad (0x21 :: leBytes 2 arg.toNat) p = false ∧ (s.targetSettle).flag F.TWB_SLV_STAT_LOST = false ∧ arg.toNat < 8 ∧ (s.targetSettle).seq.queue.length < 8 ∧ (s.targetSettle).seq.qwait = []) ∧
    (∃ (arg : BitVec 16) (p : Byte) (s : State), (s.targetSettle).watching = true ∧ (s.targetSettle).pecBad (0x21 :: leBytes 2 arg.toNat) p = false ∧ (s.targetSettle).flag F.TWB_SLV_STAT_LOST = false ∧ arg.toNat < 8 ∧ (8 ≤ (s.targetSettle).seq.queue.length ∨ (s.targetSettle).seq.qwait ≠ [])) ∧
    (∃ (f : FrameStart) (arg : BitVec 16) (p : Byte) (s : State), ((s.targetSettle).watching = false ∨ f ≠ .here)) ∧
    (∃ (s : State), s.watching = true ∧ s.get F.TWB_SLV_STAT_MISS < 2) ∧
    (∃ (s : State), s.watching = true ∧ 2 ≤ s.get F.TWB_SLV_STAT_MISS ∧ s.flag F.TWB_SLV_STAT_LOST = false) ∧
    (∃ (s : State), s.watching = true ∧ 2 ≤ s.get F.TWB_SLV_STAT_MISS ∧ s.flag F.TWB_SLV_STAT_LOST = true) ∧
    (∃ (s : State), s.targetOn = true) ∧
    (∃ (t : Tx) (r : List Tx) (s : State), s.twc.queue = t :: r ∧ s.dev.mode = .run ∧ s.flag F.TWB_CTL_STAT_BUSY = true ∧ s.twc.retryWait = false) ∧
    (∃ (a : Bool) (b : Bool) (s : State), (s.targetOn = false ∨ a = false) ∧ (s.twc.queue = [] ∨ b = false ∨ s.dev.mode ≠ .run ∨ s.flag F.TWB_CTL_STAT_BUSY = false ∨ s.twc.retryWait = true)) ∧
    (∃ (s : State), (s.targetSettle).targetOn = true) ∧
    (∃ (s : State), (s.targetSettle).targetOn = false) :=
  ⟨⟨0, (byte (crc8 ([byte (2 * State.reset.get F.TWB_TGT_CFG_ADDR), 0x20] ++ leBytes 2 0))), (at_ .run [(F.SEQ_CFG_SAT_MODE, 1)] : State), by decide +kernel⟩,
   ⟨0, (byte (crc8 ([byte (2 * State.reset.get F.TWB_TGT_CFG_ADDR), 0x20] ++ leBytes 2 0))), (at_ .run [(F.SEQ_CFG_SAT_MODE, 1), (F.TWB_SLV_STAT_LOST, 1)] : State), by decide +kernel⟩,
   ⟨0, 1, (at_ .run [(F.SEQ_CFG_SAT_MODE, 1)] : State), by decide +kernel⟩,
   ⟨0, 1, (at_ .run [(F.SEQ_CFG_SAT_MODE, 1)] : State), by decide +kernel⟩,
   ⟨0, (byte (crc8 ([byte (2 * State.reset.get F.TWB_TGT_CFG_ADDR), 0x21] ++ leBytes 2 0))), (at_ .run [(F.SEQ_CFG_SAT_MODE, 1), (F.TWB_SLV_STAT_LOST, 1)] : State), by decide +kernel⟩,
   ⟨8, (byte (crc8 ([byte (2 * State.reset.get F.TWB_TGT_CFG_ADDR), 0x21] ++ leBytes 2 8))), (at_ .run [(F.SEQ_CFG_SAT_MODE, 1)] : State), by decide +kernel⟩,
   ⟨0, (byte (crc8 ([byte (2 * State.reset.get F.TWB_TGT_CFG_ADDR), 0x21] ++ leBytes 2 0))), (at_ .run [(F.SEQ_CFG_SAT_MODE, 1)] : State), by decide +kernel⟩,
   ⟨0, (byte (crc8 ([byte (2 * State.reset.get F.TWB_TGT_CFG_ADDR), 0x21] ++ leBytes 2 0))), ({ at_ .run [(F.SEQ_CFG_SAT_MODE, 1)] with seq := { (at_ .run [(F.SEQ_CFG_SAT_MODE, 1)]).seq with qwait := [(0, none)] } } : State), by decide +kernel⟩,
   ⟨.here, 0, 0, (at_ .run [] : State), by decide +kernel⟩,
   ⟨(at_ .run [(F.SEQ_CFG_SAT_MODE, 1)] : State), by decide +kernel⟩,
   ⟨(at_ .run [(F.TWB_SLV_STAT_LOST, 0), (F.SEQ_CFG_SAT_MODE, 1), (F.TWB_SLV_STAT_MISS, 2)] : State), by decide +kernel⟩,
   ⟨(at_ .run [(F.TWB_SLV_STAT_LOST, 1), (F.SEQ_CFG_SAT_MODE, 1), (F.TWB_SLV_STAT_MISS, 2)] : State), by decide +kernel⟩,
   ⟨(at_ .run [] : State), by decide +kernel⟩,
   ⟨⟨.host, 0x20, [], false, 0, none⟩, [], ({ at_ .run [(F.TWB_CTL_STAT_BUSY, 1)] with twc := { (at_ .run [(F.TWB_CTL_STAT_BUSY, 1)]).twc with queue := (⟨.host, 0x20, [], false, 0, none⟩ : Tx) :: ([] : List Tx), retryWait := false } } : State), by decide +kernel⟩,
   ⟨false, false, ({ at_ .run [] with twc := { (at_ .run []).twc with queue := [] } } : State), by decide +kernel⟩,
   ⟨(at_ .run [] : State), by decide +kernel⟩,
   ⟨(at_ .park [] : State), by decide +kernel⟩⟩

theorem witness_AlertInputs :
    (∃ (k : Fin 12) (s : State), s.targetOn = true ∧ s.coreRuns = true ∧ s.gpioCode k = 0xC) ∧
    (∃ (k : Fin 12) (s : State), s.targetOn = true ∧ s.gpioCode k = 0xC) ∧
    (∃ (k : Fin 12) (s : State), s.gpioCode k ≠ 0xC) :=
  ⟨⟨0, (claim_ (at_ .run []) 2 0 0 0xC : State), by decide +kernel⟩,
   ⟨0, (claim_ (at_ .run []) 2 0 0 0xC : State), by decide +kernel⟩,
   ⟨0, (at_ .run [] : State), by decide +kernel⟩⟩

theorem witness_ControllerCommands :
    (∃ (t : Tx) (r : List Tx) (p : Nat) (b : Bool) (c : Bool) (s : State), s.twc.queue = t :: r ∧ s.dev.mode = .run ∧ s.flag F.TWB_CTL_STAT_BUSY = false ∧ s.quietHolds F.FRM_QUIET_CFG_TWC_HOLD = false ∧ s.txUnowned t = false ∧ s.twc.recover = false) ∧
    (∃ (t : Tx) (r : List Tx) (d : List Byte) (s : State), s.twc.queue = t :: r ∧ s.dev.mode = .run ∧ s.flag F.TWB_CTL_STAT_BUSY = true ∧ s.twc.retryWait = false ∧ t.pecOk d = true) ∧
    (∃ (t : Tx) (r : List Tx) (d : List Byte) (s : State), s.twc.queue = t :: r ∧ s.dev.mode = .run ∧ s.flag F.TWB_CTL_STAT_BUSY = true ∧ s.twc.retryWait = false ∧ t.pecOk d = false) ∧
    (∃ (t : Tx) (r : List Tx) (d : List Byte) (s : State), s.twc.queue = t :: r ∧ s.dev.mode = .run ∧ s.flag F.TWB_CTL_STAT_BUSY = true ∧ s.twc.retryWait = false ∧ s.twc.repeats < s.get F.TWB_CTL_CFG_RETRY) ∧
    (∃ (t : Tx) (r : List Tx) (arb : Fin 4) (s : State), s.twc.queue = t :: r ∧ s.dev.mode = .run ∧ s.twc.retryWait = true ∧ (s.due s.twc.retryAt).quietHolds F.FRM_QUIET_CFG_TWC_HOLD = false ∧ arb.val ≠ 3) ∧
    (∃ (v : Word) (s : State), s.writeOk 0x3880 = true ∧ s.ownerBad 0x3880 = false ∧ s.wordBad 0x3880 v.toNat = false ∧ s.injects 4 = false) ∧
    (∃ (s : State), s.dev.mode = .run ∧ s.ownedBy 7 0 5 = true ∧ ((∀ k, k < 8 → s.get (F.TWB_SAT_STAT_STATE k) ≠ 3))) ∧
    (∃ (k : Nat) (a : Nat) (d : Nat) (p : List Byte) (s : State), s.dev.mode = .run ∧ s.ownedBy 7 0 5 = true ∧ k < 8 ∧ s.get (F.TWB_SAT_STAT_STATE k) = 3 ∧ s.satCfg k = some (a, d, p) ∧ ((∀ j, j < 8 → j ≠ k → s.get (F.TWB_SAT_STAT_STATE j) ≠ 3))) ∧
    (∃ (t : Tx) (r : List Tx) (s : State), s.twc.queue = t :: r ∧ s.dev.mode = .run ∧ s.twc.retryWait = true ∧ (s.due s.twc.retryAt).quietHolds F.FRM_QUIET_CFG_TWC_HOLD = false) ∧
    (∃ (t : Tx) (r : List Tx) (b : Bool) (p : Nat) (f : Bool) (c : Bool) (arb : Fin 4) (s : State), s.twc.queue = t :: r ∧ s.dev.mode = .run ∧ s.flag F.TWB_CTL_STAT_BUSY = false ∧ s.quietHolds F.FRM_QUIET_CFG_TWC_HOLD = false ∧ s.txUnowned t = true) ∧
    (∃ (t : Tx) (r : List Tx) (b : Bool) (p : Nat) (c : Bool) (arb : Fin 4) (s : State), s.twc.queue = t :: r ∧ s.dev.mode = .run ∧ s.flag F.TWB_CTL_STAT_BUSY = false ∧ s.quietHolds F.FRM_QUIET_CFG_TWC_HOLD = false ∧ s.txUnowned t = false ∧ (s.twc.recover = true ∨ b = true) ∧ 9 ≤ p) ∧
    (∃ (t : Tx) (r : List Tx) (b : Bool) (p : Nat) (c : Bool) (arb : Fin 4) (s : State), s.twc.queue = t :: r ∧ s.dev.mode = .run ∧ s.flag F.TWB_CTL_STAT_BUSY = false ∧ s.quietHolds F.FRM_QUIET_CFG_TWC_HOLD = false ∧ s.txUnowned t = false ∧ (s.twc.recover = true ∨ b = true) ∧ p < 9) ∧
    (∃ (t : Tx) (r : List Tx) (b : Bool) (p : Nat) (c : Bool) (arb : Fin 4) (s : State), s.twc.queue = t :: r ∧ s.dev.mode = .run ∧ s.flag F.TWB_CTL_STAT_BUSY = false ∧ s.quietHolds F.FRM_QUIET_CFG_TWC_HOLD = false ∧ s.txUnowned t = false ∧ arb.val ≠ 3) ∧
    (∃ (t : Tx) (r : List Tx) (b : Bool) (p : Nat) (c : Bool) (s : State), s.twc.queue = t :: r ∧ s.dev.mode = .run ∧ s.flag F.TWB_CTL_STAT_BUSY = false ∧ s.quietHolds F.FRM_QUIET_CFG_TWC_HOLD = false ∧ s.txUnowned t = false) ∧
    (∃ (b : Bool) (p : Nat) (f : Bool) (c : Bool) (arb : Fin 4) (s : State), (s.twc.queue = [] ∨ s.dev.mode ≠ .run ∨ s.flag F.TWB_CTL_STAT_BUSY = true ∨ s.quietHolds F.FRM_QUIET_CFG_TWC_HOLD = true)) ∧
    (∃ (t : Tx) (r : List Tx) (d : List Byte) (c : Fin 8) (s : State), s.twc.queue = t :: r ∧ s.dev.mode = .run ∧ s.flag F.TWB_CTL_STAT_BUSY = true ∧ s.twc.retryWait = false ∧ busEnds c = true ∧ c.val ≠ 0 ∧ (c.val ≠ 1 ∧ c.val ≠ 2 ∨ s.get F.TWB_CTL_CFG_RETRY ≤ s.twc.repeats)) ∧
    (∃ (d : List Byte) (c : Fin 8) (s : State), (c.val = 3 ∨ c.val = 4 ∨ c.val = 6 ∨ c.val = 7)) ∧
    (∃ (t : Tx) (r : List Tx) (arb : Fin 4) (s : State), s.twc.queue = t :: r ∧ s.dev.mode = .run ∧ s.twc.retryWait = true ∧ (s.due s.twc.retryAt).quietHolds F.FRM_QUIET_CFG_TWC_HOLD = true) :=
  ⟨⟨⟨.host, 0x20, [], false, 0, none⟩, [], 0, false, false, (claim_ ({ at_ .run [(F.TWB_CTL_STAT_BUSY, 0)] with twc := { (at_ .run [(F.TWB_CTL_STAT_BUSY, 0)]).twc with queue := (⟨.host, 0x20, [], false, 0, none⟩ : Tx) :: ([] : List Tx), recover := false } }) 7 0 5 0 : State), by decide +kernel⟩,
   ⟨⟨.host, 0x20, [], false, 0, none⟩, [], [], ({ at_ .run [(F.TWB_CTL_STAT_BUSY, 1)] with twc := { (at_ .run [(F.TWB_CTL_STAT_BUSY, 1)]).twc with queue := (⟨.host, 0x20, [], false, 0, none⟩ : Tx) :: ([] : List Tx), retryWait := false } } : State), by decide +kernel⟩,
   ⟨⟨.host, 0x20, [], true, 1, none⟩, [], [0, 1], ({ at_ .run [(F.TWB_CTL_STAT_BUSY, 1)] with twc := { (at_ .run [(F.TWB_CTL_STAT_BUSY, 1)]).twc with queue := (⟨.host, 0x20, [], true, 1, none⟩ : Tx) :: ([] : List Tx), retryWait := false } } : State), by decide +kernel⟩,
   ⟨⟨.host, 0x20, [], false, 0, none⟩, [], [], ({ at_ .run [(F.TWB_CTL_STAT_BUSY, 1), (F.TWB_CTL_CFG_RETRY, 1)] with twc := { (at_ .run [(F.TWB_CTL_STAT_BUSY, 1), (F.TWB_CTL_CFG_RETRY, 1)]).twc with queue := (⟨.host, 0x20, [], false, 0, none⟩ : Tx) :: ([] : List Tx), retryWait := false } } : State), by decide +kernel⟩,
   ⟨⟨.host, 0x20, [], false, 0, none⟩, [], 0, ({ at_ .run [] with twc := { (at_ .run []).twc with queue := (⟨.host, 0x20, [], false, 0, none⟩ : Tx) :: ([] : List Tx), retryWait := true } } : State), by decide +kernel⟩,
   ⟨0x00010100, (at_ .run [] : State), by decide +kernel⟩,
   ⟨(claim_ (at_ .run []) 7 0 5 0 : State), by decide +kernel⟩,
   ⟨0, 0x20, 0, [], (sat_ (claim_ (at_ .run [((F.TWB_SAT_STAT_STATE (0 : Nat)), 3), (F.TWB_SAT_STAT_STATE 0, 3)]) 7 0 5 0) 0 0x20 0 : State), by decide +kernel⟩,
   ⟨⟨.host, 0x20, [], false, 0, none⟩, [], ({ at_ .run [] with twc := { (at_ .run []).twc with queue := (⟨.host, 0x20, [], false, 0, none⟩ : Tx) :: ([] : List Tx), retryWait := true } } : State), by decide +kernel⟩,
   ⟨⟨.host, 0x20, [], false, 0, none⟩, [], false, 0, false, false, 0, ({ at_ .run [(F.TWB_CTL_STAT_BUSY, 0)] with twc := { (at_ .run [(F.TWB_CTL_STAT_BUSY, 0)]).twc with queue := (⟨.host, 0x20, [], false, 0, none⟩ : Tx) :: ([] : List Tx) } } : State), by decide +kernel⟩,
   ⟨⟨.host, 0x20, [], false, 0, none⟩, [], true, 9, false, 0, (claim_ ({ at_ .run [(F.TWB_CTL_STAT_BUSY, 0)] with twc := { (at_ .run [(F.TWB_CTL_STAT_BUSY, 0)]).twc with queue := (⟨.host, 0x20, [], false, 0, none⟩ : Tx) :: ([] : List Tx), recover := true } }) 7 0 5 0 : State), by decide +kernel⟩,
   ⟨⟨.host, 0x20, [], false, 0, none⟩, [], true, 0, false, 0, (claim_ ({ at_ .run [(F.TWB_CTL_STAT_BUSY, 0)] with twc := { (at_ .run [(F.TWB_CTL_STAT_BUSY, 0)]).twc with queue := (⟨.host, 0x20, [], false, 0, none⟩ : Tx) :: ([] : List Tx), recover := true } }) 7 0 5 0 : State), by decide +kernel⟩,
   ⟨⟨.host, 0x20, [], false, 0, none⟩, [], true, 0, false, 0, (claim_ ({ at_ .run [(F.TWB_CTL_STAT_BUSY, 0)] with twc := { (at_ .run [(F.TWB_CTL_STAT_BUSY, 0)]).twc with queue := (⟨.host, 0x20, [], false, 0, none⟩ : Tx) :: ([] : List Tx) } }) 7 0 5 0 : State), by decide +kernel⟩,
   ⟨⟨.host, 0x20, [], false, 0, none⟩, [], true, 0, false, (claim_ ({ at_ .run [(F.TWB_CTL_STAT_BUSY, 0)] with twc := { (at_ .run [(F.TWB_CTL_STAT_BUSY, 0)]).twc with queue := (⟨.host, 0x20, [], false, 0, none⟩ : Tx) :: ([] : List Tx) } }) 7 0 5 0 : State), by decide +kernel⟩,
   ⟨false, 0, false, false, 0, ({ at_ .run [] with twc := { (at_ .run []).twc with queue := [] } } : State), by decide +kernel⟩,
   ⟨⟨.host, 0x20, [], false, 0, none⟩, [], [], 5, ({ at_ .run [(F.TWB_CTL_STAT_BUSY, 1)] with twc := { (at_ .run [(F.TWB_CTL_STAT_BUSY, 1)]).twc with queue := (⟨.host, 0x20, [], false, 0, none⟩ : Tx) :: ([] : List Tx), retryWait := false } } : State), by decide +kernel⟩,
   ⟨[], 3, (at_ .run [] : State), by decide +kernel⟩,
   ⟨⟨.host, 0x20, [], false, 0, none⟩, [], 0, (map_ ({ at_ .run [(F.FRM_STATE_STATE, 3), (F.FRM_QUIET_CFG_TWC_HOLD, 1)] with twc := { (at_ .run [(F.FRM_STATE_STATE, 3), (F.FRM_QUIET_CFG_TWC_HOLD, 1)]).twc with queue := (⟨.host, 0x20, [], false, 0, none⟩ : Tx) :: ([] : List Tx), retryWait := true } }) 2 : State), by decide +kernel⟩⟩

theorem witness_ControllerCommands_more :
    ∃ (s : State) (t : Tx) (c : Nat) (d : List Byte), s.twc.waiting = [] ∧ t.kind = .host ∧ 0 < c ∧ c < 8 :=
  ⟨({ at_ .run [] with twc := { (at_ .run []).twc with waiting := [] } } : State), ⟨.host, 0x20, [], false, 0, none⟩, 1, [], by decide +kernel⟩

theorem witness_JournalCommands :
    (∃ (v : Nat) (ce : Nat) (c : Commit) (r : List Commit) (s : State), (s.jnlCorrected ce).jnl.busy = false ∧ (s.jnlCorrected ce).jnl.queue = c :: r ∧ (s.jnlCorrected ce).coreRuns = true ∧ (s.jnlCorrected ce).dev.vaoGood = true ∧ (s.jnlCorrected ce).dev.mode ≠ .boot ∧ c.producer ≠ .evidence ∧ (s.jnlCorrected ce).emptyCommit c = false ∧ ((s.jnlCorrected ce).jmin ≤ v ∨ (s.jnlCorrected ce).jnl.covered = true)) ∧
    (∃ (v : Nat) (ce : Nat) (c : Commit) (r : List Commit) (s : State), (s.jnlCorrected ce).jnl.busy = false ∧ (s.jnlCorrected ce).jnl.queue = c :: r ∧ (s.jnlCorrected ce).coreRuns = true ∧ (s.jnlCorrected ce).dev.vaoGood = true ∧ (s.jnlCorrected ce).dev.mode ≠ .boot ∧ c.producer = .evidence ∧ (s.jnlCorrected ce).emptyCommit c = false ∧ ((s.jnlCorrected ce).jmin ≤ v ∨ (s.jnlCorrected ce).jnl.covered = true)) ∧
    (∃ (v : Nat) (ce : Nat) (c : Commit) (r : List Commit) (s : State), (s.jnlCorrected ce).jnl.busy = false ∧ (s.jnlCorrected ce).jnl.queue = c :: r ∧ (s.jnlCorrected ce).coreRuns = true ∧ (s.jnlCorrected ce).dev.vaoGood = true ∧ (s.jnlCorrected ce).dev.mode ≠ .boot ∧ (s.jnlCorrected ce).emptyCommit c = false ∧ v < (s.jnlCorrected ce).jmin ∧ (s.jnlCorrected ce).jnl.covered = false) ∧
    (∃ (v : Nat) (ce : Nat) (c : Commit) (r : List Commit) (s : State), (s.jnlCorrected ce).jnl.busy = false ∧ (s.jnlCorrected ce).jnl.queue = c :: r ∧ (s.jnlCorrected ce).coreRuns = true ∧ (s.jnlCorrected ce).dev.vaoGood = true ∧ (s.jnlCorrected ce).dev.mode ≠ .boot ∧ (s.jnlCorrected ce).emptyCommit c = true) ∧
    (∃ (v : Nat) (ce : Nat) (s : State), ((s.jnlCorrected ce).dev.mode = .boot ∨ (s.jnlCorrected ce).coreRuns = false ∨ (s.jnlCorrected ce).dev.vaoGood = false ∨ (s.jnlCorrected ce).jnl.busy = true ∨ (s.jnlCorrected ce).jnl.queue = [])) ∧
    (∃ (c : Commit) (r : List Commit) (s : State), s.jnl.busy = true ∧ s.jnl.queue = c :: r ∧ (((({ s.commitBytes c.kind c.body with jnl := { s.jnl with queue := r, busy := false, covered := decide (c.producer = .update ∧ dropPair c (r ++ s.jnl.waiting) ≠ r ++ s.jnl.waiting) } } : State).jnlPump.incWrapF F.JNL_CNT_COMMITS).commitDone c).dev.stage ≠ .commit)) ∧
    (∃ (c : Commit) (r : List Commit) (s : State), s.jnl.busy = true ∧ s.jnl.queue = c :: r ∧ (((({ s.commitBytes c.kind c.body with jnl := { s.jnl with queue := r, busy := false, covered := decide (c.producer = .update ∧ dropPair c (r ++ s.jnl.waiting) ≠ r ++ s.jnl.waiting) } } : State).jnlPump.incWrapF F.JNL_CNT_COMMITS).commitDone c).dev.stage = .commit)) ∧
    (∃ (s : State) (c : Commit) (r : List Commit) (v : Nat), (c.producer = .satellite ∨ c.producer = .fault ∨ c.producer = .evidence)) :=
  ⟨⟨10000, 0, ⟨.gauge, 1, [], .none⟩, [], ({ at_ .run [] with jnl := { (at_ .run []).jnl with queue := [⟨.gauge, 1, [], .none⟩] } } : State), by decide +kernel⟩,
   ⟨10000, 0, ⟨.evidence, 5, [], .none⟩, [], ({ at_ .run [] with jnl := { (at_ .run []).jnl with queue := [⟨.evidence, 5, [], .none⟩] }, wdg := { (at_ .run []).wdg with latch := some [] } } : State), by decide +kernel⟩,
   ⟨0, 0, ⟨.gauge, 1, [], .none⟩, [], ({ at_ .run [] with jnl := { (at_ .run []).jnl with queue := [⟨.gauge, 1, [], .none⟩] } } : State), by decide +kernel⟩,
   ⟨10000, 0, ⟨.fault, 4, [], .none⟩, [], ({ at_ .run [] with jnl := { (at_ .run []).jnl with queue := [⟨.fault, 4, [], .none⟩] } } : State), by decide +kernel⟩,
   ⟨0, 0, (at_ .run [] : State), by decide +kernel⟩,
   ⟨⟨.gauge, 1, [], .none⟩, [], ({ at_ .run [] with jnl := { (at_ .run []).jnl with busy := true, queue := (⟨.gauge, 1, [], .none⟩ : Commit) :: ([] : List Commit) } } : State), by decide +kernel⟩,
   ⟨⟨.gauge, 1, [], .none⟩, [], ({ at_ .run [] with jnl := { (at_ .run []).jnl with busy := true, queue := (⟨.gauge, 1, [], .none⟩ : Commit) :: ([] : List Commit) }, dev := { (at_ .run []).dev with stage := .commit } } : State), by decide +kernel⟩,
   ⟨(at_ .run [] : State), ⟨.satellite, 1, [], .none⟩, [], 0, by decide +kernel⟩⟩

theorem witness_JournalReadBack :
    (∃ (s : State) (k : Nat) (b : List Byte), 1 ≤ k ∧ k ≤ 7 ∧ s.newest (area k) = none) ∧
    (∃ (s : State) (k : Nat) (p : Nat) (b : List Byte), 1 ≤ k ∧ k ≤ 7 ∧ s.newest (area k) = some p) ∧
    (∃ (s : State) (k : Nat) (p : Nat) (a : Nat) (b : List Byte), 1 ≤ k ∧ k ≤ 7 ∧ p = (match s.newest (area k) with | none => 0 | some q => (q + 1) % (area k).count) ∧ (a < (area k).base + p * (area k).size ∨ (area k).base + (p + 1) * (area k).size ≤ a)) :=
  ⟨⟨(at_ .run [] : State), 1, [], by decide +kernel⟩,
   ⟨(State.reset.commitBytes 1 [] : State), 1, 0, [], by decide +kernel⟩,
   ⟨(at_ .run [] : State), 1, 0, (area 1).base + (area 1).size, [], by decide +kernel⟩⟩

theorem witness_QueuesAreFifo :
    ∃ (s : State) (t : Tx), 8 ≤ s.twc.queue.length :=
  ⟨({ at_ .run [] with twc := { (at_ .run []).twc with queue := List.replicate 8 ⟨.host, 0x20, [], false, 0, none⟩ } } : State), ⟨.host, 0x20, [], false, 0, none⟩, by decide +kernel⟩

theorem witness_ConverterCommands :
    (∃ (v : Word) (s : State), s.writeOk 0x2420 = true ∧ v.toNat % 128 ≤ 103 ∧ s.ainRefused (v.toNat % 128) = false ∧ s.injects 4 = false) ∧
    (∃ (n : Fin 4) (v : Word) (s : State), s.writeOk (0x2430 + 4 * n) = true ∧ v.toNat % 128 ≤ 103 ∧ s.ainRefused (v.toNat % 128) = false ∧ s.dblMember n = false ∧ s.injects 4 = false) ∧
    (∃ (c : Fin 4) (q : AdcReq) (r : List AdcReq) (s : State), s.dev.mode = .run ∧ tget s.adc.cvs c none = none ∧ (takeFirst (fun q => decide (q.kind = 3 ∧ q.cv = c.val)) s.adc.queue = some (q, r))) ∧
    (∃ (c : Fin 4) (x : Nat × Nat) (r : List (Nat × Nat)) (s : State), s.dev.mode = .run ∧ tget s.adc.cvs c none = none ∧ s.dblMember c = false ∧ s.adc.queue = [] ∧ s.adcHeld = false ∧ takeFirst (fun x => decide (x.2 = c.val)) s.adc.scan = some (x, r)) ∧
    (∃ (c : Fin 4) (code : BitVec 12) (v : Conv) (s : State), s.dev.mode = .run ∧ tget s.adc.cvs c none = some v ∧ v.kind ≠ 3 ∧ v.kind ≠ 4) ∧
    (∃ (c : Fin 4) (code : BitVec 12) (v : Conv) (s : State), s.dev.mode = .run ∧ tget s.adc.cvs c none = some v ∧ v.kind = 3) ∧
    (∃ (c : Fin 4) (code : BitVec 12) (v : Conv) (s : State), s.dev.mode = .run ∧ tget s.adc.cvs c none = some v ∧ v.kind = 4) ∧
    (∃ (c : Fin 4) (code : BitVec 12) (s : State), s.dev.mode = .run ∧ tget s.adc.cvs c none = none ∧ s.dblMember c = true ∧ c.val % 2 = (if s.adc.dblOdd = true then 1 else 0) ∧ (s.adc.dblHeld = false ∨ s.get F.SEQ_STAT_PHASE ≠ 6)) ∧
    (∃ s : State, s.dev.mode = .run ∧ s.flag F.ADC_CFG_SCAN = true ∧ s.adc.scan = [] ∧ s.adc.roundAt = none ∧
    ∀ c v, c < 4 → tget s.adc.cvs c none = some v → v.kind ≠ 0) ∧
    (∃ (q : AdcReq) (r : List AdcReq) (s : State), s.dev.mode = .run ∧ s.dblAct = true ∧ s.adc.capture = none ∧ (takeFirst (fun q => decide (q.kind = 2 ∧ q.ch = s.adc.dblCh)) s.adc.queue = some (q, r)) ∧ q.late = false) ∧
    (∃ (p : Nat) (l : List Nat) (s : State), s.adc.capture = some (p, l) ∧ l.length = 64) ∧
    (∃ (v : Word) (s : State), s.writeOk 0x2440 = true ∧ (bitOf v.toNat 31 = false ∨ s.flag F.ADC_DBL_CFG_CLAIMED = true) ∧ v.toNat % 128 ≤ 103 ∧ s.ainRefused (v.toNat % 128) = false ∧ s.injects 4 = false) ∧
    (∃ (n : Fin 32) (v : Word) (s : State), s.writeOk (0x2500 + 8 * n) = true ∧ s.ownedBy 5 n hostOwner = true ∧ bits v.toNat 0 12 ≤ bits v.toNat 16 12 ∧ s.injects 4 = false) ∧
    (∃ (c : Fin 4) (q : AdcReq) (r : List AdcReq) (s : State), s.dev.mode = .run ∧ tget s.adc.cvs c none = none ∧ s.dblMember c = false ∧ (takeFirst (fun q => decide (q.kind = 3 ∧ q.cv = c.val)) s.adc.queue = none) ∧ takeFirst (fun q => decide (q.kind = 2) && !s.onDoubles q) s.adc.queue = some (q, r) ∧ q.late = false) ∧
    (∃ (c : Fin 4) (q : AdcReq) (r : List AdcReq) (s : State), s.dev.mode = .run ∧ tget s.adc.cvs c none = none ∧ s.dblMember c = false ∧ (takeFirst (fun q => decide (q.kind = 3 ∧ q.cv = c.val)) s.adc.queue = none) ∧ takeFirst (fun q => decide (q.kind = 2) && !s.onDoubles q) s.adc.queue = some (q, r) ∧ q.late = true) ∧
    (∃ (c : Fin 4) (q : AdcReq) (r : List AdcReq) (s : State), s.dev.mode = .run ∧ tget s.adc.cvs c none = none ∧ s.dblMember c = false ∧ (takeFirst (fun q => decide (q.kind = 3 ∧ q.cv = c.val)) s.adc.queue = none) ∧ takeFirst (fun q => decide (q.kind = 2) && !s.onDoubles q) s.adc.queue = none ∧ s.adcHeld = false ∧ takeFirst (fun (q : AdcReq) => decide (q.kind = 1) && !s.onDoubles q) s.adc.queue = some (q, r)) ∧
    (∃ (c : Fin 4) (s : State), s.dev.mode = .run ∧ tget s.adc.cvs c none = none ∧ s.dblMember c = false ∧ (takeFirst (fun q => decide (q.kind = 3 ∧ q.cv = c.val)) s.adc.queue = none) ∧ takeFirst (fun q => decide (q.kind = 2) && !s.onDoubles q) s.adc.queue = none ∧ s.adcHeld = true ∧ s.adc.scan ≠ []) ∧
    (∃ (c : Fin 4) (s : State), s.dev.mode = .run ∧ tget s.adc.cvs c none = none ∧ s.dblMember c = true ∧ (takeFirst (fun q => decide (q.kind = 3 ∧ q.cv = c.val)) s.adc.queue = none)) :=
  ⟨⟨0, (at_ .run [] : State), by decide +kernel⟩,
   ⟨0, 0, (at_ .run [] : State), by decide +kernel⟩,
   ⟨0, ⟨3, 64, 0, 0, false, none⟩, [], ({ at_ .run [] with adc := { (at_ .run []).adc with queue := [⟨3, 64, 0, 0, false, none⟩] } } : State), by decide +kernel⟩,
   ⟨0, (64, 0), [], ({ at_ .run [] with adc := { (at_ .run []).adc with queue := [], scan := [(64, 0)] } } : State), by decide +kernel⟩,
   ⟨0, 0, ⟨1, 64, 0, none⟩, ({ at_ .run [] with adc := { (at_ .run []).adc with cvs := tset [] 0 none (some ⟨1, 64, 0, none⟩) } } : State), by decide +kernel⟩,
   ⟨0, 0, ⟨3, 64, 0, none⟩, ({ at_ .run [] with adc := { (at_ .run []).adc with cvs := tset [] 0 none (some ⟨3, 64, 0, none⟩) } } : State), by decide +kernel⟩,
   ⟨0, 0, ⟨4, 0, 0, none⟩, ({ at_ .run [] with adc := { (at_ .run []).adc with cvs := tset [] 0 none (some ⟨4, 0, 0, none⟩) } } : State), by decide +kernel⟩,
   ⟨0, 0, ({ at_ .run [(F.ADC_STAT_DBL_ACT, 1)] with adc := { (at_ .run [(F.ADC_STAT_DBL_ACT, 1)]).adc with dblHeld := false } } : State), by decide +kernel⟩,
   ⟨at_ .run [], by decide +kernel, by decide +kernel, by decide +kernel, by decide +kernel,
    fun c v _ h => by cases (rfl : tget (at_ .run []).adc.cvs c none = none).symm.trans h⟩,
   ⟨⟨2, 0, 0, 0, false, none⟩, [], ({ at_ .run [(F.ADC_STAT_DBL_ACT, 1)] with adc := { (at_ .run [(F.ADC_STAT_DBL_ACT, 1)]).adc with capture := none, queue := [⟨2, 0, 0, 0, false, none⟩], dblCh := 0 } } : State), by decide +kernel⟩,
   ⟨0, List.replicate 64 0, ({ at_ .run [] with adc := { (at_ .run []).adc with capture := some ((0 : Nat), (List.replicate 64 0 : List Nat)) } } : State), by decide +kernel⟩,
   ⟨0, (at_ .run [] : State), by decide +kernel⟩,
   ⟨0, 0, (claim_ (at_ .run []) 5 0 0x1F 0 : State), by decide +kernel⟩,
   ⟨0, ⟨2, 64, 0, 0, false, none⟩, [], ({ at_ .run [] with adc := { (at_ .run []).adc with queue := [⟨2, 64, 0, 0, false, none⟩] } } : State), by decide +kernel⟩,
   ⟨0, ⟨2, 64, 0, 0, true, none⟩, [], ({ at_ .run [] with adc := { (at_ .run []).adc with queue := [⟨2, 64, 0, 0, true, none⟩] } } : State), by decide +kernel⟩,
   ⟨0, ⟨1, 64, 0, 0, false, none⟩, [], ({ at_ .run [] with adc := { (at_ .run []).adc with queue := [⟨1, 64, 0, 0, false, none⟩] } } : State), by decide +kernel⟩,
   ⟨0, (map_ ({ at_ .run [(F.FRM_STATE_STATE, 3), (F.FRM_QUIET_CFG_ADC_HOLD, 1)] with adc := { (at_ .run [(F.FRM_STATE_STATE, 3), (F.FRM_QUIET_CFG_ADC_HOLD, 1)]).adc with scan := [(64, 0)] } }) 2 : State), by decide +kernel⟩,
   ⟨0, (at_ .run [(F.ADC_STAT_DBL_ACT, 1)] : State), by decide +kernel⟩⟩

theorem witness_ConverterCommands_more :
    (∃ (c : Fin 4) (s : State), (s.dev.mode ≠ .run ∨ (tget s.adc.cvs c none).isSome = true)) ∧
    (∃ (v : Word) (s : State), s.writeOk 0x2420 = true ∧ (103 < v.toNat % 128 ∨ s.ainRefused (v.toNat % 128) = true) ∧ s.injects 4 = false) ∧
    (∃ (n : Fin 4) (v : Word) (s : State), s.writeOk (0x2430 + 4 * n) = true ∧ (103 < v.toNat % 128 ∨ s.ainRefused (v.toNat % 128) = true ∨ s.dblMember n = true) ∧ s.injects 4 = false) ∧
    (∃ (q : AdcReq) (r : List AdcReq) (s : State), s.dev.mode = .run ∧ s.dblAct = true ∧ s.adc.capture = none ∧ (takeFirst (fun q => decide (q.kind = 2 ∧ q.ch = s.adc.dblCh)) s.adc.queue = some (q, r)) ∧ q.late = true) ∧
    (∃ (p : Nat) (l : List Nat) (s : State), s.adc.capture = some (p, l) ∧ l.length ≠ 64) ∧
    (∃ (s : State), s.adc.capture = none) ∧
    (∃ (n : Fin 32) (v : Word) (t : Bool) (s : State), s.writeOk (0x2500 + 8 * n) = true ∧ s.ownedBy 5 n hostOwner = true ∧ winReserved t v.toNat = true ∧ s.injects 4 = false) ∧
    (∃ (n : Fin 32) (v : Word) (t : Bool) (s : State), s.writeOk (0x2500 + 8 * n) = true ∧ s.ownedBy 5 n hostOwner = false ∧ s.injects 4 = false) ∧
    (∃ (n : Fin 32) (v : Word) (s : State), s.writeOk (0x2500 + 8 * n) = true ∧ s.ownedBy 5 n hostOwner = true ∧ winReserved false v.toNat = false ∧ s.ainRefused (bits v.toNat 0 7) = false ∧ s.injects 4 = false) ∧
    (∃ (v : Word) (s : State), s.writeOk 0x2440 = true ∧ ((bitOf v.toNat 31 = true ∧ s.flag F.ADC_DBL_CFG_CLAIMED = false) ∨ 103 < v.toNat % 128 ∨ s.ainRefused (v.toNat % 128) = true) ∧ s.injects 4 = false) ∧
    (∃ (c : Fin 4) (code : BitVec 12) (s : State), s.dev.mode ≠ .run) ∧
    (∃ (s : State), (s.dev.mode ≠ .run ∨ s.flag F.ADC_CFG_SCAN = false ∨ s.scanBusy = true)) :=
  ⟨⟨0, (at_ .boot [] : State), by decide +kernel⟩,
   ⟨104, (at_ .run [] : State), by decide +kernel⟩,
   ⟨0, 104, (at_ .run [] : State), by decide +kernel⟩,
   ⟨⟨2, 0, 0, 0, true, none⟩, [], ({ at_ .run [(F.ADC_STAT_DBL_ACT, 1)] with adc := { (at_ .run [(F.ADC_STAT_DBL_ACT, 1)]).adc with capture := none, queue := [⟨2, 0, 0, 0, true, none⟩], dblCh := 0 } } : State), by decide +kernel⟩,
   ⟨0, [], ({ at_ .run [] with adc := { (at_ .run []).adc with capture := some ((0 : Nat), ([] : List Nat)) } } : State), by decide +kernel⟩,
   ⟨({ at_ .run [] with adc := { (at_ .run []).adc with capture := none } } : State), by decide +kernel⟩,
   ⟨0, 0, false, (claim_ (at_ .run []) 5 0 0x1F 0 : State), by decide +kernel⟩,
   ⟨0, 0, false, (at_ .run [] : State), by decide +kernel⟩,
   ⟨0, 0x01000000, (claim_ (at_ .run []) 5 0 0x1F 0 : State), by decide +kernel⟩,
   ⟨104, (at_ .run [] : State), by decide +kernel⟩,
   ⟨0, 0, (at_ .boot [] : State), by decide +kernel⟩,
   ⟨(at_ .boot [] : State), by decide +kernel⟩⟩

theorem witness_ResultsAndWindows :
    (∃ (s : State) (k : Nat) (ch : Nat) (cv : Nat) (c : Nat), ch < 64 ∧ ((∀ n, n < 32 → s.flag (F.ADC_WIN_CFG_EN n) = false))) ∧
    (∃ (s : State) (n : Nat) (ch : Nat) (c : Nat), n < 32 ∧ s.bitF F.ADC_WIN_STATE_ALARM n = false ∧ s.winAlarm n c = true ∧ (tget s.adc.win n (0, 0)).1 + 1 < s.get (F.ADC_WIN_CFG_FILT n)) ∧
    (∃ (s : State) (n : Nat) (ch : Nat) (c : Nat), n < 32 ∧ s.bitF F.ADC_WIN_STATE_ALARM n = false ∧ s.winAlarm n c = true ∧ s.get (F.ADC_WIN_CFG_FILT n) ≤ (tget s.adc.win n (0, 0)).1 + 1 ∧ s.winOwner n ≠ fltOwner) ∧
    (∃ (s : State) (n : Nat) (ch : Nat) (c : Nat), n < 32 ∧ s.bitF F.ADC_WIN_STATE_ALARM n = false ∧ s.winAlarm n c = false) :=
  ⟨⟨(at_ .run [] : State), 0, 0, 0, 0, by decide +kernel⟩,
   ⟨(at_ .run [(F.ADC_WIN_CFG_FILT 0, 2), (F.ADC_WIN_THR_HI 0, 100)] : State), 0, 0, 4095, by decide +kernel⟩,
   ⟨(at_ .run [(F.ADC_WIN_CFG_FILT 0, 1), (F.ADC_WIN_THR_HI 0, 100)] : State), 0, 0, 4095, by decide +kernel⟩,
   ⟨(at_ .run [] : State), 0, 0, 0, by decide +kernel⟩⟩

theorem witness_ThermalCommands :
    (∃ (s : State), s.dev.mode = .run ∧ s.thm.waits = [] ∧ (({ s.due s.thm.next with thm := { (s.due s.thm.next).thm with next := (s.due s.thm.next).now + 100 * engPerUs } }).thmInputs.filter fun ch => ({ s.due s.thm.next with thm := { (s.due s.thm.next).thm with next := (s.due s.thm.next).now + 100 * engPerUs } }).stale ch) = []) ∧
    (∃ (ch : Nat) (s : State), s.thmInputs.filter (fun c => s.stale c) = [ch]) ∧
    (∃ (ch : Nat) (s : State), s.dev.mode = .run ∧ s.thm.waits = [] ∧ (({ s.due s.thm.next with thm := { (s.due s.thm.next).thm with next := (s.due s.thm.next).now + 100 * engPerUs } }).thmInputs.filter fun c => ({ s.due s.thm.next with thm := { (s.due s.thm.next).thm with next := (s.due s.thm.next).now + 100 * engPerUs } }).stale c) = [ch]) ∧
    (∃ (s : State) (ch : Nat), s.thm.waits = [ch]) ∧
    (∃ (s : State) (ch : Nat), ch ∉ s.thm.waits) ∧
    (∃ (k : Fin 10) (s : State), (s.dev.mode = .black ∨ s.dev.mode = .boot) ∧ s.dev.stage ≠ .waiting) ∧
    (∃ (k : Fin 10) (s : State), (s.dev.mode = .run ∨ s.dev.mode = .park) ∧ s.dev.stage ≠ .waiting) ∧
    (∃ (s : State), s.dev.mode = .hibernate ∧ s.flag F.THM_STAT_LATCH = true ∧ (s.dev.wakeLatch = 0 ∨ s.aoGood = false)) ∧
    (∃ (s : State), s.dev.mode = .hibernate ∧ s.flag F.THM_STAT_LATCH = true ∧ s.dev.wakeLatch ≠ 0 ∧ s.aoGood = true) ∧
    (∃ (s : State) (t : Int) (w : Int) (k : Nat), s.thm.jWarn = false ∧ t < w) ∧
    (∃ (s : State) (t : Int) (w : Int) (k : Nat), s.thm.jWarn = true ∧ w - 8 * s.get F.THM_CFG_HYST ≤ t) ∧
    (∃ (s : State) (t : Int) (w : Int) (k : Nat), s.thm.jWarn = false ∧ w ≤ t) ∧
    (∃ (s : State) (t : Int) (w : Int) (k : Nat), s.thm.jWarn = true ∧ s.thm.bWarn = false ∧ t < w - 8 * s.get F.THM_CFG_HYST) :=
  ⟨⟨({ at_ .run [] with thm := { (at_ .run []).thm with waits := [] }, adc := { (at_ .run []).adc with times := [64, 66, 68, 69, 70, 71, 72, 73, 74, 75, 76, 77].foldl (fun m c => tset m c 0 1) [] } } : State), by decide +kernel⟩,
   ⟨64, ({ at_ .run [] with adc := { (at_ .run []).adc with times := [66, 68, 69, 70, 71, 72, 73, 74, 75, 76, 77].map fun c => (c, 1) } } : State), by decide +kernel⟩,
   ⟨64, ({ at_ .run [] with thm := { (at_ .run []).thm with waits := [] }, adc := { (at_ .run []).adc with times := [66, 68, 69, 70, 71, 72, 73, 74, 75, 76, 77].foldl (fun m c => tset m c 0 1) [] } } : State), by decide +kernel⟩,
   ⟨({ at_ .run [] with thm := { (at_ .run []).thm with waits := [(0 : Nat)] } } : State), 0, by decide +kernel⟩,
   ⟨(at_ .run [] : State), 0, by decide +kernel⟩,
   ⟨0, (at_ .black [] : State), by decide +kernel⟩,
   ⟨0, (at_ .run [] : State), by decide +kernel⟩,
   ⟨({ at_ .hibernate [(F.THM_STAT_LATCH, 1)] with dev := { (at_ .hibernate [(F.THM_STAT_LATCH, 1)]).dev with wakeLatch := 0 } } : State), by decide +kernel⟩,
   ⟨({ at_ .hibernate [(F.THM_STAT_LATCH, 1)] with dev := { (at_ .hibernate [(F.THM_STAT_LATCH, 1)]).dev with wakeLatch := 1 } } : State), by decide +kernel⟩,
   ⟨({ at_ .run [] with thm := { (at_ .run []).thm with jWarn := false } } : State), 0, 1, 0, by decide +kernel⟩,
   ⟨({ at_ .run [] with thm := { (at_ .run []).thm with jWarn := true } } : State), 0, 0, 0, by decide +kernel⟩,
   ⟨({ at_ .run [] with thm := { (at_ .run []).thm with jWarn := false } } : State), 0, 0, 0, by decide +kernel⟩,
   ⟨({ at_ .run [] with thm := { (at_ .run []).thm with jWarn := true, bWarn := false } } : State), (-1000), 0, 0, by decide +kernel⟩⟩

theorem witness_OtpCommands :
    (∃ (v : Word) (s : State), s.writeOk 0x4008 = true ∧ s.flag F.OTP_RD_STAT_BUSY = false ∧ s.injects 4 = false) ∧
    (∃ (w : Nat) (s : State), s.otp.reading = some w) ∧
    (∃ (s : State), s.writeOk 0x4020 = true ∧ s.flag F.OTP_PROG_STAT_BUSY = false ∧ s.otpRefusal (s.get F.OTP_PROG_ADDR_WORD) (s.get F.OTP_PROG_DATA_DATA) = 0 ∧ s.injects 4 = false) ∧
    (∃ (s : State), s.writeOk 0x4020 = true ∧ s.flag F.OTP_PROG_STAT_BUSY = false ∧ s.advanceRefusal = 0 ∧ s.injects 4 = false) ∧
    (∃ (w : Nat) (d : Nat) (s : State), s.otp.prog = some (w, d) ∧ (s.otpBurn w d).otpVerified w ((s.otpWord w).next d) = true) ∧
    (∃ (w : Nat) (d : Nat) (s : State), s.otp.prog = some (w, d)) ∧
    (∃ (w : Nat) (c : Nat) (k : Nat) (s : State), s.coreRuns = true ∧ s.dev.mode ≠ .boot ∧ (c ≠ 0 ∨ s.otp.advancing = false ∨ s.otpReport.image.rollback ≤ s.otpReport.otpCounter)) ∧
    (∃ (w : Nat) (k : Nat) (s : State), s.coreRuns = true ∧ s.dev.mode ≠ .boot ∧ s.otp.advancing = true ∧ s.otpReport.otpCounter < s.otpReport.image.rollback) ∧
    (∃ (w : Nat) (c : Nat) (k : Nat) (s : State), s.coreRuns = false) ∧
    (∃ (s : State), s.writeOk 0x4020 = true ∧ s.flag F.OTP_PROG_STAT_BUSY = false ∧ s.otpRefusal (s.get F.OTP_PROG_ADDR_WORD) (s.get F.OTP_PROG_DATA_DATA) ≠ 0 ∧ s.injects 4 = false) ∧
    (∃ (s : State), s.writeOk 0x4020 = true ∧ s.flag F.OTP_PROG_STAT_BUSY = false ∧ s.advanceRefusal ≠ 0 ∧ s.injects 4 = false) ∧
    (∃ (s : State), s.writeOk 0x4020 = true ∧ s.flag F.OTP_PROG_STAT_BUSY = true ∧ s.injects 4 = false) ∧
    (∃ (s : State), s.writeOk 0x4020 = true ∧ s.flag F.OTP_PROG_STAT_BUSY = true ∧ s.injects 4 = false) ∧
    (∃ (v : Word) (s : State), s.writeOk 0x4008 = true ∧ s.flag F.OTP_RD_STAT_BUSY = true ∧ s.injects 4 = false) ∧
    (∃ (s : State) (w : Nat) (c : Nat) (k : Nat), 1 ≤ c ∧ c ≤ 8) ∧
    (∃ (w : Nat) (e : Fin 3) (s : State), s.otp.reading = some w) ∧
    (∃ (e : Fin 3) (s : State), s.otp.reading = none) ∧
    (∃ (ok : Bool) (s : State), s.otp.prog = none) :=
  ⟨⟨0, (at_ .run [(F.OTP_RD_STAT_BUSY, 0)] : State), by decide +kernel⟩,
   ⟨0, ({ at_ .run [] with otp := { (at_ .run []).otp with reading := some (0 : Nat) } } : State), by decide +kernel⟩,
   ⟨(at_ .run [(F.OTP_PROG_STAT_BUSY, 0), (F.PP_FE_STAT_SRC, 0), (F.OTP_PROG_DATA_DATA, 1)] : State), by decide +kernel⟩,
   ⟨({ (at_ .run [(F.OTP_PROG_STAT_BUSY, 0), (F.PP_FE_STAT_SRC, 0)]) with image := { ((at_ .run [(F.OTP_PROG_STAT_BUSY, 0), (F.PP_FE_STAT_SRC, 0)])).image with rollback := 1 } } : State), by decide +kernel⟩,
   ⟨0, 0, ({ at_ .run [] with otp := { (at_ .run []).otp with prog := some ((0 : Nat), (0 : Nat)) } } : State), by decide +kernel⟩,
   ⟨0, 0, ({ at_ .run [] with otp := { (at_ .run []).otp with prog := some ((0 : Nat), (0 : Nat)) } } : State), by decide +kernel⟩,
   ⟨0, 0, 0, (at_ .run [] : State), by decide +kernel⟩,
   ⟨0, 0, ({ ({ at_ .run [] with otp := { (at_ .run []).otp with advancing := true } }) with image := { (({ at_ .run [] with otp := { (at_ .run []).otp with advancing := true } })).image with rollback := 1 } } : State), by decide +kernel⟩,
   ⟨0, 0, 0, (at_ .hibernate [] : State), by decide +kernel⟩,
   ⟨(at_ .run [(F.OTP_PROG_STAT_BUSY, 0)] : State), by decide +kernel⟩,
   ⟨(at_ .run [(F.OTP_PROG_STAT_BUSY, 0)] : State), by decide +kernel⟩,
   ⟨(at_ .run [(F.OTP_PROG_STAT_BUSY, 1)] : State), by decide +kernel⟩,
   ⟨(at_ .run [(F.OTP_PROG_STAT_BUSY, 1)] : State), by decide +kernel⟩,
   ⟨0, (at_ .run [(F.OTP_RD_STAT_BUSY, 1)] : State), by decide +kernel⟩,
   ⟨(at_ .run [] : State), 0, 1, 0, by decide +kernel⟩,
   ⟨0, 0, ({ at_ .run [] with otp := { (at_ .run []).otp with reading := some (0 : Nat) } } : State), by decide +kernel⟩,
   ⟨0, ({ at_ .run [] with otp := { (at_ .run []).otp with reading := none } } : State), by decide +kernel⟩,
   ⟨false, ({ at_ .run [] with otp := { (at_ .run []).otp with prog := none } } : State), by decide +kernel⟩⟩

theorem witness_OtpBitsOnlySet :
    (∃ (s : State) (w : Nat) (d : Nat), (s.otpWord w).data < 2 ^ 32 ∧ d < 2 ^ 32 ∧ (s.otpWord w).value = (s.otpWord w).data ∧ (s.otpWord w).spare = 0) ∧
    (∃ (s : State) (w : Nat) (d : Nat) (i : Nat), (s.otpWord w).data.testBit i = true) ∧
    (∃ (s : State) (w : Nat) (d : Nat) (i : Nat), (s.otpWord w).data.testBit i = false ∧ (s.otpWord w).value.testBit i = false ∧ d.testBit i = false) ∧
    (∃ (s : State) (w : Nat) (d : Nat) (v : Nat), v ≠ w) :=
  ⟨⟨(at_ .run [] : State), 0, 0, by decide +kernel⟩,
   ⟨({ (at_ .run []) with nv := { ((at_ .run [])).nv with otp := tset ((at_ .run [])).nv.otp 0 (((at_ .run [])).otpWord 0) ⟨1, [], 0⟩ } } : State), 0, 0, 0, by decide +kernel⟩,
   ⟨(at_ .run [] : State), 0, 0, 0, by decide +kernel⟩,
   ⟨(at_ .run [] : State), 0, 0, 1, by decide +kernel⟩⟩

theorem witness_VerifierCommands :
    (∃ (s : State), s.writeOk 0x3C08 = true ∧ s.flag F.SEC_STAT_TFAIL = false ∧ s.injects 4 = false) ∧
    (∃ (s : State), s.writeOk 0x3C08 = true ∧ s.flag F.SEC_STAT_TFAIL = true ∧ s.injects 4 = false) ∧
    (∃ (n : Nonce) (r : List Nonce) (s : State), s.sec.nonces = n :: r) ∧
    (∃ (s : State), s.sec.nonces = []) ∧
    (∃ (s : State), s.writeOk 0x3C20 = true ∧ s.flag F.SEC_RESULT_BUSY = false ∧ s.updVerifying = false ∧ s.injects 4 = false) ∧
    (∃ (s : State), s.writeOk 0x3C20 = true ∧ s.injects 4 = false ∧ s.flag F.SEC_RESULT_BUSY = false ∧ s.updVerifying = true) ∧
    (∃ (s : State), s.writeOk 0x3C20 = true ∧ s.flag F.SEC_RESULT_BUSY = true ∧ s.injects 4 = false) ∧
    (∃ (s : State), s.writeOk 0x3C20 = true ∧ s.flag F.SEC_RESULT_BUSY = false ∧ s.updVerifying = false ∧ s.injects 4 = false) ∧
    (∃ (s : State), s.writeOk 0x3C20 = true ∧ s.flag F.SEC_RESULT_BUSY = true ∧ s.injects 4 = false) ∧
    (∃ (x : Submission) (s : State), s.sec.sub = some x ∧ x.stage = 0 ∧ (s.dev.mode = .run ∨ s.dev.mode = .black) ∧ s.subChecks x ≠ 0) ∧
    (∃ (x : Submission) (s : State), s.sec.sub = some x ∧ x.stage = 0 ∧ (s.dev.mode = .run ∨ s.dev.mode = .black) ∧ s.subChecks x = 0 ∧ ((if x.window = true then s else s.consume x.bytes)).lateChecks x (s.sec.nonces.any (fun n => decide (n.words = nonceOf x.bytes))) = 0) ∧
    (∃ (x : Submission) (s : State), s.sec.sub = some x ∧ x.stage = 0 ∧ (s.dev.mode = .run ∨ s.dev.mode = .black) ∧ s.subChecks x = 0 ∧ ((if x.window = true then s else s.consume x.bytes)).lateChecks x (s.sec.nonces.any (fun n => decide (n.words = nonceOf x.bytes))) ≠ 0) ∧
    (∃ (s : State), (((s.dev.mode ≠ .run ∧ s.dev.mode ≠ .black) ∨ s.sec.sub = none ∨ ∃ x, s.sec.sub = some x ∧ x.stage ≠ 0))) ∧
    (∃ (x : Submission) (s : State), s.sec.sub = some x ∧ x.stage = 2 ∧ x.anchor = true) ∧
    (∃ (x : Submission) (s : State), s.sec.sub = some x ∧ x.stage = 2 ∧ x.anchor = false ∧ (s.secTake (s.secBody x)).guardBlocked (leField x.bytes 24 1) = false) ∧
    (∃ (x : Submission) (s : State), s.sec.sub = some x ∧ x.stage = 2 ∧ x.anchor = false ∧ (s.secTake (s.secBody x)).guardBlocked (leField x.bytes 24 1) = true) ∧
    (∃ (s : State), ((s.sec.sub = none ∨ ∃ x, s.sec.sub = some x ∧ x.stage ≠ 2))) ∧
    (∃ (s : State), s.coreRuns = true ∧ s.flag F.SEC_STAT_TFAIL = false) :=
  ⟨⟨(at_ .run [(F.SEC_STAT_TFAIL, 0)] : State), by decide +kernel⟩,
   ⟨(at_ .run [(F.SEC_STAT_TFAIL, 1)] : State), by decide +kernel⟩,
   ⟨⟨0, [], 0⟩, [], ({ at_ .run [] with sec := { (at_ .run []).sec with nonces := (⟨0, [], 0⟩ : Nonce) :: ([] : List Nonce) } } : State), by decide +kernel⟩,
   ⟨({ at_ .run [] with sec := { (at_ .run []).sec with nonces := [] } } : State), by decide +kernel⟩,
   ⟨(at_ .run [(F.SEC_RESULT_BUSY, 0)] : State), by decide +kernel⟩,
   ⟨(at_ .run [(F.SEC_RESULT_BUSY, 0), (F.UPD_STAT_PHASE, 3), (F.UPD_STAT_BUSY, 1)] : State), by decide +kernel⟩,
   ⟨(at_ .run [(F.SEC_RESULT_BUSY, 1)] : State), by decide +kernel⟩,
   ⟨(at_ .run [(F.SEC_RESULT_BUSY, 0)] : State), by decide +kernel⟩,
   ⟨(at_ .run [(F.SEC_RESULT_BUSY, 1)] : State), by decide +kernel⟩,
   ⟨⟨false, [], 0, none⟩, ({ at_ .run [] with sec := { (at_ .run []).sec with sub := some (⟨false, [], 0, none⟩ : Submission) } } : State), by decide +kernel⟩,
   ⟨⟨false, grant_, 0, none⟩, ({ at_ .run [(F.SYS_BOOT_STATUS_OWNER_OPEN, 0)] with sec := { (at_ .run [(F.SYS_BOOT_STATUS_OWNER_OPEN, 0)]).sec with sub := some (⟨false, grant_, 0, none⟩ : Submission), ownerKey := key_, nonces := [⟨0, nonceOf grant_, 0⟩] } } : State), by decide +kernel⟩,
   ⟨⟨false, grant_, 0, none⟩, ({ at_ .run [(F.SYS_BOOT_STATUS_OWNER_OPEN, 0)] with sec := { (at_ .run [(F.SYS_BOOT_STATUS_OWNER_OPEN, 0)]).sec with sub := some (⟨false, grant_, 0, none⟩ : Submission), ownerKey := key_ } } : State), by decide +kernel⟩,
   ⟨(at_ .run [] : State), by decide +kernel⟩,
   ⟨⟨true, [], 2, none⟩, ({ at_ .run [] with sec := { (at_ .run []).sec with sub := some (⟨true, [], 2, none⟩ : Submission) } } : State), by decide +kernel⟩,
   ⟨⟨false, [], 2, none⟩, ({ at_ .run [] with sec := { (at_ .run []).sec with sub := some (⟨false, [], 2, none⟩ : Submission) } } : State), by decide +kernel⟩,
   ⟨⟨false, grant_, 2, none⟩, ({ at_ .black [] with sec := { (at_ .black []).sec with sub := some (⟨false, grant_, 2, none⟩ : Submission) } } : State), by decide +kernel⟩,
   ⟨({ at_ .run [] with sec := { (at_ .run []).sec with sub := none } } : State), by decide +kernel⟩,
   ⟨(at_ .run [(F.SEC_STAT_TFAIL, 0)] : State), by decide +kernel⟩⟩

theorem witness_VerifierCommands_more :
    ∃ (s : State), (s.coreRuns = false ∨ s.flag F.SEC_STAT_TFAIL = true) :=
  ⟨(at_ .run [(F.SEC_STAT_TFAIL, 1)] : State), by decide +kernel⟩

theorem witness_NoncesServeOnce :
    (∃ (s : State), s.writeOk 0x3C08 = true ∧ s.injects 4 = false ∧ s.flag F.SEC_STAT_TFAIL = false ∧ s.sec.nonces.length ≤ 4) ∧
    (∃ (s : State), s.writeOk 0x3C08 = true ∧ s.injects 4 = false ∧ s.flag F.SEC_STAT_TFAIL = false) ∧
    (∃ (s : State), s.writeOk 0x3C08 = true ∧ s.flag F.SEC_STAT_TFAIL = true ∧ s.injects 4 = false) :=
  ⟨⟨(at_ .run [(F.SEC_STAT_TFAIL, 0)] : State), by decide +kernel⟩,
   ⟨(at_ .run [(F.SEC_STAT_TFAIL, 0)] : State), by decide +kernel⟩,
   ⟨(at_ .run [(F.SEC_STAT_TFAIL, 1)] : State), by decide +kernel⟩⟩

theorem witness_UpdateCommands :
    (∃ (n : Fin 2) (s : State), s.writeOk 0x4804 = true ∧ s.injects 4 = false ∧ (s.updPhase = 0 ∨ s.updPhase = 4 ∨ s.updPhase = 5) ∧ bits (s.get F.SYS_OTP_ALARM_REGION) 0 2 = 0 ∧ (s.dev.mode ≠ .run ∨ s.get F.SYS_STATE_SLOT ≠ n)) ∧
    (∃ (s : State), s.updPhase = 1 ∧ s.updBusy = true ∧ s.upd.held = false ∧ s.upd.ending = none) ∧
    (∃ (v : Word) (s : State), s.writeOk 0x4A00 = true ∧ s.injects 4 = false ∧ s.updBusy = false ∧ s.updPhase = 2 ∧ s.upd.seen ≠ [] ∧ v.toNat % 2 ^ 19 % 256 = 0 ∧ v.toNat % 2 ^ 19 < s.get F.UPD_LEN_L ∧ (v.toNat % 2 ^ 19) ∉ s.upd.seen ∧ s.quietHolds F.FRM_QUIET_CFG_NVM_HOLD = false) ∧
    (∃ (o : Nat) (s : State), s.upd.block = some o ∧ s.updPhase = 2 ∧ s.updBusy = true ∧ s.upd.held = false ∧ s.upd.ending = none) ∧
    (∃ (s : State), s.writeOk 0x4804 = true ∧ s.updBusy = false ∧ s.updPhase = 2 ∧ s.upd.seen ≠ [] ∧ s.get F.UPD_LEN_L ≤ s.get F.UPD_STAT_BLOCKS * 256 ∧ s.injects 4 = false) ∧
    (∃ (s u : State) (n : Nat), s.updPhase = 3 ∧ s.updBusy = true ∧ s.upd.held = false ∧ s.upd.ending = none ∧ n = s.get F.UPD_STAT_SLOT ∧
    s.bootBase.bodyCheck n (s.slotBytes n 0 512) = .ok u ∧ s.marked n (s.slotBytes n 0 512) = false ∧ s.invalidDigest n = none) ∧
    (∃ (s : State), s.writeOk 0x4804 = true ∧ s.updPhase = 4 ∧ s.injects 4 = false) ∧
    (∃ (s : State), s.writeOk 0x4804 = true ∧ s.updRuns = true ∧ s.updBusy = false ∧ s.injects 4 = false) ∧
    (∃ (s : State), s.writeOk 0x4804 = true ∧ s.updRuns = true ∧ s.updBusy = true ∧ s.upd.held = true ∧ s.injects 4 = false) ∧
    (∃ (s : State), s.writeOk 0x4804 = true ∧ s.updRuns = true ∧ s.updBusy = true ∧ s.upd.held = false ∧ s.injects 4 = false) ∧
    (∃ (s : State), ((s.dev.mode = .run ∨ s.dev.mode = .recovery)) ∧ s.dev.stage = .none ∧ s.updRuns = true ∧ s.updBusy = false) ∧
    (∃ (v : Word) (s : State), s.writeOk 0x4820 = true ∧ s.injects 4 = false) ∧
    (∃ (v : Word) (s : State), s.writeOk 0x4A00 = true ∧ s.updBusy = false ∧ s.updPhase = 2 ∧ s.upd.seen = [] ∧ v.toNat % 2 ^ 19 = 0 ∧ s.headerCheck s.updBuf = 0 ∧ s.injects 4 = false) ∧
    (∃ (v : Word) (s : State), s.writeOk 0x4A00 = true ∧ s.updBusy = false ∧ s.updPhase = 2 ∧ s.upd.seen = [] ∧ v.toNat % 2 ^ 19 = 0 ∧ s.headerCheck s.updBuf ≠ 0 ∧ s.injects 4 = false) ∧
    (∃ (v : Word) (s : State), s.writeOk 0x4A00 = true ∧ s.updBusy = false ∧ s.updPhase = 2 ∧ s.upd.seen = [] ∧ v.toNat % 2 ^ 19 ≠ 0 ∧ s.injects 4 = false) ∧
    (∃ (v : Word) (s : State), s.writeOk 0x4A00 = true ∧ s.updBusy = false ∧ s.updPhase = 2 ∧ s.upd.seen ≠ [] ∧ (v.toNat % 2 ^ 19 % 256 ≠ 0 ∨ s.get F.UPD_LEN_L ≤ v.toNat % 2 ^ 19 ∨ (v.toNat % 2 ^ 19) ∈ s.upd.seen) ∧ s.injects 4 = false) ∧
    (∃ (v : Word) (s : State), s.writeOk 0x4A00 = true ∧ s.updBusy = true ∧ s.injects 4 = false) ∧
    (∃ (v : Word) (s : State), s.writeOk 0x4A00 = true ∧ s.updBusy = false ∧ s.updPhase ≠ 2 ∧ s.injects 4 = false) :=
  ⟨⟨0, (at_ .run [(F.SYS_STATE_SLOT, 1)] : State), by decide +kernel⟩,
   ⟨({ at_ .run [(F.UPD_STAT_PHASE, 1), (F.UPD_STAT_BUSY, 1)] with upd := { (at_ .run [(F.UPD_STAT_PHASE, 1), (F.UPD_STAT_BUSY, 1)]).upd with held := false, ending := none } } : State), by decide +kernel⟩,
   ⟨0x100, ({ at_ .run [(F.UPD_STAT_PHASE, 2), (F.UPD_STAT_BUSY, 0), (F.UPD_LEN_L, 0x1000)] with upd := { (at_ .run [(F.UPD_STAT_PHASE, 2), (F.UPD_STAT_BUSY, 0), (F.UPD_LEN_L, 0x1000)]).upd with seen := [0] } } : State), by decide +kernel⟩,
   ⟨0, ({ at_ .run [(F.UPD_STAT_PHASE, 2), (F.UPD_STAT_BUSY, 1)] with upd := { (at_ .run [(F.UPD_STAT_PHASE, 2), (F.UPD_STAT_BUSY, 1)]).upd with block := some (0 : Nat), held := false, ending := none } } : State), by decide +kernel⟩,
   ⟨({ at_ .run [(F.UPD_STAT_PHASE, 2), (F.UPD_STAT_BUSY, 0)] with upd := { (at_ .run [(F.UPD_STAT_PHASE, 2), (F.UPD_STAT_BUSY, 0)]).upd with seen := [0] } } : State), by decide +kernel⟩,
   (have h := ok_ (verifying_.bootBase.bodyCheck 0 (verifying_.slotBytes 0 0 512)) (by decide +kernel)
  ⟨verifying_, h.choose, 0,
    by decide +kernel, by decide +kernel, by decide +kernel, by decide +kernel, by decide +kernel, h.choose_spec, by decide +kernel, by decide +kernel⟩),
   ⟨(at_ .run [(F.UPD_STAT_PHASE, 4), (F.UPD_STAT_BUSY, 0)] : State), by decide +kernel⟩,
   ⟨(at_ .run [(F.UPD_STAT_PHASE, 1), (F.UPD_STAT_BUSY, 0)] : State), by decide +kernel⟩,
   ⟨({ at_ .run [(F.UPD_STAT_PHASE, 1), (F.UPD_STAT_BUSY, 0), (F.UPD_STAT_BUSY, 1)] with upd := { (at_ .run [(F.UPD_STAT_PHASE, 1), (F.UPD_STAT_BUSY, 0), (F.UPD_STAT_BUSY, 1)]).upd with held := true } } : State), by decide +kernel⟩,
   ⟨({ at_ .run [(F.UPD_STAT_PHASE, 1), (F.UPD_STAT_BUSY, 1)] with upd := { (at_ .run [(F.UPD_STAT_PHASE, 1), (F.UPD_STAT_BUSY, 1)]).upd with held := false } } : State), by decide +kernel⟩,
   ⟨({ at_ .run [(F.UPD_STAT_PHASE, 1), (F.UPD_STAT_BUSY, 0)] with dev := { (at_ .run [(F.UPD_STAT_PHASE, 1), (F.UPD_STAT_BUSY, 0)]).dev with stage := .none } } : State), by decide +kernel⟩,
   ⟨0, (at_ .run [] : State), by decide +kernel⟩,
   ⟨0, (buf_ ({ at_ .run [(F.UPD_STAT_PHASE, 2), (F.UPD_STAT_BUSY, 0)] with upd := { (at_ .run [(F.UPD_STAT_PHASE, 2), (F.UPD_STAT_BUSY, 0)]).upd with seen := [] } }) : State), by decide +kernel⟩,
   ⟨0, ({ at_ .run [(F.UPD_STAT_PHASE, 2), (F.UPD_STAT_BUSY, 0)] with upd := { (at_ .run [(F.UPD_STAT_PHASE, 2), (F.UPD_STAT_BUSY, 0)]).upd with seen := [] } } : State), by decide +kernel⟩,
   ⟨0x100, ({ at_ .run [(F.UPD_STAT_PHASE, 2), (F.UPD_STAT_BUSY, 0)] with upd := { (at_ .run [(F.UPD_STAT_PHASE, 2), (F.UPD_STAT_BUSY, 0)]).upd with seen := [] } } : State), by decide +kernel⟩,
   ⟨1, ({ at_ .run [(F.UPD_STAT_PHASE, 2), (F.UPD_STAT_BUSY, 0)] with upd := { (at_ .run [(F.UPD_STAT_PHASE, 2), (F.UPD_STAT_BUSY, 0)]).upd with seen := [0] } } : State), by decide +kernel⟩,
   ⟨0, (at_ .run [(F.UPD_STAT_PHASE, 2), (F.UPD_STAT_BUSY, 1)] : State), by decide +kernel⟩,
   ⟨0, (at_ .run [] : State), by decide +kernel⟩⟩

theorem witness_UpdateCommands_more :
    (∃ (v : Word) (s : State), s.writeOk 0x4A00 = true ∧ s.updBusy = false ∧ s.updPhase = 2 ∧ s.upd.seen ≠ [] ∧ v.toNat % 2 ^ 19 % 256 = 0 ∧ v.toNat % 2 ^ 19 < s.get F.UPD_LEN_L ∧ (v.toNat % 2 ^ 19) ∉ s.upd.seen ∧ s.quietHolds F.FRM_QUIET_CFG_NVM_HOLD = true ∧ s.injects 4 = false) ∧
    (∃ (s : State), s.updPhase = 1 ∧ s.updBusy = true ∧ s.upd.held = false ∧ s.upd.ending = none) ∧
    (∃ (o : Nat) (s : State), s.upd.block = some o ∧ s.updPhase = 2 ∧ s.updBusy = true ∧ s.upd.held = false ∧ s.upd.ending = none) ∧
    (∃ (c : Nat) (s : State), s.updPhase = 1 ∧ s.updBusy = true ∧ s.upd.held = false ∧ s.upd.ending = some c ∧ c ≠ 7) ∧
    (∃ (c : Nat) (o : Nat) (s : State), s.upd.block = some o ∧ s.updPhase = 2 ∧ s.updBusy = true ∧ s.upd.held = false ∧ s.upd.ending = some c ∧ c ≠ 7) ∧
    (∃ (s : State) (n : Nat) (f : SlotFail), s.updPhase = 3 ∧ s.updBusy = true ∧ s.upd.held = false ∧ s.upd.ending = none ∧ n = s.get F.UPD_STAT_SLOT ∧
    s.bootBase.bodyCheck n (s.slotBytes n 0 512) = .error f) ∧
    (∃ (n : Fin 2) (s : State), s.writeOk 0x4804 = true ∧ s.injects 4 = false ∧ (s.updPhase ≠ 0 ∧ s.updPhase ≠ 4 ∧ s.updPhase ≠ 5)) ∧
    (∃ (n : Fin 2) (s : State), s.writeOk 0x4804 = true ∧ s.injects 4 = false ∧ (s.updPhase = 0 ∨ s.updPhase = 4 ∨ s.updPhase = 5) ∧ bits (s.get F.SYS_OTP_ALARM_REGION) 0 2 ≠ 0) ∧
    (∃ (n : Fin 2) (s : State), s.writeOk 0x4804 = true ∧ s.injects 4 = false ∧ (s.updPhase = 0 ∨ s.updPhase = 4 ∨ s.updPhase = 5) ∧ bits (s.get F.SYS_OTP_ALARM_REGION) 0 2 = 0 ∧ s.dev.mode = .run ∧ s.get F.SYS_STATE_SLOT = n) ∧
    (∃ (s : State), s.writeOk 0x4804 = true ∧ (s.updBusy = true ∨ s.updPhase ≠ 2 ∨ s.upd.seen = [] ∨ s.get F.UPD_STAT_BLOCKS * 256 < s.get F.UPD_LEN_L) ∧ s.injects 4 = false) ∧
    (∃ (s : State), s.writeOk 0x4804 = true ∧ s.updPhase ≠ 4 ∧ s.injects 4 = false) ∧
    (∃ (s : State), s.writeOk 0x4804 = true ∧ s.updRuns = false ∧ s.injects 4 = false) ∧
    (∃ (s : State) (n : Nat), (s.dev.mode = .run ∨ s.dev.mode = .recovery) ∧ s.dev.stage = .none) ∧
    (∃ (s : State), (s.dev.mode = .run ∨ s.dev.mode = .recovery) ∧ s.dev.stage = .none ∧ s.updPhase = 4) ∧
    (∃ (s : State), (s.dev.mode = .run ∨ s.dev.mode = .recovery) ∧ s.dev.stage = .none ∧ s.updPhase = 3) ∧
    (∃ (s : State), (s.dev.mode = .run ∨ s.dev.mode = .recovery) ∧ s.dev.stage = .none ∧ s.updBusy = true ∧ s.upd.held = false) ∧
    (∃ (s : State), s.upd.ended = true ∧ s.updPhase = 1) ∧
    (∃ (s : State), s.upd.ended = true ∧ s.updPhase = 3) :=
  ⟨⟨0x100, (map_ ({ at_ .run [(F.UPD_STAT_PHASE, 2), (F.UPD_STAT_BUSY, 0), (F.UPD_LEN_L, 0x1000), (F.FRM_QUIET_CFG_NVM_HOLD, 1), (F.FRM_STATE_STATE, 3)] with upd := { (at_ .run [(F.UPD_STAT_PHASE, 2), (F.UPD_STAT_BUSY, 0), (F.UPD_LEN_L, 0x1000), (F.FRM_QUIET_CFG_NVM_HOLD, 1), (F.FRM_STATE_STATE, 3)]).upd with seen := [0] } }) 2 : State), by decide +kernel⟩,
   ⟨({ at_ .run [(F.UPD_STAT_PHASE, 1), (F.UPD_STAT_BUSY, 1)] with upd := { (at_ .run [(F.UPD_STAT_PHASE, 1), (F.UPD_STAT_BUSY, 1)]).upd with held := false, ending := none } } : State), by decide +kernel⟩,
   ⟨0, ({ at_ .run [(F.UPD_STAT_PHASE, 2), (F.UPD_STAT_BUSY, 1)] with upd := { (at_ .run [(F.UPD_STAT_PHASE, 2), (F.UPD_STAT_BUSY, 1)]).upd with block := some (0 : Nat), held := false, ending := none } } : State), by decide +kernel⟩,
   ⟨8, ({ at_ .run [(F.UPD_STAT_PHASE, 1), (F.UPD_STAT_BUSY, 1)] with upd := { (at_ .run [(F.UPD_STAT_PHASE, 1), (F.UPD_STAT_BUSY, 1)]).upd with held := false, ending := some (8 : Nat) } } : State), by decide +kernel⟩,
   ⟨8, 0, ({ at_ .run [(F.UPD_STAT_PHASE, 2), (F.UPD_STAT_BUSY, 1)] with upd := { (at_ .run [(F.UPD_STAT_PHASE, 2), (F.UPD_STAT_BUSY, 1)]).upd with block := some (0 : Nat), held := false, ending := some (8 : Nat) } } : State), by decide +kernel⟩,
   (have h := err_ (broken_.bootBase.bodyCheck 0 (broken_.slotBytes 0 0 512)) (by decide +kernel)
  ⟨broken_, 0, h.choose, by decide +kernel, by decide +kernel, by decide +kernel, by decide +kernel, by decide +kernel, h.choose_spec⟩),
   ⟨0, (at_ .run [(F.UPD_STAT_PHASE, 1), (F.UPD_STAT_BUSY, 0)] : State), by decide +kernel⟩,
   ⟨0, (at_ .run [(F.SYS_OTP_ALARM_REGION, 1)] : State), by decide +kernel⟩,
   ⟨0, (at_ .run [] : State), by decide +kernel⟩,
   ⟨(at_ .run [] : State), by decide +kernel⟩,
   ⟨(at_ .run [] : State), by decide +kernel⟩,
   ⟨(at_ .run [] : State), by decide +kernel⟩,
   ⟨({ at_ .run [] with dev := { (at_ .run []).dev with stage := .none } } : State), 0, by decide +kernel⟩,
   ⟨({ at_ .run [(F.UPD_STAT_PHASE, 4), (F.UPD_STAT_BUSY, 0)] with dev := { (at_ .run [(F.UPD_STAT_PHASE, 4), (F.UPD_STAT_BUSY, 0)]).dev with stage := .none } } : State), by decide +kernel⟩,
   ⟨({ at_ .run [(F.UPD_STAT_PHASE, 3), (F.UPD_STAT_BUSY, 0)] with dev := { (at_ .run [(F.UPD_STAT_PHASE, 3), (F.UPD_STAT_BUSY, 0)]).dev with stage := .none } } : State), by decide +kernel⟩,
   ⟨({ at_ .run [(F.UPD_STAT_PHASE, 1), (F.UPD_STAT_BUSY, 0), (F.UPD_STAT_BUSY, 1)] with dev := { (at_ .run [(F.UPD_STAT_PHASE, 1), (F.UPD_STAT_BUSY, 0), (F.UPD_STAT_BUSY, 1)]).dev with stage := .none }, upd := { (at_ .run [(F.UPD_STAT_PHASE, 1), (F.UPD_STAT_BUSY, 0), (F.UPD_STAT_BUSY, 1)]).upd with held := false } } : State), by decide +kernel⟩,
   ⟨({ at_ .run [(F.UPD_STAT_PHASE, 1), (F.UPD_STAT_BUSY, 0)] with upd := { (at_ .run [(F.UPD_STAT_PHASE, 1), (F.UPD_STAT_BUSY, 0)]).upd with ended := true } } : State), by decide +kernel⟩,
   ⟨({ at_ .run [(F.UPD_STAT_PHASE, 3), (F.UPD_STAT_BUSY, 0)] with upd := { (at_ .run [(F.UPD_STAT_PHASE, 3), (F.UPD_STAT_BUSY, 0)]).upd with ended := true } } : State), by decide +kernel⟩⟩

theorem witness_UpdateCommands_more2 :
    ∃ (s : State), s.upd.ended = false :=
  ⟨({ at_ .run [] with upd := { (at_ .run []).upd with ended := false } } : State), by decide +kernel⟩

theorem witness_MemoryWritesStayInTheirSlot :
    (∃ (s : State) (o : Nat) (k : Nat) (a : Nat), (a < s.get F.UPD_STAT_SLOT * 0x80000 + o ∨ s.get F.UPD_STAT_SLOT * 0x80000 + o + k ≤ a)) ∧
    (∃ (s : State) (a : Nat), s.get F.UPD_STAT_SLOT * 0x80000 ≤ a ∧ a < (s.get F.UPD_STAT_SLOT + 1) * 0x80000) ∧
    (∃ (s : State) (a : Nat) (k : Nat), Memory.wf s.nv ∧ (a < s.get F.UPD_STAT_SLOT * 0x80000 ∨ s.get F.UPD_STAT_SLOT * 0x80000 + k * 0x10000 ≤ a)) :=
  ⟨⟨(at_ .run [] : State), 0, 0, 0, by decide +kernel⟩,
   ⟨(at_ .run [] : State), 0, by decide +kernel⟩,
   ⟨(at_ .run [] : State), 0, 0, by decide +kernel⟩⟩

theorem witness_StackCommands :
    (∃ (p : Nat) (held : Nat) (off : Nat) (r : List Nat), bitOf held p = false) ∧
    (∃ (p : Nat) (q : Nat) (held : Nat) (off : Nat) (r : List Nat), bitOf held p = true) ∧
    (∃ (u : Fin 17) (vpmid : Nat) (held : BitVec 16) (off : BitVec 16) (zero : BitVec 16) (nlim : Bool) (p : Nat) (k : Nat) (s : State), s.turns u = true ∧ turnTaker ((List.range (s.activeCount u)).map (fun j => (s.turnPtr u + j) % s.activeCount u)) held.toNat off.toNat = some p ∧ s.tileAt u p = some k) ∧
    (∃ (u : Fin 17) (vpmid : Nat) (held : BitVec 16) (off : BitVec 16) (zero : BitVec 16) (nlim : Bool) (s : State), s.turns u = true ∧ turnTaker ((List.range (s.activeCount u)).map (fun j => (s.turnPtr u + j) % s.activeCount u)) held.toNat off.toNat = none) ∧
    (∃ (n : Fin 16) (vpmid : Nat) (held : BitVec 16) (off : BitVec 16) (s : State), s.rollArmed n = true) ∧
    (∃ (n : Fin 16) (s : State), s.flag (F.STK_STAT_LOCK n) = true) ∧
    (∃ (n : Fin 16) (s : State), s.dev.mode = .run ∧ (s.stk n).rolls ≠ 0) ∧
    (∃ (n : Fin 16) (s : State), s.shedArmed n = true ∧ (s.stk n).due = 0 ∧ max 1 (s.get (F.STK_SHED_TIME_SHED_DWELL n)) ≤ (s.stk n).shedDwell) ∧
    (∃ (n : Fin 16) (s : State), s.shedArmed n = true ∧ (s.stk n).due = 0 ∧ max 1 (s.get (F.STK_SHED_TIME_ADD_DWELL n)) ≤ (s.stk n).addDwell) ∧
    (∃ (n : Fin 16) (k : Nat) (s : State), (s.stk n).due = 1 ∧ s.shedCond n = true ∧ s.phaseGate n = true ∧ s.tileAt n ((s.get (F.STK_STAT_NACT n)) - 1) = some k) ∧
    (∃ (n : Fin 16) (k : Nat) (s : State), (s.stk n).due = 2 ∧ s.addCond n = true ∧ s.phaseGate n = true ∧ s.tileAt n (s.get (F.STK_STAT_NACT n)) = some k) ∧
    (∃ (n : Fin 16) (s : State), s.flag (F.STK_STAT_SS n) = true ∧ (s.stk n).preEnable = false ∧ (s.stk n).ssTo ≤ (s.stk n).tLast ∧ (s.stk n).tripped = false) ∧
    (∃ (n : Fin 16) (s : State), s.dev.mode = .run ∧ s.flag (F.STK_STAT_EN n) = true ∧ s.flag (F.STK_STAT_SS n) = false ∧ s.flag (F.STK_STAT_PG n) = false ∧ (s.stk n).tripped = false ∧ 8 ≤ (s.stk n).pgIn) ∧
    (∃ (n : Fin 16) (s : State), s.dev.mode = .run ∧ 2 ≤ (s.stk n).pgOut) ∧
    (∃ (n : Fin 16) (s : State), s.dev.mode = .park) ∧
    (∃ (n : Fin 16) (s : State), s.flag (F.STK_STAT_DIS n) = true) ∧
    (∃ (n : Fin 16) (vout : Nat) (s : State), s.flag (F.STK_STAT_DIS n) = true) ∧
    (∃ (n : Fin 16) (s : State), (s.dev.mode = .run ∨ s.dev.mode = .park ∨ s.dev.mode = .black) ∧ s.tileCount n ≠ 0 ∧ (s.stk n).tripped = false) :=
  ⟨⟨0, 0, 0, [], by decide +kernel⟩,
   ⟨0, 0, 1, 0, [], by decide +kernel⟩,
   ⟨0, 0, 0, 0, 0, false, 0, 0, (at_ .run [(F.TIL_STAT_USE 0, 0), (F.TIL_STAT_POS 0, 0), (F.TIL_STAT_ACTIVE 0, 1), (F.TIL_STAT_HIZ 0, 0)] : State), by decide +kernel⟩,
   ⟨0, 0, 1, 0, 0, false, (at_ .run [(F.TIL_STAT_USE 0, 0), (F.TIL_STAT_POS 0, 0), (F.TIL_STAT_ACTIVE 0, 1), (F.TIL_STAT_HIZ 0, 0)] : State), by decide +kernel⟩,
   ⟨0, 0, 0, 0, (at_ .run [(F.TIL_STAT_USE 0, 0), (F.TIL_STAT_POS 0, 0), (F.TIL_STAT_ACTIVE 0, 1), (F.TIL_STAT_HIZ 0, 0), (F.STK_STAT_EN 0, 1), (F.STK_STAT_PG 0, 1), (F.STK_ROLL_ROLL_TH 0, 1)] : State), by decide +kernel⟩,
   ⟨0, (at_ .run [((F.STK_STAT_LOCK (0 : Fin 16)), 1)] : State), by decide +kernel⟩,
   ⟨0, (stk_ (at_ .run []) 0 { ((at_ .run [])).stk 0 with rolls := 1 } : State), by decide +kernel⟩,
   ⟨0, (stk_ (at_ .run [(F.STK_STAT_EN 0, 1), (F.STK_STAT_PG 0, 1), (F.STK_ROLL_ROLL_TH 0, 1), (F.STK_SHED_TIME_EN 0, 1), (F.STK_SHED_TIME_MIN_TILES 0, 1), (F.STK_SHED_TIME_SHED_DWELL 0, 1), (F.STK_SHED_TIME_ADD_DWELL 0, 1)]) 0 { ((at_ .run [(F.STK_STAT_EN 0, 1), (F.STK_STAT_PG 0, 1), (F.STK_ROLL_ROLL_TH 0, 1), (F.STK_SHED_TIME_EN 0, 1), (F.STK_SHED_TIME_MIN_TILES 0, 1), (F.STK_SHED_TIME_SHED_DWELL 0, 1), (F.STK_SHED_TIME_ADD_DWELL 0, 1)])).stk 0 with shedDwell := 1 } : State), by decide +kernel⟩,
   ⟨0, (stk_ (at_ .run [(F.STK_STAT_EN 0, 1), (F.STK_STAT_PG 0, 1), (F.STK_ROLL_ROLL_TH 0, 1), (F.STK_SHED_TIME_EN 0, 1), (F.STK_SHED_TIME_MIN_TILES 0, 1), (F.STK_SHED_TIME_SHED_DWELL 0, 1), (F.STK_SHED_TIME_ADD_DWELL 0, 1)]) 0 { ((at_ .run [(F.STK_STAT_EN 0, 1), (F.STK_STAT_PG 0, 1), (F.STK_ROLL_ROLL_TH 0, 1), (F.STK_SHED_TIME_EN 0, 1), (F.STK_SHED_TIME_MIN_TILES 0, 1), (F.STK_SHED_TIME_SHED_DWELL 0, 1), (F.STK_SHED_TIME_ADD_DWELL 0, 1)])).stk 0 with addDwell := 1 } : State), by decide +kernel⟩,
   ⟨0, 1, (stk_ (at_ .run [(F.STK_STAT_EN 0, 1), (F.STK_STAT_PG 0, 1), (F.STK_ROLL_ROLL_TH 0, 1), (F.STK_SHED_TIME_EN 0, 1), (F.STK_SHED_TIME_MIN_TILES 0, 1), (F.STK_SHED_TIME_SHED_DWELL 0, 1), (F.STK_SHED_TIME_ADD_DWELL 0, 1), (F.TIL_STAT_USE 0, 0), (F.TIL_STAT_POS 0, 0), (F.TIL_STAT_USE 1, 0), (F.TIL_STAT_POS 1, 1), (F.STK_STAT_NACT 0, 2), (F.STK_SHED_SHED_TH 0, 10)]) 0 { ((at_ .run [(F.STK_STAT_EN 0, 1), (F.STK_STAT_PG 0, 1), (F.STK_ROLL_ROLL_TH 0, 1), (F.STK_SHED_TIME_EN 0, 1), (F.STK_SHED_TIME_MIN_TILES 0, 1), (F.STK_SHED_TIME_SHED_DWELL 0, 1), (F.STK_SHED_TIME_ADD_DWELL 0, 1), (F.TIL_STAT_USE 0, 0), (F.TIL_STAT_POS 0, 0), (F.TIL_STAT_USE 1, 0), (F.TIL_STAT_POS 1, 1), (F.STK_STAT_NACT 0, 2), (F.STK_SHED_SHED_TH 0, 10)])).stk 0 with due := 1, slotFree := true, iNow := 1 } : State), by decide +kernel⟩,
   ⟨0, 1, (stk_ (at_ .run [(F.STK_STAT_EN 0, 1), (F.STK_STAT_PG 0, 1), (F.STK_ROLL_ROLL_TH 0, 1), (F.STK_SHED_TIME_EN 0, 1), (F.STK_SHED_TIME_MIN_TILES 0, 1), (F.STK_SHED_TIME_SHED_DWELL 0, 1), (F.STK_SHED_TIME_ADD_DWELL 0, 1), (F.TIL_STAT_USE 0, 0), (F.TIL_STAT_POS 0, 0), (F.TIL_STAT_USE 1, 0), (F.TIL_STAT_POS 1, 1), (F.STK_STAT_NACT 0, 1), (F.STK_SHED_ADD_TH 0, 10)]) 0 { ((at_ .run [(F.STK_STAT_EN 0, 1), (F.STK_STAT_PG 0, 1), (F.STK_ROLL_ROLL_TH 0, 1), (F.STK_SHED_TIME_EN 0, 1), (F.STK_SHED_TIME_MIN_TILES 0, 1), (F.STK_SHED_TIME_SHED_DWELL 0, 1), (F.STK_SHED_TIME_ADD_DWELL 0, 1), (F.TIL_STAT_USE 0, 0), (F.TIL_STAT_POS 0, 0), (F.TIL_STAT_USE 1, 0), (F.TIL_STAT_POS 1, 1), (F.STK_STAT_NACT 0, 1), (F.STK_SHED_ADD_TH 0, 10)])).stk 0 with due := 2, slotFree := true, iNow := 100 } : State), by decide +kernel⟩,
   ⟨0, (at_ .run [((F.STK_STAT_SS (0 : Fin 16)), 1)] : State), by decide +kernel⟩,
   ⟨0, (stk_ (at_ .run [((F.STK_STAT_EN (0 : Fin 16)), 1), ((F.STK_STAT_SS (0 : Fin 16)), 0), ((F.STK_STAT_PG (0 : Fin 16)), 0)]) 0 { ((at_ .run [((F.STK_STAT_EN (0 : Fin 16)), 1), ((F.STK_STAT_SS (0 : Fin 16)), 0), ((F.STK_STAT_PG (0 : Fin 16)), 0)])).stk 0 with pgIn := 8 } : State), by decide +kernel⟩,
   ⟨0, (stk_ (at_ .run []) 0 { ((at_ .run [])).stk 0 with pgOut := 2 } : State), by decide +kernel⟩,
   ⟨0, (at_ .park [] : State), by decide +kernel⟩,
   ⟨0, (at_ .run [((F.STK_STAT_DIS (0 : Fin 16)), 1)] : State), by decide +kernel⟩,
   ⟨0, 0, (at_ .run [((F.STK_STAT_DIS (0 : Fin 16)), 1)] : State), by decide +kernel⟩,
   ⟨0, (at_ .run [(F.TIL_STAT_USE 0, 0), (F.TIL_STAT_POS 0, 0)] : State), by decide +kernel⟩⟩

theorem witness_StackCommands_more :
    (∃ (n : Fin 16) (s : State), (s.stk n).tripped = true ∧ s.get (F.STK_STAT_EN n) = 0 ∧ (s.setStk n { s.stk n with tripped := false }).anyTripped = false) ∧
    (∃ (n : Fin 16) (s : State), (s.stk n).tripped = true ∧ s.get (F.STK_STAT_EN n) = 0 ∧ (s.setStk n { s.stk n with tripped := false }).anyTripped = true) ∧
    (∃ (t : Fin 48) (vbat : Nat) (s : State), 64 ≤ (s.tile t).held ∧ (s.tile t).sent = false ∧ s.get (F.TIL_STAT_USE t) ≠ 16) ∧
    (∃ (t : Fin 48) (vbat : Nat) (s : State), 64 ≤ (s.tile t).held ∧ (s.tile t).sent = false ∧ s.get (F.TIL_STAT_USE t) = 16) ∧
    (∃ (imean : List Int) (iout : List Int) (vout : List Int) (vpmid : Nat) (s : State), s.dev.mode = .run) ∧
    (∃ (imean : List Int) (iout : List Int) (vout : List Int) (vpmid : Nat) (s : State), s.dev.mode = .black) :=
  ⟨⟨0, (stk_ (at_ .run [((F.STK_STAT_EN (0 : Fin 16)), 0)]) 0 { ((at_ .run [((F.STK_STAT_EN (0 : Fin 16)), 0)])).stk 0 with tripped := true } : State), by decide +kernel⟩,
   ⟨0, (stk_ (stk_ (at_ .run [((F.STK_STAT_EN (0 : Fin 16)), 0)]) 0 { ((at_ .run [((F.STK_STAT_EN (0 : Fin 16)), 0)])).stk 0 with tripped := true }) 1 { ((at_ .run [((F.STK_STAT_EN (0 : Fin 16)), 0)])).stk 1 with tripped := true } : State), by decide +kernel⟩,
   ⟨0, 0, ({ (at_ .run []) with tiles := tset ((at_ .run [])).tiles 0 Tile.init ⟨64, false⟩ } : State), by decide +kernel⟩,
   ⟨0, 0, ({ (at_ .run [((F.TIL_STAT_USE (0 : Fin 48)), 16)]) with tiles := tset ((at_ .run [((F.TIL_STAT_USE (0 : Fin 48)), 16)])).tiles 0 Tile.init ⟨64, false⟩ } : State), by decide +kernel⟩,
   ⟨[], [], [], 0, (at_ .run [] : State), by decide +kernel⟩,
   ⟨[], [], [], 0, (at_ .black [] : State), by decide +kernel⟩⟩

theorem witness_TripsHold :
    (∃ (n : Fin 16) (s : State), s.dev.mode = .run ∧ s.dev.stage = .none ∧ s.tileCount n ≠ 0 ∧ (s.stk n).tripped = false) ∧
    (∃ (n : Fin 16) (s : State), s.dev.mode = .run ∧ s.dev.stage = .none ∧ s.tileCount n ≠ 0 ∧ (s.stk n).tripped = false) ∧
    (∃ (n : Fin 16) (v : Nat) (s : State), s.stackHeldOff n = true ∧ s.tileCount n ≠ 0 ∧ s.flag (F.STK_STAT_EN n) = false ∧ s.pp.cut = false ∧ s.flag F.THM_STAT_LATCH = false) ∧
    (∃ (n : Fin 16) (v : Nat) (k : Nat) (s : State), s.stackHeldOff n = true ∧ s.tileCount n ≠ 0 ∧ s.flag (F.STK_STAT_EN n) = false ∧ s.pp.cut = false ∧ s.flag F.THM_STAT_LATCH = false ∧ k ∈ s.tilesOf n) :=
  ⟨⟨0, ({ at_ .run [(F.TIL_STAT_USE 0, 0), (F.TIL_STAT_POS 0, 0)] with dev := { (at_ .run [(F.TIL_STAT_USE 0, 0), (F.TIL_STAT_POS 0, 0)]).dev with stage := .none } } : State), by decide +kernel⟩,
   ⟨0, ({ at_ .run [(F.TIL_STAT_USE 0, 0), (F.TIL_STAT_POS 0, 0)] with dev := { (at_ .run [(F.TIL_STAT_USE 0, 0), (F.TIL_STAT_POS 0, 0)]).dev with stage := .none } } : State), by decide +kernel⟩,
   ⟨0, 0, (stk_ ({ at_ .run [((F.STK_STAT_EN (0 : Fin 16)), 0), (F.THM_STAT_LATCH, 0), (F.TIL_STAT_USE 0, 0), (F.TIL_STAT_POS 0, 0)] with pp := { (at_ .run [((F.STK_STAT_EN (0 : Fin 16)), 0), (F.THM_STAT_LATCH, 0), (F.TIL_STAT_USE 0, 0), (F.TIL_STAT_POS 0, 0)]).pp with cut := false } }) 0 { (({ at_ .run [((F.STK_STAT_EN (0 : Fin 16)), 0), (F.THM_STAT_LATCH, 0), (F.TIL_STAT_USE 0, 0), (F.TIL_STAT_POS 0, 0)] with pp := { (at_ .run [((F.STK_STAT_EN (0 : Fin 16)), 0), (F.THM_STAT_LATCH, 0), (F.TIL_STAT_USE 0, 0), (F.TIL_STAT_POS 0, 0)]).pp with cut := false } })).stk 0 with tripped := true } : State), by decide +kernel⟩,
   ⟨0, 0, 0, (stk_ ({ at_ .run [((F.STK_STAT_EN (0 : Fin 16)), 0), (F.THM_STAT_LATCH, 0), (F.TIL_STAT_USE 0, 0), (F.TIL_STAT_POS 0, 0)] with pp := { (at_ .run [((F.STK_STAT_EN (0 : Fin 16)), 0), (F.THM_STAT_LATCH, 0), (F.TIL_STAT_USE 0, 0), (F.TIL_STAT_POS 0, 0)]).pp with cut := false } }) 0 { (({ at_ .run [((F.STK_STAT_EN (0 : Fin 16)), 0), (F.THM_STAT_LATCH, 0), (F.TIL_STAT_USE 0, 0), (F.TIL_STAT_POS 0, 0)] with pp := { (at_ .run [((F.STK_STAT_EN (0 : Fin 16)), 0), (F.THM_STAT_LATCH, 0), (F.TIL_STAT_USE 0, 0), (F.TIL_STAT_POS 0, 0)]).pp with cut := false } })).stk 0 with tripped := true } : State), by decide +kernel⟩⟩

theorem witness_EngineCommands :
    (∃ (n : Fin 16) (e : Int) (i : Int) (k : Nat) (s : State), s.dev.mode = .run ∧ (s.slotTime n).tileCount n ≠ 0 ∧ ((((if sat i (-32767) 32767 ≠ i then ((if sat e (-2048) 2047 ≠ e then (s.slotTime n).set (F.STK_STAT_ESAT n) 1 else (s.slotTime n))).set (F.STK_STAT_ISAT n) 1 else ((if sat e (-2048) 2047 ≠ e then (s.slotTime n).set (F.STK_STAT_ESAT n) 1 else (s.slotTime n))))).setStk n { ((if sat i (-32767) 32767 ≠ i then ((if sat e (-2048) 2047 ≠ e then (s.slotTime n).set (F.STK_STAT_ESAT n) 1 else (s.slotTime n))).set (F.STK_STAT_ISAT n) 1 else ((if sat e (-2048) 2047 ≠ e then (s.slotTime n).set (F.STK_STAT_ESAT n) 1 else (s.slotTime n))))).stk n with iNow := sat i (-32767) 32767 }).mbxApply n ((((if sat i (-32767) 32767 ≠ i then ((if sat e (-2048) 2047 ≠ e then (s.slotTime n).set (F.STK_STAT_ESAT n) 1 else (s.slotTime n))).set (F.STK_STAT_ISAT n) 1 else ((if sat e (-2048) 2047 ≠ e then (s.slotTime n).set (F.STK_STAT_ESAT n) 1 else (s.slotTime n))))).setStk n { ((if sat i (-32767) 32767 ≠ i then ((if sat e (-2048) 2047 ≠ e then (s.slotTime n).set (F.STK_STAT_ESAT n) 1 else (s.slotTime n))).set (F.STK_STAT_ISAT n) 1 else ((if sat e (-2048) 2047 ≠ e then (s.slotTime n).set (F.STK_STAT_ESAT n) 1 else (s.slotTime n))))).stk n with iNow := sat i (-32767) 32767 }).slotComputes n)).slotComputes n = true ∧ (((((if sat i (-32767) 32767 ≠ i then ((if sat e (-2048) 2047 ≠ e then (s.slotTime n).set (F.STK_STAT_ESAT n) 1 else (s.slotTime n))).set (F.STK_STAT_ISAT n) 1 else ((if sat e (-2048) 2047 ≠ e then (s.slotTime n).set (F.STK_STAT_ESAT n) 1 else (s.slotTime n))))).setStk n { ((if sat i (-32767) 32767 ≠ i then ((if sat e (-2048) 2047 ≠ e then (s.slotTime n).set (F.STK_STAT_ESAT n) 1 else (s.slotTime n))).set (F.STK_STAT_ISAT n) 1 else ((if sat e (-2048) 2047 ≠ e then (s.slotTime n).set (F.STK_STAT_ESAT n) 1 else (s.slotTime n))))).stk n with iNow := sat i (-32767) 32767 }).mbxApply n ((((if sat i (-32767) 32767 ≠ i then ((if sat e (-2048) 2047 ≠ e then (s.slotTime n).set (F.STK_STAT_ESAT n) 1 else (s.slotTime n))).set (F.STK_STAT_ISAT n) 1 else ((if sat e (-2048) 2047 ≠ e then (s.slotTime n).set (F.STK_STAT_ESAT n) 1 else (s.slotTime n))))).setStk n { ((if sat i (-32767) 32767 ≠ i then ((if sat e (-2048) 2047 ≠ e then (s.slotTime n).set (F.STK_STAT_ESAT n) 1 else (s.slotTime n))).set (F.STK_STAT_ISAT n) 1 else ((if sat e (-2048) 2047 ≠ e then (s.slotTime n).set (F.STK_STAT_ESAT n) 1 else (s.slotTime n))))).stk n with iNow := sat i (-32767) 32767 }).slotComputes n)).slotFetch k).slotComputes n = true) ∧
    (∃ (n : Fin 16) (e : Int) (i : Int) (k : Nat) (s : State), s.dev.mode = .run ∧ (s.slotTime n).tileCount n ≠ 0 ∧ ((if ((((if sat i (-32767) 32767 ≠ i then ((if sat e (-2048) 2047 ≠ e then (s.slotTime n).set (F.STK_STAT_ESAT n) 1 else (s.slotTime n))).set (F.STK_STAT_ISAT n) 1 else ((if sat e (-2048) 2047 ≠ e then (s.slotTime n).set (F.STK_STAT_ESAT n) 1 else (s.slotTime n))))).setStk n { ((if sat i (-32767) 32767 ≠ i then ((if sat e (-2048) 2047 ≠ e then (s.slotTime n).set (F.STK_STAT_ESAT n) 1 else (s.slotTime n))).set (F.STK_STAT_ISAT n) 1 else ((if sat e (-2048) 2047 ≠ e then (s.slotTime n).set (F.STK_STAT_ESAT n) 1 else (s.slotTime n))))).stk n with iNow := sat i (-32767) 32767 }).mbxApply n ((((if sat i (-32767) 32767 ≠ i then ((if sat e (-2048) 2047 ≠ e then (s.slotTime n).set (F.STK_STAT_ESAT n) 1 else (s.slotTime n))).set (F.STK_STAT_ISAT n) 1 else ((if sat e (-2048) 2047 ≠ e then (s.slotTime n).set (F.STK_STAT_ESAT n) 1 else (s.slotTime n))))).setStk n { ((if sat i (-32767) 32767 ≠ i then ((if sat e (-2048) 2047 ≠ e then (s.slotTime n).set (F.STK_STAT_ESAT n) 1 else (s.slotTime n))).set (F.STK_STAT_ISAT n) 1 else ((if sat e (-2048) 2047 ≠ e then (s.slotTime n).set (F.STK_STAT_ESAT n) 1 else (s.slotTime n))))).stk n with iNow := sat i (-32767) 32767 }).slotComputes n)).slotComputes n = true then ((((if sat i (-32767) 32767 ≠ i then ((if sat e (-2048) 2047 ≠ e then (s.slotTime n).set (F.STK_STAT_ESAT n) 1 else (s.slotTime n))).set (F.STK_STAT_ISAT n) 1 else ((if sat e (-2048) 2047 ≠ e then (s.slotTime n).set (F.STK_STAT_ESAT n) 1 else (s.slotTime n))))).setStk n { ((if sat i (-32767) 32767 ≠ i then ((if sat e (-2048) 2047 ≠ e then (s.slotTime n).set (F.STK_STAT_ESAT n) 1 else (s.slotTime n))).set (F.STK_STAT_ISAT n) 1 else ((if sat e (-2048) 2047 ≠ e then (s.slotTime n).set (F.STK_STAT_ESAT n) 1 else (s.slotTime n))))).stk n with iNow := sat i (-32767) 32767 }).mbxApply n ((((if sat i (-32767) 32767 ≠ i then ((if sat e (-2048) 2047 ≠ e then (s.slotTime n).set (F.STK_STAT_ESAT n) 1 else (s.slotTime n))).set (F.STK_STAT_ISAT n) 1 else ((if sat e (-2048) 2047 ≠ e then (s.slotTime n).set (F.STK_STAT_ESAT n) 1 else (s.slotTime n))))).setStk n { ((if sat i (-32767) 32767 ≠ i then ((if sat e (-2048) 2047 ≠ e then (s.slotTime n).set (F.STK_STAT_ESAT n) 1 else (s.slotTime n))).set (F.STK_STAT_ISAT n) 1 else ((if sat e (-2048) 2047 ≠ e then (s.slotTime n).set (F.STK_STAT_ESAT n) 1 else (s.slotTime n))))).stk n with iNow := sat i (-32767) 32767 }).slotComputes n)).slotFetch k else ((((if sat i (-32767) 32767 ≠ i then ((if sat e (-2048) 2047 ≠ e then (s.slotTime n).set (F.STK_STAT_ESAT n) 1 else (s.slotTime n))).set (F.STK_STAT_ISAT n) 1 else ((if sat e (-2048) 2047 ≠ e then (s.slotTime n).set (F.STK_STAT_ESAT n) 1 else (s.slotTime n))))).setStk n { ((if sat i (-32767) 32767 ≠ i then ((if sat e (-2048) 2047 ≠ e then (s.slotTime n).set (F.STK_STAT_ESAT n) 1 else (s.slotTime n))).set (F.STK_STAT_ISAT n) 1 else ((if sat e (-2048) 2047 ≠ e then (s.slotTime n).set (F.STK_STAT_ESAT n) 1 else (s.slotTime n))))).stk n with iNow := sat i (-32767) 32767 }).mbxApply n ((((if sat i (-32767) 32767 ≠ i then ((if sat e (-2048) 2047 ≠ e then (s.slotTime n).set (F.STK_STAT_ESAT n) 1 else (s.slotTime n))).set (F.STK_STAT_ISAT n) 1 else ((if sat e (-2048) 2047 ≠ e then (s.slotTime n).set (F.STK_STAT_ESAT n) 1 else (s.slotTime n))))).setStk n { ((if sat i (-32767) 32767 ≠ i then ((if sat e (-2048) 2047 ≠ e then (s.slotTime n).set (F.STK_STAT_ESAT n) 1 else (s.slotTime n))).set (F.STK_STAT_ISAT n) 1 else ((if sat e (-2048) 2047 ≠ e then (s.slotTime n).set (F.STK_STAT_ESAT n) 1 else (s.slotTime n))))).stk n with iNow := sat i (-32767) 32767 }).slotComputes n)))).slotComputes n = false) ∧
    (∃ (n : Fin 16) (e : Int) (i : Int) (k : Nat) (s : State), s.dev.mode = .run ∧ (s.slotTime n).tileCount n = 0) ∧
    (∃ (n : Fin 16) (w : List (BitVec 16 × Word)) (s : State), s.tileCount n ≠ 0 ∧ (((w.map fun p => (p.1.toNat, p.2.toNat)).filter fun p => decide ((stackOf p.1).map Prod.fst = some n.val) && hasAcc p.1 .rw && decide (s.stkVerdict n p.1 p.2 = .ok) && s.writeOk p.1)) ≠ [] ∧ s.injects 4 = false) ∧
    (∃ (n : Fin 16) (s : State), ((s.stk n).limOpen = false ∨ (s.stk n).limCount = 0)) ∧
    (∃ (s : State) (n : Nat) (k : Nat) (r : Int), (s.stk n).limOpen = true ∧ s.now ≤ (s.stk n).limAt + engPerMs) ∧
    (∃ (s : State) (n : Nat) (k : Nat) (r : Int), ((s.stk n).limOpen = false ∨ ((s.stk n).limCount = 0 ∧ (s.stk n).limAt + engPerMs < s.now))) ∧
    (∃ (n : Fin 16) (s : State), (s.stk n).limOpen = true ∧ (s.stk n).limCount ≠ 0) ∧
    (∃ (s : State), (s.dev.mode = .run ∨ s.dev.mode = .black)) ∧
    (∃ (m : Fin 4) (code : Fin 4096) (s : State), s.dev.mode = .run ∧ s.ownedBy 3 m 3 = true) ∧
    (∃ (k : Fin 12) (p : Nat) (h : Nat) (s : State), s.dev.mode = .run) ∧
    (∃ (n : Fin 16) (s : State), s.tracksOn n = true ∧ s.trackCode n = none ∧ s.flag (F.STK_SRC_STAT_HOLD n) = false ∧ s.get (F.STK_SRC_LOSS n) ≤ (s.stk n).badRun + 1) ∧
    (∃ (n : Fin 16) (s : State), s.tracksOn n = true ∧ s.trackCode n ≠ none ∧ s.flag (F.STK_SRC_STAT_HOLD n) = true ∧ s.flag (F.STK_SRC_RETURN n) = true ∧ 64 ≤ (s.stk n).goodRun + 1) ∧
    (∃ (n : Fin 4) (s : State), s.flag (F.STK_SRC_STAT_MOVE n) = true ∧ (s.stk n).moveLeft = 0) ∧
    (∃ (s : State) (n : Nat) (v : Nat) (c : Bool), s.flag (F.STK_SRC_STAGE n) = true) ∧
    (∃ (s : State) (n : Nat) (c : Bool), (s.stk n).fired = false) ∧
    (∃ (s : State) (n : Nat) (c : Bool), (s.stk n).fired = true ∧ (s.stk n).staged = none) ∧
    (∃ (s : State) (n : Nat) (v : Nat), (s.stk n).fired = true ∧ (s.stk n).staged = some v) :=
  ⟨⟨0, 0, 0, 0, (at_ .run [(F.TIL_STAT_USE 0, 0), (F.TIL_STAT_POS 0, 0), (F.STK_STAT_EN 0, 1)] : State), by decide +kernel⟩,
   ⟨0, 0, 0, 0, (at_ .run [(F.TIL_STAT_USE 0, 0), (F.TIL_STAT_POS 0, 0)] : State), by decide +kernel⟩,
   ⟨0, 0, 0, 0, (at_ .run [] : State), by decide +kernel⟩,
   ⟨0, [(0x0C00, 5000)], (at_ .run [(F.TIL_STAT_USE 0, 0), (F.TIL_STAT_POS 0, 0)] : State), by decide +kernel⟩,
   ⟨0, (stk_ (at_ .run []) 0 { ((at_ .run [])).stk 0 with limOpen := true } : State), by decide +kernel⟩,
   ⟨(stk_ (at_ .run []) 0 { ((at_ .run [])).stk 0 with limOpen := true } : State), 0, 0, 0, by decide +kernel⟩,
   ⟨(at_ .run [] : State), 0, 0, 0, by decide +kernel⟩,
   ⟨0, (stk_ (at_ .run []) 0 { ((at_ .run [])).stk 0 with limOpen := true, limCount := 1 } : State), by decide +kernel⟩,
   ⟨(at_ .run [] : State), by decide +kernel⟩,
   ⟨0, 0, (claim_ (at_ .run []) 3 0 3 0 : State), by decide +kernel⟩,
   ⟨0, 0, 0, (at_ .run [] : State), by decide +kernel⟩,
   ⟨0, (at_ .run [((F.STK_SRC_STAT_HOLD (0 : Fin 16)), 0), (F.TIL_STAT_USE 0, 0), (F.TIL_STAT_POS 0, 0), (F.STK_STAT_EN 0, 1), (F.STK_SRC_STAT_ACT 0, 1), (F.STK_SRC_LOSS 0, 1)] : State), by decide +kernel⟩,
   ⟨0, ({ stk_ (at_ .run [((F.STK_SRC_STAT_HOLD (0 : Fin 16)), 1), ((F.STK_SRC_RETURN (0 : Fin 16)), 1), (F.TIL_STAT_USE 0, 0), (F.TIL_STAT_POS 0, 0), (F.STK_STAT_EN 0, 1), (F.STK_SRC_STAT_ACT 0, 1)]) 0 { ((at_ .run [((F.STK_SRC_STAT_HOLD (0 : Fin 16)), 1), ((F.STK_SRC_RETURN (0 : Fin 16)), 1), (F.TIL_STAT_USE 0, 0), (F.TIL_STAT_POS 0, 0), (F.STK_STAT_EN 0, 1), (F.STK_SRC_STAT_ACT 0, 1)])).stk 0 with goodRun := 63, ain := 0 } with track := tset [] 0 [] (List.replicate 8 2000) } : State), by decide +kernel⟩,
   ⟨0, (at_ .run [((F.STK_SRC_STAT_MOVE (0 : Fin 4)), 1)] : State), by decide +kernel⟩,
   ⟨(at_ .run [((F.STK_SRC_STAGE (0 : Nat)), 1)] : State), 0, 0, false, by decide +kernel⟩,
   ⟨(at_ .run [] : State), 0, false, by decide +kernel⟩,
   ⟨(stk_ (at_ .run []) 0 { ((at_ .run [])).stk 0 with fired := true } : State), 0, false, by decide +kernel⟩,
   ⟨(stk_ (at_ .run []) 0 { ((at_ .run [])).stk 0 with fired := true, staged := some 0 } : State), 0, 0, by decide +kernel⟩⟩

theorem witness_EngineStaysInBounds :
    ∃ (s : State) (n : Nat) (e : Int) (i : Int) (t : Int) (aoff : Int), s.flag (F.STK_ENG_CTRL_MODE n) = false :=
  ⟨(at_ .run [((F.STK_ENG_CTRL_MODE (0 : Nat)), 0)] : State), 0, 0, 0, 0, 0, by decide +kernel⟩

theorem witness_OutputCommands :
    (∃ (n : Fin 8) (s : State), s.flag (F.OUT_LDO_STAT_EN n) = true ∧ s.flag (F.OUT_LDO_STAT_SS n) = true) ∧
    (∃ (n : Fin 8) (s : State), s.flag (F.OUT_LDO_STAT_EN n) = true ∧ s.flag (F.OUT_LDO_STAT_SS n) = false ∧ s.ldoTripped n = false) ∧
    (∃ (n : Fin 8) (s : State), s.ldoTripped n = true) ∧
    (∃ (n : Fin 8) (s : State), s.flag (F.OUT_LDO_STAT_EN n) = true ∧ s.ldoTripped n = false) ∧
    (∃ (n : Fin 8) (k : Nat) (s : State), (tget s.ldo n Rail.init).limAt = some k ∧ s.flag (F.OUT_LDO_STAT_EN n) = true ∧ s.ldoTripped n = false) ∧
    (∃ (n : Fin 6) (s : State), s.flag (F.OUT_LSW_STAT_EN n) = true ∧ s.flag (F.OUT_LSW_STAT_SS n) = true) ∧
    (∃ (n : Fin 6) (s : State), s.flag (F.OUT_LSW_STAT_EN n) = true ∧ s.flag (F.OUT_LSW_STAT_SS n) = false ∧ s.lswTripped n = false) ∧
    (∃ (n : Fin 6) (s : State), s.lswTripped n = true) ∧
    (∃ (n : Fin 6) (s : State), s.flag (F.OUT_LSW_STAT_EN n) = true ∧ s.lswTripped n = false) ∧
    (∃ (n : Fin 6) (k : Nat) (s : State), (tget s.lsw n Rail.init).limAt = some k ∧ s.flag (F.OUT_LSW_STAT_EN n) = true ∧ s.lswTripped n = false) ∧
    (∃ (n : Fin 8) (s : State), s.flag (F.OUT_LDO_STAT_EN n) = true) ∧
    (∃ (n : Fin 6) (s : State), s.flag (F.OUT_LSW_STAT_EN n) = true ∧ s.lswTripped n = false) ∧
    (∃ (s : State) (n : Nat), s.flag (F.OUT_LDO_STAT_EN n) = false) ∧
    (∃ (s : State) (n : Nat), s.flag (F.OUT_LSW_STAT_EN n) = false) ∧
    (∃ (s : State) (n : Nat), s.dev.mode = .hibernate ∧ s.flag (F.OUT_LDO_STAT_EN n) = false) ∧
    (∃ (s : State) (n : Nat), s.dev.mode = .hibernate ∧ s.flag (F.OUT_LSW_STAT_EN n) = false) ∧
    (∃ (n : Fin 2) (s : State), s.flag (F.OUT_G_STAT_ON n) = true) ∧
    (∃ (s : State), s.writeOk 0x1898 = true ∧ s.injects 4 = false) :=
  ⟨⟨0, (at_ .run [((F.OUT_LDO_STAT_EN (0 : Fin 8)), 1), ((F.OUT_LDO_STAT_SS (0 : Fin 8)), 1)] : State), by decide +kernel⟩,
   ⟨0, (at_ .run [((F.OUT_LDO_STAT_EN (0 : Fin 8)), 1), ((F.OUT_LDO_STAT_SS (0 : Fin 8)), 0)] : State), by decide +kernel⟩,
   ⟨0, ({ (at_ .run []) with ldo := tset [] 0 Rail.init ⟨true, none, 0, 0⟩ } : State), by decide +kernel⟩,
   ⟨0, (at_ .run [((F.OUT_LDO_STAT_EN (0 : Fin 8)), 1)] : State), by decide +kernel⟩,
   ⟨0, 0, ({ (at_ .run [((F.OUT_LDO_STAT_EN (0 : Fin 8)), 1)]) with ldo := tset [] 0 Rail.init ⟨false, some 0, 0, 0⟩ } : State), by decide +kernel⟩,
   ⟨0, (at_ .run [((F.OUT_LSW_STAT_EN (0 : Fin 6)), 1), ((F.OUT_LSW_STAT_SS (0 : Fin 6)), 1)] : State), by decide +kernel⟩,
   ⟨0, (at_ .run [((F.OUT_LSW_STAT_EN (0 : Fin 6)), 1), ((F.OUT_LSW_STAT_SS (0 : Fin 6)), 0)] : State), by decide +kernel⟩,
   ⟨0, ({ (at_ .run []) with lsw := tset [] 0 Rail.init ⟨true, none, 0, 0⟩ } : State), by decide +kernel⟩,
   ⟨0, (at_ .run [((F.OUT_LSW_STAT_EN (0 : Fin 6)), 1)] : State), by decide +kernel⟩,
   ⟨0, 0, ({ (at_ .run [((F.OUT_LSW_STAT_EN (0 : Fin 6)), 1)]) with lsw := tset [] 0 Rail.init ⟨false, some 0, 0, 0⟩ } : State), by decide +kernel⟩,
   ⟨0, (at_ .run [((F.OUT_LDO_STAT_EN (0 : Fin 8)), 1)] : State), by decide +kernel⟩,
   ⟨0, (at_ .run [((F.OUT_LSW_STAT_EN (0 : Fin 6)), 1)] : State), by decide +kernel⟩,
   ⟨(at_ .run [((F.OUT_LDO_STAT_EN (0 : Nat)), 0)] : State), 0, by decide +kernel⟩,
   ⟨(at_ .run [((F.OUT_LSW_STAT_EN (0 : Nat)), 0)] : State), 0, by decide +kernel⟩,
   ⟨(at_ .hibernate [((F.OUT_LDO_STAT_EN (0 : Nat)), 0)] : State), 0, by decide +kernel⟩,
   ⟨(at_ .hibernate [((F.OUT_LSW_STAT_EN (0 : Nat)), 0)] : State), 0, by decide +kernel⟩,
   ⟨0, (at_ .run [((F.OUT_G_STAT_ON (0 : Fin 2)), 1)] : State), by decide +kernel⟩,
   ⟨(at_ .run [] : State), by decide +kernel⟩⟩

theorem witness_OutputCommands_more :
    (∃ (s : State), s.writeOk 0x1898 = true ∧ s.injects 4 = false) ∧
    (∃ (v : Word) (s : State), s.writeOk 0x1898 = true ∧ v ≠ 0x6A7D0000 ∧ v ≠ 0x6A7D0001 ∧ s.injects 4 = false) ∧
    (∃ (n : Fin 2) (b : Fin 4) (vsrc : Nat) (s : State), s.coreRuns = true ∧ (if b.val = 2 then s.flag (F.OUT_G_STAT_ON n) = false else s.flag (F.OUT_G_STAT_ON n) = true)) :=
  ⟨⟨(at_ .run [] : State), by decide +kernel⟩,
   ⟨0, (at_ .run [] : State), by decide +kernel⟩,
   ⟨0, 0, 0, ({ (at_ .run [(F.OUT_G_STAT_ON 0, 1)]) with now := 10 ^ 9 } : State), by decide +kernel⟩⟩

theorem witness_PowerPathCommands :
    (∃ (causes : BitVec 3) (vin : Nat) (k : Nat) (s : State), s.dev.vaoGood = true ∧ s.fe ≠ 0 ∧ (k = 1 ∨ k = 2 ∨ k = 3) ∧ bitOf causes.toNat (k - 1) = true ∧ ((∀ j, 1 ≤ j → j < k → bitOf causes.toNat (j - 1) = false))) ∧
    (∃ (vin : Nat) (rise : Nat) (retOk : Bool) (strap : Bool) (s : State), s.dev.vaoGood = true ∧ s.fe = 0 ∧ 650 ≤ vin ∧ ((s.get F.PP_FE_CNT_CAUSE ≠ 3 ∧ s.get F.PP_FE_CNT_CAUSE ≠ 4) ∨ vin ≤ 1800)) ∧
    (∃ (s : State), s.fe = 1) ∧
    (∃ (vin : Nat) (s : State), s.fe = 1) ∧
    (∃ (s : State), s.fe = 2) ∧
    (∃ (s : State), s.fe = 3) ∧
    (∃ (vin : Nat) (s : State), s.fe = 3) ∧
    (∃ (s : State), s.fe ≠ 0 ∧ s.flag F.PP_FE_STAT_UNSTABLE = true) ∧
    (∃ (s : State), s.pp.packPath = true) ∧
    (∃ (low : Bool) (s : State), s.dev.vaoGood = true) ∧
    (∃ (v : Nat) (s : State), (s.dev.mode = .run ∨ s.dev.mode = .park)) ∧
    (∃ (v : Nat) (s : State), s.dev.vaoGood = true) ∧
    (∃ (s : State), s.dev.vaoGood = true) ∧
    (∃ (s : State), s.dev.vaoGood = true ∧ s.dev.mode ≠ .park ∧ s.flag F.PP_PACK_STAT_PRESENT = false) ∧
    (∃ (s : State), s.dev.vaoGood = true ∧ s.dev.mode ≠ .park ∧ s.flag F.PP_PACK_STAT_PRESENT = false) ∧
    (∃ (id : Nat) (vbat : Nat) (s : State), s.dev.vaoGood = true ∧ s.dev.mode ≠ .park ∧ s.flag F.PP_PACK_STAT_QUAL = true ∧ s.flag F.PP_PACK_STAT_PRESENT = false) ∧
    (∃ (vbat : Nat) (s : State), s.pp.resting = true) ∧
    (∃ (sign : Fin 5) (s : State), s.dev.vaoGood = true ∧ s.flag F.PP_PACK_STAT_PRESENT = true ∧ s.dev.mode ≠ .park ∧ ((sign.val = 2 → s.chgState = 5)) ∧ ((sign.val = 3 → s.chgState = 6))) :=
  ⟨⟨1, 0, 1, ({ at_ .run [(F.PP_FE_STAT_STATE, 2)] with dev := { (at_ .run [(F.PP_FE_STAT_STATE, 2)]).dev with vaoGood := true } } : State), by decide +kernel, by decide +kernel, Or.inl rfl, by decide +kernel, fun j _ h => absurd h (by omega)⟩,
   ⟨700, 0, false, false, ({ at_ .run [(F.PP_FE_STAT_STATE, 0)] with dev := { (at_ .run [(F.PP_FE_STAT_STATE, 0)]).dev with vaoGood := true } } : State), by decide +kernel⟩,
   ⟨(at_ .run [(F.PP_FE_STAT_STATE, 1)] : State), by decide +kernel⟩,
   ⟨0, (at_ .run [(F.PP_FE_STAT_STATE, 1)] : State), by decide +kernel⟩,
   ⟨(at_ .run [(F.PP_FE_STAT_STATE, 2)] : State), by decide +kernel⟩,
   ⟨(at_ .run [(F.PP_FE_STAT_STATE, 3)] : State), by decide +kernel⟩,
   ⟨0, (at_ .run [(F.PP_FE_STAT_STATE, 3)] : State), by decide +kernel⟩,
   ⟨(at_ .run [(F.PP_FE_STAT_STATE, 2), (F.PP_FE_STAT_UNSTABLE, 1)] : State), by decide +kernel⟩,
   ⟨({ at_ .run [] with pp := { (at_ .run []).pp with packPath := true } } : State), by decide +kernel⟩,
   ⟨false, ({ at_ .run [] with dev := { (at_ .run []).dev with vaoGood := true } } : State), by decide +kernel⟩,
   ⟨0, (at_ .run [] : State), by decide +kernel⟩,
   ⟨0, ({ at_ .run [] with dev := { (at_ .run []).dev with vaoGood := true } } : State), by decide +kernel⟩,
   ⟨({ at_ .run [] with dev := { (at_ .run []).dev with vaoGood := true } } : State), by decide +kernel⟩,
   ⟨({ at_ .run [(F.PP_PACK_STAT_PRESENT, 0)] with dev := { (at_ .run [(F.PP_PACK_STAT_PRESENT, 0)]).dev with vaoGood := true } } : State), by decide +kernel⟩,
   ⟨({ at_ .run [(F.PP_PACK_STAT_PRESENT, 0)] with dev := { (at_ .run [(F.PP_PACK_STAT_PRESENT, 0)]).dev with vaoGood := true } } : State), by decide +kernel⟩,
   ⟨0, 0, ({ at_ .run [(F.PP_PACK_STAT_QUAL, 1), (F.PP_PACK_STAT_PRESENT, 0)] with dev := { (at_ .run [(F.PP_PACK_STAT_QUAL, 1), (F.PP_PACK_STAT_PRESENT, 0)]).dev with vaoGood := true } } : State), by decide +kernel⟩,
   ⟨0, ({ at_ .run [] with pp := { (at_ .run []).pp with resting := true } } : State), by decide +kernel⟩,
   ⟨0, ({ at_ .run [(F.PP_PACK_STAT_PRESENT, 1)] with dev := { (at_ .run [(F.PP_PACK_STAT_PRESENT, 1)]).dev with vaoGood := true } } : State), by decide +kernel⟩⟩

theorem witness_PowerPathCommands_more :
    (∃ (idOpen : Bool) (s : State), s.dev.mode = .park ∧ s.flag F.PP_PACK_STAT_PRESENT = true ∧ s.pp.parkSign = 0) ∧
    (∃ (ntcOpen : Bool) (idOpen : Bool) (s : State), s.dev.mode = .park ∧ (s.flag F.PP_PACK_STAT_PRESENT = false ∨ (ntcOpen = false ∧ idOpen = false) ∨ s.pp.parkSign ≠ 0)) :=
  ⟨⟨false, ({ at_ .park [(F.PP_PACK_STAT_PRESENT, 1)] with pp := { (at_ .park [(F.PP_PACK_STAT_PRESENT, 1)]).pp with parkSign := 0 } } : State), by decide +kernel⟩,
   ⟨false, false, (at_ .park [(F.PP_PACK_STAT_PRESENT, 0)] : State), by decide +kernel⟩⟩

theorem witness_ChargerCommands :
    (∃ (v : Word) (vbat : Nat) (s : State), s.writeOk 0x1C40 = true ∧ s.injects 4 = false) ∧
    (∃ (v : Nat) (vbat : Nat) (s : State), encodable 0x1C40 v = true ∧ s.chgCfgBad v = false) ∧
    (∃ (v : Nat) (vbat : Nat) (s : State), (encodable 0x1C40 v = false ∨ s.chgCfgBad v = true)) ∧
    (∃ (v : Word) (vbat : Nat) (s : State), s.writeOk 0x1C5C = true ∧ s.injects 4 = false) ∧
    (∃ (headroom : Bool) (s : State), s.dev.vaoGood = true) ∧
    (∃ (s : State), chgCharging s.chgState = true ∧ s.suspend ≠ 0) ∧
    (∃ (s : State) (k : Nat), s.suspend = 0 ∧ s.pp.chg.clearAt = some k) ∧
    (∃ (s : State), s.suspend = 0 ∧ s.pp.chg.clearAt = none) ∧
    (∃ (vbat : Nat) (k : Nat) (s : State), (s.chgCheck).chgState = 3 ∧ (s.chgCheck).pp.chg.clearAt = some k) ∧
    (∃ (vbat : Nat) (s : State), ((s.chgCheck).chgState ≠ 3 ∨ (s.chgCheck).pp.chg.clearAt = none)) ∧
    (∃ (s : State), (s.chgCheck).chgState = 4) ∧
    (∃ (s : State), (s.chgCheck).chgState ≠ 4) ∧
    (∃ (s : State), (s.chgCheck).chgState = 5) ∧
    (∃ (s : State), s.flag F.PP_CHG_STAT_PROBE = false ∧ (s.chgCheck).chgState = 5) ∧
    (∃ (s : State), s.flag F.PP_CHG_STAT_PROBE = false ∧ (s.chgCheck).chgState = 6) ∧
    (∃ (s : State), s.flag F.PP_CHG_STAT_PROBE = false ∧ (s.chgCheck).chgState = 6) ∧
    (∃ (s : State), (s.chgCheck).chgState = 7) ∧
    (∃ (vbat : Nat) (s : State), s.chgState = 8) :=
  ⟨⟨0, 0, (at_ .run [] : State), by decide +kernel⟩,
   ⟨(State.reset.rawWord 0x1C40), 0, ({ (at_ .run []) with image := { ((at_ .run [])).image with chgTiles := 3 } } : State), by decide +kernel⟩,
   ⟨0, 0, (at_ .run [] : State), by decide +kernel⟩,
   ⟨0, 0, (at_ .run [] : State), by decide +kernel⟩,
   ⟨false, ({ at_ .run [] with dev := { (at_ .run []).dev with vaoGood := true } } : State), by decide +kernel⟩,
   ⟨({ at_ .run [(F.PP_FE_STAT_SRC, 1), (F.PP_CHG_STAT_ZONE, 2), (F.PP_CHG_CFG_ICHG, 10), (F.PP_CHG_CEIL_IMAX, 120), (F.PP_CHG_STAT_STATE, 5)] with pp := { (at_ .run [(F.PP_FE_STAT_SRC, 1), (F.PP_CHG_STAT_ZONE, 2), (F.PP_CHG_CFG_ICHG, 10), (F.PP_CHG_CEIL_IMAX, 120), (F.PP_CHG_STAT_STATE, 5)]).pp with chg := { State.reset.pp.chg with clearAt := none } } } : State), by decide +kernel⟩,
   ⟨({ at_ .run [(F.PP_FE_STAT_SRC, 0), (F.PP_CHG_STAT_ZONE, 2), (F.PP_CHG_CFG_ICHG, 10), (F.PP_CHG_CEIL_IMAX, 120), (F.PP_CHG_STAT_STATE, 5)] with pp := { (at_ .run [(F.PP_FE_STAT_SRC, 0), (F.PP_CHG_STAT_ZONE, 2), (F.PP_CHG_CFG_ICHG, 10), (F.PP_CHG_CEIL_IMAX, 120), (F.PP_CHG_STAT_STATE, 5)]).pp with chg := { State.reset.pp.chg with clearAt := some 0 } } } : State), 0, by decide +kernel⟩,
   ⟨({ at_ .run [(F.PP_FE_STAT_SRC, 0), (F.PP_CHG_STAT_ZONE, 2), (F.PP_CHG_CFG_ICHG, 10), (F.PP_CHG_CEIL_IMAX, 120), (F.PP_CHG_STAT_STATE, 5)] with pp := { (at_ .run [(F.PP_FE_STAT_SRC, 0), (F.PP_CHG_STAT_ZONE, 2), (F.PP_CHG_CFG_ICHG, 10), (F.PP_CHG_CEIL_IMAX, 120), (F.PP_CHG_STAT_STATE, 5)]).pp with chg := { State.reset.pp.chg with clearAt := none } } } : State), by decide +kernel⟩,
   ⟨0, 0, ({ at_ .run [(F.PP_FE_STAT_SRC, 0), (F.PP_CHG_STAT_ZONE, 2), (F.PP_CHG_CFG_ICHG, 10), (F.PP_CHG_CEIL_IMAX, 120), (F.PP_CHG_STAT_STATE, 3)] with pp := { (at_ .run [(F.PP_FE_STAT_SRC, 0), (F.PP_CHG_STAT_ZONE, 2), (F.PP_CHG_CFG_ICHG, 10), (F.PP_CHG_CEIL_IMAX, 120), (F.PP_CHG_STAT_STATE, 3)]).pp with chg := { State.reset.pp.chg with clearAt := some 0 } } } : State), by decide +kernel⟩,
   ⟨0, (at_ .run [] : State), by decide +kernel⟩,
   ⟨({ at_ .run [(F.PP_FE_STAT_SRC, 0), (F.PP_CHG_STAT_ZONE, 2), (F.PP_CHG_CFG_ICHG, 10), (F.PP_CHG_CEIL_IMAX, 120), (F.PP_CHG_STAT_STATE, 4)] with pp := { (at_ .run [(F.PP_FE_STAT_SRC, 0), (F.PP_CHG_STAT_ZONE, 2), (F.PP_CHG_CFG_ICHG, 10), (F.PP_CHG_CEIL_IMAX, 120), (F.PP_CHG_STAT_STATE, 4)]).pp with chg := { State.reset.pp.chg with clearAt := none } } } : State), by decide +kernel⟩,
   ⟨(at_ .run [] : State), by decide +kernel⟩,
   ⟨({ at_ .run [(F.PP_FE_STAT_SRC, 0), (F.PP_CHG_STAT_ZONE, 2), (F.PP_CHG_CFG_ICHG, 10), (F.PP_CHG_CEIL_IMAX, 120), (F.PP_CHG_STAT_STATE, 5)] with pp := { (at_ .run [(F.PP_FE_STAT_SRC, 0), (F.PP_CHG_STAT_ZONE, 2), (F.PP_CHG_CFG_ICHG, 10), (F.PP_CHG_CEIL_IMAX, 120), (F.PP_CHG_STAT_STATE, 5)]).pp with chg := { State.reset.pp.chg with clearAt := none } } } : State), by decide +kernel⟩,
   ⟨({ at_ .run [(F.PP_CHG_STAT_PROBE, 0), (F.PP_FE_STAT_SRC, 0), (F.PP_CHG_STAT_ZONE, 2), (F.PP_CHG_CFG_ICHG, 10), (F.PP_CHG_CEIL_IMAX, 120), (F.PP_CHG_STAT_STATE, 5)] with pp := { (at_ .run [(F.PP_CHG_STAT_PROBE, 0), (F.PP_FE_STAT_SRC, 0), (F.PP_CHG_STAT_ZONE, 2), (F.PP_CHG_CFG_ICHG, 10), (F.PP_CHG_CEIL_IMAX, 120), (F.PP_CHG_STAT_STATE, 5)]).pp with chg := { State.reset.pp.chg with clearAt := none } } } : State), by decide +kernel⟩,
   ⟨({ at_ .run [(F.PP_CHG_STAT_PROBE, 0), (F.PP_FE_STAT_SRC, 0), (F.PP_CHG_STAT_ZONE, 2), (F.PP_CHG_CFG_ICHG, 10), (F.PP_CHG_CEIL_IMAX, 120), (F.PP_CHG_STAT_STATE, 6)] with pp := { (at_ .run [(F.PP_CHG_STAT_PROBE, 0), (F.PP_FE_STAT_SRC, 0), (F.PP_CHG_STAT_ZONE, 2), (F.PP_CHG_CFG_ICHG, 10), (F.PP_CHG_CEIL_IMAX, 120), (F.PP_CHG_STAT_STATE, 6)]).pp with chg := { State.reset.pp.chg with clearAt := none } } } : State), by decide +kernel⟩,
   ⟨({ at_ .run [(F.PP_CHG_STAT_PROBE, 0), (F.PP_FE_STAT_SRC, 0), (F.PP_CHG_STAT_ZONE, 2), (F.PP_CHG_CFG_ICHG, 10), (F.PP_CHG_CEIL_IMAX, 120), (F.PP_CHG_STAT_STATE, 6)] with pp := { (at_ .run [(F.PP_CHG_STAT_PROBE, 0), (F.PP_FE_STAT_SRC, 0), (F.PP_CHG_STAT_ZONE, 2), (F.PP_CHG_CFG_ICHG, 10), (F.PP_CHG_CEIL_IMAX, 120), (F.PP_CHG_STAT_STATE, 6)]).pp with chg := { State.reset.pp.chg with clearAt := none } } } : State), by decide +kernel⟩,
   ⟨({ at_ .run [(F.PP_FE_STAT_SRC, 0), (F.PP_CHG_STAT_ZONE, 2), (F.PP_CHG_CFG_ICHG, 10), (F.PP_CHG_CEIL_IMAX, 120), (F.PP_CHG_STAT_STATE, 7)] with pp := { (at_ .run [(F.PP_FE_STAT_SRC, 0), (F.PP_CHG_STAT_ZONE, 2), (F.PP_CHG_CFG_ICHG, 10), (F.PP_CHG_CEIL_IMAX, 120), (F.PP_CHG_STAT_STATE, 7)]).pp with chg := { State.reset.pp.chg with clearAt := none } } } : State), by decide +kernel⟩,
   ⟨0, (at_ .run [(F.PP_CHG_STAT_STATE, 8)] : State), by decide +kernel⟩⟩

theorem witness_ChargerCommands_more :
    (∃ (vbat : Nat) (s : State), s.chgState = 4) ∧
    (∃ (vbat : Nat) (s : State), (s.chgState = 4 ∨ s.chgState = 5 ∨ s.chgState = 6)) ∧
    (∃ (vbat : Nat) (s : State), s.flag F.PP_PACK_STAT_PRESENT = true ∧ s.signFresh = false) ∧
    (∃ (s : State), s.flag F.PP_CHG_STAT_PROBE = true) ∧
    (∃ (s : State), chgCharging s.chgState = true ∧ (s.tilesOf 16).length = 2 ∧ s.segAt s.seg = 0 ∧ s.flag F.PP_CHG_STAT_PROBE = false ∧ ((if (s.chgIeff s.chgState) < 1200 then 1 else if 1500 ≤ (s.chgIeff s.chgState) then 2 else s.pp.chg.count)) ≠ s.pp.chg.count) ∧
    (∃ (s : State), s.chgState = 9) :=
  ⟨⟨0, (at_ .run [(F.PP_CHG_STAT_STATE, 4)] : State), by decide +kernel⟩,
   ⟨0, (at_ .run [(F.PP_CHG_STAT_STATE, 4)] : State), by decide +kernel⟩,
   ⟨0, (at_ .run [(F.PP_PACK_STAT_PRESENT, 1)] : State), by decide +kernel⟩,
   ⟨(at_ .run [(F.PP_CHG_STAT_PROBE, 1)] : State), by decide +kernel⟩,
   ⟨({ (at_ .run [(F.PP_CHG_STAT_PROBE, 0), (F.PP_CHG_STAT_STATE, 5), (F.TIL_STAT_USE 0, 16), (F.TIL_STAT_USE 1, 16)]) with pp := { ((at_ .run [(F.PP_CHG_STAT_PROBE, 0), (F.PP_CHG_STAT_STATE, 5), (F.TIL_STAT_USE 0, 16), (F.TIL_STAT_USE 1, 16)])).pp with chg := { ((at_ .run [(F.PP_CHG_STAT_PROBE, 0), (F.PP_CHG_STAT_STATE, 5), (F.TIL_STAT_USE 0, 16), (F.TIL_STAT_USE 1, 16)])).pp.chg with count := 9 } } } : State), by decide +kernel⟩,
   ⟨(at_ .run [(F.PP_CHG_STAT_STATE, 9)] : State), by decide +kernel⟩⟩

theorem witness_ChargerStopsForItsFaults :
    (∃ (s : State) (vbat : Nat), s.dev.stage ≠ .powerDown ∧ s.dev.stage ≠ .commit) ∧
    (∃ (s : State), chgCharging s.chgCheck.chgState = true) ∧
    (∃ (s : State), chgCharging s.chgState = false) :=
  ⟨⟨(at_ .run [] : State), 0, by decide +kernel⟩,
   ⟨(at_ .run [(F.PP_CHG_STAT_STATE, 5), (F.PP_FE_STAT_SRC, 0), (F.PP_CHG_STAT_ZONE, 2)] : State), by decide +kernel⟩,
   ⟨(at_ .run [] : State), by decide +kernel⟩⟩

theorem witness_GaugeCommands :
    (∃ (i : Int) (v : Nat) (s : State), s.gaugeRuns = true ∧ s.gg.secWins + 1 < 32768) ∧
    (∃ (i : Int) (v : Nat) (s : State), s.gaugeRuns = true ∧ 32768 ≤ s.gg.secWins + 1 ∧ i.natAbs ≤ 131071) ∧
    (∃ (i : Int) (v : Nat) (s : State), s.gaugeRuns = true ∧ 32768 ≤ s.gg.secWins + 1 ∧ 131071 < i.natAbs) ∧
    (∃ (a : Int) (b : Int) (n : Nat) (s : State), s.gaugeRuns = true ∧ s.gg.handed = some (a, b, n)) ∧
    (∃ (s : State), s.gaugeRuns = true ∧ s.gg.handed = none ∧ s.dev.mode ≠ .park) ∧
    (∃ (s : State), s.dev.mode = .park ∧ s.gg.handed = none) ∧
    (∃ (i : Int) (v : Nat) (f : Nat) (p : Nat) (s : State), s.gaugeRuns = true ∧ s.gg.snap = some (f, p)) ∧
    (∃ (t : State) (s : State), s.dev.mode = .run ∧ s.mapsLive = true ∧ s.segAt s.seg = 1 ∧ s.crossing 2 0 = (false, t)) ∧
    (∃ (t : State) (s : State), s.dev.mode = .run ∧ s.mapsLive = true ∧ s.segAt s.seg = 1 ∧ s.crossing 2 0 = (true, t)) ∧
    (∃ (s : State), s.dev.mode = .run ∧ s.gg.trig = true) ∧
    (∃ (c : Capture) (s : State), s.gg.capture = some c ∧ c.skip = 0 ∧ c.left = 0 ∧ c.ended = true) ∧
    (∃ (c : Capture) (s : State), s.gg.capture = some c ∧ c.skip = 0 ∧ c.left = 0 ∧ c.ended = false ∧ c.changed = true) ∧
    (∃ (c : Capture) (s : State), s.gg.capture = some c ∧ c.skip = 0 ∧ c.left = 0 ∧ c.ended = false ∧ c.changed = false ∧ ((c.postI - c.preI).natAbs : Int) * 625 < (s.get F.GG_IMP_CFG_CAP_MIN_DI : Int) * 4 * s.rsh) ∧
    (∃ (c : Capture) (s : State), s.gg.capture = some c ∧ c.skip = 0 ∧ c.left = 0 ∧ c.ended = false ∧ c.changed = false ∧ ¬ ((c.postI - c.preI).natAbs : Int) * 625 < (s.get F.GG_IMP_CFG_CAP_MIN_DI : Int) * 4 * s.rsh ∧ ((tdiv ((c.postV - c.preV) * s.rsh * 25) (c.postI - c.preI)) < 1 ∨ 50000 < (tdiv ((c.postV - c.preV) * s.rsh * 25) (c.postI - c.preI)))) ∧
    (∃ (c : Capture) (s : State), s.gg.capture = some c ∧ c.skip = 0 ∧ c.left = 0 ∧ c.ended = false ∧ c.changed = false ∧ ¬ ((c.postI - c.preI).natAbs : Int) * 625 < (s.get F.GG_IMP_CFG_CAP_MIN_DI : Int) * 4 * s.rsh ∧ (¬ ((tdiv ((c.postV - c.preV) * s.rsh * 25) (c.postI - c.preI)) < 1 ∨ 50000 < (tdiv ((c.postV - c.preV) * s.rsh * 25) (c.postI - c.preI))))) ∧
    (∃ (s : State), s.gaugeRuns = true) ∧
    (∃ (s : State), s.gg.startDue = true ∧ (s.newestBody 1 = none ∨ s.gg.idMatch = false)) ∧
    (∃ (b : List Byte) (s : State), s.gg.startDue = true ∧ s.newestBody 1 = some b ∧ s.gg.idMatch = true ∧ s.rtcValid = false) :=
  ⟨⟨0, 0, (at_ .run [] : State), by decide +kernel⟩,
   ⟨0, 0, ({ at_ .run [] with gg := { (at_ .run []).gg with secWins := 32767 } } : State), by decide +kernel⟩,
   ⟨131072, 0, ({ at_ .run [] with gg := { (at_ .run []).gg with secWins := 32767 } } : State), by decide +kernel⟩,
   ⟨0, 0, 0, ({ at_ .run [] with gg := { (at_ .run []).gg with handed := some ((0 : Int), (0 : Int), (0 : Nat)) } } : State), by decide +kernel⟩,
   ⟨({ at_ .run [] with gg := { (at_ .run []).gg with handed := none } } : State), by decide +kernel⟩,
   ⟨({ at_ .park [] with gg := { (at_ .park []).gg with handed := none } } : State), by decide +kernel⟩,
   ⟨0, 0, 0, 0, ({ at_ .run [] with gg := { (at_ .run []).gg with snap := some ((0 : Nat), (0 : Nat)) } } : State), by decide +kernel⟩,
   ⟨(((map_ (at_ .run [(F.FRM_STATE_STATE, 3)]) 1 : State)).crossing 2 0).2, (map_ (at_ .run [(F.FRM_STATE_STATE, 3)]) 1 : State), by decide +kernel, by decide +kernel, by decide +kernel, pairl_ _ _ (by decide +kernel)⟩,
   ⟨((({ map_ (at_ .run [(F.FRM_STATE_STATE, 3)]) 1 with xpend := [(64, 5)] } : State)).crossing 2 0).2, ({ map_ (at_ .run [(F.FRM_STATE_STATE, 3)]) 1 with xpend := [(64, 5)] } : State), by decide +kernel⟩,
   ⟨({ at_ .run [] with gg := { (at_ .run []).gg with trig := true } } : State), by decide +kernel⟩,
   ⟨⟨false, 0, 0, 0, 0, 0, 0, true, false⟩, ({ at_ .run [] with gg := { (at_ .run []).gg with capture := some (⟨false, 0, 0, 0, 0, 0, 0, true, false⟩ : Capture) } } : State), by decide +kernel⟩,
   ⟨⟨false, 0, 0, 0, 0, 0, 0, false, true⟩, ({ at_ .run [] with gg := { (at_ .run []).gg with capture := some (⟨false, 0, 0, 0, 0, 0, 0, false, true⟩ : Capture) } } : State), by decide +kernel⟩,
   ⟨⟨false, 0, 0, 0, 0, 0, 0, false, false⟩, ({ at_ .run [(F.GG_SHUNT_RSH, 1000), (F.GG_IMP_CFG_CAP_MIN_DI, 10)] with gg := { (at_ .run [(F.GG_SHUNT_RSH, 1000), (F.GG_IMP_CFG_CAP_MIN_DI, 10)]).gg with capture := some (⟨false, 0, 0, 0, 0, 0, 0, false, false⟩ : Capture) } } : State), by decide +kernel⟩,
   ⟨⟨false, 0, 0, 0, 0, 1000000, 0, false, false⟩, ({ at_ .run [(F.GG_SHUNT_RSH, 1000)] with gg := { (at_ .run [(F.GG_SHUNT_RSH, 1000)]).gg with capture := some (⟨false, 0, 0, 0, 0, 1000000, 0, false, false⟩ : Capture) } } : State), by decide +kernel⟩,
   ⟨⟨false, 0, 0, 0, 0, 1000000, 1000, false, false⟩, ({ at_ .run [(F.GG_SHUNT_RSH, 1000)] with gg := { (at_ .run [(F.GG_SHUNT_RSH, 1000)]).gg with capture := some (⟨false, 0, 0, 0, 0, 1000000, 1000, false, false⟩ : Capture) } } : State), by decide +kernel⟩,
   ⟨(at_ .run [] : State), by decide +kernel⟩,
   ⟨({ at_ .run [] with gg := { (at_ .run []).gg with startDue := true } } : State), by decide +kernel⟩,
   ⟨(List.replicate 64 1), ((({ at_ .run [] with gg := { (at_ .run []).gg with startDue := true, idMatch := true }, rtcValid := false })).commitBytes 1 (List.replicate 64 1) : State), by decide +kernel⟩⟩

theorem witness_GaugeCommands_more :
    (∃ (b : List Byte) (s : State), s.gg.startDue = true ∧ s.newestBody 1 = some b ∧ s.gg.idMatch = true ∧ s.rtcValid = true ∧ s.flag F.GG_STAT_FROZEN = false ∧ (leField b 14 4 ≠ 0 ∧ s.rtcSec < leField b 14 4 + 1800)) ∧
    (∃ (b : List Byte) (k : Nat) (s : State), s.gg.startDue = true ∧ s.newestBody 1 = some b ∧ s.gg.idMatch = true ∧ s.rtcValid = true ∧ s.flag F.GG_STAT_FROZEN = true ∧ s.gg.removedAt = some k ∧ s.rtcSec < k + 1800) ∧
    (∃ (b : List Byte) (s : State), s.gg.startDue = true ∧ s.newestBody 1 = some b ∧ s.gg.idMatch = true ∧ s.rtcValid = true ∧ s.flag F.GG_STAT_FROZEN = false ∧ (leField b 14 4 = 0 ∨ leField b 14 4 + 1800 ≤ s.rtcSec)) ∧
    (∃ (b : List Byte) (s : State), s.gg.startDue = true ∧ s.newestBody 1 = some b ∧ s.gg.idMatch = true ∧ s.rtcValid = true ∧
    s.flag F.GG_STAT_FROZEN = true ∧ ∀ k, s.gg.removedAt = some k → k + 1800 ≤ s.rtcSec) :=
  ⟨⟨(List.replicate 64 1), ({ (({ at_ .run [(F.GG_STAT_FROZEN, 0)] with gg := { (at_ .run [(F.GG_STAT_FROZEN, 0)]).gg with startDue := true, idMatch := true }, rtcValid := true })).commitBytes 1 (List.replicate 64 1) with rtcSec := 0x01010102 } : State), by decide +kernel⟩,
   ⟨(List.replicate 64 1), 0, ({ (({ at_ .run [(F.GG_STAT_FROZEN, 1)] with gg := { (at_ .run [(F.GG_STAT_FROZEN, 1)]).gg with startDue := true, idMatch := true, removedAt := some (0 : Nat) }, rtcValid := true })).commitBytes 1 (List.replicate 64 1) with rtcSec := 1799 } : State), by decide +kernel⟩,
   ⟨(List.replicate 64 1), ({ (({ at_ .run [(F.GG_STAT_FROZEN, 0)] with gg := { (at_ .run [(F.GG_STAT_FROZEN, 0)]).gg with startDue := true, idMatch := true }, rtcValid := true })).commitBytes 1 (List.replicate 64 1) with rtcSec := 0x7FFFFFFF } : State), by decide +kernel⟩,
   (have h : ∀ s : State, s.gg.removedAt = none → ∀ k, s.gg.removedAt = some k → k + 1800 ≤ s.rtcSec := fun s h k e => by rw [h] at e; cases e
  let s0 := at_ .run [(F.GG_STAT_FROZEN, 1)]
  let s1 : State := { s0.commitBytes 1 (List.replicate 64 1) with gg := { s0.gg with startDue := true, idMatch := true }, rtcValid := true }
  ⟨List.replicate 64 1, s1, by decide +kernel, by decide +kernel, by decide +kernel, by decide +kernel, by decide +kernel, h s1 (by decide +kernel)⟩)⟩

theorem witness_ChargeIsConserved :
    (∃ (x : Int) (s : State), s.flag F.GG_STAT_FROZEN = false) ∧
    (∃ (x : Int) (s : State), 0 < s.rsh) ∧
    (∃ (x : Int) (s : State), s.flag F.GG_STAT_FROZEN = true) :=
  ⟨⟨0, (at_ .run [(F.GG_STAT_FROZEN, 0)] : State), by decide +kernel⟩,
   ⟨0, (at_ .run [] : State), by decide +kernel⟩,
   ⟨0, (at_ .run [(F.GG_STAT_FROZEN, 1)] : State), by decide +kernel⟩⟩

theorem witness_RingSlots :
    (∃ (s : State) (v : Nat), 16 ≤ 2 ^ s.get F.EVT_RING_CFG_LOG2N ∧ 2 ^ s.get F.EVT_RING_CFG_LOG2N ≤ 4096) ∧
    (∃ (v : Word) (s : State), s.writeOk 0x3414 = true ∧ wrap16 ((↑(v.toNat % 65536) : Int) - s.get F.EVT_CONS_CONS) ≤ wrap16 ((s.get F.EVT_PROD_DONE : Int) - s.get F.EVT_CONS_CONS)) ∧
    (∃ (v : Word) (s : State), s.writeOk 0x3414 = true ∧ s.injects 4 = false ∧ wrap16 ((s.get F.EVT_PROD_DONE : Int) - s.get F.EVT_CONS_CONS) < wrap16 ((↑(v.toNat % 65536) : Int) - s.get F.EVT_CONS_CONS)) :=
  ⟨⟨(at_ .run [] : State), 0, by decide +kernel⟩,
   ⟨0, (at_ .run [] : State), by decide +kernel⟩,
   ⟨1, (at_ .run [] : State), by decide +kernel⟩⟩


/-! ## The worked examples of the spec -/

/-- The state after a command. -/
def after_ (i : Instr) (s : State) : State := nextOf_ (exec i s)

/-- The reset state: in BOOT, no command, an attached memory with no cell listed, and two words of the register tables. -/
theorem test_reset : State.reset.dev.mode = .boot ∧ State.reset.pending = [] ∧ State.reset.nv.flash = [] ∧
    State.reset.rawWord 0 = 0x48160100 ∧ State.reset.get (F.STK_ENG_GV_KP 0) = 16384 := by decide +kernel
/-- The front command runs on the rest of the queue; on an empty queue one clock passes. -/
theorem test_step : (nextOf_ (step { at_ .run [] with pending := [.parkRequest, .hibernateRequest] })).pending = [.hibernateRequest] ∧
    step State.reset = .next (State.reset.pass 1) := ⟨by decide +kernel, rfl⟩
/-- No row of the table has bits. -/
theorem test_no_word : decodeTableWord 0 0 = none ∧ decodeTableWord 32 0x52000001 = none := by decide

/-- R7: `rshr(-5, 1)` is -2, `-5 >> 1` is -3 and `-5 / 2` is -2. -/
theorem test_shift : rshr (-5) 1 = -2 ∧ asr (-5) 1 = -3 ∧ tdiv (-5) 2 = -2 := by decide
/-- R374: the request CRC of a read of `SYS_ID`, byte by byte, and the check value 0x29B1. -/
theorem test_crc16 : crc16 [0x52] = 0x9B47 ∧ crc16 [0x52, 0] = 0x75D2 ∧ crc16 [0x52, 0, 0] = 0xFC32 ∧ crc16 [0x52, 0, 0, 1] = 0x0CB2 ∧
    crc16 [0x31, 0x32, 0x33, 0x34, 0x35, 0x36, 0x37, 0x38, 0x39] = 0x29B1 := by decide +kernel
/-- The check values of the CRC-8 and the CRC-32 on the same nine bytes. -/
theorem test_crc8_crc32 : crc8 [0x31, 0x32, 0x33, 0x34, 0x35, 0x36, 0x37, 0x38, 0x39] = 0xF4 ∧
    crc32 [0x31, 0x32, 0x33, 0x34, 0x35, 0x36, 0x37, 0x38, 0x39] = 0xCBF43926 := by decide +kernel
/-- Chapter 16: the response to that read right after RUN entry begins, after the two turn-around bytes, 0x5A, 0x30, 0xB0, 0x01, 0x48, 0x16. -/
theorem test_read_id : (after_ (.hlRead .here 0x52 0 1 0x0CB2 true) (at_ .run [])).hl.response.take 6 = [0x5A, 0x30, 0xB0, 0x01, 0x48, 0x16] := by
  decide +kernel

/-- Chapter 4: at 10 ms, 1,600,000 periods, the increment is 175,921,860. -/
theorem test_increment : 2 ^ 48 / 1600000 = 175921860 ∧ periodChange 1601602 1600000 = true ∧ periodChange 1601600 1600000 = false := by decide

/-- S0 of chapter 5's shedding example, with `n` tiles active and a load of `i` LSB of 2 mA. -/
def shed_ (n : Nat) (i : Int) : State :=
  let s := (List.range 12).foldl (fun s t => (s.set (F.TIL_STAT_USE t) 0).set (F.TIL_STAT_POS t) t) (at_ .run [(F.STK_SHED_SHED_TH 0, 500),
    (F.STK_SHED_ADD_TH 0, 750), (F.STK_SHED_TIME_MIN_TILES 0, 2), (F.STK_STAT_NACT 0, n)])
  s.setStk 0 { s.stk 0 with iNow := i }
/-- Chapter 5: with 12 tiles S0 sheds below 11.0 A; with 11 it adds above 16.5 A; with 2 it never sheds and adds above 3.0 A. -/
theorem test_shed : (shed_ 12 5499).shedCond 0 = true ∧ (shed_ 12 5500).shedCond 0 = false ∧ (shed_ 11 8251).addCond 0 = true ∧
    (shed_ 11 8250).addCond 0 = false ∧ (shed_ 2 0).shedCond 0 = false ∧ (shed_ 2 1501).addCond 0 = true ∧ (shed_ 2 1500).addCond 0 = false := by
  decide +kernel

/-- S0 of chapter 6's worked example. -/
def core_ : State :=
  at_ .run [(F.TIL_STAT_USE 0, 0), (F.TIL_STAT_POS 0, 0), (F.STK_STAT_EN 0, 1), (F.STK_STAT_NACT 0, 1), (F.STK_VSET_VSET 0, 3750), (F.STK_LL_LL 0, 400),
    (F.STK_ENG_CTRL_HDRM 0, 32), (F.STK_ENG_CTRL_FF_EN 0, 1), (F.STK_ENG_CTRL_PLOOP 0, 1), (F.STK_ENG_CTRL_TLOOP 0, 1),
    (F.STK_ENG_CTRL_CLOOP 0, 1), (F.STK_ENG_LIM_ITH 0, 21000), (F.STK_ENG_LIM_ILIM 0, 20000), (F.STK_ENG_N2_KFF 0, 328),
    (F.STK_CEIL_OTP 0, 100), (F.STK_PROT_OV_LIM 0, 100)]
/-- The loops before one of its slots. -/
def loops_ (xV : Int) (i r : Int) : Stack :=
  { Stack.init with xV := xV, xC := 129794048, xT := 129794048, xP := 129794048, iLast := i, vcmpLast := 3678, dLast := r, tLast := 3750 }
/-- What the example states of a slot: r, x, the drop, vcmp, the reference written and the winner. -/
def shown_ (s : State) : List Int :=
  let x := s.stk 0
  [x.rV, x.rC, x.rT, x.rP, x.xV, x.xC, x.xT, x.xP, x.dropLast, x.vcmpLast, x.dLast, (x.lastWin.getD 9 : Nat)]
/-- Chapter 6, slot 1: the voltage loop wins with 3706. -/
theorem test_engine_slot1 : shown_ (after_ (.engineSlot 0 3 18000 0) (stk_ core_ 0 (loops_ 121241600 17990 3705))) =
    [3706, 4161, 4261, 4922, 121246514, 129794048, 129794048, 129794048, 72, 3678, 3706, 0] := by decide +kernel
/-- Chapter 6, slot 2: the current ceiling wins with 3761 and leaves `WON_C` set. -/
theorem test_engine_slot2 : shown_ (after_ (.engineSlot 0 40 22000 0) (stk_ core_ 0 (loops_ 121246514 18000 3706))) =
    [3780, 3761, 3861, 4909, 123240448, 129138048, 129466048, 129794048, 88, 3662, 3761, 1] := by decide +kernel

/-- S4 of chapter 7's tracking example, with its last eight conversions. -/
def pa_ (codes : List Nat) (xV t d : Int) : State :=
  let s := at_ .run [(F.TIL_STAT_USE 24, 4), (F.TIL_STAT_POS 24, 0), (F.STK_STAT_EN 4, 1), (F.STK_STAT_NACT 4, 1), (F.STK_SRC_TFF 4, 1), (F.STK_SRC_LOSS 4, 8),
    (F.STK_SRC_STAT_ACT 4, 1), (F.STK_TRK_GAIN 4, 25600), (F.STK_VSET_VSET 4, 18000), (F.STK_ENG_GV_KP 4, 8192), (F.STK_ENG_GV_KI 4, 1638),
    (F.STK_ENG_SHIFT_SP_V 4, 0), (F.STK_CEIL_OTP 4, 390), (F.STK_PROT_OV_LIM 4, 380)]
  stk_ { s with track := tset [] 0 [] codes } 4 { Stack.init with
    xV := xV, xC := xMax, xT := xMax, xP := xMax, dLast := d, tLast := t, vcmpLast := t }
/-- Chapter 7, the slots at 0.5 µs and 2.5 µs: T, r[V], the reference written and x[V] after the slot. -/
def tracked_ (s : State) : List Int := [(s.stk 4).tLast, (s.stk 4).rV, (s.stk 4).dLast, (s.stk 4).xV]
theorem test_tracking : tracked_ (after_ (.engineSlot 4 0 0 0) (pa_ [800, 800, 800, 800, 800, 800, 800, 1280] 164495360 5000 5020)) =
      [5375, 5395, 5395, 176783360] ∧
    tracked_ (after_ (.engineSlot 4 25 0 0) (pa_ (List.replicate 8 1280) 176783360 5375 5395)) = [8000, 8026, 8026, 262840310] := by decide +kernel

/-- S2 of chapter 7's profile example at rest at 0.80 V, with `DUR` as given. -/
def prof_ (dur : Nat) : State :=
  let s := (at_ .run [(F.STK_PROF_VEL 2, 10), (F.STK_PROF_NA 2, 7), (F.STK_PROF_NJ 2, 3), (F.STK_PROF_DUR 2, dur), (F.STK_CEIL_OTP 2, 100),
    (F.STK_PROT_OV_LIM 2, 100)]).profInitTo 2 4000
  s
/-- Chapter 7: a move of 500 codes takes 60 slots; `DUR` 50 is rejected with cause TIME, 60 and 0 are accepted. -/
theorem test_profile : (prof_ 0).profLength 2 500 = 60 ∧ (prof_ 50).profCheck 2 3500 = some 1 ∧ (prof_ 60).profCheck 2 3500 = none ∧
    (prof_ 0).profCheck 2 3500 = none := by decide +kernel

/-- The gauge of chapter 11's worked example, 5 °C and soc_c 5450. -/
def gauge_ : State :=
  let s := at_ .run [(F.GG_SHUNT_RSH, 5000), (F.GG_IMP_CFG_KT, 10), (F.GG_IMP_CFG_RLRN, 2), (F.GG_IMP_CFG_CAP_MIN_DI, 500), (F.THM_NTC_T_TPACK, 40),
    (F.GG_STAT_VALID, 1), (F.GG_LEARN_LMASK, 256), (bandField 8, 7800), (F.GG_PACK_VEMPTY, 6000), (F.GG_CFG_MODE, 0)]
  s.setGg { s.gg with fcc := 3200, qc := 6278400000, capture := some ⟨false, -40000, 188416, 0, 0, -104000, 183808, false, false⟩ }
/-- Chapter 11: the capture measures 90.00 mΩ and moves band 8 to 7732. -/
theorem test_capture : (after_ .captureComplete gauge_).get (bandField 8) = 7732 ∧ (after_ .captureComplete gauge_).get F.GG_CAP_LAST_RMEAS = 9000 ∧
    (after_ .captureComplete gauge_).get F.GG_CAP_LAST_BAND = 8 := by decide +kernel
/-- Chapter 11: with 7732 in band 8, ruse is 9242; 7474 mV is 5578 of the curve; in mode 1 the target is 5380 where 5450 is counted. -/
theorem test_gauge : (gauge_.set (bandField 8) 7732).ruse = 9242 ∧ gauge_.ocvToSoc 7474 = 5578 ∧ gauge_.ocvToSoc 6149 = 150 ∧ gauge_.sc = 5450 ∧
    ((gauge_.setGg { gauge_.gg with iavg := 1400 }).set F.GG_CFG_MODE 1 |>.set F.PP_PMID_SHDN 4).socTarget 9242 = 5380 := by decide +kernel

/-- Chapter 12: with 37 enabled channels and Doubles on CV2 and CV3, `ADC_SCAN_STATUS` reads 0xA502_0013. -/
theorem test_scan : (after_ .scanRoundStart (at_ .run [(F.ADC_DBL_CFG_EN, 1), (F.ADC_DBL_CFG_CLAIMED, 1), (F.ADC_DBL_CFG_PAIR, 1),
    (F.ADC_DBL_CFG_CH, 4), (F.ADC_SCAN_EN0_EN, 0x00FF00EF), (F.ADC_SCAN_EN1_EN, 0x00340010)])).rawWord 0x240C =
    0xA5020013 := by decide +kernel
/-- Chapter 12: `ADC_DBL_CFG` written 0x8000_0004 reads back 0x8001_8004. -/
theorem test_doubles : (after_ (.adcDblCfgWrite 0x80000004) (at_ .run [(F.ADC_DBL_CFG_PAIR, 1), (F.ADC_DBL_CFG_CLAIMED, 1)])).rawWord 0x2440 =
    0x80018004 := by decide +kernel

/-- Chapter 13: at 129.5 °C the proportion is 5898, and the thermal ceiling of 21000 is 17220. -/
theorem test_thermal : (at_ .run [(F.THM_CFG_SPAN, 25)]).proportion 1036 125 = 5898 ∧
    (({ at_ .run [(F.THM_TH_TH, 5898), (F.STK_ENG_LIM_ITH 0, 21000)] with now := 320 } : State).loopErr 0 2 0 0).1 = 17220 ∧ tdiv (3000 * (32768 - 5898)) 32768 = 2460 := by
  decide +kernel

/-- Seat 0 of chapter 15's worked example, `t` ticks into its regular period. -/
def seatAt_ (t : Nat) (served : Bool) : State :=
  let s := at_ .run [(F.WDG_STAT_RUN, 1), (F.WDG_SEAT_CFG_EN 0, 1), (F.WDG_SEAT_CFG_PERIOD 0, 100), (fr 0x300C 0 3 0, 6), (F.WDG_FUSE_WDX_LEN, 1)]
  let s1 := seat_ s 0 false served
  { s1.setSeat 0 { s1.seat 0 with start := 0, lastGood := some (if served then 2621 else 0) } with now := ofTicks t }
/-- Chapter 15: 100 ms are 3277 ticks, and the window opens at 2457; a service there is good, one before it is not. -/
theorem test_seat : (seatAt_ 0 false).seatPt 0 = 3277 ∧ (seatAt_ 0 false).seatOp 0 = 2457 ∧
    ((after_ (.wdgService 0x5EA70011) (seatAt_ 2621 false)).seat 0).served = true ∧
    (after_ (.wdgService 0x5EA70011) (seatAt_ 2456 false)).wdg.latch.isSome = true := by decide +kernel
/-- Chapter 15: the second service violates; the snapshot's bytes 2 and 20 to 23 are 3 and 0x12, 0x1D, 5, 0; the reset begins. -/
theorem test_seat_twice : ((after_ (.wdgService 0x5EA70012) (seatAt_ 2785 true)).wdg.latch.map fun l => (l.take 3, (l.drop 20).take 4)) =
    some ([0, 0, 3], [0x12, 0x1D, 5, 0]) ∧ (after_ (.wdgService 0x5EA70012) (seatAt_ 2785 true)).get F.SYS_RESET_CAUSE_HOST_WDG = 1 := by
  decide +kernel

/-- Chapter 16: the ring of 64 slots with `PROD` 1000 and `CONS` 960. -/
def ring_ (p : Nat) : State :=
  at_ .run [(F.EVT_RING_CFG_LOG2N, 6), (F.EVT_PROD_PROD, p), (F.EVT_PROD_DONE, p), (F.EVT_CONS_CONS, 960)]
/-- Chapter 16: after four commits 20 slots are free; `EVT_CONS` 1000 is applied at `DONE` 1005 and 1006 is not. -/
theorem test_ring : (after_ (.evtConsWrite 1000) (ring_ 1005)).get F.EVT_CONS_CONS = 1000 ∧
    (after_ (.evtConsWrite 1006) (ring_ 1005)).get F.EVT_CONS_CONS = 960 := by decide +kernel

/-- The domains of chapter 8's controller: D2 depends on D0, D3 on D2, D4 on D0, D5 on D4. -/
def chain_ : State :=
  (List.range 6).foldl (fun s d => dom_ s d .on true true) (at_ .run [(F.SEQ_DOM_CFG_DEP 2, 1), (F.SEQ_DOM_CFG_DEP 3, 4), (F.SEQ_DOM_CFG_DEP 4, 1),
    (F.SEQ_DOM_CFG_DEP 5, 16)])
/-- Chapter 8: when D2 is lost the dependant mask is 0x008; D0's dependants are D2 to D5. -/
theorem test_dependants : maskOf (chain_.dependants 2) = 0x008 ∧ maskOf (chain_.dependants 0) = 0x03C := by decide +kernel

/-- Chapter 10: 20 ms before the source is unstable, and 80 ms after its second loss from then on. -/
theorem test_chatter : (at_ .run [(F.PP_FE_CFG_TREQUAL, 20)]).treqEff = 20 ∧
    (after_ (.vinLoss 1 600) { at_ .run [(F.PP_FE_CFG_TREQUAL, 20), (F.PP_FE_STAT_STATE, 2), (F.PP_FE_STAT_UNSTABLE, 1)] with
      pp := { State.reset.pp with doublings := 1 } }).treqEff = 80 := by decide +kernel

/-- FIPS 180-4: the hash of "abc"; RFC 6979, A.2.5: the signature of "sample" under the key of the shipped hash, and one changed by a bit. -/
theorem test_sha256 : ofBe (sha256 [0x61, 0x62, 0x63]) = 0xba7816bf8f01cfea414140de5dae2223b00361a396177a9cb410ff61f20015ad ∧
    sha256 key_ = State.reset.otp.vendorHash := by decide +kernel
theorem test_ecdsa : signs [0x73, 0x61, 0x6D, 0x70, 0x6C, 0x65] key_ (leBytes 32 0xEFD48B2AACB6A8FD1140DD9CD45E81D69D2C877B56AAF991C34D0EA84EAF3716 ++
      leBytes 32 0xF7CB1C942D657C41D436C7A1B6E29F65F3E900DBB9AFF4064DC4AB2F843ACDA8) = true ∧
    signs [0x73, 0x61, 0x6D, 0x70, 0x6C, 0x64] key_ (leBytes 32 0xEFD48B2AACB6A8FD1140DD9CD45E81D69D2C877B56AAF991C34D0EA84EAF3716 ++
      leBytes 32 0xF7CB1C942D657C41D436C7A1B6E29F65F3E900DBB9AFF4064DC4AB2F843ACDA8) = false := by decide +kernel

/-- Chapter 18: the grant's integer bytes. -/
theorem test_grant_bytes : leField [0x01, 0x0C, 0x16, 0x48] 0 4 = 0x48160C01 ∧ leField [0x11, 0x9D, 0x3E, 0x5C, 0xA0, 0x17, 0x42, 0x00] 0 8 = 0x004217A05C3E9D11 ∧
    leBytes 4 1207 = [0xB7, 0x04, 0, 0] ∧ leBytes 4 500 = [0xF4, 0x01, 0, 0] ∧ grantFormat grant_ = true := by decide +kernel

/-! ## Ill-formed operands -/

/-- A view of BOOT in which both slots answer. -/
def view_ : BootView := ⟨true, true, none, 0, true, true, false, 0⟩
/-- One more than a voltage or code of 16 bits. -/
def wide_ : Nat := 65536

/-- Boot views: V(`CRES`) or a microcode address out of range. -/
theorem test_wf_boot : (Instr.runEntry view_).wf = true ∧ ([.runEntry { view_ with vcres := wide_ }, .recoveryEntry { view_ with vcres := wide_ },
    .runEntry { view_ with microcode := some 4096 }, .journalCommitStart wide_ 0, .journalCommitStart 0 wide_, .engHalt 4096] : List Instr).all
      (fun i => !i.wf) = true := by decide
/-- Voltages and codes of 16 bits. -/
theorem test_wf_volts : ([.turn 0 wide_ 0 0 0 false, .fullRoll 0 wide_ 0 0, .tilVlim 0 wide_, .stkDisTimeout 0 wide_, .guardFault 0 0 wide_, .vinLoss 0 wide_, .vinQualified wide_ 0 false false,
    .feStartTimeout wide_, .feClampTimeout wide_, .pmidShutdown wide_, .pmidUv wide_, .chgEnableWrite 0 wide_, .chgResume wide_,
    .chgRecharge wide_, .chgPrechargeTimeout wide_, .chgSafetyTimeout wide_, .batOv wide_, .chgFaultClear 0 wide_, .packQualified wide_ 0,
    .packQualified 0 wide_, .packRestEnd wide_] : List Instr).all (fun i => !i.wf) = true := by decide
/-- Results of the stack converters and of the gauge, codes at an enable, and a pulse. -/
theorem test_wf_codes : ([.engineSlot 0 65536 0 0, .engineSlot 0 0 (-65537) 0, .gaugeWindow 0 131072, .gaugeWindow (-262144) 0, .gaugeSnapshot 0 131072,
    .gaugeSnapshot 262144 0, .stepEnable [], .stepEnable (List.replicate 15 0 ++ [32768]), .engineSlot 0 0 0 256, .pulsePeriodEnd 0 1 2] : List Instr).all (fun i => !i.wf) = true := by
  decide
/-- A measurement window: the three lengths, the voltage and a mean out of range. -/
theorem test_wf_window : (Instr.measWindowEnd (List.replicate 48 0) (List.replicate 16 0) (List.replicate 16 0) 0).wf = true ∧
    ([.measWindowEnd [] (List.replicate 16 0) (List.replicate 16 0) 0, .measWindowEnd (List.replicate 48 0) [] (List.replicate 16 0) 0,
      .measWindowEnd (List.replicate 48 0) (List.replicate 16 0) [] 0,
      .measWindowEnd (List.replicate 48 0) (List.replicate 16 0) (List.replicate 16 0) wide_,
      .measWindowEnd (List.replicate 48 32768) (List.replicate 16 0) (List.replicate 16 0) 0] : List Instr).all (fun i => !i.wf) = true := by decide
/-- Frames: mailbox words, host-link data, two-wire words, recovery pulses and a transaction's bytes. -/
theorem test_wf_frames : ([.stackMailboxWrite 0 [], .stackMailboxWrite 0 [(0x0C01, 0)], .stackMailboxWrite 0 (List.replicate 65 (0x0C00, 0)),
    .hlWrite .here 0 2 [0] 0 true, .regWrite .here 0 (List.replicate 8 0) none 34, .twcTransaction false 10 false false 0,
    .twcTransactionEnd 0 (List.replicate 65 0)] : List Instr).all (fun i => !i.wf) = true := by decide

end Tests
end

section
/-! SUPPORT. What the internal buffer's rules read of the state (R382, R383), and that the operations which turn outputs off, enter BLACK and raise
a fault leave it alone, or empty it in a reset. -/

namespace Sys2Proof.Machine

/-- The part of the state that R382 and R383 speak of: the clock, the internal buffer, the losses that no EVT_OVERFLOW has reported, and the CORE
clock of the last one. -/
structure BufView where
  now : Nat
  buf : List Rec
  lostG : Nat
  lostA : Nat
  lostR : Nat
  ovfAt : Option Nat

/-- The part of state `s` that the internal buffer's rules read. -/
def State.bufView (s : State) : BufView := ⟨s.now, s.evt.buf, s.evt.lostG, s.evt.lostA, s.evt.lostR, s.evt.ovfAt⟩

/-- The view after a reset of the event unit. -/
def BufView.emptied (v : BufView) : BufView := ⟨v.now, [], 0, 0, 0, none⟩

/-! Operations of one field or one record. -/

@[simp] theorem bufView_ite (c : Prop) [Decidable c] (a b : State) :
    (if c then a else b).bufView = if c then a.bufView else b.bufView := apply_ite State.bufView c a b

/-- An update that keeps the clock and the event unit keeps the view. -/
theorem bufView_of_evt {s t : State} (hn : t.now = s.now) (he : t.evt = s.evt) : t.bufView = s.bufView := by
  simp only [State.bufView, hn, he]

@[simp] theorem State.set_bufView (s : State) (f : FRef) (v : Nat) : (s.set f v).bufView = s.bufView := bufView_of_evt rfl rfl
@[simp] theorem State.put_bufView (s : State) (f : FRef) (b : Bool) : (s.put f b).bufView = s.bufView := bufView_of_evt rfl rfl
@[simp] theorem State.putBitF_bufView (s : State) (f : FRef) (i : Nat) (b : Bool) : (s.putBitF f i b).bufView = s.bufView := bufView_of_evt rfl rfl
@[simp] theorem State.setStk_bufView (s : State) (n : Nat) (x : Stack) : (s.setStk n x).bufView = s.bufView := bufView_of_evt rfl rfl
@[simp] theorem State.setDom_bufView (s : State) (n : Nat) (x : Dom) : (s.setDom n x).bufView = s.bufView := bufView_of_evt rfl rfl
@[simp] theorem State.setSeat_bufView (s : State) (n : Nat) (x : Seat) : (s.setSeat n x).bufView = s.bufView := bufView_of_evt rfl rfl
@[simp] theorem State.setGg_bufView (s : State) (g : Gauge) : (s.setGg g).bufView = s.bufView := bufView_of_evt rfl rfl
@[simp] theorem State.setChg_bufView (s : State) (c : Chg) : (s.setChg c).bufView = s.bufView := bufView_of_evt rfl rfl
@[simp] theorem State.assertHostRst_bufView (s : State) : s.assertHostRst.bufView = s.bufView := rfl
@[simp] theorem State.coreWdgRestart_bufView (s : State) : s.coreWdgRestart.bufView = s.bufView := bufView_of_evt rfl rfl
@[simp] theorem State.dropNonces_bufView (s : State) : s.dropNonces.bufView = s.bufView := bufView_of_evt rfl rfl
@[simp] theorem State.frmIdle_bufView (s : State) : s.frmIdle.bufView = s.bufView := bufView_of_evt rfl rfl
@[simp] theorem State.seqHalt_bufView (s : State) : s.seqHalt.bufView = s.bufView := bufView_of_evt rfl rfl
@[simp] theorem State.gaugeHand_bufView (s : State) : s.gaugeHand.bufView = s.bufView := bufView_of_evt rfl rfl
@[simp] theorem State.driveCode_bufView (s : State) (c : Nat) (b : Bool) : (s.driveCode c b).bufView = s.bufView := bufView_of_evt rfl rfl

/-- A loop whose every round keeps the view keeps it. -/
@[simp] theorem forEach_bufView (l : List Nat) (f : Nat → State → State) (s : State) (hf : ∀ n t, (f n t).bufView = t.bufView) :
    (forEach l f s).bufView = s.bufView := by
  unfold forEach
  induction l generalizing s with
  | nil => rfl
  | cons a l ih => exact (ih _).trans (hf a s)

/-! Requests, crossings and credits. -/

/-- A request waits outside the buffer (R381). -/
@[simp] theorem State.emitC_bufView (s : State) (block code colour : Nat) (p : List (Nat × Nat)) :
    (s.emitC block code colour p).bufView = s.bufView := by
  unfold State.emitC
  split <;> rfl

@[simp] theorem State.emit_bufView (s : State) (block code : Nat) (p : List (Nat × Nat)) : (s.emit block code p).bufView = s.bufView :=
  State.emitC_bufView s block code 0 p

@[simp] theorem State.cross_bufView (s : State) (x src : Nat) : (s.cross x src).bufView = s.bufView := by
  unfold State.cross State.crossing
  dsimp only
  split <;> rfl

@[simp] theorem State.frameDone_bufView (s : State) (f : Option Nat) : (s.frameDone f).bufView = s.bufView := by
  cases f <;> rfl

@[simp] theorem State.pushTry_bufView (s : State) : s.pushTry.bufView = s.bufView := by
  unfold State.pushTry
  split <;> rfl

@[simp] theorem State.jnlPush_bufView (s : State) (c : Commit) : (s.jnlPush c).bufView = s.bufView := by
  unfold State.jnlPush
  split <;> rfl

@[simp] theorem State.logToken_bufView (s : State) : s.logToken.bufView = s.bufView := State.jnlPush_bufView s _

@[simp] theorem State.logTokensFill_bufView (s : State) : s.logTokensFill.bufView = s.bufView :=
  forEach_bufView _ _ s fun _ t => t.logToken_bufView

@[simp] theorem State.evidencePush_bufView (s : State) : s.evidencePush.bufView = s.bufView := by
  unfold State.evidencePush
  split
  · exact State.jnlPush_bufView _ _
  · rfl

/-! Outputs that turn off. -/

@[simp] theorem State.refreshDom_bufView (s : State) (d : Nat) : (s.refreshDom d).bufView = s.bufView := by
  simp [State.refreshDom]

@[simp] theorem State.refreshRaw_bufView (s : State) : s.refreshRaw.bufView = s.bufView := by simp [State.refreshRaw]

@[simp] theorem State.guardEnd_bufView (s : State) (g r colour : Nat) : (s.guardEnd g r colour).bufView = s.bufView := by
  unfold State.guardEnd
  split
  · exact State.emitC_bufView _ _ _ _ _
  · rfl

@[simp] theorem State.guardsEnd_bufView (s : State) (r colour : Nat) : (s.guardsEnd r colour).bufView = s.bufView := by
  simp [State.guardsEnd]

@[simp] theorem State.tileOn_bufView (s : State) (t : Nat) : (s.tileOn t).bufView = s.bufView := bufView_of_evt rfl rfl
@[simp] theorem State.tileOff_bufView (s : State) (t : Nat) : (s.tileOff t).bufView = s.bufView := bufView_of_evt rfl rfl
@[simp] theorem State.tilesOff_bufView (s : State) (u : Nat) : (s.tilesOff u).bufView = s.bufView := by simp [State.tilesOff]
@[simp] theorem State.antEnd_bufView (s : State) (n : Nat) : (s.antEnd n).bufView = s.bufView := bufView_of_evt rfl rfl
@[simp] theorem State.shedRest_bufView (s : State) (n : Nat) : (s.shedRest n).bufView = s.bufView := bufView_of_evt rfl rfl

@[simp] theorem State.stackPgOff_bufView (s : State) (n : Nat) (lost : Bool) : (s.stackPgOff n lost).bufView = s.bufView := by
  simp [State.stackPgOff]

@[simp] theorem State.stackKill_bufView (s : State) (n : Nat) : (s.stackKill n).bufView = s.bufView := by simp [State.stackKill]

@[simp] theorem State.ldoOff_bufView (s : State) (n : Nat) : (s.ldoOff n).bufView = s.bufView := bufView_of_evt rfl rfl
@[simp] theorem State.ldoClear_bufView (s : State) (n : Nat) : (s.ldoClear n).bufView = s.bufView := bufView_of_evt rfl rfl
@[simp] theorem State.lswOff_bufView (s : State) (n : Nat) : (s.lswOff n).bufView = s.bufView := bufView_of_evt rfl rfl
@[simp] theorem State.lswClear_bufView (s : State) (n : Nat) : (s.lswClear n).bufView = s.bufView := bufView_of_evt rfl rfl
@[simp] theorem State.setDomState_bufView (s : State) (d : Nat) (x : DomState) : (s.setDomState d x).bufView = s.bufView := bufView_of_evt rfl rfl

@[simp] theorem State.driveEnables_bufView (s : State) (d : Nat) (b : Bool) : (s.driveEnables d b).bufView = s.bufView := by
  refine forEach_bufView _ _ s fun k t => ?_
  extract_lets f
  split <;> rfl

@[simp] theorem State.domKill_bufView (s : State) (d : Nat) : (s.domKill d).bufView = s.bufView := by simp [State.domKill]

@[simp] theorem State.outputsOff_bufView (s : State) (r colour : Nat) : (s.outputsOff r colour).bufView = s.bufView := by
  simp [State.outputsOff]

/-! The charger's suspension. -/

@[simp] theorem State.chgTiles_bufView (s : State) : s.chgTiles.bufView = s.bufView := by
  unfold State.chgTiles
  extract_lets on l k s1
  have h1 : s1.bufView = s.bufView := by simp [s1]
  split <;> exact h1

@[simp] theorem State.chgPin_bufView (s : State) : s.chgPin.bufView = s.bufView := by simp [State.chgPin]
@[simp] theorem State.chgTo_bufView (s : State) (new : Nat) : (s.chgTo new).bufView = s.bufView := by simp [State.chgTo]
@[simp] theorem State.chgCheck_bufView (s : State) : s.chgCheck.bufView = s.bufView := by simp [State.chgCheck]

/-! An update that is abandoned. -/

@[simp] theorem State.secTry_bufView (s : State) : s.secTry.bufView = s.bufView := by
  unfold State.secTry
  split
  · split
    · exact State.frameDone_bufView _ _
    · rfl
  · rfl

@[simp] theorem State.updTear_bufView (s : State) : s.updTear.bufView = s.bufView := by
  unfold State.updTear
  split
  · dsimp only
    split
    · rfl
    · split <;> rfl
  · rfl

@[simp] theorem State.updAbandon_bufView (s : State) : s.updAbandon.bufView = s.bufView := by
  unfold State.updAbandon
  dsimp only
  split
  · rw [State.secTry_bufView, State.frameDone_bufView]
    exact s.updTear_bufView
  · rfl

@[simp] theorem State.seatsStart_bufView (s : State) : s.seatsStart.bufView = s.bufView := by simp [State.seatsStart]

/-! The reaction to a fault (R344 to R349). -/

/-- BLACK keeps the internal buffer, which the host can still read (R383). -/
@[simp] theorem State.enterBlack_bufView (s : State) (src : Nat) : (s.enterBlack src).bufView = s.bufView := by
  have h1 : ((s.outputsOff 4 3).assertHostRst.frmIdle.dropNonces.updAbandon.seqHalt).bufView = s.bufView := by simp
  unfold State.enterBlack
  generalize (s.outputsOff 4 3).assertHostRst.frmIdle.dropNonces.updAbandon.seqHalt = s1 at h1 ⊢
  refine (State.evidencePush_bufView _).trans ((State.logTokensFill_bufView _).trans ?_)
  simp only [bufView_ite, State.gaugeHand_bufView, State.seatsStart_bufView, State.setGg_bufView, State.chgCheck_bufView,
    State.coreWdgRestart_bufView, State.set_bufView, ite_self]
  exact h1

@[simp] theorem State.react_bufView (s : State) (src colour : Nat) : (s.react src colour).bufView = s.bufView := by
  unfold State.react
  split <;> simp

@[simp] theorem State.msSinceRun_bufView (s : State) : s.msSinceRun.2.bufView = s.bufView := by
  unfold State.msSinceRun
  split <;> rfl

@[simp] theorem State.logFault_bufView (s : State) (src colour detail : Nat) (inj floor : Bool) :
    (s.logFault src colour detail inj floor).bufView = s.bufView := by
  have h := s.msSinceRun_bufView
  unfold State.logFault
  dsimp only
  split
  · split
    · exact h
    · exact (State.logToken_bufView _).trans h
  · exact h

/-! A reset of the event unit. -/

@[simp] theorem State.resetDomains_bufView (s : State) : s.resetDomains.bufView = s.bufView.emptied := rfl

@[simp] theorem State.jnlFlush_bufView (s : State) : s.jnlFlush.bufView = s.bufView := by
  unfold State.jnlFlush
  split <;> rfl

@[simp] theorem State.otpOwed_bufView (s : State) : s.otpOwed.bufView = s.bufView := by
  unfold State.otpOwed
  split
  · exact State.emit_bufView _ _ _ _
  · rfl

@[simp] theorem State.otpShadow_bufView (s : State) : s.otpShadow.bufView = s.bufView := by
  simp [State.otpShadow, State.thmLimit]
  rfl

@[simp] theorem State.enterBoot_bufView (s : State) :  s.enterBoot.bufView = s.bufView :=
  (State.otpOwed_bufView _).trans (State.otpShadow_bufView _)

/-- Steps 4 to 7 of a full reset empty the event unit (R30, R31). -/
@[simp] theorem State.resetFinish_bufView (s : State) : s.resetFinish.bufView = s.bufView.emptied := by
  unfold State.resetFinish
  extract_lets s1
  have h1 : s1.bufView = s.bufView.emptied := by simp [s1]
  clear_value s1
  split
  · exact h1
  · rw [State.enterBoot_bufView, h1]

/-! A raised source. -/

/-- The views after a state with view `v` has run on with no record made: as it was, or emptied by a reset. -/
def BufView.KeptOrEmptied (v w : BufView) : Prop := w = v ∨ w = v.emptied

theorem BufView.KeptOrEmptied.trans {u v w : BufView} (h : u.KeptOrEmptied v) (k : v.KeptOrEmptied w) : u.KeptOrEmptied w := by
  obtain rfl | rfl := h
  · exact k
  · obtain rfl | rfl := k <;> exact .inr rfl

theorem State.raiseOne_bufView (s : State) (src detail : Nat) (inj : Bool) :
    s.bufView.KeptOrEmptied (s.raiseOne src detail inj).bufView := by
  unfold State.raiseOne
  split
  · exact .inr s.resetFinish_bufView
  · refine .inl ?_
    split
    · extract_lets c i flt s1 s2 s3 s4 s5
      have h2 : s2.bufView = s.bufView := by
        unfold s2
        split <;> rfl
      have h5 : s5.bufView = s.bufView := by simp [s5, s4, s3, h2]
      split
      · split
        · exact (State.react_bufView _ _ _).trans h2
        · exact h2
      · split
        · exact (State.logFault_bufView _ _ _ _ _ _).trans h5
        · exact h5
    · rfl

theorem State.raiseI_bufView (s : State) (src detail : Nat) (inj : Bool) :
    s.bufView.KeptOrEmptied (s.raiseI src detail inj).bufView := by
  have h := s.raiseOne_bufView src detail inj
  unfold State.raiseI
  dsimp only
  split
  · exact h.trans (State.raiseOne_bufView _ 8 0 true)
  · exact h

theorem State.checkerRaise_bufView (s : State) (src detail : Nat) :
    s.bufView.KeptOrEmptied (s.checkerRaise src detail).bufView := by
  unfold State.checkerRaise
  dsimp only
  split
  · have h := s.raiseI_bufView src detail true
    split <;> exact h
  · exact s.raiseI_bufView src detail false

theorem State.injCheck_bufView (s : State) (src a : Nat) : s.bufView.KeptOrEmptied (s.injCheck src a).bufView := by
  unfold State.injCheck
  split
  · exact s.checkerRaise_bufView src a
  · exact .inl rfl

end Sys2Proof.Machine
end

section
/-! The internal buffer (R382, R383): which records it takes, when EVT_OVERFLOW is made, and the two invariants of the commands that fill it. -/

namespace Sys2Proof.Machine

/-! EVT_OVERFLOW. -/

theorem State.fillOverflow_of_owed (s : State) (h : s.overflowOwed = true) (k : s.evt.ovfAt ≠ some s.coreClk) :
    s.fillOverflow = { s with evt := { s.evt with
      buf := s.evt.buf ++ [s.record 2 (if s.evt.lostA ≠ 0 then 1 else 0) 0xD 1
        (leBytes 2 s.evt.lostG ++ leBytes 2 s.evt.lostA ++ leBytes 2 s.evt.lostR)],
      lostG := 0, lostA := 0, lostR := 0, ovfAt := some s.coreClk } } := if_pos ⟨h, k⟩

theorem State.fillOverflow_of_made (s : State) (h : s.overflowOwed = true → s.evt.ovfAt = some s.coreClk) : s.fillOverflow = s :=
  if_neg fun k => k.2 (h k.1)

theorem State.overflowOwed_iff (s : State) :
    s.overflowOwed = true ↔ (s.evt.lostG ≠ 0 ∨ s.evt.lostA ≠ 0 ∨ s.evt.lostR ≠ 0) ∧ s.evt.buf.length < 28 := decide_eq_true_iff

theorem State.fillOverflow_of_full (s : State) (h : 28 ≤ s.evt.buf.length) : s.fillOverflow = s :=
  s.fillOverflow_of_made fun o => absurd (s.overflowOwed_iff.1 o).2 (Nat.not_lt.2 h)

/-- EVT_OVERFLOW is never masked (R383): bit 13 of the mask stands for EVT_LEVEL alone. -/
theorem State.overflow_unmasked (s : State) : s.masked 0xD 1 = false := Bool.and_false _

/-! A record that the buffer takes or loses (R382). -/

/-- A Green or Amber record of the CORE clock of an EVT_OVERFLOW is lost (R383). -/
theorem State.takeIn_of_overflow {s v : State} {c : Nat} (r : Rec) (hv : s.fillOverflow = v) (hc : c < 2) (ho : v.evt.ovfAt = some v.coreClk) :
    s.takeIn c r = v.loseRecord c := by
  subst hv
  exact if_pos ⟨hc, ho⟩

/-- A record below the limit of its colour is buffered, whatever has been lost before. -/
theorem State.takeIn_of_room {s v : State} {c : Nat} (r : Rec) (hv : s.fillOverflow = v)
    (h : (c < 2 ∧ v.evt.buf.length < 28 ∧ v.evt.ovfAt ≠ some v.coreClk) ∨ (2 ≤ c ∧ v.evt.buf.length < 32)) :
    s.takeIn c r = { v with evt := { v.evt with buf := v.evt.buf ++ [r] } } := by
  subst hv
  obtain ⟨-, hl, ho⟩ | ⟨hc, hl⟩ := h
  · exact (if_neg fun k => ho k.2).trans (if_pos (.inl hl))
  · exact (if_neg fun k => Nat.not_lt.2 hc k.1).trans (if_pos (.inr ⟨hc, hl⟩))

/-- A record at or above the limit of its colour is lost. -/
theorem State.takeIn_of_full {s : State} {c : Nat} (r : Rec) (h : 28 ≤ s.evt.buf.length) (hc : c < 2 ∨ 32 ≤ s.evt.buf.length) :
    s.takeIn c r = s.loseRecord c := by
  unfold State.takeIn
  rw [s.fillOverflow_of_full h]
  dsimp only
  split
  · rfl
  · exact if_neg (by omega)

/-- A request that is not masked, in a state in which the unit runs, becomes a record made and stamped when it is due (R381). -/
theorem execEventRequest_of_unmasked {s u : State} {q : Req} {l : List Req} (hr : s.coreRuns = true) (hb : s.dev.mode ≠ .boot ∨ s.otp.prog = none)
    (hq : s.evt.reqs = q :: l) (hu : s.due (2 * q.clk) = u) (hm : u.masked q.block q.code = false) :
    exec .eventRequest s = .next (({ u with evt := { u.evt with reqs := l } } : State).takeIn q.colour
      (u.record 1 q.colour q.block q.code q.payload)) := by
  subst hu
  have hrun : s.coreRuns ∧ ¬ (s.inMode .boot ∧ s.otp.prog.isSome) := by
    refine ⟨hr, fun ⟨hm, hp⟩ => ?_⟩
    obtain hb | hb := hb
    · exact hb (of_decide_eq_true hm)
    · simp [hb] at hp
  change execEventRequest s = _
  unfold execEventRequest
  rw [hq]
  dsimp only
  rw [if_pos hrun, if_neg (by simp [hm])]
  rfl

/-- A request that finds the buffer full for its colour is lost. -/
theorem execEventRequest_of_full {s u : State} {q : Req} {l : List Req} (hr : s.coreRuns = true) (hb : s.dev.mode ≠ .boot ∨ s.otp.prog = none)
    (hq : s.evt.reqs = q :: l) (hu : s.due (2 * q.clk) = u) (hm : u.masked q.block q.code = false) (full : 28 ≤ u.evt.buf.length)
    (hc : q.colour < 2 ∨ 32 ≤ u.evt.buf.length) :
    exec .eventRequest s = .next (({ u with evt := { u.evt with reqs := l } } : State).loseRecord q.colour) :=
  (execEventRequest_of_unmasked hr hb hq hu hm).trans (congrArg _ (State.takeIn_of_full _ full hc))

/-! After every command, an EVT_OVERFLOW that is owed waits only for the end of the CORE clock of the last one. -/

/-- An EVT_OVERFLOW that is owed waits for nothing but the CORE clock of the last one to end (R383). -/
def State.OverflowTimely (s : State) : Prop := s.overflowOwed = true → s.evt.ovfAt = some s.coreClk

/-- The internal buffer holds no more than its 32 records (R382). -/
def State.BufferFits (s : State) : Prop := s.evt.buf.length ≤ 32

theorem BufView.KeptOrEmptied.timely {s t : State} (h : s.bufView.KeptOrEmptied t.bufView) (k : s.OverflowTimely) : t.OverflowTimely := by
  obtain h | h := h
  · obtain ⟨hn, hb, hG, hA, hR, ho⟩ := BufView.mk.inj h
    unfold State.OverflowTimely
    rw [State.overflowOwed_iff, hb, hG, hA, hR, ho, State.coreClk, hn, ← State.overflowOwed_iff]
    exact k
  · obtain ⟨-, -, hG, hA, hR, -⟩ := BufView.mk.inj h
    intro o
    have lost := (t.overflowOwed_iff.1 o).1
    simp [hG, hA, hR] at lost

theorem BufView.KeptOrEmptied.fits {s t : State} (h : s.bufView.KeptOrEmptied t.bufView) (k : s.BufferFits) : t.BufferFits := by
  unfold State.BufferFits
  obtain h | h := h
  · rw [show t.evt.buf = s.evt.buf from congrArg BufView.buf h]
    exact k
  · rw [show t.evt.buf = [] from congrArg BufView.buf h]
    exact Nat.zero_le _

/-- Whatever was owed before, an EVT_OVERFLOW has been made unless one was made in this clock already. -/
theorem State.fillOverflow_timely (s : State) : s.fillOverflow.OverflowTimely := by
  by_cases h : s.overflowOwed = true ∧ s.evt.ovfAt ≠ some s.coreClk
  · rw [s.fillOverflow_of_owed h.1 h.2]
    exact fun _ => rfl
  · have hs : s.OverflowTimely := fun o => not_not.1 fun k => h ⟨o, k⟩
    rwa [s.fillOverflow_of_made hs]

/-- An EVT_OVERFLOW takes a place below the 28th. -/
theorem State.fillOverflow_fits {s : State} (k : s.BufferFits) : s.fillOverflow.BufferFits := by
  by_cases h : s.overflowOwed = true ∧ s.evt.ovfAt ≠ some s.coreClk
  · rw [s.fillOverflow_of_owed h.1 h.2]
    have room := (s.overflowOwed_iff.1 h.1).2
    change (s.evt.buf ++ [_]).length ≤ 32
    rw [List.length_append, List.length_singleton]
    omega
  · rwa [s.fillOverflow_of_made fun o => not_not.1 fun k => h ⟨o, k⟩]

/-! Time that passes. -/

theorem State.clockOn_now (s : State) (k : Nat) : (s.clockOn k).now = s.now + k := by
  unfold State.clockOn
  split <;> rfl

theorem State.overflowOwed_clockOn (s : State) (k : Nat) : (s.clockOn k).overflowOwed = s.overflowOwed := by
  simp only [State.overflowOwed, State.clockOn_evt]

/-- The clock that an owed EVT_OVERFLOW waits for does not end unnoticed: `pass` makes the record when the next clock begins. -/
theorem State.pass_timely {s : State} (h : s.OverflowTimely) (k : Nat) : (s.pass k).OverflowTimely := by
  unfold State.pass
  dsimp only
  split
  case isTrue hj =>
    have next : (s.clockOn (2 * (s.coreClk + 1) - s.now)).coreClk = s.coreClk + 1 := by
      unfold State.coreClk
      rw [State.clockOn_now]
      omega
    intro o
    rw [State.overflowOwed_clockOn, State.overflowOwed_iff] at o
    rw [State.fillOverflow_of_owed _ (by rw [State.overflowOwed_clockOn]; exact hj.1)
      (by rw [State.clockOn_evt, hj.2.1, next]; simp)] at o
    simp at o
  case isFalse hj =>
    intro o
    rw [State.overflowOwed_clockOn] at o
    have same : (s.clockOn k).coreClk = s.coreClk := by
      have hk : ¬ 2 * (s.coreClk + 1) - s.now ≤ k := fun le => hj ⟨o, h o, le⟩
      unfold State.coreClk at hk ⊢
      rw [State.clockOn_now]
      omega
    rw [State.clockOn_evt, same, h o]

theorem State.clockOn_fits {s : State} (h : s.BufferFits) (k : Nat) : (s.clockOn k).BufferFits := by
  unfold State.BufferFits
  rwa [State.clockOn_evt]

theorem State.pass_fits {s : State} (h : s.BufferFits) (k : Nat) : (s.pass k).BufferFits := by
  unfold State.pass
  dsimp only
  split
  · exact State.clockOn_fits (State.fillOverflow_fits (State.clockOn_fits h _)) _
  · exact State.clockOn_fits h _

/-! Records taken in or lost. -/

/-- A loss leaves the clock, the buffer and the last EVT_OVERFLOW alone. -/
theorem State.loseRecord_frame (s : State) (c : Nat) :
    (s.loseRecord c).now = s.now ∧ (s.loseRecord c).evt.buf = s.evt.buf ∧ (s.loseRecord c).evt.ovfAt = s.evt.ovfAt := by
  unfold State.loseRecord
  dsimp only
  split
  · exact ⟨rfl, rfl, rfl⟩
  · split <;> exact ⟨rfl, rfl, rfl⟩

/-- A record is lost only in the clock of an EVT_OVERFLOW or with no place free for one, so that none is owed late. -/
theorem State.takeIn_timely (s : State) (c : Nat) (r : Rec) : (s.takeIn c r).OverflowTimely := by
  have h := s.fillOverflow_timely
  unfold State.takeIn
  extract_lets v
  change v.OverflowTimely at h
  obtain ⟨hn, hb, ho⟩ := v.loseRecord_frame c
  split
  case isTrue hc =>
    intro _
    rw [ho, hc.2, State.coreClk, State.coreClk, hn]
  case isFalse =>
    split
    case isTrue =>
      intro o
      obtain ⟨lost, room⟩ := (State.overflowOwed_iff _).1 o
      refine h (v.overflowOwed_iff.2 ⟨lost, Nat.lt_of_le_of_lt ?_ room⟩)
      simp
    case isFalse hf =>
      intro o
      have room := ((State.overflowOwed_iff _).1 o).2
      rw [hb] at room
      exact absurd (.inl room) hf

theorem State.takeIn_fits {s : State} (h : s.BufferFits) (c : Nat) (r : Rec) : (s.takeIn c r).BufferFits := by
  have h := State.fillOverflow_fits h
  unfold State.takeIn
  extract_lets v
  change v.BufferFits at h
  have lose : (v.loseRecord c).BufferFits := by
    unfold State.BufferFits
    rwa [(v.loseRecord_frame c).2.1]
  split
  · exact lose
  · split
    case isTrue room =>
      change (v.evt.buf ++ [r]).length ≤ 32
      rw [List.length_append, List.length_singleton]
      omega
    · exact lose

/-! The three commands. -/

/-- What EVENT_REQUEST can do: nothing, or remove the oldest request when it is due, masked or taken in. -/
theorem execEventRequest_cases {s t : State} (h : exec .eventRequest s = .next t) :
    t = s ∨ ∃ (q : Req) (l : List Req) (u : State), u = s.due (2 * q.clk) ∧ (t.bufView = u.bufView ∨
      ∃ r, t = ({ u with evt := { u.evt with reqs := l } } : State).takeIn q.colour r) := by
  change execEventRequest s = _ at h
  unfold execEventRequest at h
  split at h
  · exact .inl (Host.Outcome.next.inj h).symm
  · rename_i q l hq
    dsimp only at h
    split at h
    · refine .inr ⟨q, l, _, rfl, ?_⟩
      split at h
      · exact .inl (Host.Outcome.next.inj h ▸ rfl)
      · exact .inr ⟨_, (Host.Outcome.next.inj h).symm⟩
    · exact .inl (Host.Outcome.next.inj h).symm

/-- What RECORD_COMMIT can do to the buffer: nothing, or remove the oldest record and make an EVT_OVERFLOW that is owed then. -/
theorem execRecordCommit_cases {s t : State} (h : exec .recordCommit s = .next t) :
    t.bufView = s.bufView ∨
      ∃ (r : Rec) (l : List Rec) (v : State), s.evt.buf = r :: l ∧ v.evt.buf = l ∧ t.bufView = v.fillOverflow.bufView := by
  change execRecordCommit s = _ at h
  unfold execRecordCommit at h
  split at h
  · exact .inl (Host.Outcome.next.inj h ▸ rfl)
  · rename_i r l hb
    split at h
    · split at h
      · refine .inr ⟨r, l, _, hb, ?_, Host.Outcome.next.inj h ▸ State.pushTry_bufView _⟩
        rw [State.incWrapF, State.set_evt]
        exact congrArg BufView.buf (State.cross_bufView _ 9 0)
      · exact .inl (Host.Outcome.next.inj h ▸ rfl)
    · exact .inl (Host.Outcome.next.inj h ▸ rfl)

/-- A mask write removes records and then makes an EVT_OVERFLOW that is owed (R383, R389). -/
theorem State.maskWrite_eq (s : State) (m : Nat) :
    ∃ v : State, s.maskWrite m = v.fillOverflow ∧ v.evt.buf.length ≤ s.evt.buf.length := by
  refine ⟨_, rfl, ?_⟩
  exact List.length_filter_le _ _

/-- A word on the bus is delivered after the bus checker has seen it, which may raise a fault, or is dropped where that ends a power-down. -/
theorem State.bus_cases (s : State) (a : Nat) (f : State → State) :
    s.bus a f = s ∨ s.bus a f = f (s.injCheck 4 0) ∨ s.bus a f = s.injCheck 4 0 := by
  unfold State.bus State.onBus
  dsimp only
  split
  · split
    · exact .inr (.inl rfl)
    · exact .inr (.inr rfl)
  · exact .inl rfl

/-- A command that fills the buffer, or frees places of it. -/
def FillsBuffer (v : Word) (s t : State) : Prop :=
  exec .eventRequest s = .next t ∨ exec .recordCommit s = .next t ∨ exec (.evtMaskWrite v) s = .next t

/-- After every such command an EVT_OVERFLOW that is still owed waits for its clock only. -/
theorem fillsBuffer_timely {v : Word} {s t : State} (hs : s.OverflowTimely) (h : FillsBuffer v s t) : t.OverflowTimely := by
  obtain h | h | h := h
  · obtain rfl | ⟨q, l, u, rfl, ht | ⟨r, rfl⟩⟩ := execEventRequest_cases h
    · exact hs
    · exact BufView.KeptOrEmptied.timely (.inl ht) (State.pass_timely hs _)
    · exact State.takeIn_timely _ _ _
  · obtain ht | ⟨r, l, v, -, -, ht⟩ := execRecordCommit_cases h
    · exact BufView.KeptOrEmptied.timely (.inl ht) hs
    · exact BufView.KeptOrEmptied.timely (.inl ht) v.fillOverflow_timely
  · rw [← Host.Outcome.next.inj h]
    obtain e | e | e := s.bus_cases 0x3418 fun t => t.maskWrite (v.toNat % 2 ^ 19)
    · rwa [e]
    · rw [e]
      exact State.fillOverflow_timely _
    · rw [e]
      exact (s.injCheck_bufView 4 0).timely hs

/-- No such command takes the buffer beyond its 32 records. -/
theorem fillsBuffer_fits {v : Word} {s t : State} (hs : s.BufferFits) (h : FillsBuffer v s t) : t.BufferFits := by
  obtain h | h | h := h
  · obtain rfl | ⟨q, l, u, hu, ht⟩ := execEventRequest_cases h
    · exact hs
    · have due : u.BufferFits := hu ▸ State.pass_fits hs _
      obtain ht | ⟨r, rfl⟩ := ht
      · exact BufView.KeptOrEmptied.fits (.inl ht) due
      · exact State.takeIn_fits (s := { u with evt := { u.evt with reqs := l } }) due _ _
  · obtain ht | ⟨r, l, v, hb, hv, ht⟩ := execRecordCommit_cases h
    · exact BufView.KeptOrEmptied.fits (.inl ht) hs
    · refine BufView.KeptOrEmptied.fits (.inl ht) (State.fillOverflow_fits ?_)
      unfold State.BufferFits at hs ⊢
      rw [hb, List.length_cons] at hs
      rw [hv]
      omega
  · rw [← Host.Outcome.next.inj h]
    have checked := (s.injCheck_bufView 4 0).fits hs
    obtain e | e | e := s.bus_cases 0x3418 fun t => t.maskWrite (v.toNat % 2 ^ 19)
    · rwa [e]
    · obtain ⟨w, hw, le⟩ := (s.injCheck 4 0).maskWrite_eq (v.toNat % 2 ^ 19)
      rw [e, hw]
      exact State.fillOverflow_fits (Nat.le_trans le checked)
    · rwa [e]

end Sys2Proof.Machine

open Sys2Proof Sys2Proof.Machine

/-- Settles O26. The clauses about one request follow from the three outcomes of `State.takeIn`, the last and the one about the place that falls free
from the two invariants of the commands that fill the buffer. -/
theorem bufferAdmission : Obligations.BufferAdmission := by
  unfold Obligations.BufferAdmission
  refine ⟨?taken, ?inClock, ?green, ?amber, ?redBlack, ?made, ?notMade, ?timely, ?unmasked, ?fits⟩
  case taken =>
    intro s u v q l hr hb hq hu hm hv room
    rw [execEventRequest_of_unmasked hr hb hq hu hm, State.takeIn_of_room _ hv room]
  case inClock =>
    intro s u v q l hr hb hq hu hm hv hc ho
    rw [execEventRequest_of_unmasked hr hb hq hu hm, State.takeIn_of_overflow _ hv hc ho]
  case green =>
    intro s u q l hr hb hq hu hm hc full
    rw [execEventRequest_of_full hr hb hq hu hm full (.inl (by omega)), hc]
    rfl
  case amber =>
    intro s u q l hr hb hq hu hm hc full
    rw [execEventRequest_of_full hr hb hq hu hm full (.inl (by omega)), hc]
    rfl
  case redBlack =>
    intro s u q l hr hb hq hu hm hc full
    rw [execEventRequest_of_full hr hb hq hu hm (Nat.le_trans (by decide) full) (.inr full)]
    exact congrArg _ ((if_neg (by omega)).trans (if_neg (by omega)))
  case made =>
    intro s lost room ho
    exact s.fillOverflow_of_owed (s.overflowOwed_iff.2 ⟨lost, room⟩) ho
  case notMade =>
    rintro s (none | full | made)
    · refine s.fillOverflow_of_made fun o => ?_
      have lost := (s.overflowOwed_iff.1 o).1
      simp [none] at lost
    · exact s.fillOverflow_of_full full
    · exact s.fillOverflow_of_made fun _ => made
  case timely => exact fun s t v hs h => fillsBuffer_timely hs h
  case unmasked => exact State.overflow_unmasked
  case fits => exact fun s t v hs h => fillsBuffer_fits hs h
end

section
/-! A write of EVT_CONS that never reaches its register (R386): the bus checker, with a Black injection armed (R353), ends a power-down with the word
it checks (R20, R21), so that the reset comes before the write. -/

namespace Sys2Proof.Machine

/-- A word whose check ends the power-down in which it travels is dropped. -/
theorem State.bus_dropped (s : State) (a : Nat) (f : State → State) (w : s.writeOk a = true)
    (k : (s.injCheck 4 0).dev.stage ≠ s.dev.stage) : s.bus a f = s.injCheck 4 0 := by
  rw [State.bus, if_pos w, State.onBus]
  exact if_neg k

/-- Step 2 of a full reset that began in RUN: one record is delivered and not consumed, and an injection into source 4, which is configured Black,
is armed. -/
def armedPowerDown : State :=
  let s : State := { State.reset with dev := { State.reset.dev with mode := .run, stage := .powerDown } }
  ((((s.set F.EVT_PROD_PROD 1).set F.EVT_PROD_DONE 1).set (cfgColourField 4) 3).set F.FLT_INJ_STAT_SRC 4).set F.FLT_INJ_STAT_ARMED 1

/-- The ring would take a write of 1 to `EVT_CONS`: one record is delivered. -/
theorem armedPowerDown_takes_one :
    armedPowerDown.writeOk 0x3414 = true ∧ wrap16 ((1 : Int) - armedPowerDown.get F.EVT_CONS_CONS) ≤
      wrap16 ((armedPowerDown.get F.EVT_PROD_DONE : Int) - armedPowerDown.get F.EVT_CONS_CONS) := by decide +kernel

/-- The check of the next word resets the device, `EVT_CONS` with it. -/
theorem armedPowerDown_checked :
    (armedPowerDown.injCheck 4 0).dev.stage ≠ armedPowerDown.dev.stage ∧ (armedPowerDown.injCheck 4 0).get F.EVT_CONS_CONS = 0 := by
  decide +kernel

theorem exec_evtConsWrite_armedPowerDown : exec (.evtConsWrite 1) armedPowerDown = .next (armedPowerDown.injCheck 4 0) :=
  congrArg Host.Outcome.next (armedPowerDown.bus_dropped 0x3414 _ armedPowerDown_takes_one.1 armedPowerDown_checked.1)

end Sys2Proof.Machine

open Sys2Proof Sys2Proof.Machine

/-- Refutes O60: its third clause leaves out that no injection into the bus checker is armed. In `armedPowerDown` a write of 1 is within `DONE`,
yet the Black raising that its check makes ends the power-down first, and `EVT_CONS` reads 0 after the command. -/
theorem not_ringSlots : ¬ Obligations.RingSlots := by
  unfold Obligations.RingSlots
  rintro ⟨-, -, taken, -⟩
  obtain ⟨one, -⟩ := taken 1 armedPowerDown _ armedPowerDown_takes_one.1 armedPowerDown_takes_one.2 exec_evtConsWrite_armedPowerDown
  rw [armedPowerDown_checked.2] at one
  exact absurd one (by decide)
end

section
/-! The alert inputs of the two-wire controller (R416): what an edge leaves before its record, and the record. -/

namespace Sys2Proof.Machine

/-- What a falling edge of alert input `k` leaves before its record is requested: the pin low and ALERT set (R416). -/
def State.alertSeen (s : State) (k : Nat) : State :=
  ({ s with dev := { s.dev with gpioIn := clrBit s.dev.gpioIn k } } : State).set F.TWB_CTL_STAT_ALERT 1

@[simp] theorem State.alertSeen_get_alert (s : State) (k : Nat) : (s.alertSeen k).get F.TWB_CTL_STAT_ALERT = 1 := State.get_set _ _ _

theorem State.alertSeen_get_of_ne (s : State) (k : Nat) {g : FRef} (h : g.key ≠ F.TWB_CTL_STAT_ALERT.key) : (s.alertSeen k).get g = s.get g :=
  State.get_set_of_ne _ _ h

/-- The level of a pin decides neither the device's state nor the stage of a reset. -/
@[simp] theorem State.alertSeen_coreRuns (s : State) (k : Nat) : (s.alertSeen k).coreRuns = s.coreRuns := rfl

@[simp] theorem State.alertSeen_reqClk (s : State) (k : Nat) : (s.alertSeen k).reqClk = s.reqClk := rfl

/-- Where the event unit works, a block's record request is inserted and nothing else changes (R381). -/
theorem State.emit_of_coreRuns {s : State} (h : s.coreRuns = true) (block code : Nat) (p : List (Nat × Nat)) :
    s.emit block code p =
      { s with evt := { s.evt with reqs := insReq ⟨block, code, 0, payload p, none, s.reqClk⟩ s.evt.reqs } } :=
  if_pos h

/-- Only in BOOT does a request wait for the event unit to start; the target port is off there (R381, R401). -/
theorem State.reqClk_of_targetOn {s : State} (h : s.targetOn = true) : s.reqClk = s.coreClk := by
  have notBoot : s.inMode .boot = false := by
    cases hm : s.dev.mode <;> simp [State.targetOn, State.inMode, hm] at h ⊢
  rw [State.reqClk, notBoot]
  rfl

/-- An edge of an alert input in RUN or BLACK (R416). -/
theorem exec_twbAlert_of_input {s : State} {k : Fin 12} (on : s.targetOn = true) (code : s.gpioCode k = 0xC) :
    exec (.twbAlert k) s = .next ((s.alertSeen k).emit 0xE 5 [(k, 1)]) := by
  change execTwbAlert k s = _
  rw [execTwbAlert, on, code]
  rfl

/-- An edge of a pin that is no alert input (R416). -/
theorem exec_twbAlert_of_other {s : State} {k : Fin 12} (code : s.gpioCode k ≠ 0xC) : exec (.twbAlert k) s = .next s := by
  change execTwbAlert k s = _
  rw [execTwbAlert, decide_eq_false code, Bool.and_false]
  rfl

end Sys2Proof.Machine

open Sys2Proof Sys2Proof.Machine

/-- Settles O36. The one state that an edge of an alert input leaves is `State.alertSeen` with the record requested; its frame is read off it. -/
theorem alertInputs : Obligations.AlertInputs := by
  unfold Obligations.AlertInputs
  refine ⟨?effect, ?result, ?otherPin⟩
  case effect =>
    intro k s t on core code h
    have clk : (s.alertSeen k).reqClk = s.coreClk := (s.alertSeen_reqClk k).trans (State.reqClk_of_targetOn on)
    rw [exec_twbAlert_of_input on code, State.emit_of_coreRuns ((s.alertSeen_coreRuns k).trans core), clk] at h
    obtain rfl := Host.Outcome.next.inj h
    exact ⟨s.alertSeen_get_alert k, fun g other => s.alertSeen_get_of_ne k other, rfl, rfl, rfl, rfl, rfl, rfl, rfl⟩
  case result => exact fun k s on code => exec_twbAlert_of_input on code
  case otherPin => exact fun k s code => exec_twbAlert_of_other code
end

section
/-! What every command and every step keeps, and what an idle step does (R9, R10, log entry 1). -/

namespace Sys2Proof.Machine

/-- Every command keeps the queue of commands, the form of the memories, the sense of time and the credits' bounds. -/
theorem exec_keeps (c : Instr) (s : State) : OutKeeps s (exec c s) := by
  have hs := State.Keeps.refl s
  cases c with
  | vaoGood strap pack => exact execVaoGood_keeps _ _ _ hs
  | vaoGoodLoss => exact execVaoGoodLoss_keeps _ hs
  | pmidCoreReady strap => exact execPmidCoreReady_keeps _ _ hs
  | pmidCoreReadyLoss => exact execPmidCoreReadyLoss_keeps _ hs
  | runEntry v => exact execRunEntry_keeps _ _ hs
  | recoveryEntry v => exact execRecoveryEntry_keeps _ _ hs
  | recoveryHostrstRelease => exact execRecoveryHostrstRelease_keeps _ hs
  | resetNLow => exact execResetNLow_keeps _ hs
  | powerDownTimeout => exact execPowerDownTimeout_keeps _ hs
  | resetNRelease strap => exact execResetNRelease_keeps _ _ hs
  | sysResetImage => exact execSysResetImage_keeps _ hs
  | sysResetRecovery => exact execSysResetRecovery_keeps _ hs
  | parkRequest => exact execParkRequest_keeps _ hs
  | hibernateRequest => exact execHibernateRequest_keeps _ hs
  | parkRequestGpio k => exact execParkRequestGpio_keeps _ _ hs
  | parkEntry => exact execParkEntry_keeps _ hs
  | wakeSource k retOk strap => exact execWakeSource_keeps _ _ _ _ hs
  | sysGpioOutWrite v => exact execSysGpioOutWrite_keeps _ _ hs
  | registerWrite addr v => exact execRegisterWrite_keeps _ _ _ hs
  | fsyncEdge wait rising width => exact execFsyncEdge_keeps _ _ _ _ hs
  | frameMiss => exact execFrameMiss_keeps _ hs
  | holdoverLimit => exact execHoldoverLimit_keeps _ hs
  | xtalFail => exact execXtalFail_keeps _ hs
  | frameWrap => exact execFrameWrap_keeps _ hs
  | bmapLatch => exact execBmapLatch_keeps _ hs
  | bmapCommitPersistent => exact execBmapCommitPersistent_keeps _ hs
  | bmapCommitOneFrame => exact execBmapCommitOneFrame_keeps _ hs
  | frmCfgWrite v => exact execFrmCfgWrite_keeps _ _ hs
  | slotFire n => exact execSlotFire_keeps _ _ hs
  | gpioPulseEnd k => exact execGpioPulseEnd_keeps _ _ hs
  | frameStrobeEnd => exact execFrameStrobeEnd_keeps _ hs
  | probeDeferredFire => exact execProbeDeferredFire_keeps _ hs
  | turn u vpmid held off zero nlim => exact execTurn_keeps _ _ _ _ _ _ _ hs
  | tilVlim t vbat => exact execTilVlim_keeps _ _ _ hs
  | fullRoll n vpmid held off => exact execFullRoll_keeps _ _ _ _ _ hs
  | fullRollLockoutEnd n => exact execFullRollLockoutEnd_keeps _ _ hs
  | stkRoll n => exact execStkRoll_keeps _ _ hs
  | shedDwellDone n => exact execShedDwellDone_keeps _ _ hs
  | addDwellDone n => exact execAddDwellDone_keeps _ _ hs
  | tileShed n => exact execTileShed_keeps _ _ hs
  | tileAdd n => exact execTileAdd_keeps _ _ hs
  | softStartEnd n => exact execSoftStartEnd_keeps _ _ hs
  | stackPgAssert n => exact execStackPgAssert_keeps _ _ hs
  | stackPgWithdraw n => exact execStackPgWithdraw_keeps _ _ hs
  | parkPgLoss n => exact execParkPgLoss_keeps _ _ hs
  | dischargeEnd n => exact execDischargeEnd_keeps _ _ hs
  | stkDisTimeout n vout => exact execStkDisTimeout_keeps _ _ _ hs
  | stkOvTrip n => exact execStkOvTrip_keeps _ _ hs
  | ovTripRelease n => exact execOvTripRelease_keeps _ _ hs
  | measWindowEnd imean iout vout vpmid => exact execMeasWindowEnd_keeps _ _ _ _ _ hs
  | engineSlot n e cur corr => exact execEngineSlot_keeps _ _ _ _ _ hs
  | stackMailboxWrite n w => exact execStackMailboxWrite_keeps _ _ _ hs
  | engLimit n => exact execEngLimit_keeps _ _ hs
  | engHalt addr => exact execEngHalt_keeps _ _ hs
  | engProbe0Read => exact execEngProbe0Read_keeps _ hs
  | trackConversion m code => exact execTrackConversion_keeps _ _ _ hs
  | pulsePeriodEnd k p h => exact execPulsePeriodEnd_keeps _ _ _ _ hs
  | manualHold n => exact execManualHold_keeps _ _ hs
  | sourceReturn n => exact execSourceReturn_keeps _ _ hs
  | profileDone n => exact execProfileDone_keeps _ _ hs
  | pgTransition d => exact execPgTransition_keeps _ _ hs
  | domainStable d => exact execDomainStable_keeps _ _ hs
  | failTier => exact execFailTier_keeps _ hs
  | nextStep => exact execNextStep_keeps _ hs
  | stepEnable vos => exact execStepEnable_keeps _ _ hs
  | stepDisable => exact execStepDisable_keeps _ hs
  | stepWait => exact execStepWait_keeps _ hs
  | waitEnd => exact execWaitEnd_keeps _ hs
  | stepCheck => exact execStepCheck_keeps _ hs
  | checkPass => exact execCheckPass_keeps _ hs
  | checkTimeout => exact execCheckTimeout_keeps _ hs
  | offCheckPass => exact execOffCheckPass_keeps _ hs
  | stepJump => exact execStepJump_keeps _ hs
  | stepSend => exact execStepSend_keeps _ hs
  | stepMark => exact execStepMark_keeps _ hs
  | stepEnd => exact execStepEnd_keeps _ hs
  | seqRunaway => exact execSeqRunaway_keeps _ hs
  | onReqEdge rising => exact execOnReqEdge_keeps _ _ hs
  | seqOn => exact execSeqOn_keeps _ hs
  | seqOff => exact execSeqOff_keeps _ hs
  | seqProgramStart p => exact execSeqProgramStart_keeps _ _ hs
  | seqRequestTaken => exact execSeqRequestTaken_keeps _ hs
  | reversal => exact execReversal_keeps _ hs
  | offDwellEnd => exact execOffDwellEnd_keeps _ hs
  | programStart => exact execProgramStart_keeps _ hs
  | domainFailClear mask => exact execDomainFailClear_keeps _ _ hs
  | ldoPgAssert n => exact execLdoPgAssert_keeps _ _ hs
  | ldoPgWithdraw n => exact execLdoPgWithdraw_keeps _ _ hs
  | ldoOcpTrip n => exact execLdoOcpTrip_keeps _ _ hs
  | lswPgAssert n => exact execLswPgAssert_keeps _ _ hs
  | lswOcpTrip n => exact execLswOcpTrip_keeps _ _ hs
  | lswReverse n => exact execLswReverse_keeps _ _ hs
  | guardDurationEnd n => exact execGuardDurationEnd_keeps _ _ hs
  | guardRelease v => exact execGuardRelease_keeps _ _ hs
  | guardFault n bit vsrc => exact execGuardFault_keeps _ _ _ _ hs
  | vinLoss causes vin => exact execVinLoss_keeps _ _ _ hs
  | vinQualified vin rise retOk strap => exact execVinQualified_keeps _ _ _ _ _ hs
  | feStartDone => exact execFeStartDone_keeps _ hs
  | feStartTimeout vin => exact execFeStartTimeout_keeps _ _ hs
  | feClamp => exact execFeClamp_keeps _ hs
  | feClampRelease => exact execFeClampRelease_keeps _ hs
  | feClampTimeout vin => exact execFeClampTimeout_keeps _ _ hs
  | unstableEnd => exact execUnstableEnd_keeps _ hs
  | idealDiodeOn => exact execIdealDiodeOn_keeps _ hs
  | idealDiodeOff => exact execIdealDiodeOff_keeps _ hs
  | pmidSourceChange low => exact execPmidSourceChange_keeps _ _ hs
  | pmidShutdown v => exact execPmidShutdown_keeps _ _ hs
  | pmidUv v => exact execPmidUv_keeps _ _ hs
  | pmidUvRelease => exact execPmidUvRelease_keeps _ hs
  | chgEnableWrite v vbat => exact execChgEnableWrite_keeps _ _ _ hs
  | chgSuspend headroom => exact execChgSuspend_keeps _ _ hs
  | chgResume vbat => exact execChgResume_keeps _ _ hs
  | chgPrechargeDone => exact execChgPrechargeDone_keeps _ hs
  | chgCcToPrecharge => exact execChgCcToPrecharge_keeps _ hs
  | chgCcToCv => exact execChgCcToCv_keeps _ hs
  | chgCvToCc => exact execChgCvToCc_keeps _ hs
  | chgTermination => exact execChgTermination_keeps _ hs
  | chgTopoffEnd => exact execChgTopoffEnd_keeps _ hs
  | chgRecharge vbat => exact execChgRecharge_keeps _ _ hs
  | chgPrechargeTimeout vbat => exact execChgPrechargeTimeout_keeps _ _ hs
  | chgSafetyTimeout vbat => exact execChgSafetyTimeout_keeps _ _ hs
  | batOv vbat => exact execBatOv_keeps _ _ hs
  | chgFaultClear v vbat => exact execChgFaultClear_keeps _ _ _ hs
  | probeEnd => exact execProbeEnd_keeps _ hs
  | chgTileCount => exact execChgTileCount_keeps _ hs
  | chgStatusToggle => exact execChgStatusToggle_keeps _ hs
  | packPresent hold => exact execPackPresent_keeps _ _ hs
  | packQualified id vbat => exact execPackQualified_keeps _ _ _ hs
  | packRestEnd vbat => exact execPackRestEnd_keeps _ _ hs
  | packRemoval sign => exact execPackRemoval_keeps _ _ hs
  | parkPackCheck ntcOpen idOpen => exact execParkPackCheck_keeps _ _ _ hs
  | gaugeWindow cur v => exact execGaugeWindow_keeps _ _ _ hs
  | gaugeUpdate => exact execGaugeUpdate_keeps _ hs
  | gaugeSnapshot cur v => exact execGaugeSnapshot_keeps _ _ _ hs
  | captureTrigger probe => exact execCaptureTrigger_keeps _ _ hs
  | captureComplete => exact execCaptureComplete_keeps _ hs
  | gaugePeriodicCommit => exact execGaugePeriodicCommit_keeps _ hs
  | gaugeStart => exact execGaugeStart_keeps _ hs
  | conversionStart cv => exact execConversionStart_keeps _ _ hs
  | conversionEnd cv code => exact execConversionEnd_keeps _ _ _ hs
  | adcUrg n v => exact execAdcUrg_keeps _ _ _ hs
  | adcReq v => exact execAdcReq_keeps _ _ hs
  | scanRoundStart => exact execScanRoundStart_keeps _ hs
  | dblCaptureStart => exact execDblCaptureStart_keeps _ hs
  | adcDblDone => exact execAdcDblDone_keeps _ hs
  | adcDblCfgWrite v => exact execAdcDblCfgWrite_keeps _ _ hs
  | adcWinConfig n thr v => exact execAdcWinConfig_keeps _ _ _ _ hs
  | thermalEval => exact execThermalEval_keeps _ hs
  | thermalShutdown sensor => exact execThermalShutdown_keeps _ _ hs
  | hibTs6Check below => exact execHibTs6Check_keeps _ _ hs
  | faultRaise src detail => exact execFaultRaise_keeps _ _ _ hs
  | fltPendClear m v => exact execFltPendClear_keeps _ _ _ hs
  | memoryScrub mem err addr => exact execMemoryScrub_keeps _ _ _ _ hs
  | faultLogRetry => exact execFaultLogRetry_keeps _ hs
  | fltInjArm v => exact execFltInjArm_keeps _ _ hs
  | injFail => exact execInjFail_keeps _ hs
  | fltLogIdxWrite v => exact execFltLogIdxWrite_keeps _ _ hs
  | wdgService v => exact execWdgService_keeps _ _ hs
  | seatFirstPeriodEnd n pc => exact execSeatFirstPeriodEnd_keeps _ _ _ hs
  | seatPeriodEnd n pc => exact execSeatPeriodEnd_keeps _ _ _ hs
  | secondPeriodEnd => exact execSecondPeriodEnd_keeps _ hs
  | coreWdgService => exact execCoreWdgService_keeps _ hs
  | coreWdgExpiry pc => exact execCoreWdgExpiry_keeps _ _ hs
  | wdxPulseEnd => exact execWdxPulseEnd_keeps _ hs
  | evidenceRetry => exact execEvidenceRetry_keeps _ hs
  | wdgEvidIdxWrite v => exact execWdgEvidIdxWrite_keeps _ _ hs
  | hlRead start cmd addr n crc retOk => exact execHlRead_keeps _ _ _ _ _ _ _ hs
  | hlWrite start addr n data crc retOk => exact execHlWrite_keeps _ _ _ _ _ _ _ hs
  | hlFrameAbort cut retOk => exact execHlFrameAbort_keeps _ _ _ hs
  | eventRequest => exact execEventRequest_keeps _ hs
  | recordCommit => exact execRecordCommit_keeps _ hs
  | pushDone => exact execPushDone_keeps _ hs
  | evtConsWrite v => exact execEvtConsWrite_keeps _ _ hs
  | evtArm => exact execEvtArm_keeps _ hs
  | evtDisarm => exact execEvtDisarm_keeps _ hs
  | evtMaskWrite v => exact execEvtMaskWrite_keeps _ _ hs
  | evtAck v => exact execEvtAck_keeps _ _ hs
  | evtLevel k => exact execEvtLevel_keeps _ _ hs
  | clearLost => exact execClearLost_keeps _ hs
  | clearMasked => exact execClearMasked_keeps _ hs
  | clearHlCnt => exact execClearHlCnt_keeps _ hs
  | ringHoldoff => exact execRingHoldoff_keeps _ hs
  | regWrite start addr data pec count => exact execRegWrite_keeps _ _ _ _ _ _ hs
  | regRead start addr n late => exact execRegRead_keeps _ _ _ _ _ hs
  | status start => exact execStatus_keeps _ _ hs
  | heartbeat start arg pec => exact execHeartbeat_keeps _ _ _ _ hs
  | progStart start arg pec => exact execProgStart_keeps _ _ _ _ hs
  | twoWireTimeout target ctl => exact execTwoWireTimeout_keeps _ _ _ hs
  | targetCreditTimeout => exact execTargetCreditTimeout_keeps _ hs
  | twcTransaction stuck pulses freed sclLow arb => exact execTwcTransaction_keeps _ _ _ _ _ _ hs
  | twcTransactionEnd cause data => exact execTwcTransactionEnd_keeps _ _ _ hs
  | twcRetry arb => exact execTwcRetry_keeps _ _ hs
  | twbHxStart v => exact execTwbHxStart_keeps _ _ hs
  | heartbeatTimer => exact execHeartbeatTimer_keeps _ hs
  | masterWindowEnd => exact execMasterWindowEnd_keeps _ hs
  | twbAlert k => exact execTwbAlert_keeps _ _ hs
  | otpRead v => exact execOtpRead_keeps _ _ hs
  | otpReadDone err => exact execOtpReadDone_keeps _ _ hs
  | otpProgram => exact execOtpProgram_keeps _ hs
  | otpProgramDone ok => exact execOtpProgramDone_keeps _ _ hs
  | otpAdvance => exact execOtpAdvance_keeps _ hs
  | challengeRequest => exact execChallengeRequest_keeps _ hs
  | nonceExpiry => exact execNonceExpiry_keeps _ hs
  | grantSubmit => exact execGrantSubmit_keeps _ hs
  | anchorSubmit => exact execAnchorSubmit_keeps _ hs
  | verifyDone => exact execVerifyDone_keeps _ hs
  | submissionCommitDone => exact execSubmissionCommitDone_keeps _ hs
  | trngHealth => exact execTrngHealth_keeps _ hs
  | rtcSecond retOk strap => exact execRtcSecond_keeps _ _ _ hs
  | journalCommitStart vcres ce => exact execJournalCommitStart_keeps _ _ _ hs
  | journalCommitDone => exact execJournalCommitDone_keeps _ hs
  | updStart slot => exact execUpdStart_keeps _ _ hs
  | updEraseDone ok => exact execUpdEraseDone_keeps _ _ hs
  | updBlock v => exact execUpdBlock_keeps _ _ hs
  | updBlockDone ok => exact execUpdBlockDone_keeps _ _ hs
  | updVerify => exact execUpdVerify_keeps _ hs
  | updVerifyDone => exact execUpdVerifyDone_keeps _ hs
  | updActivate => exact execUpdActivate_keeps _ hs
  | updAbort => exact execUpdAbort_keeps _ hs
  | receiveQuietEnd => exact execReceiveQuietEnd_keeps _ hs
  | lswPgWithdraw n => exact execLswPgWithdraw_keeps _ _ hs
  | ldoRampEnd n => exact execLdoRampEnd_keeps _ _ hs
  | lswRampEnd n => exact execLswRampEnd_keeps _ _ hs
  | ldoCurrentLimit n => exact execLdoCurrentLimit_keeps _ _ hs
  | lswCurrentLimit n => exact execLswCurrentLimit_keeps _ _ hs
  | ldoUvin n => exact execLdoUvin_keeps _ _ hs
  | externalPgInput k level => exact execExternalPgInput_keeps _ _ _ hs
  | crystalReturn => exact execCrystalReturn_keeps _ hs
  | faultConditionEnd src => exact execFaultConditionEnd_keeps _ _ hs
  | targetTransactionAbort => exact execTargetTransactionAbort_keeps _ hs
  | updHistIdxWrite v => exact execUpdHistIdxWrite_keeps _ _ hs

/-- Most commands are one next state; those named here end in one of several branches, each of them a next state. -/
theorem exec_answers (c : Instr) (s : State) : ∃ t, exec c s = .next t := by
  cases c
  case failTier | seqRequestTaken | gaugeSnapshot | captureComplete | adcDblDone | secondPeriodEnd | eventRequest | recordCommit | twoWireTimeout
      | twcTransaction | twcTransactionEnd | twcRetry | otpReadDone | otpProgramDone | nonceExpiry | verifyDone | submissionCommitDone
      | journalCommitStart | journalCommitDone | updBlockDone =>
    simp only [exec, execFailTier, execSeqRequestTaken, execGaugeSnapshot, execCaptureComplete, execAdcDblDone, execSecondPeriodEnd, execEventRequest,
      execRecordCommit, execTwoWireTimeout, execTwcTransaction, execTwcTransactionEnd, execTwcRetry, execOtpReadDone, execOtpProgramDone,
      execNonceExpiry, execVerifyDone, execSubmissionCommitDone, execJournalCommitStart, execJournalCommitDone, execUpdBlockDone]
    repeat' split
    all_goals exact ⟨_, rfl⟩
  all_goals exact ⟨_, rfl⟩

theorem keeps_of_exec {c : Instr} {s t : State} (h : exec c s = .next t) : s.Keeps t := by
  have k := exec_keeps c s
  rwa [h] at k

/-- The state with which the step of a waiting command begins, and the state itself on an empty queue. -/
def State.dequeued (s : State) : State := { s with pending := s.pending.tail }

/-- Once its command has left the queue, a step keeps what every command keeps. -/
theorem step_keeps {s t : State} (h : step s = .next t) : s.dequeued.Keeps t := by
  cases hp : s.pending with
  | nil =>
    have same : s.dequeued = s := by
      unfold State.dequeued
      rw [hp, List.tail_nil, ← hp]
    rw [step, hp] at h
    rw [same, ← Host.Outcome.next.inj h]
    exact State.idle_keeps s (State.Keeps.refl s)
  | cons c r =>
    rw [step, hp] at h
    rw [State.dequeued, hp]
    exact keeps_of_exec h

/-- The queue of commands has no part in the credits. -/
theorem State.Credited.dequeued {s : State} (h : s.Credited) : s.dequeued.Credited :=
  ⟨h.hostLink, h.sequencer, h.mailbox, h.converter, h.twoWire, h.journal, h.push⟩

theorem State.clockOn_of_counting {s : State} (k : Nat) (h : s.counting = true) :
    s.clockOn k = { s with now := s.now + k, frm := { s.frm with phase := min (s.frm.phase + s.advance k) (2 ^ 48 - 1) } } := if_pos h

theorem State.clockOn_of_still {s : State} (k : Nat) (h : s.counting = false) : s.clockOn k = { s with now := s.now + k } :=
  if_neg (by rw [h]; decide)

theorem State.advance_zero (s : State) : s.advance 0 = 0 := by simp [State.advance]

/-- No time passes in no period, where the counter stands within its frame or does not run. -/
theorem State.clockOn_zero {s : State} (h : s.counting = true → s.frm.phase ≤ 2 ^ 48 - 1) : s.clockOn 0 = s := by
  by_cases c : s.counting = true
  · rw [State.clockOn_of_counting 0 c, State.advance_zero, Nat.add_zero, Nat.add_zero, Nat.min_eq_left (h c)]
  · exact State.clockOn_of_still 0 (Bool.eq_false_iff.2 c)

@[simp] theorem State.counting_clockOn (s : State) (k : Nat) : (s.clockOn k).counting = s.counting := by
  unfold State.counting State.get
  rw [State.clockOn_regs]

@[simp] theorem State.counting_fillOverflow (s : State) : s.fillOverflow.counting = s.counting := by
  unfold State.counting State.get
  rw [State.fillOverflow_regs]

/-- Where the counter runs, time that passes leaves it within its frame. -/
theorem State.clockOn_phase_le {s : State} (k : Nat) (h : s.counting = true) : (s.clockOn k).frm.phase ≤ 2 ^ 48 - 1 := by
  rw [State.clockOn_of_counting k h]
  exact Nat.min_le_right _ _

/-- Where no EVT_OVERFLOW is owed, the passing of time moves the clock and the counter alone. -/
theorem State.pass_of_none_owed {s : State} (k : Nat) (h : s.overflowOwed = false) : s.pass k = s.clockOn k :=
  if_neg fun c => Bool.false_ne_true (h.symm.trans c.1)

/-- An EVT_OVERFLOW that waits for the next clock is made when that clock begins (R383). -/
theorem State.pass_one_of_owed {s : State} (owed : s.overflowOwed = true) (made : s.evt.ovfAt = some s.coreClk)
    (next : 2 * (s.coreClk + 1) = s.now + 1) : s.pass 1 = (s.clockOn 1).fillOverflow := by
  have one : 2 * (s.coreClk + 1) - s.now = 1 := by omega
  unfold State.pass
  rw [one]
  dsimp only
  rw [if_pos ⟨owed, made, Nat.le_refl 1⟩]
  refine State.clockOn_zero fun c => ?_
  rw [State.counting_fillOverflow, State.counting_clockOn] at c
  rw [State.fillOverflow_frm]
  exact State.clockOn_phase_le 1 c

theorem State.targetGo_of_none {s : State} (h : s.twt.wait = none) : s.targetGo = s := by
  unfold State.targetGo
  rw [h]

theorem State.targetGo_of_free {s : State} {o : TgtOp} {a : Nat} (h : s.twt.wait = some (o, a)) (on : s.targetOn = true) (free : s.targetFree o = true) :
    s.targetGo = ({ s with twt := { s.twt with wait := none } } : State).targetRun o := by
  unfold State.targetGo
  rw [h]
  dsimp only
  rw [on, free]
  rfl

theorem step_of_empty {s : State} (h : s.pending = []) : step s = .next (s.pass 1).targetGo := by
  unfold step
  rw [h]
  rfl

/-- With nothing owed and nothing waiting, an idle step is the tick of the clock. -/
theorem step_of_quiet {s : State} (h : s.pending = []) (owed : s.overflowOwed = false) (wait : s.twt.wait = none) :
    step s = .next (s.clockOn 1) := by
  rw [step_of_empty h, State.pass_of_none_owed 1 owed, State.targetGo_of_none (by rw [State.clockOn_twt]; exact wait)]

end Sys2Proof.Machine

open Sys2Proof Sys2Proof.Machine

/-- Settles O6. -/
theorem memoriesStayCanonical : Obligations.MemoriesStayCanonical := fun _ _ w h => (step_keeps h).memory w

/-- Settles O7. -/
theorem creditsHold : Obligations.CreditsHold := fun _ _ c h => (step_keeps h).credits c.dequeued

/-- Settles O3. -/
theorem everyCommandAnswers : Obligations.EveryCommandAnswers := exec_answers

/-- Settles O4. -/
theorem queueUntouched : Obligations.QueueUntouched := fun _ _ _ h => (keeps_of_exec h).queue

/-- Settles O5. -/
theorem clockForward : Obligations.ClockForward := fun _ _ h => (step_keeps h).clock

/-- Settles O1. -/
theorem stepRunsFront : Obligations.StepRunsFront := fun _ _ _ => rfl

/-- Settles O2. -/
theorem stepIdles : Obligations.StepIdles := by
  unfold Obligations.StepIdles
  refine ⟨?still, ?counting, ?waiting, ?owed⟩
  case still =>
    intro s h owed wait c
    rw [step_of_quiet h owed wait, State.clockOn_of_still 1 c]
  case counting =>
    intro s h owed wait c
    rw [step_of_quiet h owed wait, State.clockOn_of_counting 1 c]
  case waiting =>
    rintro s t o a h rfl wait on free
    rw [step_of_empty h, State.targetGo_of_free wait on free]
  case owed =>
    rintro s t owed made - next rfl
    exact State.pass_one_of_owed owed made next

/-- Settles O8. -/
theorem resetHolds : Obligations.ResetHolds := by
  unfold Obligations.ResetHolds
  refine ⟨⟨rfl, rfl, rfl, rfl, rfl⟩, ⟨⟨rfl, rfl⟩, ?_⟩, ⟨rfl, rfl, rfl, rfl, rfl, rfl, rfl, rfl⟩, rfl, rfl, rfl, ?_, ?_⟩
  · constructor <;> decide
  · decide
  · decide
end

section
/-! Full resets: how a cause begins one or joins the one in progress (R29 to R32). -/

namespace Sys2Proof.Machine

theorem State.inMode_of_eq {s : State} {m : Mode} (h : s.dev.mode = m) : s.inMode m = true := decide_eq_true h

theorem State.inMode_of_ne {s : State} {m : Mode} (h : s.dev.mode ≠ m) : s.inMode m = false := decide_eq_false h

theorem State.not_inMode {s : State} {m : Mode} (h : s.dev.mode ≠ m) : ¬ s.inMode m = true := fun k => h (of_decide_eq_true k)

theorem State.startReset_of_off {s : State} (c : FRef) (h : s.dev.mode = .off) : s.startReset c = s := if_pos (State.inMode_of_eq h)

/-- What the first step of a full reset with cause `c` leaves: the cause marked, the seats stopped and a memory command abandoned (R30 step 1). -/
def State.resetBegun (s : State) (c : FRef) : State :=
  { (s.set c 1).seatsStop.updAbandon with dev := { s.dev with toRecovery := decide (c = F.SYS_RESET_CAUSE_CMD_RCV) } }

theorem State.resetBegun_jnl (s : State) (c : FRef) : (s.resetBegun c).jnl = (s.set c 1).seatsStop.updAbandon.jnl := by
  unfold State.resetBegun
  rfl

/-- A cause that finds no full reset in progress begins one. -/
theorem State.startReset_begins {s : State} (c : FRef) (on : s.dev.mode ≠ .off) (idle : s.dev.stage = .none) :
    s.startReset c =
      if (s.inMode .run = true ∨ s.inMode .park = true) ∧ c ≠ F.SYS_RESET_CAUSE_PMID_LOSS then
        (if (s.resetBegun c).jnl.busy then { s.resetBegun c with dev := { (s.resetBegun c).dev with stage := .commit } } else (s.resetBegun c).resetStep3)
      else (s.resetBegun c).resetFinish :=
  (if_neg (State.not_inMode on)).trans (if_neg (not_not.2 idle))

/-- A cause that comes during a full reset is marked and joins it, and a loss of PMID ends its waits (R32). -/
theorem State.startReset_joins {s : State} (c : FRef) (on : s.dev.mode ≠ .off) (going : s.dev.stage ≠ .none) (rcv : c ≠ F.SYS_RESET_CAUSE_CMD_RCV) :
    s.startReset c = if s.dev.stage ≠ .waiting ∧ c = F.SYS_RESET_CAUSE_PMID_LOSS then (s.set c 1).resetFinish else s.set c 1 := by
  unfold State.startReset
  dsimp only
  rw [if_neg (State.not_inMode on), if_pos going, decide_eq_false rcv, Bool.or_false]

/-- From RUN and PARK a full reset goes through the power-down program, unless PMID is lost. -/
theorem State.startReset_of_working {s : State} (c : FRef) (idle : s.dev.stage = .none) (m : s.dev.mode = .run ∨ s.dev.mode = .park)
    (loss : c ≠ F.SYS_RESET_CAUSE_PMID_LOSS) :
    s.startReset c = if (s.resetBegun c).jnl.busy then { s.resetBegun c with dev := { (s.resetBegun c).dev with stage := .commit } }
      else (s.resetBegun c).resetStep3 := by
  have on : s.dev.mode ≠ .off := by rcases m with m | m <;> simp [m]
  rw [State.startReset_begins c on idle]
  exact if_pos ⟨m.imp State.inMode_of_eq State.inMode_of_eq, loss⟩

end Sys2Proof.Machine

open Sys2Proof Sys2Proof.Machine

/-- Settles O10, by the two lemmas about a cause that begins a full reset and one that joins it. -/
theorem fullResetStarts : Obligations.FullResetStarts := by
  unfold Obligations.FullResetStarts
  refine ⟨fun _ c off => State.startReset_of_off c off, ?atOnce, ?program, ?commit, fun _ => rfl, ?pmidLoss, ?joins⟩
  case atOnce =>
    intro s c idle m
    have on : s.dev.mode ≠ .off := by rcases m with m | m | m <;> simp [m]
    rw [State.startReset_begins c on idle]
    refine if_neg fun k => ?_
    rcases m with m | m | m <;> simp [State.inMode, m] at k
  case program =>
    intro s c idle m loss free
    rw [State.startReset_of_working c idle m loss]
    rw [← State.resetBegun_jnl] at free
    rw [if_neg (Bool.eq_false_iff.1 free), State.resetBegun]
  case commit =>
    intro s c idle m loss busy
    rw [State.startReset_of_working c idle m loss]
    rw [← State.resetBegun_jnl] at busy
    rw [if_pos busy, State.resetBegun]
  case pmidLoss =>
    intro s down on
    have going : s.dev.stage ≠ .none := by simp [down]
    rw [State.startReset_joins _ on going (by decide)]
    exact if_pos ⟨by simp [down], rfl⟩
  case joins =>
    intro s down on
    have going : s.dev.stage ≠ .none := by simp [down]
    rw [State.startReset_joins _ on going (by decide)]
    exact if_neg fun k => absurd k.2 (by decide)
end

section
/-! What a full reset leaves in the registers (R31, R34), and how BOOT chooses a slot and ends (R63, R64, R68, R73, R465). -/

namespace Sys2Proof.Machine

/-- A key that the filter refuses reads as an unlisted one. -/
theorem tget_filter_of_not {α : Type} {p : Nat → Bool} (m : SMap α) {k : Nat} (d : α) (h : p k = false) :
    tget (m.filter fun e => p e.1) k d = d := by
  induction m with
  | nil => rfl
  | cons e m ih =>
    obtain ⟨a, v⟩ := e
    by_cases hp : p a = true
    · have ne : a ≠ k := fun e => by simp [e, h] at hp
      rw [List.filter_cons_of_pos (by exact hp), tget, if_neg ne, ih, ite_self]
    · rw [List.filter_cons_of_neg (by exact hp), ih]

theorem State.resetDomains_get_of_not_kept (s : State) {f : FRef} (h : f.key ∉ keptKeys) : s.resetDomains.get f = f.reset := by
  refine tget_filter_of_not (p := fun k => keptKeys.contains k) s.regs f.reset ?_
  simpa using h

theorem execRunEntry_of_chosen {v : BootView} {s t : State} {k : Nat} (h : s.bootEnds = true) (c : (s.due s.dev.shadowAt).bootChoice v = (t, some k)) :
    execRunEntry v s = .next (((({ (t.setMode .run).runImage k v with
      dev := { ((t.setMode .run).runImage k v).dev with
        runEntry := some ((t.setMode .run).runImage k v).now, runSinceReset := true } } : State).runBlocks.runProgram v.onReq).catchUp).runRaises v) := by
  rw [execRunEntry, if_pos h, c]

theorem execRecoveryEntry_of_none {v : BootView} {s t : State} (h : s.bootEnds = true) (c : (s.due s.dev.shadowAt).bootChoice v = (t, none)) :
    execRecoveryEntry v s = .next (
      if (({ t.setMode .recovery with dev := { (t.setMode .recovery).dev with
          recoveryEntry := (t.setMode .recovery).now, hostRstReleased := false } } : State).coreWdgRestart.catchUp).dev.xtalFailed &&
        !(({ t.setMode .recovery with dev := { (t.setMode .recovery).dev with
          recoveryEntry := (t.setMode .recovery).now, hostRstReleased := false } } : State).coreWdgRestart.catchUp).active 10
      then (({ t.setMode .recovery with dev := { (t.setMode .recovery).dev with
          recoveryEntry := (t.setMode .recovery).now, hostRstReleased := false } } : State).coreWdgRestart.catchUp).xtalSet
      else ({ t.setMode .recovery with dev := { (t.setMode .recovery).dev with
          recoveryEntry := (t.setMode .recovery).now, hostRstReleased := false } } : State).coreWdgRestart.catchUp) := by
  rw [execRecoveryEntry, if_pos h, c]

/-- A slot is tried: it runs where it passes, and the rest are tried where it fails (R63, R64). -/
theorem State.trySlots_cons (s : State) (v : BootView) (k : Nat) (r : List Nat) :
    s.trySlots v (k :: r) = match (s.slotSeen k v).slotCheck k (bootAnswers v k) with
      | .ok t => (t, some k)
      | .error f => ((s.slotSeen k v).slotFailed k f v).trySlots v r := rfl

/-- A single slot is the choice exactly where it passes. -/
theorem State.trySlots_singleton_iff (s t : State) (v : BootView) (j k : Nat) :
    s.trySlots v [j] = (t, some k) ↔ k = j ∧ (s.slotSeen j v).slotCheck j (bootAnswers v j) = .ok t := by
  rw [State.trySlots_cons]
  cases (s.slotSeen j v).slotCheck j (bootAnswers v j) with
  | ok u => simp [and_comm, eq_comm]
  | error f => simp [State.trySlots]

theorem State.bootChoice_of_slots {s : State} (v : BootView) (h : s.noSlots = false) : s.bootChoice v = s.trySlots v [s.firstSlot, 1 - s.firstSlot] :=
  if_neg (Bool.eq_false_iff.1 h)

theorem State.bootChoice_of_none {s : State} (v : BootView) (h : s.noSlots = true) : s.bootChoice v = (s, none) := if_pos h

/-- The slot that passes first is the one that runs. -/
theorem State.bootChoice_iff {s t : State} {v : BootView} {k : Nat} (h : s.noSlots = false) : s.bootChoice v = (t, some k) ↔
    (k = s.firstSlot ∧ (s.slotSeen k v).slotCheck k (bootAnswers v k) = .ok t) ∨
    (∃ f, k = 1 - s.firstSlot ∧ (s.slotSeen s.firstSlot v).slotCheck s.firstSlot (bootAnswers v s.firstSlot) = .error f ∧
      (((s.slotSeen s.firstSlot v).slotFailed s.firstSlot f v).slotSeen k v).slotCheck k (bootAnswers v k) = .ok t) := by
  have other : s.firstSlot ≠ 1 - s.firstSlot := by omega
  rw [State.bootChoice_of_slots v h, State.trySlots_cons]
  cases hc : (s.slotSeen s.firstSlot v).slotCheck s.firstSlot (bootAnswers v s.firstSlot) with
  | ok u =>
    constructor
    · rintro ⟨⟩
      exact .inl ⟨rfl, hc⟩
    · rintro (⟨rfl, e⟩ | ⟨f, -, e, -⟩)
      · rw [hc] at e
        rw [Except.ok.inj e]
      · cases e
  | error f =>
    dsimp only
    rw [State.trySlots_singleton_iff]
    constructor
    · rintro ⟨rfl, e⟩
      exact .inr ⟨f, rfl, rfl, e⟩
    · rintro (⟨rfl, e⟩ | ⟨g, rfl, e, ok⟩)
      · rw [hc] at e
        cases e
      · obtain rfl := Except.error.inj e
        exact ⟨rfl, ok⟩

end Sys2Proof.Machine

open Sys2Proof Sys2Proof.Machine

/-- Settles O11. -/
theorem fullResetRestores : Obligations.FullResetRestores := by
  unfold Obligations.FullResetRestores
  exact ⟨fun s _ h => s.resetDomains_get_of_not_kept h, fun _ => ⟨rfl, rfl, rfl, rfl, rfl, rfl⟩, fun _ => ⟨rfl, rfl, rfl, rfl, rfl, rfl, rfl, rfl⟩⟩

/-- Settles O12. -/
theorem bootChoosesAndEnds : Obligations.BootChoosesAndEnds := by
  unfold Obligations.BootChoosesAndEnds
  refine ⟨?run, ?recovery, ?held, ?release, ?choice⟩
  case run => exact fun v s t k h c => execRunEntry_of_chosen h c
  case recovery =>
    rintro v s t u h c rfl
    exact execRecoveryEntry_of_none h c
  case held =>
    intro v s h
    refine State.bootChoice_of_none v ?_
    rcases h with h | h <;> simp [State.noSlots, h]
  case release =>
    intro s m held
    exact congrArg Host.Outcome.next (if_pos ⟨State.inMode_of_eq m, Bool.eq_false_iff.1 held⟩)
  case choice => exact fun v s t k h => State.bootChoice_iff h
end

section
/-! A word written to a register whose fields do no more than R1 says: what each field of it then holds. -/

namespace Sys2Proof.Machine

/-- The fields `l` of the register at `a` with access code `c` take, each, what `φ` makes of the value they hold. -/
def State.storeFields (s : State) (a : Nat) (c : Acc) (φ : Nat → FieldRow → Nat) (l : List FieldRow) : State :=
  l.foldl (fun t f => if f.acc = c then t.set (f.ref a) (φ (t.get (f.ref a)) f) else t) s

theorem State.storeFields_cons (s : State) (a : Nat) (c : Acc) (φ : Nat → FieldRow → Nat) (f : FieldRow) (l : List FieldRow) :
    s.storeFields a c φ (f :: l) = (if f.acc = c then s.set (f.ref a) (φ (s.get (f.ref a)) f) else s).storeFields a c φ l := rfl

/-- A field that none of those fields is keeps its value. -/
theorem State.storeFields_get_of_ne {s : State} {a : Nat} {c : Acc} {φ : Nat → FieldRow → Nat} {l : List FieldRow} {g : FRef}
    (h : ∀ f ∈ l, f.acc = c → g.key ≠ a * 32 + f.lo) : (s.storeFields a c φ l).get g = s.get g := by
  induction l generalizing s with
  | nil => rfl
  | cons f l ih =>
    rw [State.storeFields_cons, ih fun e m => h e (List.mem_cons_of_mem f m)]
    split
    case isTrue hc => exact State.get_set_of_ne s _ (h f List.mem_cons_self hc)
    case isFalse => rfl

/-- A field of the code takes its value, where no two of the fields begin at one bit. -/
theorem State.storeFields_get {s : State} {a : Nat} {c : Acc} {φ : Nat → FieldRow → Nat} {l : List FieldRow} {f : FieldRow}
    (nd : (l.map FieldRow.lo).Nodup) (hf : f ∈ l) (hc : f.acc = c) :
    (s.storeFields a c φ l).get (f.ref a) = φ (s.get (f.ref a)) f % 2 ^ f.w := by
  induction l generalizing s with
  | nil => cases hf
  | cons e l ih =>
    rw [List.map_cons, List.nodup_cons] at nd
    obtain ⟨fresh, nd⟩ := nd
    have apart : ∀ g ∈ l, g.lo ≠ e.lo := fun g m k => fresh (k ▸ List.mem_map_of_mem m)
    rw [State.storeFields_cons]
    rcases List.mem_cons.1 hf with rfl | hf
    · rw [if_pos hc, State.storeFields_get_of_ne fun g m _ k => apart g m (Nat.add_left_cancel k.symm)]
      exact State.get_set s _ _
    · rw [ih nd hf]
      split
      · rw [State.get_set_of_ne]
        exact fun k => apart f hf (Nat.add_left_cancel k)
      · rfl

/-- No two fields of a register begin at one bit. -/
theorem blockRows_lo_nodup : ∀ b ∈ List.range 19, ∀ r ∈ blockRows b, (r.fields.map FieldRow.lo).Nodup := by decide +kernel

theorem regFields_lo_nodup {a : Nat} {l : List FieldRow} (h : regFields a = some l) : (l.map FieldRow.lo).Nodup := by
  obtain ⟨r, hr, rfl⟩ := Option.map_eq_some_iff.1 h
  have mem := List.mem_of_find?_eq_some hr
  by_cases hb : a / 0x400 < 19
  · exact blockRows_lo_nodup _ (List.mem_range.2 hb) r mem
  · rw [blockRows.eq_20 _ (by omega) (by omega) (by omega) (by omega) (by omega) (by omega) (by omega) (by omega) (by omega) (by omega) (by omega)
      (by omega) (by omega) (by omega) (by omega) (by omega) (by omega) (by omega) (by omega)] at mem
    cases mem

theorem State.storeAcc_eq {a : Nat} {l : List FieldRow} (h : regFields a = some l) (s : State) (v : Nat) (c : Acc) :
    s.storeAcc a v c = s.storeFields a c (fun _ f => bits v f.lo f.w) l := by
  rw [State.storeAcc, h]
  rfl

theorem State.clearW1c_eq {a : Nat} {l : List FieldRow} (h : regFields a = some l) (s : State) (v : Nat) :
    s.clearW1c a v = s.storeFields a .w1c (fun x f => andNot x (bits v f.lo f.w)) l := by
  rw [State.clearW1c, h]
  rfl

theorem State.storeAcc_of_none {a : Nat} (h : regFields a = none) (s : State) (v : Nat) (c : Acc) : s.storeAcc a v c = s := by
  rw [State.storeAcc, h]

theorem State.clearW1c_of_none {a : Nat} (h : regFields a = none) (s : State) (v : Nat) : s.clearW1c a v = s := by
  rw [State.clearW1c, h]

/-- A field with another code than `c` keeps its value through the storing of the fields with code `c`. -/
theorem State.storeFields_get_of_acc {s : State} {a : Nat} {c : Acc} {φ : Nat → FieldRow → Nat} {l : List FieldRow} {f : FieldRow}
    (nd : (l.map FieldRow.lo).Nodup) (hf : f ∈ l) (hc : f.acc ≠ c) : (s.storeFields a c φ l).get (f.ref a) = s.get (f.ref a) := by
  refine State.storeFields_get_of_ne fun e m k eq => ?_
  have same : f.lo = e.lo := Nat.add_left_cancel eq
  exact hc (List.inj_on_of_nodup_map nd hf m same ▸ k)

/-- What a word that is not reserved leaves: its RW fields stored, in RECOVERY its LK fields too, and its write-one-to-clear bits clear. -/
theorem State.plainWrite_of_good {s : State} {a v : Nat} (h : s.wordBad a v = false) :
    s.plainWrite a v = (if s.inMode .recovery then (s.storeAcc a v .rw).storeAcc a v .lk else s.storeAcc a v .rw).clearW1c a v :=
  if_neg (Bool.eq_false_iff.1 h)

theorem State.plainWrite_of_bad {s : State} {a v : Nat} (h : s.wordBad a v = true) : s.plainWrite a v = s.setDisc := if_pos h

@[simp] theorem bits_mod (v lo w : Nat) : bits v lo w % 2 ^ w = bits v lo w := Nat.mod_mod _ _

section
variable {s : State} {a v : Nat} {l : List FieldRow} {f : FieldRow} (good : s.wordBad a v = false) (hl : regFields a = some l) (hf : f ∈ l)
include good hl hf

theorem State.plainWrite_get_rw (hc : f.acc = .rw) : (s.plainWrite a v).get (f.ref a) = bits v f.lo f.w := by
  have nd := regFields_lo_nodup hl
  have stored : (s.storeAcc a v .rw).get (f.ref a) = bits v f.lo f.w := by
    rw [State.storeAcc_eq hl, State.storeFields_get nd hf hc, bits_mod]
  rw [State.plainWrite_of_good good, State.clearW1c_eq hl, State.storeFields_get_of_acc nd hf (by rw [hc]; decide)]
  split
  · rw [State.storeAcc_eq hl _ v .lk, State.storeFields_get_of_acc nd hf (by rw [hc]; decide), stored]
  · exact stored

theorem State.plainWrite_get_w1c (hc : f.acc = .w1c) :
    (s.plainWrite a v).get (f.ref a) = andNot (s.get (f.ref a)) (bits v f.lo f.w) % 2 ^ f.w := by
  have nd := regFields_lo_nodup hl
  have kept : (s.storeAcc a v .rw).get (f.ref a) = s.get (f.ref a) := by
    rw [State.storeAcc_eq hl, State.storeFields_get_of_acc nd hf (by rw [hc]; decide)]
  rw [State.plainWrite_of_good good, State.clearW1c_eq hl, State.storeFields_get nd hf hc]
  split
  · rw [State.storeAcc_eq hl _ v .lk, State.storeFields_get_of_acc nd hf (by rw [hc]; decide), kept]
  · rw [kept]

theorem State.plainWrite_get_lk (hc : f.acc = .lk) (rec : s.dev.mode = .recovery) : (s.plainWrite a v).get (f.ref a) = bits v f.lo f.w := by
  have nd := regFields_lo_nodup hl
  rw [State.plainWrite_of_good good, if_pos (State.inMode_of_eq rec), State.clearW1c_eq hl,
    State.storeFields_get_of_acc nd hf (by rw [hc]; decide), State.storeAcc_eq hl _ v .lk, State.storeFields_get nd hf hc, bits_mod]

end

/-- Every field but those that the word may store or clear keeps its value. -/
theorem State.plainWrite_get_of_ne {s : State} {a v : Nat} {g : FRef}
    (h : ∀ l f, regFields a = some l → f ∈ l → f.acc = .rw ∨ f.acc = .w1c ∨ (f.acc = .lk ∧ s.dev.mode = .recovery) → g.key ≠ a * 32 + f.lo) :
    (s.plainWrite a v).get g = s.get g := by
  cases hb : s.wordBad a v with
  | true => rw [State.plainWrite_of_bad hb, State.get_setDisc]
  | false =>
    rw [State.plainWrite_of_good hb]
    cases hl : regFields a with
    | none =>
      simp only [State.storeAcc_of_none hl, State.clearW1c_of_none hl, ite_self]
    | some l =>
      have rw_ : (s.storeAcc a v .rw).get g = s.get g := by
        rw [State.storeAcc_eq hl]
        exact State.storeFields_get_of_ne fun f m c => h l f hl m (.inl c)
      rw [State.clearW1c_eq hl, State.storeFields_get_of_ne fun f m c => h l f hl m (.inr (.inl c))]
      split
      case isTrue rec =>
        rw [State.storeAcc_eq hl _ v .lk, State.storeFields_get_of_ne fun f m c => h l f hl m (.inr (.inr ⟨c, of_decide_eq_true rec⟩)), rw_]
      case isFalse => exact rw_

end Sys2Proof.Machine

open Sys2Proof Sys2Proof.Machine

/-- Settles O15. -/
theorem plainWordsAreStored : Obligations.PlainWordsAreStored := by
  unfold Obligations.PlainWordsAreStored
  refine ⟨?rw, ?w1c, ?frame, ?reserved, ?lk⟩
  case rw => exact fun s a v l f hl hf hc good => State.plainWrite_get_rw good hl hf hc
  case w1c => exact fun s a v l f hl hf hc good => State.plainWrite_get_w1c good hl hf hc
  case frame => exact fun s a v g h => State.plainWrite_get_of_ne h
  case reserved => exact fun s a v bad => State.plainWrite_of_bad bad
  case lk => exact fun s a v l f hl hf hc rec good => State.plainWrite_get_lk good hl hf hc rec
end

section
/-! Requests of the sequencer (R222 to R230, R240): how they reach its queue, leave it, are absorbed, replaced or dropped. -/

namespace Sys2Proof.Machine

/-! Records. -/

/-- A record request changes the event unit alone. -/
theorem State.emitC_frame (s : State) (block code colour : Nat) (p : List (Nat × Nat)) :
    ∃ e : Evt, s.emitC block code colour p = { s with evt := e } := by
  unfold State.emitC
  split
  · exact ⟨_, rfl⟩
  · exact ⟨s.evt, rfl⟩

@[simp] theorem State.emitC_regs (s : State) (block code colour : Nat) (p : List (Nat × Nat)) : (s.emitC block code colour p).regs = s.regs := by
  obtain ⟨e, h⟩ := s.emitC_frame block code colour p
  rw [h]

@[simp] theorem State.emitC_get (s : State) (block code colour : Nat) (p : List (Nat × Nat)) (f : FRef) :
    (s.emitC block code colour p).get f = s.get f := by
  rw [State.get, State.get, State.emitC_regs]

@[simp] theorem State.emit_get (s : State) (block code : Nat) (p : List (Nat × Nat)) (f : FRef) : (s.emit block code p).get f = s.get f :=
  s.emitC_get block code 0 p f

/-! The queue. -/

theorem State.seqPush_wait {s : State} (code : Nat) (f : Option Nat) (h : 8 ≤ s.seq.queue.length ∨ s.seq.qwait ≠ []) :
    s.seqPush code f = (({ s with seq := { s.seq with qwait := s.seq.qwait ++ [(code, f)] } } : State).set F.SYS_CREDIT_WAIT_SEQ 1).injCheck 8 0 := by
  rw [State.seqPush, if_neg]
  rintro ⟨room, none⟩
  exact h.elim (fun full => absurd room (Nat.not_lt.2 full)) fun w => w none

theorem State.seqReqWrite_start (s : State) (p : Fin 4) (f : Option Nat) : s.seqReqWrite (0x5E900104 + p) f = s.seqPush (0x14 + p) f := by
  rw [State.seqReqWrite, if_neg (by omega), if_neg (by omega), if_pos ⟨by omega, by omega⟩, Nat.add_sub_cancel_left, Nat.add_comm]

section
variable {s : State} (open_ : s.writeOk 0x1404 = true) (bus : s.injects 4 = false)
include open_ bus

theorem exec_seqOn : exec .seqOn s = .next (s.seqPush 1 none) := congrArg _ (s.bus_quiet _ _ open_ bus)

theorem exec_seqOff : exec .seqOff s = .next (s.seqPush 2 none) := congrArg _ (s.bus_quiet _ _ open_ bus)

theorem exec_seqProgramStart (p : Fin 4) : exec (.seqProgramStart p) s = .next (s.seqPush (0x14 + p) none) :=
  congrArg _ ((s.bus_quiet _ _ open_ bus).trans (s.seqReqWrite_start p none))

end

theorem exec_onReqEdge_of_boot {s : State} (rising : Bool) (h : s.dev.mode = .boot) :
    exec (.onReqEdge rising) s = .next ((s.cross 11 0).putBitF F.SYS_WAKE_STATUS_FIRED 0 true) :=
  congrArg Host.Outcome.next (if_pos (State.inMode_of_eq h))

/-- Outside BOOT an edge is a request in level mode, outside satellite mode and in RUN, PARK and RECOVERY, and nothing else (R222, R240). -/
theorem exec_onReqEdge {s : State} (rising : Bool) (h : s.dev.mode ≠ .boot) :
    exec (.onReqEdge rising) s = .next (
      if (s.dev.mode = .run ∨ s.dev.mode = .park ∨ s.dev.mode = .recovery) ∧ s.flag F.SEQ_CFG_ON_MODE = false ∧ s.flag F.SEQ_CFG_SAT_MODE = false
      then s.seqPush (if xor rising (s.bitF F.SYS_WAKE_CFG_POL 0) then 1 else 2) none else s) := by
  refine congrArg Host.Outcome.next ((if_neg (State.not_inMode h)).trans (if_congr ?_ rfl rfl))
  simp only [State.inMode, decide_eq_true_eq, Bool.not_eq_true]

/-- The oldest request leaves the queue, and the oldest waiting one takes its credit. -/
def State.requestOut (s : State) (r : List (Nat × Option Nat)) (f : Option Nat) : State :=
  ({ s with seq := { s.seq with queue := r ++ s.seq.qwait.take 1, qwait := s.seq.qwait.drop 1 } } : State).frameDone f

theorem exec_seqRequestTaken {s : State} {code : Nat} {f : Option Nat} {r : List (Nat × Option Nat)} (core : s.coreRuns = true)
    (q : s.seq.queue = (code, f) :: r) :
    exec .seqRequestTaken s = .next (
      if (s.requestOut r f).phase = 9 then (s.requestOut r f).reqDrop (if code = 6 then 2 else code) 0
      else if (s.requestOut r f).pmidGoing = true then (s.requestOut r f).reqDrop (if code = 6 then 2 else code) 5
      else if code = 5 then (s.requestOut r f).pmidRequest
      else if code = 6 then (s.requestOut r f).takeMasterOff
      else if code < 0x10 then (s.requestOut r f).takePower code else (s.requestOut r f).takeStart (code - 0x10)) := by
  change execSeqRequestTaken s = _
  unfold execSeqRequestTaken
  rw [q]
  exact congrArg Host.Outcome.next (if_pos (.inr core))

/-- A start request of a program whose bit is clear sets it (R226). -/
theorem State.takeStart_of_clear {s : State} {p : Nat} (h : 4 ≤ p) (clear : s.bitF F.SEQ_STAT_START (p - 4) = false) :
    s.takeStart p = s.set F.SEQ_STAT_START (setBit (s.get F.SEQ_STAT_START) (p - 4)) := by
  rw [State.takeStart, if_neg (Nat.not_lt.2 h), if_neg (Bool.eq_false_iff.1 clear)]
  rfl

theorem State.takeStart_dropped {s : State} {p : Nat} (h : p < 4 ∨ s.bitF F.SEQ_STAT_START (p - 4) = true) :
    s.takeStart p = s.reqDrop (0x10 + p) 0 := by
  unfold State.takeStart
  split
  · rfl
  case isFalse low => exact if_pos (h.resolve_left low)

theorem State.absorbs_of_idle {s : State} (idle : s.get F.SEQ_STAT_PEND = 0) (p : Nat) :
    s.absorbs p = ((decide (p = 1) && (decide (s.phase = 1) || decide (s.phase = 2) || decide (s.phase = 5))) ||
      (decide (p = 2) && (decide (s.phase = 0) || decide (s.phase = 3) || decide (s.phase = 4))) ||
      (decide (p = 3) && (decide (s.phase = 6) || decide (s.phase = 7)))) := by
  rw [State.absorbs, idle]
  rfl

theorem State.not_absorbs_of_pending {s : State} (h : s.get F.SEQ_STAT_PEND ≠ 0) (p : Nat) : s.absorbs p = false := by
  rw [State.absorbs, decide_eq_false h, Bool.false_and]

/-- With no shutdown, failure or PMID shutdown due, a program in progress goes on. -/
theorem State.settled_of_running {s : State} (run : s.progRuns = true) (shut : s.seq.shut = none) (fails : s.seq.failQueue = [])
    (act : s.seq.failAct = false) (pmid : s.seq.pmidShut = false) : s.settled = s := by
  unfold State.settled State.settle
  simp only [shut, fails, act, pmid, run, State.actPending, Bool.false_eq_true, not_true_eq_false, and_false, if_false, true_or, if_true]

/-- A power request that replaces a pending one while a program runs: the old one is dropped, and where the table acts on nothing at once the new one
waits (R224). -/
theorem State.takePower_replaces {s : State} {p : Nat} (run : s.progRuns = true) (dwell : s.phase ≠ 5) (pend : s.get F.SEQ_STAT_PEND ≠ 0)
    (master : s.seq.masterOff = false) (stage : s.seq.stage = .fetched) (shut : s.seq.shut = none) (fails : s.seq.failQueue = [])
    (act : s.seq.failAct = false) (pmid : s.seq.pmidShut = false) :
    ∃ q : Seq, s.takePower p = ((s.reqDrop (s.get F.SEQ_STAT_PEND) p).setSeq q).set F.SEQ_STAT_PEND p := by
  unfold State.takePower
  dsimp only
  rw [if_neg (by rw [State.not_absorbs_of_pending pend p]; decide), if_neg (by rw [master]; simp), if_neg dwell, if_neg pend]
  obtain ⟨e, he⟩ := (s.incSatF F.SEQ_CNT_DROP).emitC_frame 5 7 0 [(s.get F.SEQ_STAT_PEND, 1), (p, 1)]
  have drop : s.reqDrop (s.get F.SEQ_STAT_PEND) p = { s.incSatF F.SEQ_CNT_DROP with evt := e } := he
  rw [drop]
  refine ⟨_, (if_neg ?_).trans (State.settled_of_running ?_ shut fails act pmid)⟩
  · rintro ⟨-, w | c⟩
    · exact absurd (stage.symm.trans w) (by decide)
    · exact absurd (stage.symm.trans c) (by decide)
  · unfold State.progRuns State.flag
    rw [State.get_set_of_ne _ _ (by decide), State.get_setSeq]
    exact run ▸ congrArg (fun x => decide (x = 1)) (State.get_set_of_ne s _ (by decide))

/-- What the request and the record then read. -/
theorem State.takePower_replaces_get {s : State} {p : Nat} (run : s.progRuns = true) (dwell : s.phase ≠ 5) (pend : s.get F.SEQ_STAT_PEND ≠ 0)
    (hp : p < 8) (master : s.seq.masterOff = false) (stage : s.seq.stage = .fetched) (shut : s.seq.shut = none) (fails : s.seq.failQueue = [])
    (act : s.seq.failAct = false) (pmid : s.seq.pmidShut = false) :
    (s.takePower p).get F.SEQ_STAT_PEND = p ∧
    (s.takePower p).get F.SEQ_CNT_DROP = incSat (s.get F.SEQ_CNT_DROP) F.SEQ_CNT_DROP.top % 2 ^ F.SEQ_CNT_DROP.w ∧
    (s.takePower p).get F.SEQ_STAT_RUN = 1 := by
  obtain ⟨q, h⟩ := State.takePower_replaces (p := p) run dwell pend master stage shut fails act pmid
  rw [h]
  refine ⟨(State.get_set _ _ _).trans (Nat.mod_eq_of_lt hp), ?_, ?_⟩
  · rw [State.get_set_of_ne _ _ (by decide), State.get_setSeq, State.reqDrop, State.emit_get]
    exact State.get_set s _ _
  · rw [State.get_set_of_ne _ _ (by decide), State.get_setSeq, State.reqDrop, State.emit_get]
    exact (State.get_set_of_ne s _ (by decide)).trans (of_decide_eq_true run)

end Sys2Proof.Machine

open Sys2Proof Sys2Proof.Machine

/-- Settles O16. -/
theorem sequencerTakesRequests : Obligations.SequencerTakesRequests := by
  unfold Obligations.SequencerTakesRequests
  refine ⟨?edge, ?boot, ?ignored, ?on, ?off, ?start, ?waits, ?onWaits, ?offWaits, ?startWaits, ?taken, ?startTaken, fun _ _ _ => rfl,
    ?absorbed, ?master, fun _ => rfl, ?absorbsOn, ?absorbsOff, ?absorbsPark, ?replaces, ?startSet, ?startDropped⟩
  case edge =>
    intro rising s m level sat room none quiet
    have notBoot : s.dev.mode ≠ .boot := by rcases m with m | m | m <;> simp [m]
    rw [exec_onReqEdge rising notBoot, if_pos ⟨m, level, sat⟩, State.seqPush_credit s _ _ room none quiet]
  case boot => exact fun rising s m => exec_onReqEdge_of_boot rising m
  case ignored =>
    intro rising s m notBoot
    rw [exec_onReqEdge rising notBoot, if_neg]
    rintro ⟨on, level, sat⟩
    rcases m with m | m | m | m | m
    · simp [m] at on
    · simp [m] at on
    · simp [m] at on
    · exact absurd (level.symm.trans m) (by decide)
    · exact absurd (sat.symm.trans m) (by decide)
  case on =>
    intro s open_ room none quiet bus
    rw [exec_seqOn open_ bus, State.seqPush_credit s _ _ room none quiet]
  case off =>
    intro s open_ room none quiet bus
    rw [exec_seqOff open_ bus, State.seqPush_credit s _ _ room none quiet]
  case start =>
    intro p s open_ room none quiet bus
    rw [exec_seqProgramStart open_ bus, State.seqPush_credit s _ _ room none quiet]
  case waits => exact fun s code f h => State.seqPush_wait code f h
  case onWaits => exact fun s open_ _ bus => exec_seqOn open_ bus
  case offWaits => exact fun s open_ _ bus => exec_seqOff open_ bus
  case startWaits => exact fun p s open_ _ bus => exec_seqProgramStart open_ bus p
  case taken =>
    rintro s t code f r core q rfl
    exact exec_seqRequestTaken core q
  case startTaken =>
    rintro s t p r core q hp rfl working quiet clear
    have working : (s.requestOut r none).phase ≠ 9 := working
    have quiet : (s.requestOut r none).pmidGoing = false := quiet
    have clear : (s.requestOut r none).bitF F.SEQ_STAT_START (p - 4) = false := clear
    rw [exec_seqRequestTaken core q, if_neg working, if_neg (Bool.eq_false_iff.1 quiet), if_neg (by omega), if_neg (by omega), if_neg (by omega),
      Nat.add_sub_cancel_left, State.takeStart_of_clear hp clear]
    rfl
  case absorbed => exact fun s p h => if_pos h
  case master =>
    intro s p h m old
    exact (if_neg (Bool.eq_false_iff.1 h)).trans (if_pos ⟨m, old⟩)
  case absorbsOn =>
    intro s idle ph
    rw [State.absorbs_of_idle idle]
    rcases ph with ph | ph | ph <;> simp [ph]
  case absorbsOff =>
    intro s idle ph
    rw [State.absorbs_of_idle idle]
    rcases ph with ph | ph | ph <;> simp [ph]
  case absorbsPark =>
    intro s idle ph
    rw [State.absorbs_of_idle idle]
    rcases ph with ph | ph <;> simp [ph]
  case replaces =>
    intro s p run dwell pend _ hp master stage shut fails act pmid
    exact State.takePower_replaces_get run dwell pend (by omega) master stage shut fails act pmid
  case startSet => exact fun s p hp _ clear => State.takeStart_of_clear hp clear
  case startDropped => exact fun s p h => State.takeStart_dropped h
end

section
/-! The domains' power-good (R209 to R211), and what an ENABLE step does to a domain that is locked out (R217, R233). -/

namespace Sys2Proof.Machine

/-- A change of raw power-good of domain `d` once it is accepted (R209). -/
def State.pgAccepted (s : State) (d : Nat) : State :=
  (((s.due ((s.dom d).rawSince + s.get (F.SEQ_DOM_PG_PG_FILT d) * engPerUs)).setDom d { s.dom d with
      pg := (s.dom d).raw, lastChange := (s.due ((s.dom d).rawSince + s.get (F.SEQ_DOM_PG_PG_FILT d) * engPerUs)).now }).putBitF
    F.SEQ_DOM_STATE_PG d (s.dom d).raw).put (F.SEQ_DOM_STAT_PG d) (s.dom d).raw

/-- A CHECK of domain `d` counts a transition (R211). -/
def State.pgCounted (s : State) (d : Nat) : State :=
  if s.checks d then ({ s with seq := { s.seq with chat := s.seq.chat + 1 } } : State).set (F.SEQ_DOM_STAT_CHAT d) (min (s.seq.chat + 1) 15) else s

/-- A CHECK of domain `d` that has counted one transition too many fails (R211). -/
def State.pgJudged (s : State) (d : Nat) : State :=
  if s.checks d = true ∧ s.get (F.SEQ_DOM_PG_CHATTER_MAX d) < s.seq.chat then s.checkFail d 2 else s

theorem exec_pgTransition {s : State} {d : Fin 12} (on : s.seqOn = true) (change : (s.dom d).raw ≠ (s.dom d).pg) :
    exec (.pgTransition d) s = .next ((
      if (s.dom d).st = .on ∧ ¬ (s.dom d).raw = true ∧ ¬ s.latchCut d = true then ((s.pgAccepted d).pgCounted d).domFail d 3
      else (s.pgAccepted d).pgCounted d).pgJudged d) :=
  congrArg Host.Outcome.next (if_pos ⟨on, change⟩)

theorem State.progRuns_set_of_ne {s : State} {f : FRef} (v : Nat) (h : F.SEQ_STAT_RUN.key ≠ f.key) : (s.set f v).progRuns = s.progRuns := by
  rw [State.progRuns, State.flag, State.get_set_of_ne s v h]
  rfl

theorem State.checks_set_of_ne {s : State} {f : FRef} (d v : Nat) (h : F.SEQ_STAT_RUN.key ≠ f.key) : (s.set f v).checks d = s.checks d := by
  rw [State.checks, State.progRuns_set_of_ne v h]
  rfl

theorem State.checks_due (s : State) (t d : Nat) : (s.due t).checks d = s.checks d := by
  rw [State.checks, State.progRuns, State.due_seq, State.flag_due]
  rfl

/-- Accepting the change leaves the CHECK in progress as it was. -/
theorem State.pgAccepted_checks (s : State) (d : Fin 12) : (s.pgAccepted d).checks d = s.checks d := by
  have other : F.SEQ_STAT_RUN.key ≠ (F.SEQ_DOM_STAT_PG d).key := by
    change 5128 * 32 + 27 ≠ (_ + 4 * d.val) * 32 + _
    omega
  rw [State.pgAccepted, State.put, State.checks_set_of_ne _ _ other, State.putBitF, State.checks_set_of_ne _ _ (by decide)]
  exact s.checks_due _ d

theorem State.pgCounted_of_unchecked {s : State} {d : Nat} (h : s.checks d = false) : s.pgCounted d = s := if_neg (Bool.eq_false_iff.1 h)

theorem State.pgCounted_of_checked {s : State} {d : Nat} (h : s.checks d = true) :
    s.pgCounted d = ({ s with seq := { s.seq with chat := s.seq.chat + 1 } } : State).set (F.SEQ_DOM_STAT_CHAT d) (min (s.seq.chat + 1) 15) :=
  if_pos h

theorem State.pgJudged_of_unchecked {s : State} {d : Nat} (h : s.checks d = false) : s.pgJudged d = s :=
  if_neg fun k => Bool.eq_false_iff.1 h k.1

theorem exec_pgTransition_kept {s : State} {d : Fin 12} (on : s.seqOn = true) (change : (s.dom d).raw ≠ (s.dom d).pg)
    (kept : ¬ ((s.dom d).st = .on ∧ ¬ (s.dom d).raw = true ∧ ¬ s.latchCut d = true)) :
    exec (.pgTransition d) s = .next (((s.pgAccepted d).pgCounted d).pgJudged d) := by
  rw [exec_pgTransition on change, if_neg kept]

/-- A change that is neither checked nor a loss does no more than to be accepted. -/
theorem exec_pgTransition_quiet {s : State} {d : Fin 12} (on : s.seqOn = true) (change : (s.dom d).raw ≠ (s.dom d).pg)
    (kept : ¬ ((s.dom d).st = .on ∧ ¬ (s.dom d).raw = true ∧ ¬ s.latchCut d = true)) (free : s.checks d = false) :
    exec (.pgTransition d) s = .next (s.pgAccepted d) := by
  have free : (s.pgAccepted d).checks d = false := (s.pgAccepted_checks d).trans free
  rw [exec_pgTransition_kept on change kept, State.pgCounted_of_unchecked free, State.pgJudged_of_unchecked free]

theorem exec_failTier {s : State} {x : Shutdown} (on : s.seqOn = true) (shut : s.seq.shut = some x) (left : x.left ≠ 0) :
    exec .failTier s = .next ((s.due (x.at_ + s.get F.SEQ_CFG_FAIL_GAP * 10 * engPerUs)).tier.settled.parkWake) := by
  change execFailTier s = _
  rw [execFailTier, shut]
  exact congrArg Host.Outcome.next (if_pos ⟨on, left⟩)

/-- Domain `d` is FAILED, or one of its direct or indirect dependencies is. -/
def State.lockedOut (s : State) (d : Nat) : Prop := (s.dom d).st = .failed ∨ ∃ k, k < 12 ∧ s.reaches d k = true ∧ (s.dom k).st = .failed

/-- The ENABLE step of a domain that is locked out is skipped (R217, R233). -/
theorem exec_stepEnable_of_lockedOut {vos : List Nat} {s : State} (runs : s.runs 1 = true) (dom : s.operand < 12)
    (notOn : (s.dom s.operand).st ≠ .on) (notRamp : (s.dom s.operand).st ≠ .ramp) (locked : s.lockedOut s.operand) :
    exec (.stepEnable vos) s = .next (s.setDom s.operand { s.dom s.operand with skipped := true }).stepSkip := by
  refine congrArg Host.Outcome.next ((if_pos runs).trans ((if_neg (Nat.ne_of_lt dom)).trans ((if_neg ?_).trans (if_pos ?_))))
  · rintro (on | ramp)
    · exact notOn on
    · exact notRamp ramp
  · refine locked.imp id ?_
    rintro ⟨k, hk, reach, failed⟩
    exact List.any_eq_true.2 ⟨k, List.mem_range.2 hk, by rw [reach, decide_eq_true failed]; rfl⟩

@[simp] theorem State.setStage_get (s : State) (x : StepStage) (f : FRef) : (s.setStage x).get f = s.get f := rfl

@[simp] theorem State.stepSkip_stage (s : State) : s.stepSkip.seq.stage = .ended := rfl

theorem State.stepSkip_get_of_ne (s : State) {f : FRef} (h : f.key ≠ F.SEQ_FLAGS_SKIP.key) : s.stepSkip.get f = s.get f :=
  (State.setStage_get _ _ f).trans (State.get_set_of_ne s 1 h)

@[simp] theorem State.stepSkip_get_skip (s : State) : s.stepSkip.get F.SEQ_FLAGS_SKIP = 1 := (State.setStage_get _ _ _).trans (State.get_set s _ 1)

@[simp] theorem State.stepSkip_dom (s : State) (m : Nat) : s.stepSkip.dom m = s.dom m := rfl

/-- What is marked on a domain whose ENABLE is skipped is neither its state nor its power-good. -/
theorem State.setDom_skipped_dom (s : State) (d m : Nat) :
    ((s.setDom d { s.dom d with skipped := true }).dom m).st = (s.dom m).st ∧ ((s.setDom d { s.dom d with skipped := true }).dom m).pg = (s.dom m).pg := by
  by_cases h : m = d
  · rw [h, State.dom_setDom]
    exact ⟨rfl, rfl⟩
  · rw [State.dom_setDom_of_ne s _ h]
    exact ⟨rfl, rfl⟩

end Sys2Proof.Machine

open Sys2Proof Sys2Proof.Machine

/-- Settles O20, by the three parts of a transition of power-good: it is accepted, counted by a CHECK, and judged. -/
theorem domainsFollowAndLockOut : Obligations.DomainsFollowAndLockOut := by
  unfold Obligations.DomainsFollowAndLockOut
  refine ⟨?unchecked, ?loss, ?latchCut, ?stable, ?tier, ?clear, ?locked, ?checked⟩
  case unchecked =>
    intro d s on change free kept
    refine exec_pgTransition_quiet on change ?_ free
    rintro ⟨isOn, low, -⟩
    exact kept.elim (fun h => h isOn) low
  case loss =>
    rintro d s t on raw pg isOn cut free rfl
    have change : (s.dom d).raw ≠ (s.dom d).pg := by simp [raw, pg]
    have free : (s.pgAccepted d).checks d = false := (s.pgAccepted_checks d).trans free
    rw [exec_pgTransition on change, if_pos ⟨isOn, Bool.eq_false_iff.1 raw, Bool.eq_false_iff.1 cut⟩, State.pgCounted_of_unchecked free,
      State.pgAccepted, raw, State.pgJudged]
  case latchCut =>
    intro d s on raw pg cut free
    have change : (s.dom d).raw ≠ (s.dom d).pg := by simp [raw, pg]
    rw [exec_pgTransition_quiet on change (fun k => k.2.2 cut) free, State.pgAccepted, raw]
  case stable => exact fun d s on ramp pg => congrArg Host.Outcome.next (if_pos ⟨on, ramp, pg⟩)
  case tier => exact fun x s on shut left => exec_failTier on shut left
  case clear =>
    intro m s open_ bus
    refine congrArg Host.Outcome.next ((s.bus_quiet _ _ open_ bus).trans ?_)
    rw [State.domFailWrite, Nat.mod_eq_of_lt m.isLt]
  case locked =>
    intro vos s t runs dom notOn notRamp locked h
    rw [exec_stepEnable_of_lockedOut runs dom notOn notRamp locked] at h
    obtain rfl := Host.Outcome.next.inj h
    refine ⟨State.stepSkip_get_skip _, State.stepSkip_get_of_ne _ (by decide), State.stepSkip_stage _, fun m => ?_,
      fun g other => State.stepSkip_get_of_ne _ other, rfl, rfl⟩
    rw [State.stepSkip_dom]
    exact s.setDom_skipped_dom s.operand m
  case checked =>
    intro d a b s on change kept ha checked hb
    have ha : a = s.pgAccepted d := ha
    rw [exec_pgTransition_kept on change, ← ha, State.pgCounted_of_checked checked, ← hb, State.pgJudged]
    rintro ⟨isOn, low, -⟩
    exact kept.elim (fun h => h isOn) low
end

section
/-! Which blocks' registers an operation writes (R9), and that the operations which turn outputs off leave the device state, the ring, the nonces, the
journal and the fault counts alone. -/

namespace Sys2Proof.Machine

/-- The block of the register map that a field stands in, 0 (SYS) to 18 (UPD) (R9). -/
def FRef.blk (f : FRef) : Nat := f.key / 0x8000

/-- The parts of the state beside the registers that entry to BLACK decides or keeps. -/
structure CoreView where
  mode : Mode
  stage : ResetStage
  released : Bool
  armed : Bool
  nonces : List Nonce
  journal : SMap Byte
  info : SMap (Nat × Nat)
  tripped : Nat → Bool

def State.coreView (s : State) : CoreView :=
  ⟨s.dev.mode, s.dev.stage, s.dev.hostRstReleased, s.evt.armed, s.sec.nonces, s.nv.journal, s.flt.info, fun n => (s.stk n).tripped⟩

/-- From `z` to `s` only registers of the blocks `B` have changed, and nothing of the view. -/
structure State.Alters (z : State) (B : List Nat) (s : State) : Prop where
  regs : ∀ f : FRef, f.blk ∉ B → s.get f = z.get f
  view : s.coreView = z.coreView

variable {z s : State} {B : List Nat}

theorem State.Alters.refl (z : State) (B : List Nat) : z.Alters B z := ⟨fun _ _ => rfl, rfl⟩

theorem State.Alters.same (h : z.Alters B s) {t : State} (hr : t.regs = s.regs) (hv : t.coreView = s.coreView) : z.Alters B t :=
  ⟨fun f hf => (by rw [State.get, State.get, hr] : t.get f = s.get f).trans (h.regs f hf), hv.trans h.view⟩

theorem State.Alters.mono (h : z.Alters B s) {C : List Nat} (hC : B ⊆ C) : z.Alters C s := ⟨fun f hf => h.regs f fun k => hf (hC k), h.view⟩

theorem State.Alters.trans (h : z.Alters B s) {t : State} (k : s.Alters B t) : z.Alters B t :=
  ⟨fun f hf => (k.regs f hf).trans (h.regs f hf), k.view.trans h.view⟩

theorem State.Alters.set (h : z.Alters B s) {f : FRef} (v : Nat) {b : Nat} (hb : b ∈ B) (hf : f.blk = b) : z.Alters B (s.set f v) :=
  ⟨fun g hg => (State.get_set_of_ne s v fun k => hg (by rwa [FRef.blk, k, ← FRef.blk, hf])).trans (h.regs g hg), h.view⟩

theorem State.Alters.ite (c : Prop) [Decidable c] {a b : State} (ha : z.Alters B a) (hb : z.Alters B b) : z.Alters B (if c then a else b) := by
  split
  · exact ha
  · exact hb

/-- A property that every step of a loop keeps holds after it. -/
theorem forEach_induction {P : State → Prop} (l : List Nat) (f : Nat → State → State) (hf : ∀ n ∈ l, ∀ t, P t → P (f n t)) (h : P s) :
    P (forEach l f s) := by
  unfold forEach
  induction l generalizing s with
  | nil => exact h
  | cons a l ih => exact ih (fun n m => hf n (List.mem_cons_of_mem a m)) (hf a List.mem_cons_self s h)

/-- A property that one step of a loop brings about and every step keeps holds after it. -/
theorem forEach_establishes {P : State → Prop} {l : List Nat} {f : Nat → State → State} {n : Nat} (hn : n ∈ l) (est : ∀ t, P (f n t))
    (keep : ∀ m ∈ l, ∀ t, P t → P (f m t)) : P (forEach l f s) := by
  induction l generalizing s with
  | nil => cases hn
  | cons a l ih =>
    have rest : ∀ m ∈ l, ∀ t, P t → P (f m t) := fun m hm => keep m (List.mem_cons_of_mem a hm)
    rcases List.mem_cons.1 hn with rfl | hl
    · exact forEach_induction l f rest (est s)
    · exact ih hl rest

/-! Records, queues and single fields. -/

theorem State.Alters.emitC (h : z.Alters B s) (block code colour : Nat) (p : List (Nat × Nat)) : z.Alters B (s.emitC block code colour p) := by
  unfold State.emitC
  split
  · exact h.same rfl rfl
  · exact h

theorem State.Alters.emit (h : z.Alters B s) (block code : Nat) (p : List (Nat × Nat)) : z.Alters B (s.emit block code p) := h.emitC _ _ 0 _

theorem State.Alters.frameDone (h : z.Alters B s) (f : Option Nat) : z.Alters B (s.frameDone f) := by
  unfold State.frameDone
  split
  · exact h
  · exact h.same rfl rfl

theorem State.Alters.jnlPush (h : z.Alters B s) (c : Commit) (sys : 0 ∈ B) : z.Alters B (s.jnlPush c) := by
  unfold State.jnlPush
  refine .ite _ ?_ (.set ?_ _ sys rfl)
  · exact h.same rfl rfl
  · exact h.same rfl rfl

theorem State.Alters.logTokensFill (h : z.Alters B s) (sys : 0 ∈ B) : z.Alters B s.logTokensFill :=
  forEach_induction _ _ (fun _ _ _ k => k.jnlPush _ sys) h

theorem State.Alters.evidencePush (h : z.Alters B s) (sys : 0 ∈ B) : z.Alters B s.evidencePush := by
  unfold State.evidencePush
  refine .ite _ (.jnlPush ?_ _ sys) h
  exact h.same rfl rfl

/-! Outputs. -/

section
variable {d t n g k w r : Nat}

theorem blk_domStat (hd : d < 12) (hk : k < 32 := by decide) : FRef.blk (fr (0x14C0 + 4 * d) k w r) = 5 := by
  change ((0x14C0 + 4 * d) * 32 + k) / 0x8000 = 5
  omega

theorem blk_tileStat (ht : t < 48) (hk : k < 32 := by decide) : FRef.blk (fr (0x0800 + 16 * t) k w r) = 2 := by
  change ((0x0800 + 16 * t) * 32 + k) / 0x8000 = 2
  omega

theorem blk_stkStat (hn : n < 16) (hk : k < 32 := by decide) : FRef.blk (fr (0x0C1C + 64 * n) k w r) = 3 := by
  change ((0x0C1C + 64 * n) * 32 + k) / 0x8000 = 3
  omega

theorem blk_stkSrcStat (hn : n < 16) (hk : k < 32 := by decide) : FRef.blk (fr (0x0C3C + 64 * n) k w r) = 3 := by
  change ((0x0C3C + 64 * n) * 32 + k) / 0x8000 = 3
  omega

theorem blk_ldoStat (hn : n < 8) (hk : k < 32 := by decide) : FRef.blk (fr (0x1820 + 4 * n) k w r) = 6 := by
  change ((0x1820 + 4 * n) * 32 + k) / 0x8000 = 6
  omega

theorem blk_lswStat (hn : n < 6) (hk : k < 32 := by decide) : FRef.blk (fr (0x1860 + 4 * n) k w r) = 6 := by
  change ((0x1860 + 4 * n) * 32 + k) / 0x8000 = 6
  omega

theorem blk_guardStat (hg : g < 2) (hk : k < 32 := by decide) : FRef.blk (fr (0x1888 + 4 * g) k w r) = 6 := by
  change ((0x1888 + 4 * g) * 32 + k) / 0x8000 = 6
  omega

theorem blk_seatStat (hn : n < 8) (hk : k < 32 := by decide) : FRef.blk (fr (0x3044 + 8 * n) k w r) = 12 := by
  change ((0x3044 + 8 * n) * 32 + k) / 0x8000 = 12
  omega

end

theorem State.tilesOf_lt {u t : Nat} (h : t ∈ s.tilesOf u) : t < 48 := List.mem_range.1 (List.mem_of_mem_filter h)

theorem State.Alters.refreshDom (h : z.Alters B s) {d : Nat} (hd : d < 12) (seq : 5 ∈ B) : z.Alters B (s.refreshDom d) := by
  unfold State.refreshDom
  refine .ite _ h (.set ?_ _ seq (blk_domStat hd))
  exact h.same rfl rfl

theorem State.Alters.refreshRaw (h : z.Alters B s) (seq : 5 ∈ B) : z.Alters B s.refreshRaw :=
  forEach_induction _ _ (fun _ m _ k => k.refreshDom (List.mem_range.1 m) seq) h

theorem State.Alters.guardEnd (h : z.Alters B s) {g : Nat} (hg : g < 2) (r colour : Nat) (out : 6 ∈ B) : z.Alters B (s.guardEnd g r colour) := by
  unfold State.guardEnd
  refine .ite _ (.emitC (.set (.set ?_ _ out (blk_guardStat hg)) _ out (blk_guardStat hg)) _ _ _ _) h
  exact h.same rfl rfl

theorem State.Alters.guardsEnd (h : z.Alters B s) (r colour : Nat) (out : 6 ∈ B) : z.Alters B (s.guardsEnd r colour) :=
  (h.guardEnd (by decide) r colour out).guardEnd (by decide) r colour out

theorem State.Alters.tileOff (h : z.Alters B s) {t : Nat} (ht : t < 48) (til : 2 ∈ B) : z.Alters B (s.tileOff t) := by
  unfold State.tileOff
  exact .set (.set h _ til (blk_tileStat ht)) _ til (blk_tileStat ht)

theorem State.Alters.tileOn (h : z.Alters B s) {t : Nat} (ht : t < 48) (til : 2 ∈ B) : z.Alters B (s.tileOn t) := by
  unfold State.tileOn
  exact .set (.set h _ til (blk_tileStat ht)) _ til (blk_tileStat ht)

theorem State.Alters.tilesOff (h : z.Alters B s) (u : Nat) (til : 2 ∈ B) : z.Alters B (s.tilesOff u) :=
  forEach_induction _ _ (fun _ m _ k => k.tileOff (State.tilesOf_lt m) til) h

/-- A stack's record changes in what does not trip it. -/
theorem State.Alters.setStk (h : z.Alters B s) (n : Nat) {x : Stack} (same : x.tripped = (s.stk n).tripped) : z.Alters B (s.setStk n x) := by
  have trips : ∀ m, ((s.setStk n x).stk m).tripped = (s.stk m).tripped := by
    intro m
    by_cases this : m = n
    · rw [this, State.stk_setStk, same]
    · rw [State.stk_setStk_of_ne s x this]
  refine h.same rfl ?_
  rw [State.coreView, funext trips]
  rfl

theorem State.Alters.antEnd (h : z.Alters B s) {n : Nat} (hn : n < 16) (stk : 3 ∈ B) : z.Alters B (s.antEnd n) := by
  have k : z.Alters B (s.set (F.STK_SRC_STAT_ANT n) 0) := .set h _ stk (blk_stkSrcStat hn)
  exact k.setStk n rfl

theorem State.Alters.stackPgOff (h : z.Alters B s) {n : Nat} (hn : n < 16) (lost : Bool) (stk : 3 ∈ B) (seq : 5 ∈ B) :
    z.Alters B (s.stackPgOff n lost) := by
  have k : z.Alters B ((s.set (F.STK_STAT_PG n) 0).antEnd n) := .antEnd (.set h _ stk (blk_stkStat hn)) hn stk
  unfold State.stackPgOff
  exact .ite _ (.refreshRaw (.ite _ (.set k _ stk (blk_stkStat hn)) k) seq) h

theorem State.Alters.shedRest (h : z.Alters B s) {n : Nat} (hn : n < 16) (stk : 3 ∈ B) : z.Alters B (s.shedRest n) := by
  have k : z.Alters B (s.set (F.STK_STAT_HOLD n) 0) := .set h _ stk (blk_stkStat hn)
  exact k.setStk n rfl

theorem State.Alters.stackKill (h : z.Alters B s) {n : Nat} (hn : n < 16) (til : 2 ∈ B) (stk : 3 ∈ B) (seq : 5 ∈ B) : z.Alters B (s.stackKill n) := by
  unfold State.stackKill
  extract_lets s1 s2
  have k1 : z.Alters B s1 := .set (.set (.set (.set (h.stackPgOff hn false stk seq) _ stk (blk_stkStat hn)) _ stk (blk_stkStat hn)) _ stk
    (blk_stkStat hn)) _ stk (blk_stkStat hn)
  have k2 : z.Alters B s2 := .shedRest (.set (.set (.set k1 _ stk (blk_stkStat hn)) _ stk (blk_stkStat hn)) _ stk (blk_stkSrcStat hn)) hn stk
  refine .tilesOff (.antEnd ?_ hn stk) n til
  exact k2.setStk n rfl

theorem State.Alters.ldoOff (h : z.Alters B s) {n : Nat} (hn : n < 8) (out : 6 ∈ B) : z.Alters B (s.ldoOff n) := by
  unfold State.ldoOff
  refine .set (.set (.set ?_ _ out (blk_ldoStat hn)) _ out (blk_ldoStat hn)) _ out (blk_ldoStat hn)
  exact h.same rfl rfl

theorem State.Alters.ldoClear (h : z.Alters B s) (n : Nat) : z.Alters B (s.ldoClear n) := h.same rfl rfl

theorem State.Alters.lswOff (h : z.Alters B s) {n : Nat} (hn : n < 6) (out : 6 ∈ B) : z.Alters B (s.lswOff n) := by
  unfold State.lswOff
  exact .set (.set (.set h _ out (blk_lswStat hn)) _ out (blk_lswStat hn)) _ out (blk_lswStat hn)

theorem State.Alters.lswClear (h : z.Alters B s) (n : Nat) : z.Alters B (s.lswClear n) := h.same rfl rfl

theorem State.Alters.setDomState (h : z.Alters B s) {d : Nat} (hd : d < 12) (x : DomState) (seq : 5 ∈ B) : z.Alters B (s.setDomState d x) := by
  unfold State.setDomState
  refine .set ?_ _ seq (blk_domStat hd)
  exact h.same rfl rfl

theorem State.Alters.driveEnables (h : z.Alters B s) (d : Nat) (b : Bool) : z.Alters B (s.driveEnables d b) := by
  refine forEach_induction _ _ (fun n _ t k => .ite _ ?_ k) h
  exact k.same rfl rfl

theorem State.Alters.domKill (h : z.Alters B s) {d : Nat} (hd : d < 12) (seq : 5 ∈ B) : z.Alters B (s.domKill d) := by
  unfold State.domKill
  extract_lets s1
  have k : z.Alters B s1 := .driveEnables (.set h _ seq rfl) d false
  exact .ite _ k (k.setDomState hd .off seq)

theorem State.Alters.outputsOff (h : z.Alters B s) (r colour : Nat) (til : 2 ∈ B) (stk : 3 ∈ B) (seq : 5 ∈ B) (out : 6 ∈ B) :
    z.Alters B (s.outputsOff r colour) := by
  unfold State.outputsOff
  extract_lets s1 s2 s3 s4
  have k1 : z.Alters B s1 := forEach_induction _ _ (fun _ m _ k => k.stackKill (List.mem_range.1 m) til stk seq) h
  have k2 : z.Alters B s2 := forEach_induction _ _ (fun _ m _ k => k.tileOff (List.mem_range.1 m) til) k1
  have k3 : z.Alters B s3 := forEach_induction _ _ (fun n m _ k => (k.ldoOff (List.mem_range.1 m) out).ldoClear n) k2
  have k4 : z.Alters B s4 := forEach_induction _ _ (fun n m _ k => (k.lswOff (List.mem_range.1 m) out).lswClear n) k3
  exact .refreshRaw (.guardsEnd (forEach_induction _ _ (fun _ m _ k => k.domKill (List.mem_range.1 m) seq) k4) r colour out) seq

/-! The charger. -/

theorem State.Alters.driveCode (h : z.Alters B s) (c : Nat) (b : Bool) : z.Alters B (s.driveCode c b) := h.same rfl rfl

theorem State.Alters.captureChanged (h : z.Alters B s) : z.Alters B s.captureChanged := h.same rfl rfl

theorem State.Alters.chgTiles (h : z.Alters B s) (til : 2 ∈ B) (pp : 7 ∈ B) : z.Alters B s.chgTiles := by
  unfold State.chgTiles
  extract_lets on l k s1
  have k1 : z.Alters B s1 := forEach_induction _ _
    (fun _ m _ k => .ite _ (k.tileOn (State.tilesOf_lt m) til) (k.tileOff (State.tilesOf_lt m) til)) h
  refine .ite _ k1 (.captureChanged (.set ?_ _ pp rfl))
  exact k1.same rfl rfl

theorem State.Alters.chgPin (h : z.Alters B s) : z.Alters B s.chgPin := by
  unfold State.chgPin
  exact .ite _ h (h.driveCode _ _)

theorem State.Alters.chgTo (h : z.Alters B s) (new : Nat) (til : 2 ∈ B) (pp : 7 ∈ B) : z.Alters B (s.chgTo new) := by
  unfold State.chgTo
  refine .ite _ h (.emit (.chgPin (.chgTiles (.set ?_ _ pp rfl) til pp)) _ _ _)
  exact h.same rfl rfl

theorem State.Alters.chgCheck (h : z.Alters B s) (til : 2 ∈ B) (pp : 7 ∈ B) : z.Alters B s.chgCheck := by
  unfold State.chgCheck
  refine .ite _ (.chgTo ?_ 3 til pp) ?_
  · exact h.same rfl rfl
  · exact h.same rfl rfl

/-! The frame timing unit, a download that is abandoned, the sequencer and the seats. -/

theorem State.Alters.frmIdle (h : z.Alters B s) (frm : 1 ∈ B) : z.Alters B s.frmIdle := by
  unfold State.frmIdle
  refine .set (.set ?_ _ frm rfl) _ frm rfl
  exact h.same rfl rfl

theorem State.Alters.secTry (h : z.Alters B s) : z.Alters B s.secTry := by
  unfold State.secTry
  split
  · refine .ite _ (.frameDone ?_ _) h
    exact h.same rfl rfl
  · exact h

theorem State.Alters.updTear (h : z.Alters B s) : z.Alters B s.updTear := by
  unfold State.updTear
  split
  · dsimp only
    split
    · exact h.same rfl rfl
    · split
      · exact h.same rfl rfl
      · exact h.same rfl rfl
  · exact h

theorem State.Alters.updAbandon (h : z.Alters B s) (upd : 18 ∈ B) : z.Alters B s.updAbandon := by
  unfold State.updAbandon
  have k : z.Alters B ((s.updTear.set F.UPD_STAT_PHASE 0).set F.UPD_STAT_BUSY 0) := .set (.set h.updTear _ upd rfl) _ upd rfl
  refine .ite _ (.secTry (.frameDone ?_ _)) h
  exact k.same rfl rfl

theorem State.Alters.seqHalt (h : z.Alters B s) (seq : 5 ∈ B) : z.Alters B s.seqHalt := by
  have k : z.Alters B ((s.set F.SEQ_STAT_PHASE 9).set F.SEQ_STAT_RUN 0) := .set (.set h _ seq rfl) _ seq rfl
  exact k.same rfl rfl

theorem State.Alters.seatsStart (h : z.Alters B s) (wdg : 12 ∈ B) : z.Alters B s.seatsStart := by
  unfold State.seatsStart
  have k : z.Alters B ((s.set F.WDG_STAT_RUN 1).set F.WDG_STAT_PAUSED 0) := .set (.set h _ wdg rfl) _ wdg rfl
  refine forEach_induction _ _ (fun n m t k => .ite _ (.set (.set ?_ _ wdg ?_) _ wdg ?_) k) k
  · exact k.same rfl rfl
  · exact blk_seatStat (List.mem_range.1 m)
  · exact blk_seatStat (List.mem_range.1 m)

end Sys2Proof.Machine
end

section
/-! Entry to BLACK (R347): every output is off, and what ran has halted. -/

namespace Sys2Proof.Machine

variable {s t : State}

theorem State.get_set_of_reg_ne (s : State) {f g : FRef} (v : Nat) (h : g.key / 32 ≠ f.key / 32) : (s.set f v).get g = s.get g :=
  State.get_set_of_ne s v fun k => h (by rw [k])

/-- Every output is off: stacks, tiles, regulators, switches and guarded drivers. -/
structure State.OutputsDown (s : State) : Prop where
  stackEn : ∀ n, n < 16 → s.get (F.STK_STAT_EN n) = 0
  tiles : ∀ k, k < 48 → s.get (F.TIL_STAT_HIZ k) = 1 ∧ s.get (F.TIL_STAT_ACTIVE k) = 0
  regulators : ∀ n, n < 8 → s.get (F.OUT_LDO_STAT_EN n) = 0
  switches : ∀ n, n < 6 → s.get (F.OUT_LSW_STAT_EN n) = 0
  guards : ∀ g, g < 2 → s.flag (F.OUT_G_STAT_ON g) = false

/-- They stay off where the registers of tiles, stacks and outputs stay as they are. -/
theorem State.OutputsDown.of_get (h : s.OutputsDown) (k : ∀ f : FRef, f.blk = 2 ∨ f.blk = 3 ∨ f.blk = 6 → t.get f = s.get f) : t.OutputsDown where
  stackEn n hn := (k _ (.inr (.inl (blk_stkStat hn)))).trans (h.stackEn n hn)
  tiles i hi := ⟨(k _ (.inl (blk_tileStat hi))).trans (h.tiles i hi).1, (k _ (.inl (blk_tileStat hi))).trans (h.tiles i hi).2⟩
  regulators n hn := (k _ (.inr (.inr (blk_ldoStat hn)))).trans (h.regulators n hn)
  switches n hn := (k _ (.inr (.inr (blk_lswStat hn)))).trans (h.switches n hn)
  guards g hg := by
    rw [State.flag, k _ (.inr (.inr (blk_guardStat hg)))]
    exact h.guards g hg

theorem State.OutputsDown.of_alters {B : List Nat} (h : s.OutputsDown) (k : s.Alters B t) (til : 2 ∉ B) (stk : 3 ∉ B) (out : 6 ∉ B) : t.OutputsDown := by
  refine h.of_get fun f hf => k.regs f ?_
  rcases hf with hf | hf | hf <;> rw [hf] <;> assumption

/-! Stacks. -/

theorem State.antEnd_get_en (s : State) (m n : Nat) : (s.antEnd m).get (F.STK_STAT_EN n) = s.get (F.STK_STAT_EN n) := by
  refine State.get_set_of_ne s 0 ?_
  change (0x0C1C + 64 * n) * 32 + 15 ≠ (0x0C3C + 64 * m) * 32 + 15
  omega

theorem State.refreshRaw_get (s : State) {f : FRef} (h : f.blk ≠ 5) : s.refreshRaw.get f = s.get f :=
  ((State.Alters.refl s [5]).refreshRaw (by decide)).regs f (by simpa using h)

theorem State.tilesOff_get (s : State) (u : Nat) {f : FRef} (h : f.blk ≠ 2) : (s.tilesOff u).get f = s.get f :=
  ((State.Alters.refl s [2]).tilesOff u (by decide)).regs f (by simpa using h)

/-- A field of `STK_STAT` other than `EN` leaves every stack's `EN`. -/
theorem State.get_en_set_stkStat (s : State) (m n k w r v : Nat) (hk : k < 32) (h : k ≠ 15) :
    (s.set (fr (0x0C1C + 64 * m) k w r) v).get (F.STK_STAT_EN n) = s.get (F.STK_STAT_EN n) := by
  refine State.get_set_of_ne s v ?_
  change (0x0C1C + 64 * n) * 32 + 15 ≠ (0x0C1C + 64 * m) * 32 + k
  omega

theorem State.get_en_set_stkSrcStat (s : State) (m n k w r v : Nat) (hk : k < 32) :
    (s.set (fr (0x0C3C + 64 * m) k w r) v).get (F.STK_STAT_EN n) = s.get (F.STK_STAT_EN n) := by
  refine State.get_set_of_ne s v ?_
  change (0x0C1C + 64 * n) * 32 + 15 ≠ (0x0C3C + 64 * m) * 32 + k
  omega

theorem State.stackPgOff_get_en (s : State) (m : Nat) (lost : Bool) {n : Nat} (hn : n < 16) :
    (s.stackPgOff m lost).get (F.STK_STAT_EN n) = s.get (F.STK_STAT_EN n) := by
  have seq : (F.STK_STAT_EN n).blk ≠ 5 := by rw [blk_stkStat hn]; decide
  unfold State.stackPgOff
  split
  · dsimp only
    rw [State.refreshRaw_get _ seq]
    split
    · rw [State.get_en_set_stkStat _ _ _ _ _ _ _ (by decide) (by decide), State.antEnd_get_en,
        State.get_en_set_stkStat _ _ _ _ _ _ _ (by decide) (by decide)]
    · rw [State.antEnd_get_en, State.get_en_set_stkStat _ _ _ _ _ _ _ (by decide) (by decide)]
  · rfl

theorem State.shedRest_get_en (s : State) (m n : Nat) : (s.shedRest m).get (F.STK_STAT_EN n) = s.get (F.STK_STAT_EN n) :=
  (State.get_setStk _ _ _ _).trans (State.get_en_set_stkStat s m n _ _ _ 0 (by decide) (by decide))

/-- A stack that is killed is disabled, and no other is enabled by it. -/
theorem State.stackKill_get_en (s : State) (m : Nat) {n : Nat} (hn : n < 16) :
    (s.stackKill m).get (F.STK_STAT_EN n) = if n = m then 0 else s.get (F.STK_STAT_EN n) := by
  have til : (F.STK_STAT_EN n).blk ≠ 2 := by rw [blk_stkStat hn]; decide
  have en : ((s.stackPgOff m false).set (F.STK_STAT_EN m) 0).get (F.STK_STAT_EN n) = if n = m then 0 else s.get (F.STK_STAT_EN n) := by
    split
    case isTrue h => exact h ▸ State.get_set _ _ 0
    case isFalse h =>
      rw [State.get_set_of_ne, State.stackPgOff_get_en s m false hn]
      change (0x0C1C + 64 * n) * 32 + 15 ≠ (0x0C1C + 64 * m) * 32 + 15
      omega
  unfold State.stackKill
  extract_lets s1 s2
  rw [State.tilesOff_get _ _ til, State.antEnd_get_en, State.get_setStk, State.shedRest_get_en,
    State.get_en_set_stkSrcStat _ _ _ _ _ _ _ (by decide), State.get_en_set_stkStat _ _ _ _ _ _ _ (by decide) (by decide),
    State.get_en_set_stkStat _ _ _ _ _ _ _ (by decide) (by decide), State.get_en_set_stkStat _ _ _ _ _ _ _ (by decide) (by decide),
    State.get_en_set_stkStat _ _ _ _ _ _ _ (by decide) (by decide), State.get_en_set_stkStat _ _ _ _ _ _ _ (by decide) (by decide), en]

/-! Tiles. -/

/-- Tile `k` is high-impedance and out of the turn order. -/
def State.tileDown (s : State) (k : Nat) : Prop := s.get (F.TIL_STAT_HIZ k) = 1 ∧ s.get (F.TIL_STAT_ACTIVE k) = 0

theorem State.tileOff_down (s : State) (k : Nat) : (s.tileOff k).tileDown k := by
  refine ⟨State.get_set _ _ 1, (State.get_set_of_ne _ 1 ?_).trans (State.get_set _ _ 0)⟩
  change (0x0800 + 16 * k) * 32 + 7 ≠ (0x0800 + 16 * k) * 32 + 6
  omega

theorem State.tileDown.tileOff {k : Nat} (h : s.tileDown k) (m : Nat) : (s.tileOff m).tileDown k := by
  by_cases e : m = k
  · exact e ▸ s.tileOff_down m
  · have apart : ∀ a b, a < 32 → b < 32 → ∀ w r w' r', (fr (0x0800 + 16 * k) a w r).key ≠ (fr (0x0800 + 16 * m) b w' r').key := by
      intro a b ha hb w r w' r'
      change (0x0800 + 16 * k) * 32 + a ≠ (0x0800 + 16 * m) * 32 + b
      omega
    unfold State.tileOff State.tileDown
    rw [State.get_set_of_ne _ _ (apart _ _ (by decide) (by decide) _ _ _ _), State.get_set_of_ne _ _ (apart _ _ (by decide) (by decide) _ _ _ _),
      State.get_set_of_ne _ _ (apart _ _ (by decide) (by decide) _ _ _ _), State.get_set_of_ne _ _ (apart _ _ (by decide) (by decide) _ _ _ _)]
    exact h

/-! Regulators, switches and guarded drivers. -/

theorem State.ldoOff_get (s : State) (n : Nat) {f : FRef} (h : f.key / 32 ≠ 0x1820 + 4 * n) : (s.ldoOff n).get f = s.get f := by
  have apart : ∀ k, k < 32 → ∀ w r, f.key / 32 ≠ (fr (0x1820 + 4 * n) k w r).key / 32 := by
    intro k hk w r
    change _ ≠ ((0x1820 + 4 * n) * 32 + k) / 32
    omega
  unfold State.ldoOff
  dsimp only
  rw [State.get_set_of_reg_ne _ _ (apart _ (by decide) _ _), State.get_set_of_reg_ne _ _ (apart _ (by decide) _ _),
    State.get_set_of_reg_ne _ _ (apart _ (by decide) _ _)]
  rfl

theorem State.ldoOff_get_en (s : State) (n : Nat) : (s.ldoOff n).get (F.OUT_LDO_STAT_EN n) = 0 := by
  have apart : ∀ k, k ≠ 7 → ∀ w r, (F.OUT_LDO_STAT_EN n).key ≠ (fr (0x1820 + 4 * n) k w r).key := by
    intro k hk w r
    change (0x1820 + 4 * n) * 32 + 7 ≠ (0x1820 + 4 * n) * 32 + k
    omega
  unfold State.ldoOff
  dsimp only
  rw [State.get_set_of_ne _ _ (apart _ (by decide) _ _), State.get_set_of_ne _ _ (apart _ (by decide) _ _), State.get_set]
  rfl

theorem State.lswOff_get (s : State) (n : Nat) {f : FRef} (h : f.key / 32 ≠ 0x1860 + 4 * n) : (s.lswOff n).get f = s.get f := by
  have apart : ∀ k, k < 32 → ∀ w r, f.key / 32 ≠ (fr (0x1860 + 4 * n) k w r).key / 32 := by
    intro k hk w r
    change _ ≠ ((0x1860 + 4 * n) * 32 + k) / 32
    omega
  rw [State.lswOff, State.get_set_of_reg_ne _ _ (apart _ (by decide) _ _), State.get_set_of_reg_ne _ _ (apart _ (by decide) _ _),
    State.get_set_of_reg_ne _ _ (apart _ (by decide) _ _)]

theorem State.lswOff_get_en (s : State) (n : Nat) : (s.lswOff n).get (F.OUT_LSW_STAT_EN n) = 0 := by
  have apart : ∀ k, k ≠ 7 → ∀ w r, (F.OUT_LSW_STAT_EN n).key ≠ (fr (0x1860 + 4 * n) k w r).key := by
    intro k hk w r
    change (0x1860 + 4 * n) * 32 + 7 ≠ (0x1860 + 4 * n) * 32 + k
    omega
  rw [State.lswOff, State.get_set_of_ne _ _ (apart _ (by decide) _ _), State.get_set_of_ne _ _ (apart _ (by decide) _ _), State.get_set]
  rfl

theorem State.guardEnd_get (s : State) (g r colour : Nat) {f : FRef} (h : f.key / 32 ≠ 0x1888 + 4 * g) : (s.guardEnd g r colour).get f = s.get f := by
  have apart : ∀ k, k < 32 → ∀ w x, f.key / 32 ≠ (fr (0x1888 + 4 * g) k w x).key / 32 := by
    intro k hk w x
    change _ ≠ ((0x1888 + 4 * g) * 32 + k) / 32
    omega
  unfold State.guardEnd
  split
  · dsimp only
    rw [State.emitC_get, State.get_set_of_reg_ne _ _ (apart _ (by decide) _ _), State.get_set_of_reg_ne _ _ (apart _ (by decide) _ _)]
    rfl
  · rfl

theorem State.guardEnd_flag_on (s : State) (g r colour : Nat) : (s.guardEnd g r colour).flag (F.OUT_G_STAT_ON g) = false := by
  unfold State.guardEnd
  split
  · dsimp only
    rw [State.flag, State.emitC_get, State.get_set_of_ne, State.get_set]
    · rfl
    · change (0x1888 + 4 * g) * 32 + 7 ≠ (0x1888 + 4 * g) * 32 + 8
      omega
  case isFalse h => exact Bool.eq_false_iff.2 h

theorem State.guardsEnd_get (s : State) (r colour : Nat) {f : FRef} (h0 : f.key / 32 ≠ 0x1888) (h1 : f.key / 32 ≠ 0x188C) :
    (s.guardsEnd r colour).get f = s.get f := by
  rw [State.guardsEnd, State.guardEnd_get _ 1 _ _ h1, State.guardEnd_get _ 0 _ _ h0]

theorem State.guardsEnd_flag_on (s : State) (r colour : Nat) {g : Nat} (hg : g < 2) : (s.guardsEnd r colour).flag (F.OUT_G_STAT_ON g) = false := by
  obtain rfl | rfl : g = 0 ∨ g = 1 := by omega
  · rw [State.guardsEnd, State.flag, State.guardEnd_get _ 1 _ _ (by decide)]
    exact s.guardEnd_flag_on 0 r colour
  · exact State.guardEnd_flag_on _ 1 r colour

theorem stkStat_reg_ne {n k w r : Nat} (hn : n < 16) (a : Nat) (ha : 0x1000 ≤ a) (hk : k < 32 := by decide) :
    (fr (0x0C1C + 64 * n) k w r).key / 32 ≠ a := by
  change ((0x0C1C + 64 * n) * 32 + k) / 32 ≠ a
  omega

theorem tileStat_reg_lt {t k w r : Nat} (ht : t < 48) (hk : k < 32 := by decide) : (fr (0x0800 + 16 * t) k w r).key / 32 < 0x1000 := by
  change ((0x0800 + 16 * t) * 32 + k) / 32 < 0x1000
  omega

theorem ldoStat_reg {n k w r : Nat} (hk : k < 32) : (fr (0x1820 + 4 * n) k w r).key / 32 = 0x1820 + 4 * n := by
  change ((0x1820 + 4 * n) * 32 + k) / 32 = _
  omega

theorem lswStat_reg {n k w r : Nat} (hk : k < 32) : (fr (0x1860 + 4 * n) k w r).key / 32 = 0x1860 + 4 * n := by
  change ((0x1860 + 4 * n) * 32 + k) / 32 = _
  omega

/-- After the loop over the outputs and the end of every guarded assertion all outputs are off (R347). -/
theorem State.outputsOff_down (s : State) (r colour : Nat) : (s.outputsOff r colour).OutputsDown := by
  unfold State.outputsOff
  extract_lets s1 s2 s3 s4
  have k2 : s1.Alters [2] s2 := forEach_induction _ _ (fun _ m _ k => k.tileOff (List.mem_range.1 m) (by decide)) (.refl _ _)
  have k3 : s2.Alters [6] s3 := forEach_induction _ _ (fun n m _ k => (k.ldoOff (List.mem_range.1 m) (by decide)).ldoClear n) (.refl _ _)
  have k4 : s3.Alters [6] s4 := forEach_induction _ _ (fun n m _ k => (k.lswOff (List.mem_range.1 m) (by decide)).lswClear n) (.refl _ _)
  have k5 : s4.Alters [5] (forEach (List.range 12) (fun d t => t.domKill d) s4) :=
    forEach_induction _ _ (fun _ m _ k => k.domKill (List.mem_range.1 m) (by decide)) (.refl _ _)
  have last : ∀ f : FRef, f.blk ≠ 5 → f.key / 32 ≠ 0x1888 → f.key / 32 ≠ 0x188C →
      (((forEach (List.range 12) (fun d t => t.domKill d) s4).guardsEnd r colour).refreshRaw).get f = s4.get f := fun f hf h0 h1 => by
    rw [State.refreshRaw_get _ hf, State.guardsEnd_get _ _ _ h0 h1, k5.regs f (by simpa using hf)]
  constructor
  case stackEn =>
    intro n hn
    have blk : (F.STK_STAT_EN n).blk = 3 := blk_stkStat hn
    have killed : s1.get (F.STK_STAT_EN n) = 0 :=
      forEach_establishes (P := fun t => t.get (F.STK_STAT_EN n) = 0) (List.mem_range.2 hn)
        (fun t => by rw [State.stackKill_get_en t n hn, if_pos rfl]) fun m _ t h => by rw [State.stackKill_get_en t m hn, h, ite_self]
    rw [last _ (by rw [blk]; decide) (stkStat_reg_ne hn _ (by decide)) (stkStat_reg_ne hn _ (by decide)), k4.regs _ (by rw [blk]; decide),
      k3.regs _ (by rw [blk]; decide), k2.regs _ (by rw [blk]; decide), killed]
  case tiles =>
    intro k hk
    have down : s2.tileDown k :=
      forEach_establishes (P := fun t => t.tileDown k) (List.mem_range.2 hk) (fun t => t.tileOff_down k) fun m _ t h => h.tileOff m
    have kept : ∀ f : FRef, f.blk = 2 → f.key / 32 < 0x1000 →
        (((forEach (List.range 12) (fun d t => t.domKill d) s4).guardsEnd r colour).refreshRaw).get f = s2.get f := fun f hf low => by
      rw [last f (by rw [hf]; decide) (by omega) (by omega), k4.regs f (by rw [hf]; decide), k3.regs f (by rw [hf]; decide)]
    rw [kept _ (blk_tileStat hk) (tileStat_reg_lt hk), kept _ (blk_tileStat hk) (tileStat_reg_lt hk)]
    exact down
  case regulators =>
    intro n hn
    have off : s3.get (F.OUT_LDO_STAT_EN n) = 0 :=
      forEach_establishes (P := fun t => t.get (F.OUT_LDO_STAT_EN n) = 0) (List.mem_range.2 hn) (fun t => t.ldoOff_get_en n) fun m _ t h => by
        by_cases e : n = m
        · exact e ▸ t.ldoOff_get_en n
        · exact (t.ldoOff_get m (by rw [ldoStat_reg (by decide)]; omega)).trans h
    have kept : s4.get (F.OUT_LDO_STAT_EN n) = s3.get (F.OUT_LDO_STAT_EN n) :=
      forEach_induction (P := fun t => t.get (F.OUT_LDO_STAT_EN n) = s3.get (F.OUT_LDO_STAT_EN n)) _ _
        (fun m hm t h => (t.lswOff_get m (by rw [ldoStat_reg (by decide)]; omega)).trans h) rfl
    rw [last _ (by rw [blk_ldoStat hn]; decide) (by rw [ldoStat_reg (by decide)]; omega)
      (by rw [ldoStat_reg (by decide)]; omega), kept, off]
  case switches =>
    intro n hn
    have off : s4.get (F.OUT_LSW_STAT_EN n) = 0 :=
      forEach_establishes (P := fun t => t.get (F.OUT_LSW_STAT_EN n) = 0) (List.mem_range.2 hn) (fun t => t.lswOff_get_en n) fun m _ t h => by
        by_cases e : n = m
        · exact e ▸ t.lswOff_get_en n
        · exact (t.lswOff_get m (by rw [lswStat_reg (by decide)]; omega)).trans h
    rw [last _ (by rw [blk_lswStat hn]; decide) (by rw [lswStat_reg (by decide)]; omega) (by rw [lswStat_reg (by decide)]; omega), off]
  case guards =>
    intro g hg
    rw [State.flag, State.refreshRaw_get _ (by rw [blk_guardStat hg]; decide)]
    exact State.guardsEnd_flag_on _ r colour hg

end Sys2Proof.Machine
end

section
/-! Entry to BLACK as a whole (R347), and raisings (R344 to R346). -/

namespace Sys2Proof.Machine

variable {s t : State}

/-- The outputs off, the host in reset, and the frame timing unit, the nonces, a download and the sequencer stopped. -/
def State.blackHalted (s : State) : State := ((s.outputsOff 4 3).assertHostRst).frmIdle.dropNonces.updAbandon.seqHalt

/-- The device state becomes BLACK, from `from_`; pins and the push frame in progress are released. -/
def State.blackMode (s : State) (from_ : Mode) : State :=
  { s with
    dev := { s.dev with mode := .black, blackFromBoot := decide (from_ = Mode.boot), wakeLatch := 0, gpioDrive := 0 },
    evt := { s.evt with pushHeld := false, pushAt := none } }

/-- BLACK has been entered for `src`; the charger has not followed yet. -/
def State.blackEntered (s : State) (src : Nat) : State :=
  ((((s.blackHalted.blackMode s.dev.mode).set F.FLT_STAT_BLACK_SRC src).set F.ENG_STAT_ACTIVE 0).set F.TWB_CTL_STAT_BUSY 0).coreWdgRestart

/-- The seats start in a PARK that ends, and the gauge's interval with it; in a BOOT that ends the gauge's time of storing begins. -/
def State.blackSettled (s : State) (from_ : Mode) : State :=
  if from_ = .park then s.seatsStart.gaugeHand else if from_ = .boot then s.setGg { s.gg with storedAt := s.now } else s

theorem State.enterBlack_eq (s : State) (src : Nat) :
    s.enterBlack src = (((s.blackEntered src).chgCheck.blackSettled s.dev.mode).logTokensFill).evidencePush := by
  unfold State.enterBlack State.blackSettled State.blackEntered State.blackMode State.blackHalted
  with_reducible rfl

theorem State.Alters.setGg {z : State} {B : List Nat} (h : z.Alters B s) (g : Gauge) : z.Alters B (s.setGg g) := h.same rfl rfl

theorem State.Alters.blackSettled {z : State} {B : List Nat} (h : z.Alters B s) (m : Mode) (wdg : 12 ∈ B) : z.Alters B (s.blackSettled m) := by
  unfold State.blackSettled
  exact .ite _ (.setGg (h.seatsStart wdg) _) (.ite _ (h.setGg _) h)

/-- What follows the change to BLACK writes the credits, the tiles, the charger and the seats alone. -/
theorem State.enterBlack_alters (s : State) (src : Nat) : (s.blackEntered src).Alters [0, 2, 7, 12] (s.enterBlack src) := by
  rw [State.enterBlack_eq]
  exact .evidencePush (.logTokensFill (.blackSettled (.chgCheck (.refl _ _) (by decide) (by decide)) _ (by decide)) (by decide)) (by decide)

/-! What has halted. -/

theorem State.dropNonces_get (s : State) {f : FRef} (h : f.blk ≠ 15) : s.dropNonces.get f = s.get f :=
  State.get_set_of_ne _ 0 fun k => h (by rw [FRef.blk, k]; rfl)

theorem State.dropNonces_view (s : State) : s.dropNonces.coreView = { s.coreView with nonces := [] } := rfl

theorem State.assertHostRst_view (s : State) : s.assertHostRst.coreView = { s.coreView with released := false, armed := false } := rfl

theorem State.blackMode_get (s : State) (m : Mode) (f : FRef) : (s.blackMode m).get f = s.get f := rfl

theorem State.blackMode_view (s : State) (m : Mode) : (s.blackMode m).coreView = { s.coreView with mode := .black } := rfl

theorem State.set_view (s : State) (f : FRef) (v : Nat) : (s.set f v).coreView = s.coreView := rfl

theorem State.coreWdgRestart_get (s : State) (f : FRef) : s.coreWdgRestart.get f = s.get f := rfl

theorem State.coreWdgRestart_view (s : State) : s.coreWdgRestart.coreView = s.coreView := rfl

theorem State.seqHalt_get_phase (s : State) : s.seqHalt.get F.SEQ_STAT_PHASE = 9 :=
  (State.get_set_of_ne _ 0 (by decide)).trans (State.get_set s _ 9)

theorem State.seqHalt_get_run (s : State) : s.seqHalt.get F.SEQ_STAT_RUN = 0 := State.get_set _ _ 0

theorem State.frmIdle_get_state (s : State) : s.frmIdle.get F.FRM_STATE_STATE = 0 :=
  (State.get_set_of_ne _ 0 (by decide)).trans (State.get_set _ _ 0)

theorem State.assertHostRst_get (s : State) (f : FRef) : s.assertHostRst.get f = s.get f := rfl

/-- From the stop of the frame timing unit on, only registers of the blocks 5, 15 and 18 change. -/
theorem State.blackHalted_get_frmIdle (s : State) {f : FRef} (h : f.blk ∉ [5, 15, 18]) :
    s.blackHalted.get f = ((s.outputsOff 4 3).assertHostRst.frmIdle).get f := by
  obtain ⟨h5, h15, h18⟩ : f.blk ≠ 5 ∧ f.blk ≠ 15 ∧ f.blk ≠ 18 := by simpa using h
  rw [State.blackHalted, ((State.Alters.refl _ [5, 18]).updAbandon (by decide) |>.seqHalt (by decide)).regs f (by simp [h5, h18]),
    State.dropNonces_get _ h15]

theorem State.blackHalted_get_outputs (s : State) {f : FRef} (h : f.blk ∉ [1, 5, 15, 18]) : s.blackHalted.get f = (s.outputsOff 4 3).get f := by
  obtain ⟨h1, h⟩ : f.blk ≠ 1 ∧ f.blk ∉ [5, 15, 18] := by simpa using h
  rw [State.blackHalted_get_frmIdle s h, ((State.Alters.refl _ [1]).frmIdle (by decide)).regs f (by simpa using h1), State.assertHostRst_get]

theorem State.blackHalted_get (s : State) {f : FRef} (h : f.blk ∉ [1, 2, 3, 5, 6, 15, 18]) : s.blackHalted.get f = s.get f := by
  obtain ⟨h1, h2, h3, h5, h6, h15, h18⟩ : f.blk ≠ 1 ∧ f.blk ≠ 2 ∧ f.blk ≠ 3 ∧ f.blk ≠ 5 ∧ f.blk ≠ 6 ∧ f.blk ≠ 15 ∧ f.blk ≠ 18 := by simpa using h
  rw [State.blackHalted_get_outputs s (by simp [h1, h5, h15, h18])]
  exact ((State.Alters.refl s [2, 3, 5, 6]).outputsOff 4 3 (by decide) (by decide) (by decide) (by decide)).regs f (by simp [h2, h3, h5, h6])

theorem State.blackHalted_view (s : State) :
    s.blackHalted.coreView = { s.coreView with released := false, armed := false, nonces := [] } := by
  rw [State.blackHalted, ((State.Alters.refl _ [5, 18]).updAbandon (by decide) |>.seqHalt (by decide)).view, State.dropNonces_view,
    ((State.Alters.refl _ [1]).frmIdle (by decide)).view, State.assertHostRst_view,
    ((State.Alters.refl s [2, 3, 5, 6]).outputsOff 4 3 (by decide) (by decide) (by decide) (by decide)).view]

/-! What BLACK then shows. -/

theorem State.blackEntered_get_of_ne (s : State) (src : Nat) {f : FRef} (h : f.blk ∉ [4, 14]) (ne : f.key ≠ F.FLT_STAT_BLACK_SRC.key) :
    (s.blackEntered src).get f = s.blackHalted.get f := by
  obtain ⟨h4, h14⟩ : f.blk ≠ 4 ∧ f.blk ≠ 14 := by simpa using h
  have eng : f.key ≠ F.ENG_STAT_ACTIVE.key := fun k => h4 (by rw [FRef.blk, k]; rfl)
  have twb : f.key ≠ F.TWB_CTL_STAT_BUSY.key := fun k => h14 (by rw [FRef.blk, k]; rfl)
  rw [State.blackEntered, State.coreWdgRestart_get, State.get_set_of_ne _ _ twb, State.get_set_of_ne _ _ eng, State.get_set_of_ne _ _ ne,
    State.blackMode_get]

theorem State.blackEntered_get_src (s : State) (src : Nat) (h : src < 256) : (s.blackEntered src).get F.FLT_STAT_BLACK_SRC = src := by
  rw [State.blackEntered, State.coreWdgRestart_get, State.get_set_of_ne _ _ (by decide), State.get_set_of_ne _ _ (by decide), State.get_set]
  exact Nat.mod_eq_of_lt h

theorem State.blackEntered_view (s : State) (src : Nat) :
    (s.blackEntered src).coreView = { s.coreView with mode := .black, released := false, armed := false, nonces := [] } := by
  rw [State.blackEntered, State.coreWdgRestart_view, State.set_view, State.set_view, State.set_view, State.blackMode_view, s.blackHalted_view]

theorem State.enterBlack_view (s : State) (src : Nat) :
    (s.enterBlack src).coreView = { s.coreView with mode := .black, released := false, armed := false, nonces := [] } := by
  rw [(s.enterBlack_alters src).view, s.blackEntered_view]

/-- A field of the fault block other than `BLACK_SRC` stays through entry to BLACK. -/
theorem State.enterBlack_get_flt (s : State) (src : Nat) {f : FRef} (h : f.blk = 11) (ne : f.key ≠ F.FLT_STAT_BLACK_SRC.key) :
    (s.enterBlack src).get f = s.get f := by
  rw [(s.enterBlack_alters src).regs f (by rw [h]; decide), State.blackEntered_get_of_ne s src (by rw [h]; decide) ne,
    State.blackHalted_get s (by rw [h]; decide)]

/-! The charger in BLACK takes no tile. -/

theorem State.OutputsDown.chgTiles (h : s.OutputsDown) (m : s.inMode .run = false) : s.chgTiles.OutputsDown := by
  unfold State.chgTiles
  rw [m]
  simp only [Bool.and_false, Bool.false_and, Bool.false_eq_true, if_false, Nat.not_lt_zero]
  have k : State.OutputsDown (forEach (s.tilesOf 16) (fun t x => x.tileOff t) s) := by
    have only : s.Alters [2] (forEach (s.tilesOf 16) (fun t x => x.tileOff t) s) :=
      forEach_induction _ _ (fun _ m _ k => k.tileOff (State.tilesOf_lt m) (by decide)) (.refl _ _)
    refine ⟨fun n hn => ?_, fun k hk => ?_, fun n hn => ?_, fun n hn => ?_, fun g hg => ?_⟩
    · rw [only.regs _ (by rw [blk_stkStat hn]; decide), h.stackEn n hn]
    · exact forEach_induction (P := fun t => t.tileDown k) _ _ (fun m _ t d => d.tileOff m) (h.tiles k hk)
    · rw [only.regs _ (by rw [blk_ldoStat hn]; decide), h.regulators n hn]
    · rw [only.regs _ (by rw [blk_lswStat hn]; decide), h.switches n hn]
    · rw [State.flag, only.regs _ (by rw [blk_guardStat hg]; decide)]
      exact h.guards g hg
  split
  · exact k
  · refine k.of_get fun f hf => (State.get_set_of_ne _ 0 fun e => ?_ : State.get (State.set _ F.PP_CHG_STAT_TILES 0) f = _)
    have : f.blk = 7 := by rw [FRef.blk, e]; rfl
    omega

theorem State.OutputsDown.chgTo (h : s.OutputsDown) (m : s.inMode .run = false) (new : Nat) : (s.chgTo new).OutputsDown := by
  unfold State.chgTo
  extract_lets old was c s1
  have st : ((s.setChg c).set F.PP_CHG_STAT_STATE new).OutputsDown :=
    (h.of_get (t := s.setChg c) fun _ _ => rfl).of_alters ((State.Alters.refl _ [7]).set new (by decide) rfl) (by decide) (by decide) (by decide)
  have k : s1.OutputsDown := (st.chgTiles m).of_alters (B := []) (.chgPin (.refl _ _)) (by decide) (by decide) (by decide)
  split
  · exact h
  · exact k.of_alters (B := []) (.emit (.refl _ _) _ _ _) (by decide) (by decide) (by decide)

theorem State.OutputsDown.chgCheck (h : s.OutputsDown) (m : s.inMode .run = false) : s.chgCheck.OutputsDown := by
  unfold State.chgCheck
  extract_lets c s1
  have k : s1.OutputsDown := h.of_get fun _ _ => rfl
  split
  · exact k.chgTo m 3
  · exact k

/-- Every output is off once BLACK has been entered (R347). -/
theorem State.enterBlack_down (s : State) (src : Nat) : (s.enterBlack src).OutputsDown := by
  have halted : s.blackHalted.OutputsDown :=
    (s.outputsOff_down 4 3).of_get fun f hf => s.blackHalted_get_outputs (by rcases hf with hf | hf | hf <;> rw [hf] <;> decide)
  have entered : (s.blackEntered src).OutputsDown := halted.of_get fun f hf =>
    s.blackEntered_get_of_ne src (by rcases hf with hf | hf | hf <;> rw [hf] <;> decide) fun e => by
      have : f.blk = 11 := by rw [FRef.blk, e]; rfl
      omega
  have rest : (s.blackEntered src).chgCheck.Alters [0, 12] (s.enterBlack src) := by
    rw [State.enterBlack_eq]
    exact .evidencePush (.logTokensFill (.blackSettled (.refl _ _) _ (by decide)) (by decide)) (by decide)
  exact (entered.chgCheck rfl).of_alters rest (by decide) (by decide) (by decide)

end Sys2Proof.Machine

open Sys2Proof Sys2Proof.Machine

/-- Settles O23. -/
theorem blackTurnsOutputsOff : Obligations.BlackTurnsOutputsOff := by
  unfold Obligations.BlackTurnsOutputsOff
  refine ⟨fun s src hs => ?outputs, fun s src => ?halts⟩
  case outputs =>
    have down := s.enterBlack_down src
    refine ⟨congrArg CoreView.mode (s.enterBlack_view src), ?_, down.stackEn, down.tiles, down.regulators, down.switches, down.guards⟩
    rw [(s.enterBlack_alters src).regs _ (by decide), s.blackEntered_get_src src (by omega)]
  case halts =>
    have view := s.enterBlack_view src
    have after : ∀ f : FRef, f.blk ∉ [0, 2, 4, 7, 11, 12, 14] → (s.enterBlack src).get f = s.blackHalted.get f := fun f hf => by
      obtain ⟨h0, h2, h4, h7, h11, h12, h14⟩ :
        f.blk ≠ 0 ∧ f.blk ≠ 2 ∧ f.blk ≠ 4 ∧ f.blk ≠ 7 ∧ f.blk ≠ 11 ∧ f.blk ≠ 12 ∧ f.blk ≠ 14 := by simpa using hf
      rw [(s.enterBlack_alters src).regs f (by simp [h0, h2, h7, h12]), s.blackEntered_get_of_ne src (by simp [h4, h14])]
      exact fun e => h11 (by rw [FRef.blk, e]; rfl)
    refine ⟨congrArg CoreView.released view, congrArg CoreView.armed view, ?phase, ?run, ?frame, congrArg CoreView.nonces view,
      congrArg BufView.now (s.enterBlack_bufView src), congrArg CoreView.journal view, s.enterBlack_get_flt src (by decide) (by decide),
      s.enterBlack_get_flt src (by decide) (by decide)⟩
    case phase =>
      rw [after _ (by decide), State.blackHalted, State.seqHalt_get_phase]
    case run =>
      rw [after _ (by decide), State.blackHalted, State.seqHalt_get_run]
    case frame =>
      rw [after _ (by decide), State.blackHalted_get_frmIdle s (by decide), State.frmIdle_get_state]
end

section
/-! Raisings (R344 to R346): what the reaction of a colour leaves alone, and what a raised source then shows. -/

namespace Sys2Proof.Machine

variable {s t u : State}

/-- From `s` to `t` the fault block keeps its registers but for `BLACK_SRC` and `LOG_LOST`, and every count and detail. -/
structure State.FaultsKept (s t : State) : Prop where
  regs : ∀ f : FRef, f.blk = 11 → f.key ≠ F.FLT_STAT_BLACK_SRC.key → f.key ≠ F.FLT_STAT_LOG_LOST.key → t.get f = s.get f
  info : t.flt.info = s.flt.info

theorem State.FaultsKept.refl (s : State) : s.FaultsKept s := ⟨fun _ _ _ _ => rfl, rfl⟩

theorem State.FaultsKept.trans (h : s.FaultsKept t) (k : t.FaultsKept u) : s.FaultsKept u :=
  ⟨fun f b h1 h2 => (k.regs f b h1 h2).trans (h.regs f b h1 h2), k.info.trans h.info⟩

theorem State.Alters.faultsKept {B : List Nat} (h : s.Alters B t) (flt : 11 ∉ B) : s.FaultsKept t :=
  ⟨fun f b _ _ => h.regs f (by rwa [b]), congrArg CoreView.info h.view⟩

theorem State.enterBlack_faultsKept (s : State) (src : Nat) : s.FaultsKept (s.enterBlack src) :=
  ⟨fun _ b h _ => s.enterBlack_get_flt src b h, congrArg CoreView.info (s.enterBlack_view src)⟩

/-! The reaction of a colour (R346 to R349). -/

theorem State.guardsEnd_alters (s : State) (r colour : Nat) : s.Alters [6] (s.guardsEnd r colour) := .guardsEnd (.refl _ _) r colour (by decide)

/-- A reaction does nothing, or ends the guarded assertions, or is entry to BLACK, which colour 3 alone makes, in RUN, BOOT and PARK. -/
theorem State.react_cases (s : State) (src colour : Nat) :
    s.react src colour = s ∨ s.react src colour = s.guardsEnd 5 colour ∨
      (s.react src colour = s.enterBlack src ∧ colour = 3 ∧ (s.dev.mode = .run ∨ s.dev.mode = .boot ∨ s.dev.mode = .park)) := by
  unfold State.react
  split
  · exact .inl rfl
  · split
    · exact .inr (.inl rfl)
    · exact .inl rfl
  · split
    case isTrue black =>
      split
      case isTrue m =>
        refine .inr (.inr ⟨rfl, black, ?_⟩)
        simp only [State.inMode, decide_eq_true_eq] at m
        exact m.elim (fun b => .inr (.inl b)) fun m => m.elim .inl fun p => .inr (.inr p)
      case isFalse => exact .inl rfl
    case isFalse =>
      split
      · exact .inr (.inl rfl)
      · exact .inl rfl

theorem State.react_faultsKept (s : State) (src colour : Nat) : s.FaultsKept (s.react src colour) := by
  obtain h | h | ⟨h, -⟩ := s.react_cases src colour <;> rw [h]
  · exact .refl s
  · exact (s.guardsEnd_alters 5 colour).faultsKept (by decide)
  · exact s.enterBlack_faultsKept src

/-- A Black reaction leaves RUN, BOOT and PARK for BLACK. -/
theorem State.react_black {src : Nat} (m : s.dev.mode = .run ∨ s.dev.mode = .boot ∨ s.dev.mode = .park) : s.react src 3 = s.enterBlack src := by
  unfold State.react
  rcases m with m | m | m <;> simp [m, State.inMode]

theorem State.react_stage (s : State) (src colour : Nat) : (s.react src colour).dev.stage = s.dev.stage := by
  obtain h | h | ⟨h, -⟩ := s.react_cases src colour <;> rw [h]
  · exact congrArg CoreView.stage (s.guardsEnd_alters 5 colour).view
  · exact congrArg CoreView.stage (s.enterBlack_view src)

/-- In BLACK a reaction leaves the device state. -/
theorem State.react_mode_of_black {src colour : Nat} (m : s.dev.mode = .black) : (s.react src colour).dev.mode = .black := by
  obtain h | h | ⟨h, -⟩ := s.react_cases src colour <;> rw [h]
  · exact m
  · exact (congrArg CoreView.mode (s.guardsEnd_alters 5 colour).view).trans m
  · exact congrArg CoreView.mode (s.enterBlack_view src)

theorem State.emitC_dev (s : State) (block code colour : Nat) (p : List (Nat × Nat)) : (s.emitC block code colour p).dev = s.dev := by
  obtain ⟨e, h⟩ := s.emitC_frame block code colour p
  rw [h]

theorem State.guardEnd_dev (s : State) (g r colour : Nat) : (s.guardEnd g r colour).dev = s.dev := by
  unfold State.guardEnd
  split
  · rw [State.emitC_dev]
    rfl
  · rfl

/-- The reaction of a lower colour leaves the device block as it was. -/
theorem State.react_dev {src colour : Nat} (low : colour < 3) : (s.react src colour).dev = s.dev := by
  obtain h | h | ⟨-, black, -⟩ := s.react_cases src colour
  · rw [h]
  · rw [h, State.guardsEnd, State.guardEnd_dev, State.guardEnd_dev]
  · omega

/-! The fault log (R350, R351). -/

theorem State.jnlPush_dev (s : State) (c : Commit) : (s.jnlPush c).dev = s.dev := by
  unfold State.jnlPush
  split <;> rfl

/-- A body for the fault log, or the count of a lost one, changes neither the device block nor what a raising has written. -/
theorem State.logFault_frame (s : State) (src colour detail : Nat) (inj floor : Bool) :
    (s.logFault src colour detail inj floor).dev = s.dev ∧ s.FaultsKept (s.logFault src colour detail inj floor) := by
  have clock : s.msSinceRun.2.dev = s.dev ∧ s.FaultsKept s.msSinceRun.2 := by
    unfold State.msSinceRun
    split
    · exact ⟨rfl, .refl s⟩
    · exact ⟨rfl, fun _ _ _ _ => rfl, rfl⟩
  have body : ∀ (v : State) (b : List (List Byte)), ({ v with flt := { v.flt with bodies := b } } : State).dev = v.dev ∧
      v.FaultsKept { v with flt := { v.flt with bodies := b } } := fun v b => ⟨rfl, fun _ _ _ _ => rfl, rfl⟩
  have token : ∀ v : State, v.logToken.dev = v.dev ∧ v.FaultsKept v.logToken := fun v =>
    ⟨v.jnlPush_dev _, (State.Alters.jnlPush (.refl v [0]) _ (by decide)).faultsKept (by decide)⟩
  have lost : ∀ v : State, (v.incSatF F.FLT_STAT_LOG_LOST).dev = v.dev ∧ v.FaultsKept (v.incSatF F.FLT_STAT_LOG_LOST) := fun v =>
    ⟨rfl, fun _ _ _ h => State.get_set_of_ne v _ h, rfl⟩
  unfold State.logFault
  generalize s.msSinceRun = x at clock ⊢
  obtain ⟨ms, v⟩ := x
  obtain ⟨dev, kept⟩ := clock
  dsimp only
  split
  · have joined := body v (v.flt.bodies ++ [v.faultBody src colour detail inj floor ms])
    split
    · exact ⟨joined.1.trans dev, kept.trans joined.2⟩
    · exact ⟨(token _).1.trans (joined.1.trans dev), (kept.trans joined.2).trans (token _).2⟩
  · exact ⟨(lost v).1.trans dev, kept.trans (lost v).2⟩

/-! One raising. -/

/-- A raised source is counted, with its detail (R344). -/
def State.raiseCounted (s : State) (src detail : Nat) : State :=
  { s with flt := { s.flt with info := tset s.flt.info src (0, 0) (incSat (tget s.flt.info src (0, 0)).1 65535, detail % 65536) } }

/-- A raised source is counted, and a level source becomes active (R344, R345). -/
def State.raiseMarked (s : State) (src detail : Nat) : State :=
  if levelSource src then (s.raiseCounted src detail).setActive src true else s.raiseCounted src detail

/-- A source becomes pending, with the reaction, the record and the body of its colour (R344). -/
def State.raisePended (s : State) (src colour detail : Nat) (inj floor : Bool) : State :=
  let v := (((s.putBitF (pendField src) (src % 32) true).set F.FLT_STAT_LAST src).react src colour).emitC 0xB 1 colour
    [(src, 1), (colour, 1), (b2n inj + 2 * b2n floor, 1), (0, 1), (detail, 2)]
  if 1 ≤ colour then v.logFault src colour detail inj floor else v

theorem State.raiseMarked_dev (s : State) (src detail : Nat) : (s.raiseMarked src detail).dev = s.dev := by
  unfold State.raiseMarked
  split <;> rfl

theorem State.raiseMarked_info (s : State) (src detail : Nat) :
    (s.raiseMarked src detail).flt.info = tset s.flt.info src (0, 0) (incSat (tget s.flt.info src (0, 0)).1 65535, detail % 65536) := by
  unfold State.raiseMarked
  split <;> rfl

theorem State.raiseMarked_get (s : State) (src detail : Nat) {f : FRef} (h : f.key ≠ (actField src).key) : (s.raiseMarked src detail).get f = s.get f := by
  unfold State.raiseMarked
  split
  · exact State.get_set_of_ne (s.raiseCounted src detail) _ h
  · rfl

/-- Without a power-down in progress that a Black raising would end, this is a raising. -/
theorem State.raiseOne_eq {src : Nat} (detail : Nat) (inj : Bool) (core : s.coreRuns = true)
    (quiet : ¬ ((s.dev.stage = .powerDown ∨ s.dev.stage = .commit) ∧ s.effColour src = 3)) :
    s.raiseOne src detail inj =
      if s.pended src then
        if 2 ≤ s.effColour src then (s.raiseMarked src detail).react src (s.effColour src) else s.raiseMarked src detail
      else (s.raiseMarked src detail).raisePended src (s.effColour src) detail inj (s.floorRaised src) := by
  unfold State.raiseOne
  rw [if_neg quiet, if_pos core]
  unfold State.raisePended State.raiseMarked State.raiseCounted
  with_reducible rfl

theorem State.raiseOne_of_stopped {src detail : Nat} {inj : Bool} (core : s.coreRuns = false)
    (quiet : ¬ ((s.dev.stage = .powerDown ∨ s.dev.stage = .commit) ∧ s.effColour src = 3)) : s.raiseOne src detail inj = s := by
  unfold State.raiseOne
  rw [if_neg quiet, if_neg (Bool.eq_false_iff.1 core)]

/-- The pending bit of a source, with the number of the last raised one. -/
def State.pendSet (s : State) (src : Nat) : State := (s.putBitF (pendField src) (src % 32) true).set F.FLT_STAT_LAST src

theorem State.raisePended_faultsKept (s : State) (src colour detail : Nat) (inj floor : Bool) :
    (s.pendSet src).FaultsKept (s.raisePended src colour detail inj floor) := by
  have k : ∀ p, (s.pendSet src).FaultsKept (((s.pendSet src).react src colour).emitC 0xB 1 colour p) := fun p =>
    ((s.pendSet src).react_faultsKept src colour).trans ((State.Alters.emitC (.refl _ []) _ _ _ _).faultsKept (by decide))
  unfold State.raisePended
  rw [← State.pendSet]
  dsimp only
  split
  · exact (k _).trans (State.logFault_frame _ _ _ _ _ _).2
  · exact k _

theorem State.raisePended_dev (s : State) (src colour detail : Nat) (inj floor : Bool) :
    (s.raisePended src colour detail inj floor).dev = ((s.pendSet src).react src colour).dev := by
  unfold State.raisePended
  rw [← State.pendSet]
  dsimp only
  split
  · rw [(State.logFault_frame _ _ _ _ _ _).1, State.emitC_dev]
  · rw [State.emitC_dev]

/-! Bits of the pending and active registers. -/

theorem bitOf_eq_testBit (x i : Nat) : bitOf x i = x.testBit i := by
  rw [Nat.testBit_eq_decide_div_mod_eq]
  rfl

theorem bitOf_setBit (x i : Nat) : bitOf (setBit x i) i = true := by
  rw [bitOf_eq_testBit, setBit, Nat.testBit_or, Nat.testBit_two_pow_self, Bool.or_true]

theorem bitOf_mod {i w : Nat} (x : Nat) (h : i < w) : bitOf (x % 2 ^ w) i = bitOf x i := by
  rw [bitOf_eq_testBit, bitOf_eq_testBit, Nat.testBit_mod_two_pow, decide_eq_true h, Bool.true_and]

theorem pendField_width {src : Nat} (h : src < 41) : src % 32 < (pendField src).w := by
  unfold pendField
  split
  · exact Nat.mod_lt _ (by decide)
  · change src % 32 < 9
    omega

theorem actField_width {src : Nat} (h : src < 41) : src % 32 < (actField src).w := by
  unfold actField
  split
  · exact Nat.mod_lt _ (by decide)
  · change src % 32 < 9
    omega

theorem State.bitF_putBitF (s : State) {f : FRef} {i : Nat} (h : i < f.w) : (s.putBitF f i true).bitF f i = true := by
  rw [State.bitF, State.putBitF, State.get_set, bitOf_mod _ h]
  exact bitOf_setBit _ i

theorem pendField_facts (src : Nat) : (pendField src).blk = 11 ∧ (pendField src).key ≠ F.FLT_STAT_BLACK_SRC.key ∧
    (pendField src).key ≠ F.FLT_STAT_LOG_LOST.key ∧ (pendField src).key ≠ F.FLT_STAT_LAST.key ∧ ∀ k, (pendField src).key ≠ (actField k).key := by
  unfold pendField actField
  refine ⟨?_, ?_, ?_, ?_, fun k => ?_⟩ <;> (repeat' split) <;> decide

theorem actField_facts (src : Nat) : (actField src).blk = 11 ∧ (actField src).key ≠ F.FLT_STAT_BLACK_SRC.key ∧
    (actField src).key ≠ F.FLT_STAT_LOG_LOST.key ∧ (actField src).key ≠ F.FLT_STAT_LAST.key := by
  unfold actField
  refine ⟨?_, ?_, ?_, ?_⟩ <;> split <;> decide

/-! What a raising leaves. -/

theorem State.FaultsKept.injects (h : s.FaultsKept t) (k : Nat) : t.injects k = s.injects k := by
  rw [State.injects, State.injects, State.flag, State.flag, h.regs _ (by decide) (by decide) (by decide), h.regs _ (by decide) (by decide) (by decide)]

theorem State.FaultsKept.pended (h : s.FaultsKept t) (src : Nat) : t.pended src = s.pended src := by
  obtain ⟨blk, black, lost, -⟩ := pendField_facts src
  rw [State.pended, State.bitF, h.regs _ blk black lost]
  rfl

theorem State.FaultsKept.active (h : s.FaultsKept t) (src : Nat) : t.active src = s.active src := by
  obtain ⟨blk, black, lost, -⟩ := actField_facts src
  rw [State.active, State.bitF, h.regs _ blk black lost]
  rfl

theorem State.pendSet_get (s : State) (src : Nat) {f : FRef} (pend : f.key ≠ (pendField src).key) (last : f.key ≠ F.FLT_STAT_LAST.key) :
    (s.pendSet src).get f = s.get f := by
  rw [State.pendSet, State.get_set_of_ne _ _ last, State.putBitF, State.get_set_of_ne _ _ pend]

theorem State.pendSet_pended (s : State) {src : Nat} (h : src < 41) : (s.pendSet src).pended src = true := by
  obtain ⟨-, -, -, last, -⟩ := pendField_facts src
  rw [State.pended, State.bitF, State.pendSet, State.get_set_of_ne _ _ last]
  exact s.bitF_putBitF (pendField_width h)

/-- Every raising keeps the fault block as it was once the source is marked, and pending where it was not. -/
theorem State.raiseOne_kept {src : Nat} (detail : Nat) (inj : Bool) (core : s.coreRuns = true)
    (quiet : ¬ ((s.dev.stage = .powerDown ∨ s.dev.stage = .commit) ∧ s.effColour src = 3)) :
    ∃ v : State, (v = s.raiseMarked src detail ∧ s.pended src = true ∨ v = (s.raiseMarked src detail).pendSet src) ∧
      v.FaultsKept (s.raiseOne src detail inj) := by
  rw [State.raiseOne_eq detail inj core quiet]
  split
  case isTrue pend =>
    refine ⟨_, .inl ⟨rfl, pend⟩, ?_⟩
    split
    · exact State.react_faultsKept _ _ _
    · exact .refl _
  case isFalse => exact ⟨_, .inr rfl, State.raisePended_faultsKept _ _ _ _ _ _⟩

theorem State.raiseMarked_injects (s : State) (src detail k : Nat) : (s.raiseMarked src detail).injects k = s.injects k := by
  have act : ∀ f : FRef, f.key ≠ F.FLT_ACT0_ACT.key → f.key ≠ F.FLT_ACT1_ACT.key → f.key ≠ (actField src).key := fun f h0 h1 => by
    unfold actField
    split
    · exact h0
    · exact h1
  rw [State.injects, State.injects, State.flag, State.flag, State.raiseMarked_get _ _ _ (act _ (by decide) (by decide)),
    State.raiseMarked_get _ _ _ (act _ (by decide) (by decide))]

theorem State.pendSet_injects (s : State) (src k : Nat) : (s.pendSet src).injects k = s.injects k := by
  have pend : ∀ f : FRef, f.key ≠ F.FLT_PEND0_PEND.key → f.key ≠ F.FLT_PEND1_PEND.key → f.key ≠ (pendField src).key := fun f h0 h1 => by
    unfold pendField
    split
    · exact h0
    · exact h1
  rw [State.injects, State.injects, State.flag, State.flag, State.pendSet_get _ _ (pend _ (by decide) (by decide)) (by decide),
    State.pendSet_get _ _ (pend _ (by decide) (by decide)) (by decide)]

theorem State.raiseOne_injects {src : Nat} (detail : Nat) (inj : Bool) (core : s.coreRuns = true)
    (quiet : ¬ ((s.dev.stage = .powerDown ∨ s.dev.stage = .commit) ∧ s.effColour src = 3)) (k : Nat) :
    (s.raiseOne src detail inj).injects k = s.injects k := by
  obtain ⟨v, ⟨rfl, -⟩ | rfl, kept⟩ := State.raiseOne_kept detail inj core quiet
  · rw [kept.injects, State.raiseMarked_injects]
  · rw [kept.injects, State.pendSet_injects, State.raiseMarked_injects]

theorem State.raiseI_of_quiet {src detail : Nat} {inj : Bool} (h : (s.raiseOne src detail inj).injects 8 = false) :
    s.raiseI src detail inj = s.raiseOne src detail inj :=
  if_neg fun k => Bool.eq_false_iff.1 h k.1

/-- A raised source is pending, counted with its detail, and active where it is a level source. -/
theorem State.raiseOne_shown {src : Nat} (detail : Nat) (inj : Bool) (hs : src < 41) (core : s.coreRuns = true)
    (quiet : ¬ ((s.dev.stage = .powerDown ∨ s.dev.stage = .commit) ∧ s.effColour src = 3)) :
    (s.raiseOne src detail inj).pended src = true ∧
    tget (s.raiseOne src detail inj).flt.info src (0, 0) = (incSat (tget s.flt.info src (0, 0)).1 65535, detail % 65536) ∧
    (levelSource src = true → (s.raiseOne src detail inj).active src = true) := by
  obtain ⟨-, -, -, -, apart⟩ := pendField_facts src
  obtain ⟨-, -, -, actLast⟩ := actField_facts src
  have active : levelSource src = true → (s.raiseMarked src detail).active src = true := fun level => by
    rw [State.raiseMarked, if_pos level]
    exact State.bitF_putBitF _ (actField_width hs)
  have still : (s.raiseMarked src detail).pended src = s.pended src := by
    rw [State.pended, State.bitF, State.raiseMarked_get s _ _ (apart src)]
    rfl
  have same : ((s.raiseMarked src detail).pendSet src).active src = (s.raiseMarked src detail).active src := by
    rw [State.active, State.bitF, State.pendSet_get _ _ (fun k => apart src k.symm) actLast]
    rfl
  obtain ⟨v, hv, kept⟩ := State.raiseOne_kept detail inj core quiet
  have info : v.flt.info = (s.raiseMarked src detail).flt.info := by
    obtain ⟨rfl, -⟩ | rfl := hv
    · rfl
    · rfl
  refine ⟨?_, ?_, fun level => ?_⟩
  · rw [kept.pended]
    obtain ⟨rfl, pend⟩ | rfl := hv
    · rw [still, pend]
    · exact State.pendSet_pended _ hs
  · rw [kept.info, info, State.raiseMarked_info, tget_tset_same]
  · rw [kept.active]
    obtain ⟨rfl, -⟩ | rfl := hv
    · exact active level
    · rw [same, active level]

theorem State.coreRuns_of_mode (m : s.dev.mode = .run ∨ s.dev.mode = .boot ∨ s.dev.mode = .park ∨ s.dev.mode = .black) (h : s.dev.stage = .none) :
    s.coreRuns = true := by
  rcases m with m | m | m | m <;> simp [State.coreRuns, m, h]

theorem not_ending {src : Nat} (h : s.dev.stage = .none) : ¬ ((s.dev.stage = .powerDown ∨ s.dev.stage = .commit) ∧ s.effColour src = 3) := by
  simp [h]

/-- In BLACK, with no full reset in progress, a raising leaves the device state. -/
theorem State.raiseOne_mode_of_black {src : Nat} (detail : Nat) (inj : Bool) (m : s.dev.mode = .black) (h : s.dev.stage = .none) :
    (s.raiseOne src detail inj).dev.mode = .black := by
  have marked : (s.raiseMarked src detail).dev.mode = .black := (congrArg Dev.mode (s.raiseMarked_dev src detail)).trans m
  rw [State.raiseOne_eq detail inj (State.coreRuns_of_mode (.inr (.inr (.inr m))) h) (not_ending h)]
  split
  · split
    · exact State.react_mode_of_black marked
    · exact marked
  · rw [State.raisePended_dev]
    exact State.react_mode_of_black marked

/-- A Black source that is raised anew leads from RUN, BOOT and PARK to BLACK. -/
theorem State.raiseOne_black {src : Nat} (detail : Nat) (inj : Bool) (colour : s.effColour src = 3) (fresh : s.pended src = false)
    (h : s.dev.stage = .none) (m : s.dev.mode = .run ∨ s.dev.mode = .boot ∨ s.dev.mode = .park) :
    (s.raiseOne src detail inj).dev.mode = .black ∧ (s.raiseOne src detail inj).dev.stage = .none := by
  have core : s.coreRuns = true := State.coreRuns_of_mode (m.imp_right fun m => m.imp_right .inl) h
  have dev : ((s.raiseMarked src detail).pendSet src).dev = s.dev := s.raiseMarked_dev src detail
  have from_ : ((s.raiseMarked src detail).pendSet src).dev.mode = .run ∨ ((s.raiseMarked src detail).pendSet src).dev.mode = .boot ∨
    ((s.raiseMarked src detail).pendSet src).dev.mode = .park := by rwa [dev]
  rw [State.raiseOne_eq detail inj core (not_ending h), if_neg (Bool.eq_false_iff.1 fresh), State.raisePended_dev, colour, State.react_black from_]
  have view := ((s.raiseMarked src detail).pendSet src).enterBlack_view src
  exact ⟨congrArg CoreView.mode view, (congrArg CoreView.stage view).trans ((congrArg Dev.stage dev).trans h)⟩

theorem State.raiseOne_dev {src : Nat} (detail : Nat) (inj : Bool) (low : s.effColour src < 3) : (s.raiseOne src detail inj).dev = s.dev := by
  have quiet : ¬ ((s.dev.stage = .powerDown ∨ s.dev.stage = .commit) ∧ s.effColour src = 3) := fun k => by omega
  cases core : s.coreRuns with
  | false => rw [State.raiseOne_of_stopped core quiet]
  | true =>
    rw [State.raiseOne_eq detail inj core quiet]
    split
    · split
      · rw [State.react_dev low, State.raiseMarked_dev]
      · rw [State.raiseMarked_dev]
    · rw [State.raisePended_dev, State.react_dev low]
      exact s.raiseMarked_dev src detail

end Sys2Proof.Machine

open Sys2Proof Sys2Proof.Machine

/-- Settles O22. -/
theorem raisingsAndTheirColour : Obligations.RaisingsAndTheirColour := by
  unfold Obligations.RaisingsAndTheirColour
  refine ⟨?shown, ?black, ?lower⟩
  case shown =>
    intro s src d hs core idle free
    have quiet : (s.raiseOne src d false).injects 8 = false := (State.raiseOne_injects d false core (not_ending idle) 8).trans free
    rw [State.raise, State.raiseI_of_quiet quiet]
    exact State.raiseOne_shown d false hs core (not_ending idle)
  case black =>
    intro s src d _ colour fresh idle m
    obtain ⟨black, stage⟩ := State.raiseOne_black d false colour fresh idle m
    rw [State.raise, State.raiseI]
    split
    · exact State.raiseOne_mode_of_black 0 true black stage
    · exact black
  case lower =>
    intro s src d low free
    have quiet : (s.raiseOne src d false).injects 8 = false := by
      cases core : s.coreRuns with
      | false => rw [State.raiseOne_of_stopped core fun k => by omega, free]
      | true => rw [State.raiseOne_injects d false core (fun k => by omega) 8, free]
    rw [State.raise, State.raiseI_of_quiet quiet, State.raiseOne_dev d false low]
end

section
/-! Services, periods and expiries of the watchdogs (R355 to R367). -/

namespace Sys2Proof.Machine

/-! How a service counts (R357). -/

theorem State.serviceCause_of_first {s : State} {n : Nat} (first : (s.seat n).first = true) : s.serviceCause n = 0 :=
  if_pos first

theorem State.serviceCause_of_early {s : State} {n : Nat} (later : (s.seat n).first = false) (early : s.seatT n < s.seatOp n) :
    s.serviceCause n = 2 :=
  (if_neg (Bool.eq_false_iff.1 later)).trans (if_pos early)

theorem State.serviceCause_of_open {s : State} {n : Nat} (later : (s.seat n).first = false) (opened : s.seatOp n ≤ s.seatT n) :
    s.serviceCause n = if (s.seat n).served then 3 else 0 :=
  (if_neg (Bool.eq_false_iff.1 later)).trans (if_neg (Nat.not_lt.2 opened))

/-- Writing the tag of a service does not move the seat's window. -/
theorem State.seatOp_setTag (s : State) {n : Nat} (v : Nat) (hn : n < 8) : (s.set (F.WDG_SEAT_STAT_TAG n) v).seatOp n = s.seatOp n := by
  have period : (F.WDG_SEAT_CFG_PERIOD n).key ≠ (F.WDG_SEAT_STAT_TAG n).key := by
    change (0x3040 + 8 * n) * 32 + 0 ≠ (0x3044 + 8 * n) * 32 + 24
    omega
  have window : (fr 0x300C (3 * n) 3 0).key ≠ (F.WDG_SEAT_STAT_TAG n).key := by
    change 0x300C * 32 + 3 * n ≠ (0x3044 + 8 * n) * 32 + 24
    omega
  simp only [State.seatOp, State.seatPt, State.get_set_of_ne s v period, State.get_set_of_ne s v window]

/-! What a service does where no seat has violated at its tick (R357, R360). -/

section
variable {s : State} {n : Nat} (tag pc : Nat) (quiet : s.vioNow = false)
include quiet

theorem State.serve_of_quiet :
    s.serve n tag pc =
      (if s.wdg.stage2.isSome then
        { s.set (F.WDG_SEAT_STAT_TAG n) tag with wdg := { (s.set (F.WDG_SEAT_STAT_TAG n) tag).wdg with s2Services := incSat s.wdg.s2Services 255 } }
      else if (s.set (F.WDG_SEAT_STAT_TAG n) tag).serviceCause n ≠ 0 then
        (s.set (F.WDG_SEAT_STAT_TAG n) tag).violate [n] ((s.set (F.WDG_SEAT_STAT_TAG n) tag).serviceCause n) pc
      else if (s.seat n).first then (s.set (F.WDG_SEAT_STAT_TAG n) tag).putSeat n ⟨false, false, s.aoTicks, some s.aoTicks⟩
      else (s.set (F.WDG_SEAT_STAT_TAG n) tag).putSeat n { s.seat n with served := true, lastGood := some s.aoTicks }) := by
  have still : (s.set (F.WDG_SEAT_STAT_TAG n) tag).vioNow = false := quiet
  unfold State.serve
  extract_lets s1 x c again
  rw [if_neg fun h => Bool.eq_false_iff.1 still h.1]
  refine if_congr Iff.rfl rfl ?_
  rw [if_neg (Bool.eq_false_iff.1 still)]
  rfl

theorem State.serve_violates (alone : s.wdg.stage2 = none) (bad : (s.set (F.WDG_SEAT_STAT_TAG n) tag).serviceCause n ≠ 0) :
    s.serve n tag pc =
      (s.set (F.WDG_SEAT_STAT_TAG n) tag).violate [n] ((s.set (F.WDG_SEAT_STAT_TAG n) tag).serviceCause n) pc := by
  rw [s.serve_of_quiet tag pc quiet, if_neg (by rw [alone]; decide), if_pos bad]

theorem State.serve_counted (second : s.wdg.stage2.isSome = true) :
    s.serve n tag pc = { s.set (F.WDG_SEAT_STAT_TAG n) tag with
      wdg := { (s.set (F.WDG_SEAT_STAT_TAG n) tag).wdg with s2Services := incSat s.wdg.s2Services 255 } } := by
  rw [s.serve_of_quiet tag pc quiet, if_pos second]

theorem State.serve_first (alone : s.wdg.stage2 = none) (first : (s.seat n).first = true) :
    s.serve n tag pc = (s.set (F.WDG_SEAT_STAT_TAG n) tag).putSeat n ⟨false, false, s.aoTicks, some s.aoTicks⟩ := by
  have good : (s.set (F.WDG_SEAT_STAT_TAG n) tag).serviceCause n = 0 := State.serviceCause_of_first first
  rw [s.serve_of_quiet tag pc quiet, if_neg (by rw [alone]; decide), if_neg (not_not.2 good), if_pos first]

theorem State.serve_open (hn : n < 8) (alone : s.wdg.stage2 = none) (later : (s.seat n).first = false) (opened : s.seatOp n ≤ s.seatT n)
    (unserved : (s.seat n).served = false) :
    s.serve n tag pc = (s.set (F.WDG_SEAT_STAT_TAG n) tag).putSeat n { s.seat n with served := true, lastGood := some s.aoTicks } := by
  have good : (s.set (F.WDG_SEAT_STAT_TAG n) tag).serviceCause n = 0 := by
    have opened' : (s.set (F.WDG_SEAT_STAT_TAG n) tag).seatOp n ≤ (s.set (F.WDG_SEAT_STAT_TAG n) tag).seatT n := by
      rw [s.seatOp_setTag tag hn]
      exact opened
    exact (State.serviceCause_of_open (s := s.set (F.WDG_SEAT_STAT_TAG n) tag) later opened').trans (if_neg (Bool.eq_false_iff.1 unserved))
  rw [s.serve_of_quiet tag pc quiet, if_neg (by rw [alone]; decide), if_neg (not_not.2 good), if_neg (Bool.eq_false_iff.1 later)]

end

/-! A service word (R358). -/

section
variable {v : Word} {s : State} (open_ : s.writeOk 0x3004 = true) (bus : s.injects 4 = false)
include open_ bus

theorem exec_wdgService : exec (.wdgService v) s = .next (s.serviceWrite v.toNat) :=
  congrArg Host.Outcome.next (s.bus_quiet _ _ open_ bus)

theorem exec_wdgService_badKey
    (bad : bits v.toNat 16 16 ≠ 0x5EA7 ∨ 8 ≤ bits v.toNat 8 8 ∨ s.flag (F.WDG_SEAT_CFG_EN (bits v.toNat 8 8)) = false) :
    exec (.wdgService v) s = .next (s.incSatF F.WDG_STAT_BADKEY) := by
  rw [exec_wdgService open_ bus]
  refine congrArg _ (if_neg ?_)
  rintro ⟨key, seat, en⟩
  rcases bad with h | h | h
  · exact h key
  · exact Nat.not_lt.2 h seat
  · exact Bool.eq_false_iff.1 h en

section
variable (key : bits v.toNat 16 16 = 0x5EA7) (seat : bits v.toNat 8 8 < 8)
include key seat

theorem exec_wdgService_idle (en : s.flag (F.WDG_SEAT_CFG_EN (bits v.toNat 8 8)) = true) (stopped : s.seatRuns (bits v.toNat 8 8) = false)
    (quiet : s.vioNow = false) : exec (.wdgService v) s = .next s := by
  rw [exec_wdgService open_ bus]
  refine congrArg _ ((if_pos ⟨key, seat, en⟩).trans (if_neg ?_))
  rw [stopped, quiet]
  decide

theorem exec_wdgService_runs (runs : s.seatRuns (bits v.toNat 8 8) = true) :
    exec (.wdgService v) s = .next (({ s with draws := s.draws + 1 } : State).serve (bits v.toNat 8 8) (v.toNat % 256)
      ((Config.freeWord s.draws).toNat % 2 ^ 32)) := by
  have en : s.flag (F.WDG_SEAT_CFG_EN (bits v.toNat 8 8)) = true := (Bool.and_eq_true_iff.1 runs).2
  rw [exec_wdgService open_ bus]
  exact congrArg _ ((if_pos ⟨key, seat, en⟩).trans (if_pos (.inl runs)))

end
end

theorem exec_wdgEvidIdxWrite {v : Word} {s : State} (open_ : s.writeOk 0x3080 = true) (bus : s.injects 4 = false) :
    exec (.wdgEvidIdxWrite v) s = .next (s.evidIdxWrite v.toNat) :=
  congrArg Host.Outcome.next (s.bus_quiet _ _ open_ bus)

/-! Periods and expiries. -/

theorem State.seatPeriodEnd_of_least {s : State} {n : Nat} (pc : Nat)
    (least : ∀ m, m < 8 → s.seatRuns m = true → s.seatEnd n ≤ s.seatEnd m) :
    s.seatPeriodEnd n pc = (s.due (ofTicks (s.seatEnd n))).seatsRoll (s.seatEnd n) pc := by
  refine if_pos (List.all_eq_true.2 fun m hm => ?_)
  cases runs : s.seatRuns m
  · rfl
  · exact decide_eq_true (least m (List.mem_range.1 hm) runs)

theorem exec_secondPeriodEnd {s : State} {k len : Nat} (h : s.wdg.stage2 = some (k, len)) :
    exec .secondPeriodEnd s = .next ((s.due (ofTicks (k + len))).hostExpiry) := by
  change execSecondPeriodEnd s = _
  rw [execSecondPeriodEnd, h]

theorem exec_secondPeriodEnd_of_none {s : State} (h : s.wdg.stage2 = none) : exec .secondPeriodEnd s = .next s := by
  change execSecondPeriodEnd s = _
  rw [execSecondPeriodEnd, h]

theorem exec_coreWdgExpiry {s : State} {p : Nat} (pc : Word) (h : s.corePeriod = some p) :
    exec (.coreWdgExpiry pc) s = .next ((((s.due (ofTicks (s.wdg.coreServed + msTicks p))).evidenceLatch 2 0xFF 4 pc.toNat []).wdxStart).startReset
      F.SYS_RESET_CAUSE_CORE_WDG) := by
  change execCoreWdgExpiry pc s = _
  rw [execCoreWdgExpiry, h]

theorem exec_coreWdgExpiry_of_none {s : State} (pc : Word) (h : s.corePeriod = none) : exec (.coreWdgExpiry pc) s = .next s := by
  change execCoreWdgExpiry pc s = _
  rw [execCoreWdgExpiry, h]

/-- In a BLACK that began in BOOT the core does not serve its watchdog. -/
theorem exec_coreWdgService {s : State} {p : Nat} (h : s.corePeriod = some p) (serves : s.dev.mode ≠ .black ∨ s.dev.blackFromBoot = false) :
    exec .coreWdgService s = .next { s.due (ofTicks (s.wdg.coreServed + msTicks p / 4)) with
      wdg := { (s.due (ofTicks (s.wdg.coreServed + msTicks p / 4))).wdg with
        coreServed := (s.due (ofTicks (s.wdg.coreServed + msTicks p / 4))).aoTicks
        coreLast := some (s.due (ofTicks (s.wdg.coreServed + msTicks p / 4))).aoTicks } } := by
  change execCoreWdgService s = _
  rw [execCoreWdgService, h]
  refine congrArg _ (if_neg ?_)
  rintro ⟨black, boot⟩
  rcases serves with m | b
  · exact m (of_decide_eq_true black)
  · exact Bool.eq_false_iff.1 b boot

theorem exec_coreWdgService_of_none {s : State} (h : s.corePeriod = none ∨ (s.dev.mode = .black ∧ s.dev.blackFromBoot = true)) :
    exec .coreWdgService s = .next s := by
  change execCoreWdgService s = _
  unfold execCoreWdgService
  rcases h with h | ⟨black, boot⟩
  · rw [h]
  · split
    · exact congrArg _ (if_pos ⟨State.inMode_of_eq black, boot⟩)
    · rfl

/-- A latched snapshot that the journal does not hold yet is queued again where the journal works (R451). -/
theorem exec_evidenceRetry {s : State} {t : Nat} (mode : s.dev.mode = .run ∨ s.dev.mode = .black ∨ s.dev.mode = .recovery)
    (latched : s.wdg.latch.isSome = true) (free : s.evidenceQueued = false) (h : s.wdg.retryAt = some t) :
    exec .evidenceRetry s = .next ((s.due t).evidencePush) := by
  change execEvidenceRetry s = _
  rw [execEvidenceRetry, h]
  exact congrArg _ (if_pos ⟨mode.imp State.inMode_of_eq (Or.imp State.inMode_of_eq State.inMode_of_eq), latched, Bool.eq_false_iff.1 free⟩)

theorem exec_evidenceRetry_of_none {s : State} (h : s.wdg.retryAt = none) : exec .evidenceRetry s = .next s := by
  change execEvidenceRetry s = _
  rw [execEvidenceRetry, h]

/-! Seats whose periods end together (R357, R359). -/

/-- The seats whose periods end at tick `k`, and those of them that end unserved. -/
def State.seatsEnding (s : State) (k : Nat) : List Nat := (List.range 8).filter fun n => s.seatRuns n && decide (s.seatEnd n ≤ k)
def State.seatsMissed (s : State) (k : Nat) : List Nat := (s.seatsEnding k).filter fun n => (s.seat n).first || !(s.seat n).served

theorem State.mem_seatsEnding {s : State} {k n : Nat} : n ∈ s.seatsEnding k ↔ n < 8 ∧ s.seatRuns n = true ∧ s.seatEnd n ≤ k := by
  rw [State.seatsEnding, List.mem_filter, List.mem_range, Bool.and_eq_true, decide_eq_true_iff]

theorem State.violate_of_native {s : State} {n : Nat} {r : List Nat} (cause pc : Nat) (alone : s.wdg.stage2 = none)
    (native : s.flag F.WDG_CFG_COMPAT = false) :
    s.violate (n :: r) cause pc =
      (({ s with wdg := { s.wdg with vioTick := some s.aoTicks } } : State).evidenceLatch 0 n cause pc (n :: r)).hostExpiry := by
  refine (if_neg ?_).trans (if_neg (Bool.eq_false_iff.1 native))
  rw [alone]
  decide

/-- A seat that starts its next regular period with the tick at which its last one ended. -/
def State.seatRolled (s t : State) (n : Nat) : State := t.putSeat n { t.seat n with first := false, served := false, start := s.seatEnd n }

theorem State.seatsRoll_of_served {s : State} {k : Nat} (pc : Nat) (run : s.flag F.WDG_STAT_RUN = true) (none : s.seatsMissed k = []) :
    s.seatsRoll k pc = forEach (s.seatsEnding k) (fun n t => s.seatRolled t n) s := by
  change (if (s.violate (s.seatsMissed k) 1 pc).flag F.WDG_STAT_RUN then
    forEach (s.seatsEnding k) (fun n t => s.seatRolled t n) (s.violate (s.seatsMissed k) 1 pc) else _) = _
  rw [none]
  exact if_pos run

theorem State.putSeat_seat (s : State) (n : Nat) (x : Seat) : (s.putSeat n x).seat n = x := s.seat_setSeat n x

theorem State.putSeat_seat_of_ne (s : State) {n m : Nat} (x : Seat) (h : m ≠ n) : (s.putSeat n x).seat m = s.seat m := s.seat_setSeat_of_ne x h

theorem State.seatRolled_same (s t : State) (n : Nat) : (s.seatRolled t n).seat n = { t.seat n with first := false, served := false, start := s.seatEnd n } :=
  t.putSeat_seat n _

theorem State.seatRolled_keeps (s : State) {t : State} {n : Nat} (m : Nat) (h : (t.seat n).start = s.seatEnd n ∧ (t.seat n).served = false) :
    ((s.seatRolled t m).seat n).start = s.seatEnd n ∧ ((s.seatRolled t m).seat n).served = false := by
  by_cases same : n = m
  · subst same
    rw [State.seatRolled_same]
    exact ⟨rfl, rfl⟩
  · rw [State.seatRolled, t.putSeat_seat_of_ne _ same]
    exact h

theorem State.seatsRoll_rolls {s : State} {k n : Nat} (pc : Nat) (run : s.flag F.WDG_STAT_RUN = true) (none : s.seatsMissed k = [])
    (ends : n ∈ s.seatsEnding k) : ((s.seatsRoll k pc).seat n).start = s.seatEnd n ∧ ((s.seatsRoll k pc).seat n).served = false := by
  rw [State.seatsRoll_of_served pc run none]
  refine forEach_establishes (P := fun t => (t.seat n).start = s.seatEnd n ∧ (t.seat n).served = false) ends (fun t => ?_) (fun m _ t h => s.seatRolled_keeps m h)
  rw [State.seatRolled_same]
  exact ⟨rfl, rfl⟩

theorem State.seatsRoll_dev {s : State} {k : Nat} (pc : Nat) (run : s.flag F.WDG_STAT_RUN = true) (none : s.seatsMissed k = []) :
    (s.seatsRoll k pc).dev = s.dev := by
  rw [State.seatsRoll_of_served pc run none]
  exact forEach_induction (P := fun t => t.dev = s.dev) _ _ (fun _ _ _ h => h) rfl

end Sys2Proof.Machine

open Sys2Proof Sys2Proof.Machine

/-- Settles O24: each case of the watchdogs' commands by its own lemma above. -/
theorem watchdogCommands : Obligations.WatchdogCommands := by
  unfold Obligations.WatchdogCommands
  refine ⟨?_, ?_, fun v s w bad bus => exec_wdgService_badKey w bus bad, ?_, ?_, fun k len s => exec_secondPeriodEnd, ?_,
    fun pc p s => exec_coreWdgExpiry pc, fun s h => congrArg _ (if_pos h), fun t s => exec_evidenceRetry,
    fun s => exec_evidenceRetry_of_none, fun v s => exec_wdgEvidIdxWrite, ?_, ?_, fun s n => State.serviceCause_of_first,
    fun s n => State.serviceCause_of_early, fun s n later opened served => (State.serviceCause_of_open later opened).trans (if_pos served),
    fun v s w key seat en stopped quiet bus => exec_wdgService_idle w bus key seat en stopped quiet,
    fun pc s => exec_coreWdgExpiry_of_none pc, fun s => exec_coreWdgService_of_none, fun s => exec_secondPeriodEnd_of_none⟩
  · intro v s w key seat runs alone quiet first bus
    exact (exec_wdgService_runs w bus key seat runs).trans (congrArg _ (State.serve_first (s := { s with draws := s.draws + 1 }) _ _ quiet alone first))
  · intro v s w key seat runs alone quiet later opened unserved bus
    exact (exec_wdgService_runs w bus key seat runs).trans (congrArg _ (State.serve_open (s := { s with draws := s.draws + 1 }) _ _ quiet seat alone later opened unserved))
  · intro n pc s runs first least
    exact congrArg _ ((if_pos ⟨runs, first⟩).trans (State.seatPeriodEnd_of_least _ least))
  · intro n pc s runs later least
    exact congrArg _ ((if_pos ⟨runs, Bool.eq_false_iff.1 later⟩).trans (State.seatPeriodEnd_of_least _ least))
  · rintro p u s h serves rfl
    exact exec_coreWdgService h serves
  · rintro v c a s w key seat runs alone quiet bus rfl rfl bad
    exact (exec_wdgService_runs w bus key seat runs).trans (congrArg _ (State.serve_violates (s := { s with draws := s.draws + 1 }) _ _ quiet alone bad))
  · rintro v a s w key seat runs second quiet bus rfl
    exact (exec_wdgService_runs w bus key seat runs).trans (congrArg _ (State.serve_counted (s := { s with draws := s.draws + 1 }) _ _ quiet second))

/-- Settles O25: where no ending seat is left unserved `violate` does nothing, and each ending seat is rolled once, no later one touching it. -/
theorem seatsExpireTogether : Obligations.SeatsExpireTogether := by
  unfold Obligations.SeatsExpireTogether
  constructor
  · intro s k pc n r missed alone native
    rw [missed]
    exact State.violate_of_native 1 pc alone native
  · intro s k pc run served n hn runs ends
    have none : s.seatsMissed k = [] := by
      refine List.filter_eq_nil_iff.2 fun m hm bad => ?_
      obtain ⟨lt, mruns, mends⟩ := State.mem_seatsEnding.1 hm
      obtain ⟨later, done⟩ := served m lt mruns mends
      rw [later, done] at bad
      exact absurd bad (by decide)
    obtain ⟨start, fresh⟩ := State.seatsRoll_rolls pc run none (State.mem_seatsEnding.2 ⟨hn, runs, ends⟩)
    exact ⟨start, fresh, State.seatsRoll_dev pc run none⟩
end

section
/-! The ring and its registers: commits, push frames, consumption, arming, masks and level sources (R384 to R392). -/

namespace Sys2Proof.Machine

/-! Commits of buffered records (R385, R388). -/

section
variable {s : State} {r : Rec} {l : List Rec} (oldest : s.evt.buf = r :: l)
include oldest

theorem exec_recordCommit_of_credit (run : s.dev.mode = .run) (armed : s.evt.armed = true) (free : s.evt.pushHeld = false) (slot : 0 < s.ringFree)
    (credit : s.evt.pb.length < 4) :
    exec .recordCommit s = .next ((({ s with evt := { s.evt with
      buf := l, head := (s.evt.head + 1) % 32, pb := s.evt.pb ++ [r] } } : State).cross 9 0 |>.incWrapF F.EVT_PROD_PROD).fillOverflow.pushTry) := by
  change execRecordCommit s = _
  rw [execRecordCommit, oldest]
  exact (if_pos ⟨State.inMode_of_eq run, armed, Bool.eq_false_iff.1 free, slot⟩).trans (if_pos credit)

theorem exec_recordCommit_of_no_credit (run : s.dev.mode = .run) (armed : s.evt.armed = true) (free : s.evt.pushHeld = false)
    (slot : 0 < s.ringFree) (full : 4 ≤ s.evt.pb.length) : exec .recordCommit s = .next (s.set F.SYS_CREDIT_WAIT_EVP 1) := by
  change execRecordCommit s = _
  rw [execRecordCommit, oldest]
  exact (if_pos ⟨State.inMode_of_eq run, armed, Bool.eq_false_iff.1 free, slot⟩).trans (if_neg (Nat.not_lt.2 full))

theorem exec_recordCommit_of_closed (closed : s.dev.mode ≠ .run ∨ s.evt.armed = false ∨ s.evt.pushHeld = true ∨ s.ringFree ≤ 0) :
    exec .recordCommit s = .next s := by
  change execRecordCommit s = _
  rw [execRecordCommit, oldest]
  refine if_neg ?_
  rintro ⟨run, armed, free, slot⟩
  rcases closed with h | h | h | h
  · exact h (of_decide_eq_true run)
  · exact Bool.eq_false_iff.1 h armed
  · exact free h
  · exact Int.not_lt.2 h slot

end

theorem exec_recordCommit_of_empty {s : State} (none : s.evt.buf = []) : exec .recordCommit s = .next s := by
  change execRecordCommit s = _
  rw [execRecordCommit, none]

/-! Push frames (R384). -/

theorem State.pushTry_of_started {s : State} {k : Nat} (started : s.evt.pushAt = some k) : s.pushTry = s := by
  refine if_neg ?_
  rintro ⟨-, none, -⟩
  rw [started] at none
  cases none

theorem State.pushTry_of_held {s : State} (held : s.quietIn F.FRM_QUIET_CFG_EP_HOLD (s.evt.pushFree - s.now) = true) : s.pushTry = s :=
  if_neg fun h => h.2.2 held

theorem State.pushTry_of_free {s : State} (waits : s.evt.pb ≠ []) (idle : s.evt.pushAt = none)
    (free : s.quietIn F.FRM_QUIET_CFG_EP_HOLD (s.evt.pushFree - s.now) = false) :
    s.pushTry = { s with evt := { s.evt with pushAt := some (max s.now s.evt.pushFree) } } :=
  if_pos ⟨waits, idle, Bool.eq_false_iff.1 free⟩

/-- The record of the frame begun at `k`, delivered at its end. -/
def State.pushDelivered (s : State) (k : Nat) (r : Rec) (l : List Rec) : State :=
  ({ s.due (k + 162 * s.epPeriod5 / 5) with evt := { s.evt with
    pb := l, lastPush := beBytes 2 (s.get F.EVT_PROD_DONE) ++ r.bytes ++ beBytes 2 (crc16 (beBytes 2 (s.get F.EVT_PROD_DONE) ++ r.bytes)),
    pushAt := none, pushFree := k + 164 * s.epPeriod5 / 5, delivered := s.evt.delivered ++ [(s.due (k + 162 * s.epPeriod5 / 5)).now] } } :
    State).incWrapF F.EVT_PROD_DONE

theorem exec_pushDone {s : State} {k : Nat} {r : Rec} {l : List Rec} (run : s.dev.mode = .run) (started : s.evt.pushAt = some k)
    (frame : s.evt.pb = r :: l) :
    exec .pushDone s = .next (if l = [] ∧ s.evt.armWaiting = true then (s.pushDelivered k r l).arm else (s.pushDelivered k r l).pushTry) := by
  change execPushDone s = _
  rw [execPushDone, if_pos (State.inMode_of_eq run), State.pushTry_of_started started, started]
  dsimp only
  rw [State.pushEnd, frame]
  rfl

theorem exec_pushDone_of_idle {s : State} (idle : s.dev.mode ≠ .run ∨ s.pushTry.evt.pushAt = none) : exec .pushDone s = .next s := by
  change execPushDone s = _
  rw [execPushDone]
  rcases idle with mode | none
  · rw [if_neg (Bool.eq_false_iff.1 (State.inMode_of_ne mode))]
  · rw [none]
    exact congrArg _ (ite_self s)

/-! The writes of the ring's registers (R386, R387, R389, R390, R393). -/

section
variable {s : State} (v : Word) (bus : s.injects 4 = false)
include bus

theorem exec_evtConsWrite (open_ : s.writeOk 0x3414 = true) : exec (.evtConsWrite v) s = .next (s.consWrite (v.toNat % 65536)) :=
  congrArg Host.Outcome.next (s.bus_quiet _ _ open_ bus)

theorem exec_evtArm (open_ : s.writeOk 0x3408 = true) : exec .evtArm s = .next s.armKey :=
  congrArg Host.Outcome.next (s.bus_quiet _ _ open_ bus)

theorem exec_evtDisarm (open_ : s.writeOk 0x3408 = true) : exec .evtDisarm s = .next s.disarm :=
  congrArg Host.Outcome.next (s.bus_quiet _ _ open_ bus)

theorem exec_evtMaskWrite (open_ : s.writeOk 0x3418 = true) : exec (.evtMaskWrite v) s = .next (s.maskWrite (v.toNat % 2 ^ 19)) :=
  congrArg Host.Outcome.next (s.bus_quiet _ _ open_ bus)

theorem exec_evtAck (open_ : s.writeOk 0x3424 = true) : exec (.evtAck v) s = .next (s.ackWrite (v.toNat % 256)) :=
  congrArg Host.Outcome.next (s.bus_quiet _ _ open_ bus)

theorem exec_clearLost (open_ : s.writeOk 0x3430 = true) : exec .clearLost s = .next s.clearLost :=
  congrArg Host.Outcome.next (s.bus_quiet _ _ open_ bus)

theorem exec_clearMasked (open_ : s.writeOk 0x3430 = true) : exec .clearMasked s = .next s.clearMasked :=
  congrArg Host.Outcome.next (s.bus_quiet _ _ open_ bus)

theorem exec_clearHlCnt (open_ : s.writeOk 0x3430 = true) : exec .clearHlCnt s = .next s.clearHlCnt :=
  congrArg Host.Outcome.next (s.bus_quiet _ _ open_ bus)

end

theorem State.armKey_of_armed {s : State} (armed : s.evt.armed = true) : s.armKey = s.setDisc := if_pos armed

theorem State.armKey_of_idle {s : State} (off : s.evt.armed = false) (idle : s.evt.pb = []) : s.armKey = s.arm :=
  (if_neg (Bool.eq_false_iff.1 off)).trans (if_pos idle)

theorem State.armKey_of_draining {s : State} (off : s.evt.armed = false) (draining : s.evt.pb ≠ []) :
    s.armKey = { s with evt := { s.evt with armWaiting := true } } :=
  (if_neg (Bool.eq_false_iff.1 off)).trans (if_neg draining)

/-! Level sources, masked requests and the hold-off (R389, R390, R392). -/

theorem exec_evtLevel_of_active {s : State} {k : Fin 8} (core : s.coreRuns = true) (en : s.bitF F.EVT_LVL_EN_EN k = true)
    (idle : s.bitF F.EVT_LVL_REPORTED k = false) (active : s.levelActive k = true) :
    exec (.evtLevel k) s = .next ((s.emitLevel k 0).putBitF F.EVT_LVL_REPORTED k true) := by
  change execEvtLevel k s = _
  rw [execEvtLevel, core, en, idle, active]
  rfl

theorem exec_evtLevel_of_quiet {s : State} {k : Fin 8}
    (quiet : s.coreRuns = false ∨ s.bitF F.EVT_LVL_EN_EN k = false ∨ s.bitF F.EVT_LVL_REPORTED k = true ∨ s.levelActive k = false) :
    exec (.evtLevel k) s = .next s := by
  refine congrArg _ (if_neg ?_)
  rw [Bool.and_eq_true, Bool.and_eq_true, Bool.and_eq_true]
  rintro ⟨⟨⟨core, en⟩, idle⟩, active⟩
  rcases quiet with h | h | h | h
  · exact Bool.eq_false_iff.1 h core
  · exact Bool.eq_false_iff.1 h en
  · rw [h] at idle
    cases idle
  · exact Bool.eq_false_iff.1 h active

theorem exec_eventRequest_of_masked {s u : State} {q : Req} {l : List Req} (core : s.coreRuns = true) (starts : s.dev.mode ≠ .boot ∨ s.otp.prog = none)
    (oldest : s.evt.reqs = q :: l) (due : s.due (2 * q.clk) = u) (masked : u.masked q.block q.code = true) :
    exec .eventRequest s = .next (({ u with evt := { u.evt with reqs := l } } : State).incSatF F.EVT_MASKED_CNT) := by
  subst due
  have runs : s.coreRuns ∧ ¬ (s.inMode .boot ∧ s.otp.prog.isSome) := by
    refine ⟨core, fun ⟨boot, prog⟩ => ?_⟩
    rcases starts with h | h
    · exact h (of_decide_eq_true boot)
    · rw [h] at prog
      cases prog
  change execEventRequest s = _
  rw [execEventRequest, oldest]
  exact (if_pos runs).trans (if_pos masked)

theorem exec_eventRequest_of_none {s : State} (none : s.evt.reqs = []) : exec .eventRequest s = .next s := by
  change execEventRequest s = _
  rw [execEventRequest, none]

/-- A programming in progress holds the unit's start (R381, R427). -/
theorem exec_eventRequest_of_boot {s : State} {p : Nat × Nat} (boot : s.dev.mode = .boot) (prog : s.otp.prog = some p) :
    exec .eventRequest s = .next s := by
  change execEventRequest s = _
  rw [execEventRequest]
  split
  · rfl
  · exact if_neg fun h => h.2 ⟨State.inMode_of_eq boot, by rw [prog]; rfl⟩

theorem exec_ringHoldoff {s : State} {t : Nat} (h : s.ringDue = some t) : exec .ringHoldoff s = .next (s.due t) := by
  change execRingHoldoff s = _
  rw [execRingHoldoff, h]

theorem exec_ringHoldoff_of_none {s : State} (h : s.ringDue = none) : exec .ringHoldoff s = .next s := by
  change execRingHoldoff s = _
  rw [execRingHoldoff, h]

theorem State.ringDue_of_delivered {s : State} {t : Nat} {l : List Nat} (on : s.get F.EVT_IRQ_CFG_HOLDOFF ≠ 0) (oldest : s.evt.delivered = t :: l) :
    s.ringDue = some (t + s.get F.EVT_IRQ_CFG_HOLDOFF * 100 * engPerUs) := by
  rw [State.ringDue, if_neg on, oldest]
  rfl

/-! A power-down in which two records are delivered and not consumed, with the Black injection of `armedPowerDown`. -/

/-- `armedPowerDown` with one more record delivered. -/
def armedPowerDownTwo : State := (armedPowerDown.set F.EVT_PROD_PROD 2).set F.EVT_PROD_DONE 2

/-- A write of 1 to `EVT_CONS` would be taken, and leave the ring with one slot less than the whole. -/
theorem armedPowerDownTwo_takes_one :
    armedPowerDownTwo.writeOk 0x3414 = true ∧
      wrap16 ((1 : Int) - armedPowerDownTwo.get F.EVT_CONS_CONS) ≤ wrap16 ((armedPowerDownTwo.get F.EVT_PROD_DONE : Int) - armedPowerDownTwo.get F.EVT_CONS_CONS) ∧
      wrap16 ((1 : Int) - armedPowerDownTwo.get F.EVT_CONS_CONS) ≤ wrap16 ((armedPowerDownTwo.get F.EVT_PROD_PROD : Int) - armedPowerDownTwo.get F.EVT_CONS_CONS) := by
  decide +kernel

/-- The check of the word resets the device first: the whole ring is free. -/
theorem armedPowerDownTwo_checked :
    (armedPowerDownTwo.injCheck 4 0).dev.stage ≠ armedPowerDownTwo.dev.stage ∧
      (armedPowerDownTwo.injCheck 4 0).ringFree ≠
        armedPowerDownTwo.ringFree + (wrap16 ((1 : Int) - armedPowerDownTwo.get F.EVT_CONS_CONS) : Int) := by
  decide +kernel

theorem exec_evtConsWrite_armedPowerDownTwo : exec (.evtConsWrite 1) armedPowerDownTwo = .next (armedPowerDownTwo.injCheck 4 0) :=
  congrArg Host.Outcome.next (armedPowerDownTwo.bus_dropped 0x3414 _ armedPowerDownTwo_takes_one.1 armedPowerDownTwo_checked.1)

end Sys2Proof.Machine

open Sys2Proof Sys2Proof.Machine

/-- Settles O27: each case of the ring's commands by its own lemma above. -/
theorem ringCommands : Obligations.RingCommands := by
  unfold Obligations.RingCommands
  refine ⟨fun s r l run armed free slot credit oldest => exec_recordCommit_of_credit oldest run armed free slot credit, ?delivered,
    fun s => State.pushTry_of_free, fun s => State.pushTry_of_held, ?consumed, ?badCons,
    fun s w off idle bus => (exec_evtArm bus w).trans (congrArg _ (State.armKey_of_idle off idle)),
    fun s w off draining bus => (exec_evtArm bus w).trans (congrArg _ (State.armKey_of_draining off draining)),
    fun s w bus => exec_evtDisarm bus w, fun v s w bus => exec_evtMaskWrite v bus w, fun v s w bus => exec_evtAck v bus w,
    fun k s => exec_evtLevel_of_active, fun s w bus => exec_clearLost bus w, fun s w bus => exec_clearMasked bus w,
    fun s w bus => exec_clearHlCnt bus w, fun t s => exec_ringHoldoff, fun s => exec_ringHoldoff_of_none,
    fun s t l => State.ringDue_of_delivered, fun s u q l => exec_eventRequest_of_masked, fun s => exec_eventRequest_of_none,
    fun s p => exec_eventRequest_of_boot,
    fun r l s run armed free slot full oldest => exec_recordCommit_of_no_credit oldest run armed free slot full,
    fun r l s => exec_recordCommit_of_closed, fun s => exec_recordCommit_of_empty,
    fun s w armed bus => (exec_evtArm bus w).trans (congrArg _ (State.armKey_of_armed armed)), fun s => exec_pushDone_of_idle,
    fun k s => exec_evtLevel_of_quiet⟩
  case delivered =>
    rintro s t k r l run started frame rfl
    exact exec_pushDone run started frame
  case consumed =>
    intro v s w le bus
    exact (exec_evtConsWrite v bus w).trans (congrArg _ (if_pos le))
  case badCons =>
    intro v s w lt bus
    exact (exec_evtConsWrite v bus w).trans (congrArg _ (if_neg (Nat.not_le.2 lt)))

/-- Refutes O28: its last clause leaves out that no injection into the bus checker is armed. In `armedPowerDownTwo` a write of 1 passes neither DONE
nor PROD, yet the Black raising that its check makes ends the power-down first, and all slots are free after the command, not all but one. -/
theorem not_ringCounts : ¬ Obligations.RingCounts := by
  unfold Obligations.RingCounts
  rintro ⟨-, -, -, -, given⟩
  obtain ⟨opened, done, prod⟩ := armedPowerDownTwo_takes_one
  exact armedPowerDownTwo_checked.2 (given 1 armedPowerDownTwo _ opened done prod exec_evtConsWrite_armedPowerDownTwo)
end

section
/-! Frame timing: edges, misses and holdover (R98 to R108), the burst maps (R109 to R114) and the pip scheduler (R118 to R122). -/

namespace Sys2Proof.Machine

/-! Edges of FSYNC (R98, R99). -/

section
variable {s : State} {rising : Bool} {n : Nat}

/-- The level that an edge starts. -/
def State.levelBegun (s : State) (width : Nat) : State := s.setFrm { s.frm with levelEnd := s.now + (width * 4 + 24) / 25 }

theorem State.fsyncJudge_ignored (h : rising = s.flag F.FRM_CFG_POL ∨ n < 50) : s.fsyncJudge rising n = s.levelBegun n := if_pos h

theorem State.fsyncJudge_taken (active : rising ≠ s.flag F.FRM_CFG_POL) (long : 100 ≤ n) : s.fsyncJudge rising n = (s.levelBegun n).frmEdge :=
  (if_neg (by rintro (h | h); exacts [active h, absurd h (by omega)])).trans (if_pos long)

theorem State.fsyncJudge_free (active : rising ≠ s.flag F.FRM_CFG_POL) (low : 50 ≤ n) (high : n < 100) :
    s.fsyncJudge rising n =
      if (Config.freeWord s.draws).toNat % 2 = 1 then ({ s.levelBegun n with draws := s.draws + 1 } : State).frmEdge
      else { s.levelBegun n with draws := s.draws + 1 } :=
  (if_neg (by rintro (h | h); exacts [active h, absurd h (by omega)])).trans (if_neg (Nat.not_le.2 high))

theorem exec_fsyncEdge (w : Nat) (run : s.dev.mode = .run) (on : s.frmState ≠ 0) :
    exec (.fsyncEdge w rising n) s = .next (((s.pass w).due s.frm.levelEnd).fsyncJudge rising n) :=
  congrArg Host.Outcome.next (if_pos ⟨State.inMode_of_eq run, on⟩)

theorem exec_fsyncEdge_of_off (w : Nat) (off : s.dev.mode ≠ .run ∨ s.frmState = 0) : exec (.fsyncEdge w rising n) s = .next s := by
  refine congrArg Host.Outcome.next (if_neg ?_)
  rintro ⟨run, on⟩
  rcases off with h | h
  · exact h (of_decide_eq_true run)
  · exact on h

end

/-! Misses and holdover (R102, R484). -/

section
variable {s : State} {p : Nat} (at_ : p = (s.get F.FRM_SYNC_SYNC_PIP + s.get F.FRM_CFG_WIN + 1) % 65536)

theorem exec_frameMiss_of_unlocked (h : s.frmState ≠ 3) : exec .frameMiss s = .next s := congrArg Host.Outcome.next (if_neg h)

include at_

theorem exec_frameMiss (locked : s.frmState = 3) :
    exec .frameMiss s = .next (if (s.pip + 65536 - p) % 65536 < 32768 ∧ s.missDue = true then s.frmMiss
      else if s.pip < p ∧ (s.toPip p).missDue = true then (s.toPip p).frmMiss else s) := by
  subst at_
  refine congrArg Host.Outcome.next ((if_pos locked).trans (if_congr ?_ rfl rfl))
  rw [decide_eq_true_iff]

theorem exec_frameMiss_passed (locked : s.frmState = 3) (passed : (s.pip + 65536 - p) % 65536 < 32768) (due : s.missDue = true) :
    exec .frameMiss s = .next s.frmMiss := by
  rw [exec_frameMiss at_ locked, if_pos ⟨passed, due⟩]

section
variable (ahead : 32768 ≤ (s.pip + 65536 - p) % 65536 ∨ s.missDue = false)
include ahead

theorem exec_frameMiss_ahead (locked : s.frmState = 3) :
    exec .frameMiss s = .next (if s.pip < p ∧ (s.toPip p).missDue = true then (s.toPip p).frmMiss else s) := by
  rw [exec_frameMiss at_ locked, if_neg ?_]
  rintro ⟨passed, due⟩
  rcases ahead with h | h
  · exact Nat.not_lt.2 h passed
  · exact Bool.eq_false_iff.1 h due

theorem exec_frameMiss_to (locked : s.frmState = 3) (later : s.pip < p) (due : (s.toPip p).missDue = true) :
    exec .frameMiss s = .next ((s.toPip p).frmMiss) := by
  rw [exec_frameMiss_ahead at_ ahead locked, if_pos ⟨later, due⟩]

theorem exec_frameMiss_none (locked : s.frmState = 3) (none : p ≤ s.pip ∨ (s.toPip p).missDue = false) : exec .frameMiss s = .next s := by
  rw [exec_frameMiss_ahead at_ ahead locked, if_neg ?_]
  rintro ⟨later, due⟩
  rcases none with h | h
  · exact Nat.not_lt.2 h later
  · exact Bool.eq_false_iff.1 h due

end
end

section
variable {s : State}

theorem State.holdCheck_crystal (hold : s.frmState = 4) (failed : s.flag F.SYS_STATE_XTAL_FAIL = true) : s.holdCheck = s.frmFree 1 :=
  (if_pos hold).trans (if_pos failed)

theorem State.holdCheck_limit (hold : s.frmState = 4) (good : s.flag F.SYS_STATE_XTAL_FAIL = false)
    (limit : s.get F.FRM_SYNC_HOLD_MAX ≤ s.get F.FRM_STATE_HELD) : s.holdCheck = s.frmFree 0 :=
  (if_pos hold).trans ((if_neg (Bool.eq_false_iff.1 good)).trans (if_pos limit))

theorem State.holdCheck_stays
    (h : s.frmState ≠ 4 ∨ (s.flag F.SYS_STATE_XTAL_FAIL = false ∧ s.get F.FRM_STATE_HELD < s.get F.FRM_SYNC_HOLD_MAX)) : s.holdCheck = s := by
  by_cases hold : s.frmState = 4
  · obtain ⟨good, below⟩ := h.resolve_left (not_not.2 hold)
    exact (if_pos hold).trans ((if_neg (Bool.eq_false_iff.1 good)).trans (if_neg (Nat.not_le.2 below)))
  · exact if_neg hold

end

/-! Writes of FRM_CFG and of the map's commit key (R102, R110). -/

section
variable {s : State} (bus : s.injects 4 = false)
include bus

theorem exec_bmapCommitPersistent (open_ : s.writeOk 0x0440 = true) : exec .bmapCommitPersistent s = .next (s.mapCommit false) :=
  congrArg Host.Outcome.next ((s.bus_quiet _ _ open_ bus).trans (if_pos rfl))

theorem exec_bmapCommitOneFrame (open_ : s.writeOk 0x0440 = true) : exec .bmapCommitOneFrame s = .next (s.mapCommit true) :=
  congrArg Host.Outcome.next ((s.bus_quiet _ _ open_ bus).trans ((if_neg (by decide)).trans (if_pos rfl)))

theorem exec_frmCfgWrite (v : Word) (open_ : s.writeOk 0x0400 = true) : exec (.frmCfgWrite v) s = .next (s.frmCfgWrite v.toNat) :=
  congrArg Host.Outcome.next (s.bus_quiet _ _ open_ bus)

end

/-- The fields of FRM_CFG, written with the word `v`. -/
def State.frmCfgSet (s : State) (v : Nat) : State :=
  ((((s.set F.FRM_CFG_WIN (bits v 16 12)).set F.FRM_CFG_LOCK_TOL (bits v 8 8)).set F.FRM_CFG_MISS (bits v 4 3)).set
    F.FRM_CFG_POL (bits v 1 1)).set F.FRM_CFG_EN (v % 2)

theorem State.frmCfgWrite_of_good {s : State} {v : Nat} (win : 16 ≤ bits v 16 12) (win' : bits v 16 12 ≤ 2048) (tol : 1 ≤ bits v 8 8)
    (tol' : bits v 8 8 ≤ bits v 16 12) :
    s.frmCfgWrite v = if v % 2 = 0 then (s.frmCfgSet v).frmStop else if s.inMode .run = true then (s.frmCfgSet v).frmStart else s.frmCfgSet v :=
  if_pos ⟨win, win', tol, tol'⟩

theorem State.frmCfgWrite_of_reserved {s : State} {v : Nat}
    (h : bits v 16 12 < 16 ∨ 2048 < bits v 16 12 ∨ bits v 8 8 = 0 ∨ bits v 16 12 < bits v 8 8) : s.frmCfgWrite v = s.setDisc :=
  if_neg (by omega)

/-! The maps (R110 to R113). -/

section
variable {s : State}

theorem State.mapLatch_of_latched (h : s.frm.latched = true) : s.mapLatch = s := if_pos h

theorem State.mapLatch_of_pending {m : Bool × Nat} (open_ : s.frm.latched = false) (pend : s.frm.pendMap = some m) :
    s.mapLatch = s.setFrm { s.frm with latched := true, latchMap := some m, pendMap := none } := by
  rw [State.mapLatch, if_neg (Bool.eq_false_iff.1 open_), pend]
  rfl

theorem State.mapLatch_of_none (open_ : s.frm.latched = false) (pend : s.frm.pendMap = none) :
    s.mapLatch = s.setFrm { s.frm with latched := true } := by
  rw [State.mapLatch, if_neg (Bool.eq_false_iff.1 open_), pend]
  rfl

/-- The latch of pip 61,440, where a commit comes after it and no latch has been made in this frame (R112). -/
def State.mapCaughtUp (s : State) : State := if s.counting = true ∧ 61440 < s.pip then s.mapLatch else s

theorem State.mapCaughtUp_of_now (h : s.pip ≤ 61440 ∨ s.frm.latched = true) : s.mapCaughtUp = s := by
  unfold State.mapCaughtUp
  split
  case isTrue late => exact State.mapLatch_of_latched (h.resolve_left (Nat.not_le.2 late.2))
  case isFalse => rfl

/-- A commit leaves the next map pending. -/
theorem State.mapCommit_pends (s : State) (one : Bool) :
    (s.mapCommit one).frm.pendMap = some (one, s.get F.FRM_BMAP_NEXT_LO_SEG + 2 ^ 32 * s.get F.FRM_BMAP_NEXT_HI_SEG) := rfl

theorem State.mapCommit_latchMap (s : State) (one : Bool) : (s.mapCommit one).frm.latchMap = s.mapCaughtUp.frm.latchMap := by
  change (if s.mapCaughtUp.frm.pendMap.isSome = true then s.mapCaughtUp.set F.FRM_STAT_REPLACED 1 else s.mapCaughtUp).frm.latchMap = _
  split <;> rfl

theorem State.mapCommit_replaces {one : Bool} (now : s.pip ≤ 61440 ∨ s.frm.latched = true) (pend : s.frm.pendMap.isSome = true) :
    (s.mapCommit one).get F.FRM_STAT_REPLACED = 1 := by
  change (if s.mapCaughtUp.frm.pendMap.isSome = true then s.mapCaughtUp.set F.FRM_STAT_REPLACED 1 else s.mapCaughtUp).get F.FRM_STAT_REPLACED = 1
  rw [State.mapCaughtUp_of_now now, if_pos pend, State.get_set]
  rfl

/-- A commit after pip 61,440 lets the latch take what was pending there first. -/
theorem State.mapCommit_late (one : Bool) (counts : s.counting = true) (late : 61440 < s.pip) (open_ : s.frm.latched = false) :
    (s.mapCommit one).frm.latchMap = if s.frm.pendMap.isSome = true then s.frm.pendMap else s.frm.latchMap := by
  rw [State.mapCommit_latchMap, State.mapCaughtUp, if_pos ⟨counts, late⟩]
  cases pend : s.frm.pendMap with
  | none => rw [State.mapLatch_of_none open_ pend]; rfl
  | some m => rw [State.mapLatch_of_pending open_ pend]; rfl

/-- A frame begun without regard to the maps. -/
def State.framePlain (s : State) : State :=
  (s.incWrapF F.FRM_FRAME_FRAME).setFrm { s.frm with
    oneFrame := none, latched := false, fired := [], late := [], wrote := [], firstPip := 0, probeDefer := 0 }

theorem State.frameBegin_of_none (h : s.frm.latchMap = none) : s.frameBegin = s.framePlain := by
  rw [State.frameBegin, h]
  rfl

theorem State.frameBegin_of_some {m : Bool × Nat} (h : s.frm.latchMap = some m) :
    s.frameBegin = (s.framePlain.mapApply (some m)).setFrm { (s.framePlain.mapApply (some m)).frm with latchMap := none } := by
  rw [State.frameBegin, h]
  rfl

theorem State.firstPipZero_of_first (first : s.frm.firstLock = true) (locked : s.frmState = 3) :
    s.firstPipZero = s.setFrm { s.frm with firstLock := false, latchMap := s.frm.latchMap.filter fun m => !m.1 } := by
  rw [State.firstPipZero, if_pos ⟨first, locked⟩, State.latchedMap, if_pos ⟨first, locked⟩]

end

/-! Slots, pulses and deferred probes (R118 to R122). -/

section
variable {s : State} {n : Fin 32}

theorem exec_slotFire_due {p : Nat} (at_ : p = s.get (F.FRM_SLOT_CFG_PIP n)) (fires : s.firing = true) (fresh : s.lateFire n = none)
    (due : s.duePip n p = true) (soon : s.pip ≤ p + (s.lowerDue n p).length) (turn : s.lowerWaits false n p = false) :
    exec (.slotFire n) s = .next (((s.toPip p).setFrm { (s.toPip p).frm with fired := tset (s.toPip p).frm.fired n 0 (p + 1) }).slotFire n (s.slotWord n)) := by
  subst at_
  change execSlotFire n s = _
  rw [execSlotFire, if_pos fires, fresh]
  exact congrArg Host.Outcome.next (if_pos ⟨due, soon, Bool.eq_false_iff.1 turn⟩)

theorem exec_slotFire_late {old : Bool} {w : Nat} {fired : SMap Nat}
    (marks : (if old = true then s.frm.fired else tset s.frm.fired n 0 (w % 65536 + 1)) = fired) (fires : s.firing = true) (late : s.lateFire n = some (old, w))
    (turn : s.lowerWaits old n (w % 65536) = false) :
    exec (.slotFire n) s = .next ((s.setFrm { s.frm with late := tset s.frm.late n none none, fired := fired }).slotFire n w) := by
  subst marks
  change execSlotFire n s = _
  rw [execSlotFire, if_pos fires, late]
  exact congrArg Host.Outcome.next (if_neg (Bool.eq_false_iff.1 turn))

/-- A pulse on pin `k` that has ended. -/
def State.pulseDown (s : State) (k : Nat) : State :=
  { s with dev := { s.dev with gpioDrive := clrBit s.dev.gpioDrive k }, frm := { s.frm with pulses := tset s.frm.pulses k 0 0 } }

theorem exec_gpioPulseEnd {k : Fin 12} {e d : Nat} (pulse : tget s.frm.pulses k 0 = e + 1)
    (dist : d = (e + 2 ^ 48 - pipCount (s.get F.FRM_FRAME_FRAME) 0) % 2 ^ 48) (near : d < 65536 ∨ 2 ^ 47 ≤ d) :
    exec (.gpioPulseEnd k) s = .next ((if d < 65536 then s.toPip d else s).pulseDown k) := by
  subst dist
  change execGpioPulseEnd k s = _
  rw [execGpioPulseEnd, pulse]
  exact congrArg Host.Outcome.next (if_pos ⟨Nat.succ_ne_zero e, near⟩)

/-- The deferred probe steps fire, each as its own step. -/
def State.probesFire (s : State) : State :=
  forEach (List.range s.frm.probeDefer) (fun _ x => x.probeFire) (s.setFrm { s.frm with probeDefer := 0 })

theorem exec_probeDeferredFire_now (fires : s.firing = true) (some_ : s.frm.probeDefer ≠ 0) (free : s.segAt s.seg = 0) :
    exec .probeDeferredFire s = .next s.probesFire :=
  congrArg Host.Outcome.next ((if_pos ⟨fires, some_⟩).trans (if_pos free))

theorem exec_probeDeferredFire_next {k : Nat} (fires : s.firing = true) (some_ : s.frm.probeDefer ≠ 0) (busy : s.segAt s.seg ≠ 0)
    (next : s.nextFree s.seg = some k) : exec .probeDeferredFire s = .next (s.toPip (2048 * k)).probesFire := by
  change execProbeDeferredFire s = _
  rw [execProbeDeferredFire, if_pos ⟨fires, some_⟩, if_neg busy, next]
  rfl

theorem exec_receiveQuietEnd {o : Option Nat} (live : s.mapsLive = true) (quiet : s.segAt s.seg = 2)
    (next : ((List.range 32).find? fun j => decide (s.seg < j) && decide (s.segAt j ≠ 2)) = o) :
    exec .receiveQuietEnd s = .next ((match o with
      | some k => s.toPip (2048 * k)
      | none => s.frameWrap).pushTry.nvmRetry) := by
  change execReceiveQuietEnd s = _
  rw [execReceiveQuietEnd, if_pos ⟨live, quiet⟩, next]
  cases o <;> rfl

end

/-! The actions of a slot (R121). -/

section
variable {s t : State} {n w : Nat}

/-- An event that merges into an earlier one on its crossing acts no more (R28). -/
theorem State.fireOn_merged {x : Nat} (f : State → State) (h : (s.crossing x n).1 = true) : s.fireOn x n f = (s.crossing x n).2 := if_pos h

theorem State.fireOn_crossed {x : Nat} (f : State → State) (h : s.crossing x n = (false, t)) : s.fireOn x n f = f t := by
  rw [State.fireOn, h]
  rfl

theorem State.slotAct_record (action : bits w 24 4 = 1) : s.slotAct n w = s.emitX 0 n 1 6 0 [(bits w 16 8, 1), (n, 1)] := by
  rw [State.slotAct, action]
  rfl

theorem State.slotAct_pulse (action : bits w 24 4 = 2) (pin : s.gpioCode (bits w 16 8 % 16) = 0xA) :
    s.slotAct n w = { s with
      dev := { s.dev with gpioDrive := setBit s.dev.gpioDrive (bits w 16 8 % 16) },
      frm := { s.frm with
        pulses := tset s.frm.pulses (bits w 16 8 % 16) 0 (pipCount (s.get F.FRM_FRAME_FRAME) (s.pip + 2 ^ (bits w 16 8 / 16)) + 1) } } := by
  rw [State.slotAct, action]
  exact if_pos pin

theorem State.slotAct_conversion (action : bits w 24 4 = 3) : s.slotAct n w = s.fireOn 1 n fun x => x.adcPip (bits w 16 8) s.pip := by
  rw [State.slotAct, action]
  rfl

theorem State.slotAct_program (action : bits w 24 4 = 4) :
    s.slotAct n w = s.fireOn 0 n fun x => x.seqPush (programRequest (bits w 16 8)) none := by
  have code : programRequest (bits w 16 8) =
      if bits w 16 8 = 0 then 1 else if bits w 16 8 = 1 then 2 else if bits w 16 8 = 2 then 3 else 0x10 + bits w 16 8 := by
    unfold programRequest
    split <;> simp_all
  rw [State.slotAct, action, code]
  rfl

theorem State.slotAct_setPoint (action : bits w 24 4 = 5) :
    s.slotAct n w = s.setStk (bits w 16 8) { s.stk (bits w 16 8) with fired := true } := by
  rw [State.slotAct, action]
  rfl

theorem State.slotAct_probe (action : bits w 24 4 = 6) : s.slotAct n w = s.fireOn 0 n fun x => x.probeSlot := by
  rw [State.slotAct, action]
  rfl

theorem State.slotAct_gauge (action : bits w 24 4 = 7) :
    s.slotAct n w = s.fireOn 0 n fun x => x.setGg { x.gg with snap := some (s.get F.FRM_FRAME_FRAME % 65536, s.pip) } := by
  rw [State.slotAct, action]
  rfl

/-- The actions that act once on what merges on their crossing do nothing more where an earlier event is still on it. -/
theorem State.slotAct_merged {x : Nat} (action : bits w 24 4 = 3 ∧ x = 1 ∨ bits w 24 4 ∈ [4, 6, 7] ∧ x = 0) (h : (s.crossing x n).1 = true) :
    s.slotAct n w = (s.crossing x n).2 := by
  rcases action with ⟨a, rfl⟩ | ⟨a, rfl⟩
  · rw [State.slotAct_conversion a, State.fireOn_merged _ h]
  · rw [List.mem_cons, List.mem_cons, List.mem_singleton] at a
    rcases a with a | a | a
    · rw [State.slotAct_program a, State.fireOn_merged _ h]
    · rw [State.slotAct_probe a, State.fireOn_merged _ h]
    · rw [State.slotAct_gauge a, State.fireOn_merged _ h]

/-- The registers that a fire of slot `n` by word `w` marks before its action. -/
def State.slotMarked (s : State) (n w : Nat) : State :=
  if bits w 28 2 = 3 ∧ s.slotWord n = w then (s.putBitF F.FRM_SLOT_FIRED_FIRED n true).set (F.FRM_SLOT_CFG_EN n) 0
  else s.putBitF F.FRM_SLOT_FIRED_FIRED n true

theorem State.slotFire_get (g : FRef) (action : bits w 24 4 = 5) : (s.slotFire n w).get g = (s.slotMarked n w).get g := by
  change ((s.slotMarked n w).slotAct n w).get g = _
  rw [State.slotAct_setPoint action, State.get_setStk]

theorem slotEn_ne_fired (n : Nat) : (F.FRM_SLOT_CFG_EN n).key ≠ F.FRM_SLOT_FIRED_FIRED.key := by
  change (0x0480 + 4 * n) * 32 + 31 ≠ 0x0500 * 32 + 0
  omega

theorem State.slotMarked_fired (hn : n < 32) : (s.slotMarked n w).bitF F.FRM_SLOT_FIRED_FIRED n = true := by
  unfold State.slotMarked
  split
  · rw [State.bitF, State.get_set_of_ne _ _ (slotEn_ne_fired n).symm]
    exact s.bitF_putBitF hn
  · exact s.bitF_putBitF hn

theorem State.slotMarked_once (once : bits w 28 2 = 3) (same : s.slotWord n = w) : (s.slotMarked n w).get (F.FRM_SLOT_CFG_EN n) = 0 := by
  rw [State.slotMarked, if_pos ⟨once, same⟩, State.get_set, Nat.zero_mod]

theorem State.slotMarked_kept (again : bits w 28 2 ≠ 3) :
    (s.slotMarked n w).get (F.FRM_SLOT_CFG_EN n) = s.get (F.FRM_SLOT_CFG_EN n) := by
  rw [State.slotMarked, if_neg (fun h => again h.1)]
  exact s.get_set_of_ne _ (slotEn_ne_fired n)

end

end Sys2Proof.Machine

open Sys2Proof Sys2Proof.Machine

/-- Settles O30: each case of the frame timing unit's commands by its own lemma above. -/
theorem frameTimingCommands : Obligations.FrameTimingCommands := by
  unfold Obligations.FrameTimingCommands
  refine ⟨fun w n r s => exec_fsyncEdge w, fun w n r s => exec_fsyncEdge_of_off w, fun s r n => State.fsyncJudge_ignored,
    fun s r n => State.fsyncJudge_taken, ?missTo, fun s => rfl,
    fun s hold good limit => congrArg Host.Outcome.next (State.holdCheck_limit hold good limit), fun s counts => congrArg Host.Outcome.next (if_pos counts),
    fun s counts => congrArg Host.Outcome.next (if_pos counts), fun s w bus => exec_bmapCommitPersistent bus w, fun s w bus => exec_bmapCommitOneFrame bus w, ?cfg,
    fun s r n => State.fsyncJudge_free, ?missPassed,
    fun p s locked at_ ahead => exec_frameMiss_none at_ ahead locked, fun s => exec_frameMiss_of_unlocked,
    fun s hold failed => congrArg Host.Outcome.next (State.holdCheck_crystal hold failed), fun s h => congrArg Host.Outcome.next (State.holdCheck_stays h),
    fun v s w bad bus => (exec_frmCfgWrite bus v w).trans (congrArg Host.Outcome.next (State.frmCfgWrite_of_reserved bad)),
    fun s still => congrArg Host.Outcome.next (if_neg (Bool.eq_false_iff.1 still)), fun s still => congrArg Host.Outcome.next (if_neg (Bool.eq_false_iff.1 still)),
    fun s en idle => if_pos ⟨en, idle⟩⟩
  case missTo => exact fun p s locked at_ later ahead due => exec_frameMiss_to at_ ahead locked later due
  case missPassed => exact fun p s locked at_ passed due => exec_frameMiss_passed at_ locked passed (decide_eq_true due)
  case cfg =>
    rintro v s t w win win' tol tol' bus rfl
    exact (exec_frmCfgWrite bus v w).trans (congrArg Host.Outcome.next (State.frmCfgWrite_of_good win win' tol tol'))

/-- Settles O32: a commit, the latch, the frame's begin and the first pip 0 in LOCKED, each by what it leaves of the four maps. -/
theorem mapsTakeTheirFrame : Obligations.MapsTakeTheirFrame := by
  unfold Obligations.MapsTakeTheirFrame
  refine ⟨fun s one _ => s.mapCommit_pends one, ?latch, ?oneFrame, ?persistent, ?none, ?first,
    fun s one counts late open_ => ⟨State.mapCommit_late one counts late open_, s.mapCommit_pends one⟩, fun s one => State.mapCommit_replaces⟩
  case latch =>
    intro s m open_ pend
    rw [State.mapLatch_of_pending open_ pend]
    exact ⟨rfl, rfl, State.mapLatch_of_latched rfl⟩
  case oneFrame =>
    intro s x h
    rw [State.frameBegin_of_some h]
    exact ⟨rfl, rfl, rfl⟩
  case persistent =>
    intro s x h
    rw [State.frameBegin_of_some h]
    exact ⟨rfl, rfl, rfl⟩
  case none =>
    intro s h
    rw [State.frameBegin_of_none h]
    exact ⟨rfl, rfl, s.get_set _ _⟩
  case first =>
    intro s x first locked
    rw [State.firstPipZero_of_first first locked]
    refine ⟨fun h => ?_, fun h => ?_, rfl⟩
    all_goals
      change s.frm.latchMap.filter (fun m => !m.1) = _
      rw [h]
      rfl

/-- Settles O33: each of the scheduler's commands by its own lemma above. -/
theorem schedulerCommands : Obligations.SchedulerCommands := by
  unfold Obligations.SchedulerCommands
  refine ⟨?due, fun n w s fires late turn => exec_slotFire_late rfl fires late turn, fun n w s fires late turn => exec_slotFire_late rfl fires late turn,
    ?pulse, ?pulsePast, fun s counts => congrArg Host.Outcome.next (if_pos counts), fun s still => congrArg Host.Outcome.next (if_neg (Bool.eq_false_iff.1 still)),
    fun s => exec_probeDeferredFire_now, ?probeNext, fun k s => exec_receiveQuietEnd, fun s => exec_receiveQuietEnd⟩
  case due =>
    rintro n p t s at_ fires fresh due soon turn rfl
    exact exec_slotFire_due at_ fires fresh due soon turn
  case pulse =>
    rintro k e d t s pulse dist near rfl
    rw [exec_gpioPulseEnd pulse dist (.inl near), if_pos near]
    rfl
  case pulsePast =>
    intro k e d s pulse dist past
    rw [exec_gpioPulseEnd pulse dist (.inr past), if_neg (by omega)]
    rfl
  case probeNext =>
    rintro k t s fires some_ busy next rfl
    exact exec_probeDeferredFire_next fires some_ busy next

/-- Settles O34: each action by its own equation; the fired bit and the enable are read off the state before the action of code 5. -/
theorem slotActions : Obligations.SlotActions := by
  unfold Obligations.SlotActions
  refine ⟨fun s n w => State.slotAct_record, ?pulse, fun s n w x => State.slotAct_merged, ?conversion, ?program, ?setPoint, ?probe, ?gauge, ?enable⟩
  case pulse =>
    intro s n w action pin
    rw [State.slotAct_pulse action pin]
    refine ⟨bitOf_setBit _ _, ?_⟩
    change tget (tset _ _ _ _) _ _ = _
    rw [tget_tset_same, pipCount, Nat.add_assoc]
  case conversion =>
    intro s t n w action h
    rw [State.slotAct_conversion action, State.fireOn_crossed _ h]
  case program =>
    intro s t n w action h
    rw [State.slotAct_program action, State.fireOn_crossed _ h]
  case setPoint =>
    intro s n w action
    rw [State.slotAct_setPoint action]
    exact ⟨by rw [State.stk_setStk], rfl⟩
  case probe =>
    intro s t n w action h
    rw [State.slotAct_probe action, State.fireOn_crossed _ h]
  case gauge =>
    intro s t n w action h
    rw [State.slotAct_gauge action, State.fireOn_crossed _ h]
    rfl
  case enable =>
    intro s n w hn action
    refine ⟨?_, fun once same => ?_, fun again => ?_⟩
    · rw [State.bitF, State.slotFire_get _ action]
      exact State.slotMarked_fired hn
    · rw [State.slotFire_get _ action]
      exact State.slotMarked_once once same
    · rw [State.slotFire_get _ action]
      exact State.slotMarked_kept again
end

section
/-! A queue that a full reset empties (R10 to R12): the check of the credit counter, with a Black injection armed (R353), ends a power-down with the
operation that joins (R20, R21). -/

namespace Sys2Proof.Machine

/-- `armedPowerDown` with its injection into the credit counters, source 8. -/
def creditsArmedPowerDown : State := (armedPowerDown.set (cfgColourField 8) 3).set F.FLT_INJ_STAT_SRC 8

/-- The request that joins the sequencer's empty queue is gone with the reset that its check makes. -/
theorem creditsArmedPowerDown_empties :
    (creditsArmedPowerDown.seqPush 1 none).seq.queue ++ (creditsArmedPowerDown.seqPush 1 none).seq.qwait ≠
      creditsArmedPowerDown.seq.queue ++ creditsArmedPowerDown.seq.qwait ++ [(1, none)] := by decide +kernel

end Sys2Proof.Machine

open Sys2Proof Sys2Proof.Machine

/-- Refutes O40: its clause about the sequencer leaves out that no injection into the credit counters is armed. In `creditsArmedPowerDown` the Black
raising that the check of the joining request makes ends the power-down, and the reset empties the queue, that request with it. -/
theorem not_queuesAreFifo : ¬ Obligations.QueuesAreFifo := by
  unfold Obligations.QueuesAreFifo
  rintro ⟨-, -, joins, -⟩
  exact creditsArmedPowerDown_empties (joins creditsArmedPowerDown 1 none)
end

section
/-! The journal: what a read finds after a write of its memory, the commit of a record, and the commands of its controller (R444 to R452). -/

namespace Sys2Proof.Machine

/-! The memories byte by byte. -/

/-- A read of a memory drops what lies below its place; every place from there on reads as before. -/
theorem tget_dropWhile_lt (m : SMap Byte) {a j : Nat} (d : Byte) (h : a ≤ j) : tget (m.dropWhile fun e => decide (e.1 < a)) j d = tget m j d := by
  induction m with
  | nil => rfl
  | cons e r ih =>
    by_cases he : e.1 < a
    · rw [List.dropWhile_cons_of_pos (by simpa using he), ih, tget, if_neg (by omega), if_neg (by omega)]
    · rw [List.dropWhile_cons_of_neg (by simpa using he)]

/-- A read gives its first byte, and then the bytes from the next place. -/
theorem readMem_succ (d : Byte) (m : SMap Byte) (a n : Nat) :
    readMem d m a (n + 1) = tget m a d :: readMem d (m.dropWhile fun e => decide (e.1 < a)) (a + 1) n := by
  rw [← tget_dropWhile_lt m d (Nat.le_refl a), readMem]
  cases hm : m.dropWhile fun e => decide (e.1 < a) with
  | nil => rfl
  | cons e r =>
    have head : ¬ e.1 < a := by
      have := List.head_dropWhile_not (fun e : Nat × Byte => decide (e.1 < a)) (l := m) (by rw [hm]; exact List.cons_ne_nil e r)
      simpa [hm] using this
    change (if e.1 = a then e.2 else d) :: _ = tget (e :: r) a d :: _
    rw [tget]
    by_cases same : e.1 = a
    · rw [if_pos same, if_neg (by omega), if_pos same]
    · rw [if_neg same, if_pos (by omega)]

theorem readMem_eq_map (d : Byte) (m : SMap Byte) (a n : Nat) : readMem d m a n = (List.range' a n).map fun j => tget m j d := by
  induction n generalizing m a with
  | zero => rfl
  | succ n ih =>
    rw [readMem_succ, ih, List.range'_succ, List.map_cons]
    congr 1
    refine List.map_congr_left fun j hj => tget_dropWhile_lt m d ?_
    have := (List.mem_range'_1.1 hj).1
    omega

theorem tget_writeMem_outside (d e : Byte) (l : List Byte) (m : SMap Byte) {a j : Nat} (h : j < a ∨ a + l.length ≤ j) :
    tget (writeMem d m a l) j e = tget m j e := by
  induction l generalizing m a with
  | nil => rfl
  | cons b r ih =>
    rw [List.length_cons] at h
    rw [writeMem, ih _ (by omega), tget_tset_other _ _ _ _ (by omega)]

theorem readMem_writeMem (d : Byte) (l : List Byte) (m : SMap Byte) (a : Nat) : readMem d (writeMem d m a l) a l.length = l := by
  induction l generalizing m a with
  | nil => rfl
  | cons b r ih =>
    rw [List.length_cons, readMem_eq_map, List.range'_succ, List.map_cons, ← readMem_eq_map, writeMem, ih,
      tget_writeMem_outside d d r _ (.inl (Nat.lt_succ_self a)), tget_tset_same]

/-! The commit of a record (R445, R448). -/

theorem length_padTo (n : Nat) (l : List Byte) : (padTo n l).length = n := by
  rw [padTo, slice, List.length_append, List.length_replicate, List.length_take]
  omega

theorem length_recordBytes (a : Area) (seq : Nat) (body : List Byte) : (recordBytes a seq body).length = a.size := length_padTo _ _

/-- The position that the next commit of an area writes, and its sequence number (R448). -/
def State.commitPos (s : State) (a : Area) : Nat × Nat :=
  match s.newest a with
  | none => (0, 1)
  | some p => ((p + 1) % a.count, (s.posSeq a p + 1) % 2 ^ 32)

theorem State.commitBytes_journal (s : State) (k : Nat) (b : List Byte) :
    (s.commitBytes k b).nv.journal = writeMem journalBlank s.nv.journal ((area k).base + (s.commitPos (area k)).1 * (area k).size)
      (recordBytes (area k) (s.commitPos (area k)).2 b) := rfl

theorem State.commitBytes_read (s : State) (k : Nat) (b : List Byte) :
    readMem journalBlank (s.commitBytes k b).nv.journal ((area k).base + (s.commitPos (area k)).1 * (area k).size) (area k).size =
      recordBytes (area k) (s.commitPos (area k)).2 b := by
  have h := readMem_writeMem journalBlank (recordBytes (area k) (s.commitPos (area k)).2 b) s.nv.journal
    ((area k).base + (s.commitPos (area k)).1 * (area k).size)
  rwa [length_recordBytes] at h

theorem State.commitBytes_outside (s : State) (k : Nat) (b : List Byte) {j : Nat}
    (h : j < (area k).base + (s.commitPos (area k)).1 * (area k).size ∨ (area k).base + ((s.commitPos (area k)).1 + 1) * (area k).size ≤ j) :
    tget (s.commitBytes k b).nv.journal j journalBlank = tget s.nv.journal j journalBlank := by
  rw [State.commitBytes_journal]
  refine tget_writeMem_outside _ _ _ _ ?_
  rw [length_recordBytes, Nat.add_assoc, ← Nat.succ_mul]
  exact h

/-! The start of a commit (R448, R450, R451). -/

/-- The journal takes commits here. -/
def State.jnlTakes (t : State) : Prop := t.jnl.busy = false ∧ t.coreRuns = true ∧ t.dev.vaoGood = true ∧ t.dev.mode ≠ .boot

/-- The oldest commit `c` of `c :: r` with its record made, in progress. -/
def State.jnlStarted (u : State) (c : Commit) (r : List Commit) : State :=
  { u with jnl := { u.jnl with queue := { c with body := padTo (area c.kind).body (u.commitBody c) } :: r, busy := true, covered := false } }

theorem not_refused {v j : Nat} {covered : Bool} (reserve : j ≤ v ∨ covered = true) : ¬ (v < j ∧ ¬ covered = true) := by
  rintro ⟨low, first⟩
  rcases reserve with h | h
  · exact Nat.not_lt.2 h low
  · exact first h

section
variable {s t : State} {v ce : Nat} {c : Commit} {r : List Commit} (corrected : t = s.jnlCorrected ce) (takes : t.jnlTakes) (oldest : t.jnl.queue = c :: r)
include corrected takes oldest

theorem exec_journalCommitStart :
    exec (.journalCommitStart v ce) s = .next (
      if t.emptyCommit c then ({ t with jnl := { t.jnl with queue := r } } : State).jnlPump
      else if v < t.jmin ∧ ¬ t.jnl.covered then t.jnlRefuse c r v
      else if c.producer = .evidence then
        ((if c.producer = .evidence then t.latchCounts else t).jnlStarted c r).latchOut
      else (if c.producer = .evidence then t.latchCounts else t).jnlStarted c r) := by
  subst corrected
  obtain ⟨free, core, supply, mode⟩ := takes
  have notBoot : ¬ (s.jnlCorrected ce).inMode .boot = true := fun boot => mode (of_decide_eq_true boot)
  change execJournalCommitStart v ce s = _
  rw [execJournalCommitStart]
  dsimp only
  rw [free, oldest]
  exact congrArg Host.Outcome.next (if_pos ⟨core, supply, notBoot⟩)

theorem exec_journalCommitStart_empty (empty : t.emptyCommit c = true) :
    exec (.journalCommitStart v ce) s = .next (({ t with jnl := { t.jnl with queue := r } } : State).jnlPump) := by
  rw [exec_journalCommitStart corrected takes oldest, if_pos empty]

theorem exec_journalCommitStart_refused (full : t.emptyCommit c = false) (low : v < t.jmin) (first : t.jnl.covered = false) :
    exec (.journalCommitStart v ce) s = .next (t.jnlRefuse c r v) := by
  rw [exec_journalCommitStart corrected takes oldest, if_neg (Bool.eq_false_iff.1 full), if_pos ⟨low, Bool.eq_false_iff.1 first⟩]

section
variable (full : t.emptyCommit c = false) (reserve : t.jmin ≤ v ∨ t.jnl.covered = true)
include full reserve

theorem exec_journalCommitStart_started (other : c.producer ≠ .evidence) :
    exec (.journalCommitStart v ce) s = .next (t.jnlStarted c r) := by
  rw [exec_journalCommitStart corrected takes oldest, if_neg (Bool.eq_false_iff.1 full), if_neg (not_refused reserve),
    if_neg other, if_neg other]

theorem exec_journalCommitStart_evidence (evidence : c.producer = .evidence) :
    exec (.journalCommitStart v ce) s = .next ((t.latchCounts.jnlStarted c r).latchOut) := by
  rw [exec_journalCommitStart corrected takes oldest, if_neg (Bool.eq_false_iff.1 full), if_neg (not_refused reserve),
    if_pos evidence, if_pos evidence]

end
end

theorem exec_journalCommitStart_waits {s t : State} {v ce : Nat} (corrected : t = s.jnlCorrected ce)
    (waits : t.dev.mode = .boot ∨ t.coreRuns = false ∨ t.dev.vaoGood = false ∨ t.jnl.busy = true ∨ t.jnl.queue = []) :
    exec (.journalCommitStart v ce) s = .next t := by
  subst corrected
  change execJournalCommitStart v ce s = _
  rw [execJournalCommitStart]
  dsimp only
  split
  · rename_i c r free oldest
    refine congrArg Host.Outcome.next (if_neg ?_)
    rintro ⟨core, supply, mode⟩
    rcases waits with h | h | h | h | h
    · exact mode (State.inMode_of_eq h)
    · exact Bool.eq_false_iff.1 h core
    · exact Bool.eq_false_iff.1 h supply
    · rw [free] at h
      cases h
    · rw [oldest] at h
      cases h
  · rfl

/-! The end of a commit (R448). -/

/-- The commit `c` of `c :: r` has written its CRC. -/
def State.jnlDone (s : State) (c : Commit) (r : List Commit) : State :=
  (({ s.commitBytes c.kind c.body with jnl := { s.jnl with
    queue := r, busy := false, covered := decide (c.producer = .update ∧ dropPair c (r ++ s.jnl.waiting) ≠ r ++ s.jnl.waiting) } } :
    State).jnlPump.incWrapF F.JNL_CNT_COMMITS).commitDone c

theorem exec_journalCommitDone {s : State} {c : Commit} {r : List Commit} (busy : s.jnl.busy = true) (oldest : s.jnl.queue = c :: r) :
    exec .journalCommitDone s = .next (if (s.jnlDone c r).dev.stage = .commit then (s.jnlDone c r).resetStep3 else s.jnlDone c r) := by
  change execJournalCommitDone s = _
  rw [execJournalCommitDone, busy, oldest]
  rfl

/-! Refusals (R451). -/

theorem State.jnlPump_order (s : State) : s.jnlPump.jnl.queue ++ s.jnlPump.jnl.waiting = s.jnl.queue ++ s.jnl.waiting := by
  change (s.jnl.queue ++ s.jnl.waiting.take (4 - s.jnl.queue.length)) ++ s.jnl.waiting.drop (4 - s.jnl.queue.length) = _
  rw [List.append_assoc, List.take_append_drop]

/-- What a refusal leaves before its producer hears of it, where no other commit goes with the refused one. -/
def State.jnlRefused (s : State) (c : Commit) (r : List Commit) (v : Nat) : State :=
  (((({ s with jnl := { queue := r, busy := false, waiting := s.jnl.waiting, covered := false } } : State).jnlPump.incSatF F.JNL_CNT_REFUSED).set
    F.JNL_STAT_REFUSED_SEEN 1).emit 0x11 1 [(c.kind, 1), (0, 1), (v, 2), (s.jmin, 2)])

section
variable {s : State} {c : Commit} {r : List Commit} {v : Nat}

theorem State.jnlRefuse_of_single (other : c.producer ≠ .update) :
    s.jnlRefuse c r v = (s.jnlRefused c r v).refusedBy c (r ++ s.jnl.waiting) := by
  have take : (r ++ s.jnl.waiting).take (min r.length (r ++ s.jnl.waiting).length) = r := by
    rw [List.length_append, Nat.min_eq_left (Nat.le_add_right _ _), List.take_left]
  have drop : (r ++ s.jnl.waiting).drop (min r.length (r ++ s.jnl.waiting).length) = s.jnl.waiting := by
    rw [List.length_append, Nat.min_eq_left (Nat.le_add_right _ _), List.drop_left]
  unfold State.jnlRefuse
  dsimp only
  rw [if_neg other, take, drop]
  rfl

theorem State.jnlRefused_frame (s : State) (c : Commit) (r : List Commit) (v : Nat) :
    (s.jnlRefused c r v).nv = s.nv ∧ (s.jnlRefused c r v).jnl.busy = false ∧
      (s.jnlRefused c r v).jnl.queue ++ (s.jnlRefused c r v).jnl.waiting = r ++ s.jnl.waiting := by
  unfold State.jnlRefused
  rw [State.emit]
  obtain ⟨e, he⟩ := State.emitC_frame (((({ s with jnl := { queue := r, busy := false, waiting := s.jnl.waiting, covered := false } } :
    State).jnlPump.incSatF F.JNL_CNT_REFUSED).set F.JNL_STAT_REFUSED_SEEN 1)) 0x11 1 0 [(c.kind, 1), (0, 1), (v, 2), (s.jmin, 2)]
  rw [he]
  exact ⟨rfl, rfl, State.jnlPump_order _⟩

theorem State.jnlRefused_get (s : State) (c : Commit) (r : List Commit) (v : Nat) :
    (s.jnlRefused c r v).get F.JNL_STAT_REFUSED_SEEN = 1 ∧
      (s.jnlRefused c r v).get F.JNL_CNT_REFUSED = incSat (s.get F.JNL_CNT_REFUSED) F.JNL_CNT_REFUSED.top % 2 ^ F.JNL_CNT_REFUSED.w ∧
      (s.jnlRefused c r v).get F.JNL_CNT_DROP = s.get F.JNL_CNT_DROP := by
  unfold State.jnlRefused
  rw [State.emit_get, State.emit_get, State.emit_get]
  refine ⟨State.get_set _ _ _, ?_, ?_⟩
  · rw [State.get_set_of_ne _ _ (by decide)]
    exact State.get_set _ _ _
  · rw [State.get_set_of_ne _ _ (by decide), State.incSatF, State.get_set_of_ne _ _ (by decide)]
    rfl

/-- What a producer keeps of the journal and of its counts when it hears of a refusal. -/
structure State.RefusalShown (t u : State) : Prop where
  seen : t.get F.JNL_STAT_REFUSED_SEEN = u.get F.JNL_STAT_REFUSED_SEEN
  count : t.get F.JNL_CNT_REFUSED = u.get F.JNL_CNT_REFUSED
  jnl : t.jnl = u.jnl
  nv : t.nv = u.nv

theorem State.refusedBy_shown (t : State) (rest : List Commit) (other : c.producer = .satellite ∨ c.producer = .fault ∨ c.producer = .evidence) :
    (t.refusedBy c rest).RefusalShown t := by
  unfold State.refusedBy
  rcases other with h | h | h <;> rw [h]
  · exact ⟨State.get_set_of_ne _ _ (by decide), State.get_set_of_ne _ _ (by decide), rfl, rfl⟩
  · exact ⟨rfl, rfl, rfl, rfl⟩
  · exact ⟨rfl, rfl, rfl, rfl⟩

theorem State.refusedBy_satellite (t : State) (rest : List Commit) (satellite : c.producer = .satellite) :
    t.refusedBy c rest = t.incSatF F.JNL_CNT_DROP := by
  unfold State.refusedBy
  rw [satellite]

/-- A refusal of a commit that no other one goes with (R451). -/
theorem State.jnlRefuse_shown (other : c.producer = .satellite ∨ c.producer = .fault ∨ c.producer = .evidence) :
    (s.jnlRefuse c r v).get F.JNL_STAT_REFUSED_SEEN = 1 ∧
      (s.jnlRefuse c r v).get F.JNL_CNT_REFUSED = incSat (s.get F.JNL_CNT_REFUSED) F.JNL_CNT_REFUSED.top % 2 ^ F.JNL_CNT_REFUSED.w ∧
      (s.jnlRefuse c r v).jnl.busy = false ∧ (s.jnlRefuse c r v).nv = s.nv ∧
      (s.jnlRefuse c r v).jnl.queue ++ (s.jnlRefuse c r v).jnl.waiting = r ++ s.jnl.waiting := by
  have single : c.producer ≠ .update := by rcases other with h | h | h <;> rw [h] <;> decide
  have shown := (s.jnlRefused c r v).refusedBy_shown (r ++ s.jnl.waiting) other
  obtain ⟨nv, busy, order⟩ := s.jnlRefused_frame c r v
  obtain ⟨seen, count, -⟩ := s.jnlRefused_get c r v
  rw [State.jnlRefuse_of_single single, shown.seen, shown.count, shown.jnl, shown.nv]
  exact ⟨seen, count, busy, nv, order⟩

theorem State.jnlRefuse_dropped (satellite : c.producer = .satellite) :
    (s.jnlRefuse c r v).get F.JNL_CNT_DROP = incSat (s.get F.JNL_CNT_DROP) F.JNL_CNT_DROP.top % 2 ^ F.JNL_CNT_DROP.w := by
  obtain ⟨-, -, drop⟩ := s.jnlRefused_get c r v
  rw [State.jnlRefuse_of_single (by rw [satellite]; decide), State.refusedBy_satellite _ _ satellite, State.incSatF, State.get_set, drop]

end

end Sys2Proof.Machine

open Sys2Proof Sys2Proof.Machine

/-- Settles O38: the start by its three outcomes, the end of a commit, and what a refusal leaves before and after its producer hears of it. -/
theorem journalCommands : Obligations.JournalCommands := by
  unfold Obligations.JournalCommands
  refine ⟨?started, ?evidence, ?refused, ?empty, fun v ce t s => exec_journalCommitStart_waits, ?done, ?resets, ?refusal⟩
  case started =>
    intro v ce c r t s corrected free oldest core supply mode other full reserve
    exact exec_journalCommitStart_started corrected ⟨free, core, supply, mode⟩ oldest full reserve other
  case evidence =>
    rintro v ce c r t u s corrected free oldest core supply mode evidence full reserve rfl
    exact exec_journalCommitStart_evidence corrected ⟨free, core, supply, mode⟩ oldest full reserve evidence
  case refused =>
    intro v ce c r t s corrected free oldest core supply mode full low first
    exact exec_journalCommitStart_refused corrected ⟨free, core, supply, mode⟩ oldest full low first
  case empty =>
    intro v ce c r t s corrected free oldest core supply mode empty
    exact exec_journalCommitStart_empty corrected ⟨free, core, supply, mode⟩ oldest empty
  case done =>
    rintro c r u s busy oldest rfl stage
    exact (exec_journalCommitDone busy oldest).trans (congrArg _ (if_neg stage))
  case resets =>
    rintro c r u s busy oldest rfl stage
    exact (exec_journalCommitDone busy oldest).trans (congrArg _ (if_pos stage))
  case refusal =>
    intro s c r v other
    obtain ⟨seen, count, busy, nv, order⟩ := State.jnlRefuse_shown (s := s) (r := r) (v := v) other
    exact ⟨seen, count, busy, nv, order, State.jnlRefuse_dropped⟩

/-- Settles O39: a write of a memory reads back as its bytes and leaves every other byte, and the record fills its position exactly. -/
theorem journalReadBack : Obligations.JournalReadBack := by
  unfold Obligations.JournalReadBack
  refine ⟨?first, ?next, ?others⟩
  case first =>
    intro s k b _ _ none
    have pos : s.commitPos (area k) = (0, 1) := by rw [State.commitPos, none]
    have read := s.commitBytes_read k b
    rwa [pos, Nat.zero_mul, Nat.add_zero] at read
  case next =>
    intro s k p b _ _ newest
    have pos : s.commitPos (area k) = ((p + 1) % (area k).count, (s.posSeq (area k) p + 1) % 2 ^ 32) := by rw [State.commitPos, newest]
    have read := s.commitBytes_read k b
    rwa [pos] at read
  case others =>
    intro s k p a b _ _ at_ outside
    have pos : (s.commitPos (area k)).1 = p := by
      rw [at_, State.commitPos]
      cases s.newest (area k) <;> rfl
    exact ⟨s.commitBytes_outside k b (by rwa [pos]), rfl, rfl, rfl⟩
end

section
/-! The housekeeping converters: requests, conversions, scan rounds, Doubles captures, results and windows (R311 to R324). -/

namespace Sys2Proof.Machine

/-! Requests (R313, R315). -/

section
variable {s : State} {v : Word} (bus : s.injects 4 = false)
include bus

theorem exec_adcReq (open_ : s.writeOk 0x2420 = true) :
    exec (.adcReq v) s = .next (if v.toNat % 128 ≤ 103 then (s.adcSingle (v.toNat % 128) none).getD s else s) :=
  congrArg Host.Outcome.next (s.bus_quiet _ _ open_ bus)

theorem exec_adcReq_taken (open_ : s.writeOk 0x2420 = true) (channel : v.toNat % 128 ≤ 103) (claimed : s.ainRefused (v.toNat % 128) = false) :
    exec (.adcReq v) s = .next (s.adcPush ⟨1, v.toNat % 128, 0, 0, false, none⟩) := by
  rw [exec_adcReq bus open_, if_pos channel, State.adcSingle, if_neg (Bool.eq_false_iff.1 claimed), Option.getD_some]

theorem exec_adcReq_refused (open_ : s.writeOk 0x2420 = true) (bad : 103 < v.toNat % 128 ∨ s.ainRefused (v.toNat % 128) = true) :
    exec (.adcReq v) s = .next s := by
  rw [exec_adcReq bus open_]
  rcases bad with h | h
  · rw [if_neg (Nat.not_le.2 h)]
  · rw [State.adcSingle, if_pos h, Option.getD_none, ite_self]

variable {n : Fin 4}

theorem exec_adcUrg (open_ : s.writeOk (0x2430 + 4 * n) = true) :
    exec (.adcUrg n v) s = .next (if v.toNat % 128 ≤ 103 then (s.adcUrgent n.val (v.toNat % 128) none).getD s else s) :=
  congrArg Host.Outcome.next (s.bus_quiet _ _ open_ bus)

theorem exec_adcUrg_taken (open_ : s.writeOk (0x2430 + 4 * n) = true) (channel : v.toNat % 128 ≤ 103)
    (claimed : s.ainRefused (v.toNat % 128) = false) (single : s.dblMember n = false) :
    exec (.adcUrg n v) s = .next (s.adcPush ⟨3, v.toNat % 128, n, 0, false, none⟩) := by
  rw [exec_adcUrg bus open_, if_pos channel, State.adcUrgent, claimed, single, if_neg (by decide), Option.getD_some]

theorem exec_adcUrg_refused (open_ : s.writeOk (0x2430 + 4 * n) = true)
    (bad : 103 < v.toNat % 128 ∨ s.ainRefused (v.toNat % 128) = true ∨ s.dblMember n = true) : exec (.adcUrg n v) s = .next s := by
  rw [exec_adcUrg bus open_]
  rcases bad with h | h
  · rw [if_neg (Nat.not_le.2 h)]
  · rw [State.adcUrgent, if_pos h, Option.getD_none, ite_self]

end

/-! The start of a conversion by rank (R312, R314, R319). -/

/-- The first request that waits for converter `c`: urgent; and of those that any converter takes: pip-placed, single, of the scan. -/
def State.urgentFor (s : State) (c : Fin 4) : Option (AdcReq × List AdcReq) := takeFirst (fun q => decide (q.kind = 3 ∧ q.cv = c.val)) s.adc.queue
def State.placedNext (s : State) : Option (AdcReq × List AdcReq) := takeFirst (fun q => decide (q.kind = 2) && !s.onDoubles q) s.adc.queue
def State.singleNext (s : State) : Option (AdcReq × List AdcReq) := takeFirst (fun (q : AdcReq) => decide (q.kind = 1) && !s.onDoubles q) s.adc.queue
def State.scanFor (s : State) (c : Fin 4) : Option ((Nat × Nat) × List (Nat × Nat)) := takeFirst (fun x => decide (x.2 = c.val)) s.adc.scan

/-- Converter `c` starts request `q` of the queue, which keeps the rest `r`. -/
def State.reqBegun (s : State) (c : Fin 4) (kind : Nat) (q : AdcReq) (r : List AdcReq) : State :=
  { s with adc := { s.adc with queue := r, cvs := tset s.adc.cvs c none (some ⟨kind, q.ch, s.now, q.frame⟩) } }

/-- Converter `c` starts channel `x` of the scan, which keeps the rest `r`. -/
def State.scanBegun (s : State) (c : Fin 4) (x : Nat × Nat) (r : List (Nat × Nat)) : State :=
  { s with adc := { s.adc with scan := r, cvs := tset s.adc.cvs c none (some ⟨0, x.1, s.now, none⟩) } }

section
variable {s : State} {c : Fin 4}

theorem exec_conversionStart_of_busy (h : s.dev.mode ≠ .run ∨ (tget s.adc.cvs c none).isSome = true) : exec (.conversionStart c) s = .next s := by
  refine congrArg Host.Outcome.next (if_neg ?_)
  rintro ⟨run, free⟩
  rcases h with m | busy
  · exact m (of_decide_eq_true run)
  · rw [free] at busy
    cases busy

variable (run : s.dev.mode = .run) (free : tget s.adc.cvs c none = none)
include run free

theorem exec_conversionStart :
    exec (.conversionStart c) s = .next (match s.urgentFor c with
      | some (q, r) => s.reqBegun c 3 q r
      | none =>
        if s.dblMember c then s
        else match s.placedNext with
        | some (q, r) => if q.late then (s.reqBegun c 2 q r).set F.ADC_STAT_PIP_LATE 1 else s.reqBegun c 2 q r
        | none =>
          if s.adcHeld then (if s.adc.scan ≠ [] then s.set F.ADC_STAT_HELD 1 else s)
          else match s.singleNext, s.scanFor c with
          | some (q, r), _ => s.reqBegun c 1 q r
          | none, some (x, r) => s.scanBegun c x r
          | none, none => s) := by
  change execConversionStart c s = _
  unfold execConversionStart
  dsimp only
  rw [if_pos ⟨State.inMode_of_eq run, free⟩]
  rfl

theorem exec_conversionStart_urgent {q : AdcReq} {r : List AdcReq} (urgent : s.urgentFor c = some (q, r)) :
    exec (.conversionStart c) s = .next (s.reqBegun c 3 q r) := by
  rw [exec_conversionStart run free, urgent]

section
variable (none₃ : s.urgentFor c = none)
include none₃

theorem exec_conversionStart_member (member : s.dblMember c = true) : exec (.conversionStart c) s = .next s := by
  rw [exec_conversionStart run free, none₃]
  exact congrArg _ (if_pos member)

section
variable (pool : s.dblMember c = false)
include pool

theorem exec_conversionStart_placed {q : AdcReq} {r : List AdcReq} (placed : s.placedNext = some (q, r)) :
    exec (.conversionStart c) s = .next (if q.late then (s.reqBegun c 2 q r).set F.ADC_STAT_PIP_LATE 1 else s.reqBegun c 2 q r) := by
  rw [exec_conversionStart run free, none₃, placed]
  exact congrArg _ (if_neg (Bool.eq_false_iff.1 pool))

variable (none₂ : s.placedNext = none)
include none₂

theorem exec_conversionStart_held (held : s.adcHeld = true) (waits : s.adc.scan ≠ []) :
    exec (.conversionStart c) s = .next (s.set F.ADC_STAT_HELD 1) := by
  rw [exec_conversionStart run free, none₃, none₂]
  exact congrArg _ ((if_neg (Bool.eq_false_iff.1 pool)).trans ((if_pos held).trans (if_pos waits)))

variable (open_ : s.adcHeld = false)
include open_

theorem exec_conversionStart_single {q : AdcReq} {r : List AdcReq} (single : s.singleNext = some (q, r)) :
    exec (.conversionStart c) s = .next (s.reqBegun c 1 q r) := by
  rw [exec_conversionStart run free, none₃, none₂, single]
  exact congrArg _ ((if_neg (Bool.eq_false_iff.1 pool)).trans (if_neg (Bool.eq_false_iff.1 open_)))

theorem exec_conversionStart_scan {x : Nat × Nat} {r : List (Nat × Nat)} (none₁ : s.singleNext = none) (scan : s.scanFor c = some (x, r)) :
    exec (.conversionStart c) s = .next (s.scanBegun c x r) := by
  rw [exec_conversionStart run free, none₃, none₂, none₁, scan]
  exact congrArg _ ((if_neg (Bool.eq_false_iff.1 pool)).trans (if_neg (Bool.eq_false_iff.1 open_)))

end
end
end

/-! The end of a conversion (R309, R320). -/

/-- Converter `c` has given the code of conversion `v`. -/
def State.convResult (s : State) (c : Fin 4) (code : BitVec 12) (v : Conv) : State :=
  ({ s.due (v.start + 40) with adc := { (s.due (v.start + 40)).adc with cvs := tset (s.due (v.start + 40)).adc.cvs c none none } } : State).adcResult
    v.kind v.ch c code.toNat

section
variable {s : State} {c : Fin 4} {code : BitVec 12}

theorem State.convEnd_of_own {v : Conv} (own : v.kind ≠ 4) : s.convEnd c code.toNat v = ((s.convResult c code v).frameDone v.frame).adcPump := by
  unfold State.convEnd
  dsimp only
  rw [if_neg own]
  rfl

/-- A conversion that the Doubles pair had in progress when it stopped gives its last sample. -/
theorem State.convEnd_of_double {v : Conv} (double : v.kind = 4) :
    s.convEnd c code.toNat v = (((s.convResult c code v).set F.ADC_DBL_STAT_LAST code.toNat).frameDone v.frame).adcPump := by
  unfold State.convEnd
  dsimp only
  rw [if_pos double]
  rfl

theorem exec_conversionEnd_of_off (off : s.dev.mode ≠ .run) : exec (.conversionEnd c code) s = .next s :=
  congrArg Host.Outcome.next (if_neg (Bool.eq_false_iff.1 (State.inMode_of_ne off)))

variable (run : s.dev.mode = .run)
include run

theorem exec_conversionEnd {v : Conv} (busy : tget s.adc.cvs c none = some v) :
    exec (.conversionEnd c code) s = .next (if v.kind = 3 then (s.convEnd c code.toNat v).thmResult v.ch else s.convEnd c code.toNat v) := by
  change execConversionEnd c code s = _
  unfold execConversionEnd
  rw [if_pos (show s.adcOn = true from State.inMode_of_eq run), busy]

theorem exec_conversionEnd_urgent {v : Conv} (busy : tget s.adc.cvs c none = some v) (urgent : v.kind = 3) :
    exec (.conversionEnd c code) s = .next ((((s.convResult c code v).frameDone v.frame).adcPump).thmResult v.ch) := by
  rw [exec_conversionEnd run busy, if_pos urgent, State.convEnd_of_own (by omega)]

theorem exec_conversionEnd_own {v : Conv} (busy : tget s.adc.cvs c none = some v) (other : v.kind ≠ 3) (own : v.kind ≠ 4) :
    exec (.conversionEnd c code) s = .next (((s.convResult c code v).frameDone v.frame).adcPump) := by
  rw [exec_conversionEnd run busy, if_neg other, State.convEnd_of_own own]

theorem exec_conversionEnd_double {v : Conv} (busy : tget s.adc.cvs c none = some v) (double : v.kind = 4) :
    exec (.conversionEnd c code) s = .next ((((s.convResult c code v).set F.ADC_DBL_STAT_LAST code.toNat).frameDone v.frame).adcPump) := by
  rw [exec_conversionEnd run busy, if_neg (by omega), State.convEnd_of_double double]

theorem exec_conversionEnd_sample (free : tget s.adc.cvs c none = none) (member : s.dblMember c = true)
    (turn : c.val % 2 = (if s.adc.dblOdd = true then 1 else 0)) (going : s.adc.dblHeld = false ∨ s.get F.SEQ_STAT_PHASE ≠ 6) :
    exec (.conversionEnd c code) s = .next (s.dblSample c code.toNat) := by
  have gives : s.dblTurn c = true := by
    have alternates : c.val % 2 = b2n s.adc.dblOdd := turn
    rw [State.dblTurn, member, decide_eq_true alternates]
    rcases going with h | h
    · rw [h]
      rfl
    · rw [decide_eq_false h, Bool.and_false]
      rfl
  change execConversionEnd c code s = _
  unfold execConversionEnd
  rw [if_pos (show s.adcOn = true from State.inMode_of_eq run), free]
  exact congrArg _ (if_pos gives)

end

/-! Scan rounds (R317, R318). -/

/-- What a round start with the settings of Doubles keeps of the state. -/
structure State.RoundKept (t s : State) : Prop where
  rounds : t.get F.ADC_STAT_ROUNDS = s.get F.ADC_STAT_ROUNDS
  queue : t.adc.queue = s.adc.queue
  nv : t.nv = s.nv
  now : t.now = s.now
  pending : t.pending = s.pending

theorem State.dblTake_kept (s : State) : s.dblTake.RoundKept s := by
  unfold State.dblTake
  split
  · exact ⟨rfl, rfl, rfl, rfl, rfl⟩
  · extract_lets on s0 __src t
    have cut : s0.RoundKept s := by
      unfold s0
      split <;> exact ⟨rfl, rfl, rfl, rfl, rfl⟩
    have taken : t.RoundKept s := by
      refine ⟨?_, cut.queue, cut.nv, cut.now, cut.pending⟩
      exact (State.get_set_of_ne _ _ (by decide)).trans cut.rounds
    split
    · exact ⟨taken.rounds, taken.queue, taken.nv, taken.now, taken.pending⟩
    · exact taken

theorem State.not_scanBusy {s : State} (done : s.adc.scan = []) (none : ∀ c v, c < 4 → tget s.adc.cvs c none = some v → v.kind ≠ 0) :
    s.scanBusy = false := by
  rw [State.scanBusy, done, List.any_eq_false.2]
  · rfl
  · intro c hc
    split
    · rename_i v hv
      rw [decide_eq_true_iff]
      exact none c v (List.mem_range.1 hc) hv
    · exact Bool.false_ne_true

/-- The round that begins now, where none has begun before, with Doubles' settings taken in `t`. -/
def State.roundBegun (s t : State) : State :=
  let l := t.scanList
  let np := t.pool.length
  let s2 := t.setAdc { t.adc with
    scan := (List.range l.length).map fun i => (l.getD i 0, scanCv t.pool (t.get F.ADC_STAT_ROUNDS) i (l.getD i 0))
    roundAt := some t.now, per := s.get F.ADC_CFG_PER, refA := none }
  ((((s2.put F.ADC_SCAN_STATUS_STRETCH s2.dblAct).set F.ADC_SCAN_STATUS_NE l.length).set F.ADC_SCAN_STATUS_NP np).set F.ADC_SCAN_STATUS_PERIOD
    (max ((l.length + np - 1) / np) (4 * s.get F.ADC_CFG_PER))).incWrapF F.ADC_STAT_ROUNDS

theorem exec_scanRoundStart {s : State} (run : s.dev.mode = .run) (scan : s.flag F.ADC_CFG_SCAN = true) (idle : s.scanBusy = false)
    (first : s.adc.roundAt = none) : exec .scanRoundStart s = .next (s.roundBegun s.dblTake) := by
  change execScanRoundStart s = _
  unfold execScanRoundStart
  rw [if_pos ⟨State.inMode_of_eq run, scan, Bool.eq_false_iff.1 idle⟩, first]
  rfl

theorem exec_scanRoundStart_of_not {s : State} (h : s.dev.mode ≠ .run ∨ s.flag F.ADC_CFG_SCAN = false ∨ s.scanBusy = true) :
    exec .scanRoundStart s = .next s := by
  refine congrArg Host.Outcome.next (if_neg ?_)
  rintro ⟨run, scan, idle⟩
  rcases h with h | h | h
  · exact h (of_decide_eq_true run)
  · exact Bool.eq_false_iff.1 h scan
  · exact idle h

theorem map_fst_getD (l : List Nat) (f : Nat → Nat) : ((List.range l.length).map fun i => (l.getD i 0, f i)).map Prod.fst = l := by
  refine List.ext_getElem (by simp) fun i h _ => ?_
  simp at h ⊢
  rw [List.getElem?_eq_getElem h, Option.getD_some]

theorem State.roundBegun_scan (s t : State) : (s.roundBegun t).adc.scan.map Prod.fst = t.scanList := map_fst_getD _ _

theorem State.roundBegun_rounds (s t : State) :
    (s.roundBegun t).get F.ADC_STAT_ROUNDS = (t.get F.ADC_STAT_ROUNDS + 1) % 2 ^ F.ADC_STAT_ROUNDS.w := by
  unfold State.roundBegun
  dsimp only
  rw [State.incWrapF, State.get_set, State.get_set_of_ne _ _ (by decide), State.get_set_of_ne _ _ (by decide), State.get_set_of_ne _ _ (by decide),
    State.put, State.get_set_of_ne _ _ (by decide), State.get_setAdc]

theorem State.roundBegun_kept (s t : State) : (s.roundBegun t).adc.roundAt = some t.now ∧ (s.roundBegun t).adc.queue = t.adc.queue ∧
    (s.roundBegun t).nv = t.nv ∧ (s.roundBegun t).now = t.now ∧ (s.roundBegun t).pending = t.pending := by
  simp [State.roundBegun, State.incWrapF, State.put]

/-! Captures (R320). -/

section
variable {s : State}

/-- The capture that request `q` starts; the queue keeps `r`. -/
def State.captureBegun (s : State) (q : AdcReq) (r : List AdcReq) : State :=
  (({ s with adc := { s.adc with queue := r, capture := some (q.pip, []) } } : State).set F.ADC_DBL_STAT_BUSY 1).set F.ADC_DBL_STAT_PIP q.pip

theorem exec_dblCaptureStart {q : AdcReq} {r : List AdcReq} (run : s.dev.mode = .run) (active : s.dblAct = true) (free : s.adc.capture = none)
    (oldest : takeFirst (fun q => decide (q.kind = 2 ∧ q.ch = s.adc.dblCh)) s.adc.queue = some (q, r)) :
    exec .dblCaptureStart s = .next (if q.late then (s.captureBegun q r).set F.ADC_STAT_PIP_LATE 1 else s.captureBegun q r) := by
  change execDblCaptureStart s = _
  unfold execDblCaptureStart
  rw [if_pos ⟨State.inMode_of_eq run, active, free⟩, oldest]
  rfl

theorem exec_adcDblDone {p : Nat} {l : List Nat} (capture : s.adc.capture = some (p, l)) :
    exec .adcDblDone s = .next (if l.length = 64 then
      ((((s.setAdc { s.adc with capture := none }).set F.ADC_DBL_STAT_BUSY 0).set F.ADC_DBL_STAT_DONE 1).emit 9 3
        [(s.adc.dblCh, 1), (0, 1), (p, 2), (l.foldl min 4095, 2), (l.foldl max 0, 2)]).adcPump else s) := by
  change execAdcDblDone s = _
  unfold execAdcDblDone
  rw [capture]

theorem exec_adcDblDone_of_none (none : s.adc.capture = none) : exec .adcDblDone s = .next s := by
  change execAdcDblDone s = _
  unfold execAdcDblDone
  rw [none]

end

/-! Writes of the Doubles settings and of the windows (R311, R320, R322 to R324). -/

section
variable {s : State} {v : Word} (bus : s.injects 4 = false)
include bus

theorem exec_adcDblCfgWrite (open_ : s.writeOk 0x2440 = true) : exec (.adcDblCfgWrite v) s = .next ((s.dblCfgWrite v.toNat).getD s) :=
  congrArg Host.Outcome.next (s.bus_quiet _ _ open_ bus)

theorem exec_adcDblCfgWrite_taken (open_ : s.writeOk 0x2440 = true) (claimed : bitOf v.toNat 31 = false ∨ s.flag F.ADC_DBL_CFG_CLAIMED = true)
    (channel : v.toNat % 128 ≤ 103) (free : s.ainRefused (v.toNat % 128) = false) :
    exec (.adcDblCfgWrite v) s = .next ((s.put F.ADC_DBL_CFG_EN (bitOf v.toNat 31)).set F.ADC_DBL_CFG_CH (v.toNat % 128)) := by
  rw [exec_adcDblCfgWrite bus open_, State.dblCfgWrite, if_neg ?_, Option.getD_some]
  rintro (⟨en, unclaimed⟩ | h | h)
  · rcases claimed with h | h
    · exact Bool.eq_false_iff.1 h en
    · exact unclaimed h
  · omega
  · exact Bool.eq_false_iff.1 free h

theorem exec_adcDblCfgWrite_refused (open_ : s.writeOk 0x2440 = true)
    (bad : (bitOf v.toNat 31 = true ∧ s.flag F.ADC_DBL_CFG_CLAIMED = false) ∨ 103 < v.toNat % 128 ∨ s.ainRefused (v.toNat % 128) = true) :
    exec (.adcDblCfgWrite v) s = .next s := by
  rw [exec_adcDblCfgWrite bus open_, State.dblCfgWrite, if_pos (bad.imp_left fun h => ⟨h.1, Bool.eq_false_iff.1 h.2⟩), Option.getD_none]

variable {n : Fin 32} {thr : Bool} (open_ : s.writeOk (0x2500 + 8 * n) = true)
include open_

theorem exec_adcWinConfig : exec (.adcWinConfig n thr v) s = .next ((s.winWrite n thr v.toNat).getD s) :=
  congrArg Host.Outcome.next (s.bus_quiet _ _ open_ bus)

theorem exec_adcWinConfig_foreign (foreign : s.ownedBy 5 n hostOwner = false) : exec (.adcWinConfig n thr v) s = .next s := by
  rw [exec_adcWinConfig bus open_, State.winWrite, if_neg (Bool.eq_false_iff.1 foreign), Option.getD_none]

variable (own : s.ownedBy 5 n hostOwner = true)
include own

theorem exec_adcWinConfig_reserved (reserved : winReserved thr v.toNat = true) : exec (.adcWinConfig n thr v) s = .next s.setDisc := by
  rw [exec_adcWinConfig bus open_, State.winWrite, if_pos own, if_pos reserved, Option.getD_some]

theorem exec_adcWinConfig_taken (good : winReserved thr v.toNat = false) (channel : thr = true ∨ s.ainRefused (bits v.toNat 0 7) = false) :
    exec (.adcWinConfig n thr v) s = .next (s.winConfig n thr v.toNat) := by
  rw [exec_adcWinConfig bus open_, State.winWrite, if_pos own, if_neg (Bool.eq_false_iff.1 good), if_neg ?_, Option.getD_some]
  rintro ⟨cfg, refused⟩
  rcases channel with h | h
  · exact cfg h
  · exact Bool.eq_false_iff.1 h refused

end

/-! Results (R321). -/

section
variable {s : State} {ch : Nat}

/-- A result's registers, and the time of its channel. -/
def State.resWritten (s : State) (kind ch cv c : Nat) : State :=
  ((((s.set (F.ADC_RES_CODE ch) c).set (F.ADC_RES_CV ch) cv).set (F.ADC_RES_KIND ch) kind).set (F.ADC_RES_VALID ch) 1).incWrapF (F.ADC_RES_CNT ch)

theorem State.diagEval_of_low (low : ch < 64) (kind cv c : Nat) : s.diagEval kind ch cv c = s := by
  have none : ¬ ch = 92 ∧ ¬ ch = 93 ∧ ¬ ch = 94 ∧ ¬ ch = 95 ∧ ¬ ch = 96 ∧ ¬ ch = 64 ∧ ¬ ch = 65 ∧ ¬ (68 ≤ ch ∧ ch ≤ 77) := by omega
  obtain ⟨h92, h93, h94, h95, h96, h64, h65, hTemp⟩ := none
  unfold State.diagEval
  rw [if_neg h92, if_neg h93, if_neg h94, if_neg h95, if_neg h96, if_neg h64, if_neg h65, if_neg hTemp, ite_self]

/-- Nothing that changes neither the diagnostic failures nor the alarm states of windows raises a source. -/
theorem adcRaises_of_same {t : State} (diag : t.get F.ADC_DIAG_FAIL = s.get F.ADC_DIAG_FAIL) (win : t.get F.ADC_WIN_STATE_ALARM = s.get F.ADC_WIN_STATE_ALARM) :
    adcRaises s t = [] := by
  have none : ∀ b : Bool, (b && !b) = false := by decide
  rw [adcRaises, List.append_eq_nil_iff, List.map_eq_nil_iff, List.map_eq_nil_iff, List.filter_eq_nil_iff, List.filter_eq_nil_iff]
  constructor
  · intro k _
    rw [State.bitF, State.bitF, diag, none]
    exact Bool.false_ne_true
  · intro n _
    rw [State.bitF, State.bitF, win, none, Bool.false_and]
    exact Bool.false_ne_true

theorem State.raiseAll_nil (s : State) : s.raiseAll [] = s := rfl

/-- Any field but the result's own reads as before. -/
theorem State.resWritten_get {kind cv c : Nat} {g : FRef} (h : g.key / 32 ≠ 0x2600 + 4 * ch) : (s.resWritten kind ch cv c).get g = s.get g := by
  have apart : ∀ k, k < 32 → g.key ≠ (0x2600 + 4 * ch) * 32 + k := by
    intro k hk e
    rw [e] at h
    omega
  rw [State.resWritten, State.incWrapF, State.get_set_of_ne _ _ (apart 24 (by decide)), State.get_set_of_ne _ _ (apart 15 (by decide)),
    State.get_set_of_ne _ _ (apart 20 (by decide)), State.get_set_of_ne _ _ (apart 16 (by decide)), State.get_set_of_ne _ _ (apart 0 (by decide))]

/-- With no window enabled, a result of a channel with no diagnostic check is written, and no more. -/
theorem State.adcResult_of_plain (low : ch < 64) (none : ∀ n, n < 32 → s.flag (F.ADC_WIN_CFG_EN n) = false) (kind cv c : Nat) :
    ∃ a : Adc, a.queue = s.adc.queue ∧ s.adcResult kind ch cv c = (s.resWritten kind ch cv c).setAdc a := by
  have windows : ((List.range 32).filter fun n => s.flag (F.ADC_WIN_CFG_EN n) && decide (s.get (F.ADC_WIN_CFG_CH n) = ch)) = [] := by
    refine List.filter_eq_nil_iff.2 fun n hn => ?_
    rw [none n (List.mem_range.1 hn), Bool.false_and]
    exact Bool.false_ne_true
  unfold State.adcResult
  extract_lets s1 ntc __src s2 s3 s4
  have plain : s4 = s2 := by
    unfold s4 s3
    rw [windows, State.diagEval_of_low low]
    rfl
  have written : s2 = (s.resWritten kind ch cv c).setAdc { s.adc with times := tset s.adc.times ch 0 (s.now + 1), ntcAt := ntc } := rfl
  refine ⟨{ s.adc with times := tset s.adc.times ch 0 (s.now + 1), ntcAt := ntc }, rfl, ?_⟩
  rw [adcRaises_of_same, State.raiseAll_nil, plain, written]
  · rw [plain, written, State.get_setAdc]
    exact State.resWritten_get (by change (0x2408 * 32 + 16) / 32 ≠ _; omega)
  · rw [plain, written, State.get_setAdc]
    exact State.resWritten_get (by change (0x2450 * 32 + 0) / 32 ≠ _; omega)

/-- The fields of a result read as it wrote them. -/
theorem State.resWritten_own (kind cv c : Nat) :
    (s.resWritten kind ch cv c).get (F.ADC_RES_CODE ch) = c % 2 ^ (F.ADC_RES_CODE ch).w ∧ (s.resWritten kind ch cv c).get (F.ADC_RES_VALID ch) = 1 ∧
      (s.resWritten kind ch cv c).get (F.ADC_RES_CV ch) = cv % 2 ^ (F.ADC_RES_CV ch).w ∧
      (s.resWritten kind ch cv c).get (F.ADC_RES_KIND ch) = kind % 2 ^ (F.ADC_RES_KIND ch).w ∧
      (s.resWritten kind ch cv c).get (F.ADC_RES_CNT ch) = (s.get (F.ADC_RES_CNT ch) + 1) % 2 ^ (F.ADC_RES_CNT ch).w := by
  have apart : ∀ j k w w' r r', j ≠ k → (fr (0x2600 + 4 * ch) j w r).key ≠ (fr (0x2600 + 4 * ch) k w' r').key := by
    intro j k w w' r r' ne e
    exact ne (Nat.add_left_cancel e)
  unfold State.resWritten State.incWrapF
  refine ⟨?_, ?_, ?_, ?_, ?_⟩
  · rw [State.get_set_of_ne _ _ (apart _ _ _ _ _ _ (by decide)), State.get_set_of_ne _ _ (apart _ _ _ _ _ _ (by decide)),
      State.get_set_of_ne _ _ (apart _ _ _ _ _ _ (by decide)), State.get_set_of_ne _ _ (apart _ _ _ _ _ _ (by decide)), State.get_set]
  · rw [State.get_set_of_ne _ _ (apart _ _ _ _ _ _ (by decide)), State.get_set]
    rfl
  · rw [State.get_set_of_ne _ _ (apart _ _ _ _ _ _ (by decide)), State.get_set_of_ne _ _ (apart _ _ _ _ _ _ (by decide)),
      State.get_set_of_ne _ _ (apart _ _ _ _ _ _ (by decide)), State.get_set]
  · rw [State.get_set_of_ne _ _ (apart _ _ _ _ _ _ (by decide)), State.get_set_of_ne _ _ (apart _ _ _ _ _ _ (by decide)), State.get_set]
  · rw [State.get_set, State.get_set_of_ne _ _ (apart _ _ _ _ _ _ (by decide)), State.get_set_of_ne _ _ (apart _ _ _ _ _ _ (by decide)),
      State.get_set_of_ne _ _ (apart _ _ _ _ _ _ (by decide)), State.get_set_of_ne _ _ (apart _ _ _ _ _ _ (by decide))]

end

/-! Windows (R322, R323). -/

section
variable {s : State} {n ch c : Nat}

/-- The counts of window `n`. -/
def State.winCounted (s : State) (n : Nat) (k : Nat × Nat) : State := { s with adc := { s.adc with win := tset s.adc.win n (0, 0) k } }

/-- The counts that a window which is clear has, with one more for an alarm result and none after another one. -/
theorem State.winEval_of_clear (clear : s.bitF F.ADC_WIN_STATE_ALARM n = false) :
    s.winEval n ch c =
      if s.winAlarm n c = true ∧ s.get (F.ADC_WIN_CFG_FILT n) ≤ (tget s.adc.win n (0, 0)).1 + 1 then (s.winCounted n (0, 0)).winEnter n ch c
      else s.winCounted n (if s.winAlarm n c then (tget s.adc.win n (0, 0)).1 + 1 else 0, 0) := by
  unfold State.winEval
  rw [clear]
  cases s.winAlarm n c with
  | true =>
    by_cases h : s.get (F.ADC_WIN_CFG_FILT n) ≤ (tget s.adc.win n (0, 0)).1 + 1
    · simp [h, State.winCounted, State.setAdc]
    · simp [h, State.winCounted, State.setAdc]
  | false => simp [State.winCounted, State.setAdc]

/-- A record request that crosses leaves everything but the event unit and the marks of its crossing (R28). -/
theorem State.emitX_frame (s : State) (x src block code colour : Nat) (p : List (Nat × Nat)) :
    ∃ e r, s.emitX x src block code colour p = { s with evt := e, regs := r } := by
  unfold State.emitX
  split
  · split
    · exact ⟨s.evt, _, rfl⟩
    · exact ⟨_, s.regs, rfl⟩
  · exact ⟨s.evt, s.regs, rfl⟩

theorem State.emitX_get (s : State) {x : Nat} (hx : x < 16) (src block code colour : Nat) (p : List (Nat × Nat)) {g : FRef} (h : g.blk ≠ 0) :
    (s.emitX x src block code colour p).get g = s.get g := by
  have flags : g.key ≠ F.SYS_XOVR_FLAGS_OVR.key := by
    intro e
    exact h (by rw [FRef.blk, e]; decide)
  have count : g.key ≠ (fr (0x20 + 4 * (x / 4)) (8 * (x % 4)) 8 0).key := by
    intro e
    refine h ?_
    rw [FRef.blk, e]
    change ((0x20 + 4 * (x / 4)) * 32 + 8 * (x % 4)) / 0x8000 = 0
    omega
  unfold State.emitX
  split
  · split
    · rw [State.overrun, State.incSatF, State.get_set_of_ne _ _ count, State.putBitF, State.get_set_of_ne _ _ flags]
    · rfl
  · rfl

theorem State.winEnter_marks (hn : n < 32) : (s.winEnter n ch c).bitF F.ADC_WIN_STATE_ALARM n = true ∧
    (s.winEnter n ch c).bitF F.ADC_WIN_FLAG_ENTERED n = true := by
  unfold State.winEnter
  dsimp only
  rw [State.bitF, State.bitF, State.emitX_get _ (by decide) _ _ _ _ _ (by decide), State.emitX_get _ (by decide) _ _ _ _ _ (by decide)]
  constructor
  · rw [State.putBitF, State.get_set_of_ne _ _ (by decide)]
    exact s.bitF_putBitF hn
  · exact State.bitF_putBitF _ hn

theorem State.winEnter_adc : (s.winEnter n ch c).adc = s.adc := by
  obtain ⟨e, r, h⟩ := ((s.putBitF F.ADC_WIN_STATE_ALARM n true).putBitF F.ADC_WIN_FLAG_ENTERED n true).emitX_frame 6 n 9 1
    (if decide (s.winOwner n = fltOwner) = true then
      ((s.putBitF F.ADC_WIN_STATE_ALARM n true).putBitF F.ADC_WIN_FLAG_ENTERED n true).effColour 15 else 0)
    [(n, 1), (1, 1), (ch, 1), (((s.putBitF F.ADC_WIN_STATE_ALARM n true).putBitF F.ADC_WIN_FLAG_ENTERED n true).winOwner n, 1), (c, 2)]
  exact (congrArg State.adc h).trans rfl

end

end Sys2Proof.Machine

open Sys2Proof Sys2Proof.Machine

/-- Settles O41: each case of the converters' commands by its own lemma above. -/
theorem converterCommands : Obligations.ConverterCommands := by
  unfold Obligations.ConverterCommands
  refine ⟨fun v s w channel claimed bus => exec_adcReq_taken bus w channel claimed,
    fun n v s w channel claimed single bus => exec_adcUrg_taken bus w channel claimed single,
    fun c q r s run free urgent => exec_conversionStart_urgent run free urgent, ?scan,
    fun c code v s run busy other own => exec_conversionEnd_own run busy other own,
    fun c code v s run busy urgent => exec_conversionEnd_urgent run busy urgent, ?double,
    fun c code s run free member turn going => exec_conversionEnd_sample run free member turn going, ?round, ?capture, ?captured,
    fun v s w claimed channel free bus => exec_adcDblCfgWrite_taken bus w claimed channel free, ?threshold, ?placed, ?placedLate,
    fun c q r s run free pool none₃ none₂ open_ single => exec_conversionStart_single run free none₃ pool none₂ open_ single,
    fun c s run free pool none₃ none₂ held waits => exec_conversionStart_held run free none₃ pool none₂ held waits,
    fun c s run free member none₃ => exec_conversionStart_member run free none₃ member, fun c s => exec_conversionStart_of_busy,
    fun v s w bad bus => exec_adcReq_refused bus w bad, fun n v s w bad bus => exec_adcUrg_refused bus w bad, ?captureLate, ?uncaptured,
    fun s => exec_adcDblDone_of_none, fun n v t s w own reserved bus => exec_adcWinConfig_reserved bus w own reserved,
    fun n v t s w foreign bus => exec_adcWinConfig_foreign bus w foreign,
    fun n v s w own good channel bus => exec_adcWinConfig_taken bus w own good (.inr channel),
    fun v s w bad bus => exec_adcDblCfgWrite_refused bus w bad, fun c code s => exec_conversionEnd_of_off, fun s => exec_scanRoundStart_of_not⟩
  case scan =>
    intro c x r s run free pool empty open_ scan
    have none₃ : s.urgentFor c = none := by rw [State.urgentFor, empty]; rfl
    have none₂ : s.placedNext = none := by rw [State.placedNext, empty]; rfl
    have none₁ : s.singleNext = none := by rw [State.singleNext, empty]; rfl
    exact exec_conversionStart_scan run free none₃ pool none₂ open_ none₁ scan
  case double =>
    intro c code v s run busy double
    rw [exec_conversionEnd_double run busy double, State.convResult, double]
  case round =>
    intro s run scan done first none
    have kept := s.dblTake_kept
    obtain ⟨start, queue, nv, now, pending⟩ := s.roundBegun_kept s.dblTake
    refine ⟨_, exec_scanRoundStart run scan (State.not_scanBusy done none) first, s.roundBegun_scan _, ?_, queue.trans kept.queue, ?_,
      nv.trans kept.nv, now.trans kept.now, pending.trans kept.pending⟩
    · rw [start, kept.now]
    · rw [State.roundBegun_rounds, kept.rounds]
  case capture =>
    intro q r s run active free oldest early
    rw [exec_dblCaptureStart run active free oldest, if_neg (Bool.eq_false_iff.1 early)]
    rfl
  case captureLate =>
    intro q r s run active free oldest late
    rw [exec_dblCaptureStart run active free oldest, if_pos late]
    rfl
  case captured =>
    intro p l s capture full
    rw [exec_adcDblDone capture, if_pos full]
    rfl
  case uncaptured =>
    intro p l s capture short
    rw [exec_adcDblDone capture, if_neg short]
  case threshold =>
    intro n v s w own le bus
    exact exec_adcWinConfig_taken bus w own (decide_eq_false (Nat.not_lt.2 le)) (.inl rfl)
  case placed =>
    intro c q r s run free pool none₃ placed early
    exact (exec_conversionStart_placed run free none₃ pool placed).trans (congrArg _ (if_neg (Bool.eq_false_iff.1 early)))
  case placedLate =>
    intro c q r s run free pool none₃ placed late
    exact (exec_conversionStart_placed run free none₃ pool placed).trans (congrArg _ (if_pos late))

/-- Settles O42: the result of a plain channel is its registers alone, and a clear window counts, enters alarm or counts anew. -/
theorem resultsAndWindows : Obligations.ResultsAndWindows := by
  unfold Obligations.ResultsAndWindows
  refine ⟨?result, ?counted, ?entered, ?restarted⟩
  case result =>
    intro s k ch cv c low none
    obtain ⟨a, queue, plain⟩ := s.adcResult_of_plain low none k cv c
    obtain ⟨code, valid, converter, kind, count⟩ := s.resWritten_own (ch := ch) k cv c
    rw [plain]
    refine ⟨code, valid, converter, kind, count, fun j _ other => ?_, queue, rfl, rfl⟩
    rw [State.get_setAdc]
    refine State.resWritten_get ?_
    change ((0x2600 + 4 * j) * 32 + 0) / 32 ≠ _
    omega
  case counted =>
    intro s n ch c _ clear alarm few
    rw [State.winEval_of_clear clear, if_neg (fun h => Nat.not_le.2 few h.2), if_pos alarm]
    rfl
  case entered =>
    intro s n ch c hn clear alarm many _
    obtain ⟨state, flag⟩ := State.winEnter_marks (s := s.winCounted n (0, 0)) (ch := ch) (c := c) hn
    rw [State.winEval_of_clear clear, if_pos ⟨alarm, many⟩, State.winEnter_adc]
    exact ⟨state, flag, tget_tset_same _ _ _ _⟩
  case restarted =>
    intro s n ch c _ clear quiet
    rw [State.winEval_of_clear clear, if_neg (fun h => Bool.eq_false_iff.1 quiet h.1), if_neg (Bool.eq_false_iff.1 quiet)]
    rfl
end

section
/-! The thermal evaluation, its warnings, the shutdown and its release (R327 to R337). -/

namespace Sys2Proof.Machine

/-! Bits that a clearing leaves. -/

theorem bits_one (x i : Nat) : bits x i 1 = x / 2 ^ i % 2 := rfl

theorem bitOf_clrBit (x i : Nat) : bitOf (clrBit x i) i = false := by
  unfold clrBit
  split
  case isTrue h =>
    have odd : x / 2 ^ i % 2 = 1 := of_decide_eq_true h
    have halves : (x - 2 ^ i) / 2 ^ i = x / 2 ^ i - 1 := by
      have := Nat.sub_mul_div x (2 ^ i) 1
      rwa [Nat.mul_one] at this
    refine decide_eq_false ?_
    rw [bits_one, halves]
    omega
  case isFalse h => exact Bool.eq_false_iff.2 h

/-- Clearing the top bit of a 32-bit register leaves a clear bit 30 clear. -/
theorem bitOf_clrBit_top {x : Nat} (h : bitOf x 30 = false) : bitOf (clrBit x 31) 30 = false := by
  unfold clrBit
  split
  case isTrue top =>
    have odd : x / 2 ^ 31 % 2 = 1 := of_decide_eq_true top
    have even : ¬ x / 2 ^ 30 % 2 = 1 := of_decide_eq_false h
    refine decide_eq_false ?_
    rw [bits_one]
    omega
  case isFalse => exact h

/-! Evaluations (R327). -/

section
variable {s : State}

/-- The time of an evaluation, with the next one 100 µs later. -/
def State.thmDue (s : State) : State :=
  { s.due s.thm.next with thm := { (s.due s.thm.next).thm with next := (s.due s.thm.next).now + 100 * engPerUs } }

/-- The inputs whose results are stale. -/
def State.thmStale (s : State) : List Nat := s.thmInputs.filter fun ch => s.stale ch

theorem exec_thermalEval (run : s.dev.mode = .run) (none : s.thm.waits = []) : exec .thermalEval s = .next s.thmDue.thmTry :=
  congrArg Host.Outcome.next (if_pos ⟨State.inMode_of_eq run, none⟩)

theorem State.thmTry_of_fresh (fresh : s.thmStale = []) : s.thmTry = s.thmEval := if_pos fresh

theorem State.thmTry_of_stale {ch : Nat} (stale : s.thmStale = [ch]) :
    s.thmTry = ({ s with thm := { s.thm with waits := [ch] } } : State).adcPush ⟨3, ch, s.pool.headD 0, 0, false, none⟩ := by
  have some_ : ¬ s.thmStale = [] := by rw [stale]; exact List.cons_ne_nil _ _
  refine (if_neg some_).trans ?_
  change s.thmStale.foldl _ ({ s with thm := { s.thm with waits := s.thmStale } } : State) = _
  rw [stale]
  rfl

theorem State.thmResult_of_last {ch : Nat} (last : s.thm.waits = [ch]) :
    s.thmResult ch = ({ s with thm := { s.thm with waits := [] } } : State).thmTry := by
  have left : ([ch].filter fun c => decide (c ≠ ch)) = [] := by simp
  unfold State.thmResult
  dsimp only
  rw [last, left, if_pos (by simp), if_pos rfl]

theorem State.thmResult_of_other {ch : Nat} (other : ch ∉ s.thm.waits) : s.thmResult ch = s :=
  if_neg (by rwa [List.contains_iff_mem])

end

/-! The shutdown and its release (R335 to R337). -/

section
variable {s : State}

/-- Everything that sensor `k` turns off and reports at the shutdown level, before a PMID shutdown is requested. -/
def State.shutOff (s : State) (k : Nat) : State :=
  (((((s.set F.THM_STAT_LATCH 1).thermalOff).set F.THM_STAT_SD 1).emitC 0xA 3 ((((s.set F.THM_STAT_LATCH 1).thermalOff).set F.THM_STAT_SD 1).effColour 32)
    [(k, 1), (s.dev.mode.code, 1), (s.get F.THM_TJ_TJ, 2)]).raise 32 0)

theorem exec_thermalShutdown {k : Fin 10} (mode : s.dev.mode = .run ∨ s.dev.mode = .park ∨ s.dev.mode = .black ∨ s.dev.mode = .boot)
    (stage : s.dev.stage ≠ .waiting) :
    exec (.thermalShutdown k) s = .next (if (s.shutOff k).inMode .run = true ∨ (s.shutOff k).inMode .park = true then (s.shutOff k).pmidRequest
      else s.shutOff k) := by
  refine congrArg Host.Outcome.next (if_pos ⟨?_, stage⟩)
  exact mode.imp State.inMode_of_eq (Or.imp State.inMode_of_eq (Or.imp State.inMode_of_eq State.inMode_of_eq))

theorem exec_hibTs6Check (hibernate : s.dev.mode = .hibernate) (latch : s.flag F.THM_STAT_LATCH = true) :
    exec (.hibTs6Check true) s = .next (if s.dev.wakeLatch ≠ 0 ∧ s.aoGood = true then (s.set F.THM_STAT_LATCH 0).wakeBoot
      else s.set F.THM_STAT_LATCH 0) :=
  congrArg Host.Outcome.next (if_pos ⟨State.inMode_of_eq hibernate, rfl, latch⟩)

end

/-! Warnings (R332). -/

section
variable {s : State}

theorem State.unraise_get (s : State) (src : Nat) {g : FRef} (h : g.blk ≠ 11) : (s.unraise src).get g = s.get g := by
  refine s.get_set_of_ne _ fun e => h ?_
  rw [FRef.blk, e]
  exact (actField_facts src).1

theorem State.setThm_thm (s : State) (x : Thm) : (s.setThm x).thm = x := by
  unfold State.setThm
  dsimp only
  split <;> split <;> rfl

/-- The thermal states with `THM_STAT`, before the level sources follow them. -/
def State.thmShown (s : State) (x : Thm) : State :=
  (({ s with thm := x } : State).put F.THM_STAT_WARN (x.jWarn || x.bWarn)).put F.THM_STAT_THROT (x.jThr || x.bThr)

theorem State.setThm_get (s : State) (x : Thm) {g : FRef} (h : g.blk ≠ 11) : (s.setThm x).get g = (s.thmShown x).get g := by
  unfold State.setThm
  dsimp only
  split <;> split
  · rfl
  · exact State.unraise_get _ _ h
  · exact State.unraise_get _ _ h
  · exact (State.unraise_get _ _ h).trans (State.unraise_get _ _ h)

theorem State.setThm_get_warn (s : State) (x : Thm) : (s.setThm x).get F.THM_STAT_WARN = b2n (x.jWarn || x.bWarn) := by
  rw [State.setThm_get _ _ (by decide), State.thmShown, State.put, State.get_set_of_ne _ _ (by decide), State.put, State.get_set]
  cases (x.jWarn || x.bWarn) <;> rfl

theorem State.active_unraise (s : State) : (s.unraise 30).active 30 = false := by
  rw [State.active, State.bitF, State.unraise, State.setActive, State.putBitF, State.get_set, bitOf_mod _ (by decide)]
  exact bitOf_clrBit _ 30

theorem State.active_unraise_throttle (h : s.active 30 = false) : (s.unraise 31).active 30 = false := by
  rw [State.active, State.bitF, State.unraise, State.setActive, State.putBitF]
  change bitOf ((s.set F.FLT_ACT0_ACT (putBit (s.get F.FLT_ACT0_ACT) 31 false)).get F.FLT_ACT0_ACT) 30 = false
  rw [State.get_set, bitOf_mod _ (by decide)]
  exact bitOf_clrBit_top h

theorem State.setThm_ends {x : Thm} (s : State) (junction : x.jWarn = false) (board : x.bWarn = false) : (s.setThm x).active 30 = false := by
  have off : ¬ (x.jWarn || x.bWarn) = true := by
    rw [junction, board]
    decide
  unfold State.setThm
  dsimp only
  rw [if_neg off]
  split
  · exact State.active_unraise _
  · exact State.active_unraise_throttle (State.active_unraise _)

variable {t w : Int} {k : Nat}

theorem State.warnEval_starts (off : s.thm.jWarn = false) (hot : w ≤ t) :
    s.warnEval false t w k = ((s.setThm { s.thm with jWarn := true }).set F.THM_STAT_WARN_SEEN 1).emitC 0xA 1
      (((s.setThm { s.thm with jWarn := true }).set F.THM_STAT_WARN_SEEN 1).effColour 30) [(1, 1), (b2n false, 1), (unsigned t 16, 2), (k, 1)] := by
  refine if_pos ⟨?_, hot⟩
  change ¬ s.thm.jWarn = true
  rw [off]
  decide

theorem State.warnEval_stays_off (off : s.thm.jWarn = false) (cool : t < w) : s.warnEval false t w k = s := by
  refine (if_neg fun h => Int.not_lt.2 h.2 cool).trans (if_neg ?_)
  rintro ⟨on, -⟩
  exact Bool.eq_false_iff.1 off on

theorem State.warnEval_of_on (on : s.thm.jWarn = true) :
    s.warnEval false t w k = if t < w - 8 * s.get F.THM_CFG_HYST then
      (s.setThm { s.thm with jWarn := false }).emit 0xA 1 [(0, 1), (b2n false, 1), (unsigned t 16, 2), (k, 1)] else s := by
  refine (if_neg fun h => h.1 on).trans (if_congr ?_ rfl rfl)
  exact and_iff_right on

end

end Sys2Proof.Machine

open Sys2Proof Sys2Proof.Machine

/-- Settles O43: the evaluation by its stale inputs, the shutdown and its release by the state, and a warning by where the temperature lies. -/
theorem thermalCommands : Obligations.ThermalCommands := by
  unfold Obligations.ThermalCommands
  refine ⟨?fresh, fun ch s => State.thmTry_of_stale, ?stale, fun s ch => State.thmResult_of_last, fun s ch => State.thmResult_of_other, ?shutIdle,
    ?shutRun, ?released, ?woken, fun s t w k => State.warnEval_stays_off, ?stays, ?starts, ?raises, ?ends⟩
  case fresh =>
    rintro t s run none rfl fresh
    exact (exec_thermalEval run none).trans (congrArg _ (State.thmTry_of_fresh (s := s.thmDue) fresh))
  case stale =>
    rintro ch t s run none rfl stale
    exact (exec_thermalEval run none).trans (congrArg _ (State.thmTry_of_stale (s := s.thmDue) stale))
  case shutIdle =>
    rintro k s t mode stage rfl
    exact exec_thermalShutdown (.inr (.inr mode)) stage
  case shutRun =>
    rintro k s t mode stage rfl
    exact exec_thermalShutdown (mode.imp_right .inl) stage
  case released =>
    intro s hibernate latch held
    rw [exec_hibTs6Check hibernate latch, if_neg ?_]
    rintro ⟨wake, good⟩
    rcases held with h | h
    · exact wake h
    · exact Bool.eq_false_iff.1 h good
  case woken =>
    intro s hibernate latch wake good
    rw [exec_hibTs6Check hibernate latch, if_pos ⟨wake, good⟩]
  case stays =>
    intro s t w k on warm
    rw [State.warnEval_of_on on, if_neg (Int.not_lt.2 warm)]
  case starts =>
    intro s t w k off hot
    rw [State.warnEval_starts off hot, State.emitC_get, State.emitC_get]
    refine ⟨?_, ?_, State.get_set _ _ _⟩
    · obtain ⟨e, he⟩ := ((s.setThm { s.thm with jWarn := true }).set F.THM_STAT_WARN_SEEN 1).emitC_frame 0xA 1
        (((s.setThm { s.thm with jWarn := true }).set F.THM_STAT_WARN_SEEN 1).effColour 30) [(1, 1), (b2n false, 1), (unsigned t 16, 2), (k, 1)]
      rw [he, State.set_thm, State.setThm_thm]
    · rw [State.get_set_of_ne _ _ (by decide), State.setThm_get_warn, Bool.true_or]
      rfl
  case raises =>
    intro x y
    constructor <;> simp [thmRaises, and_comm]
  case ends =>
    intro s t w k on board cool
    rw [State.warnEval_of_on on, if_pos cool, State.emit]
    refine ⟨?_, ?_, ?_⟩
    · obtain ⟨e, he⟩ := (s.setThm { s.thm with jWarn := false }).emitC_frame 0xA 1 0 [(0, 1), (b2n false, 1), (unsigned t 16, 2), (k, 1)]
      rw [he, State.setThm_thm]
    · rw [State.emitC_get, State.setThm_get_warn, Bool.false_or, board]
      rfl
    · rw [State.active, State.bitF, State.emitC_get]
      exact s.setThm_ends rfl board
end

section
/-! The OTP controller: reads, programmings, the rollback counter, and the bits of a word (R418, R423 to R428). -/

namespace Sys2Proof.Machine

/-! Words of the array. -/

@[simp] theorem State.otpWord_setOtpWord (s : State) (w : Nat) (x : OtpWord) : (s.setOtpWord w x).otpWord w = x := tget_tset_same _ _ _ _

theorem State.otpWord_setOtpWord_of_ne (s : State) {w v : Nat} (x : OtpWord) (h : v ≠ w) : (s.setOtpWord w x).otpWord v = s.otpWord v :=
  tget_tset_other _ _ _ _ h

theorem State.otpBurn_word (s : State) (w d : Nat) : (s.otpBurn w d).otpWord w = (s.otpWord w).burnt d (2 ^ 32 - 1) 255 true :=
  s.otpWord_setOtpWord w _

theorem OtpWord.burnt_data (x : OtpWord) (d m k : Nat) (used : Bool) : (x.burnt d m k used).data = x.data ||| (x.next d &&& m) := by
  unfold OtpWord.burnt
  cases used <;> rfl

theorem OtpWord.burnt_checks (x : OtpWord) (d m k : Nat) : (x.burnt d m k true).checks = x.checks ++ [x.spare ||| (otpCode (x.next d) &&& k)] := rfl

/-- What a torn programming leaves of its word: the two free values decide the cells and the slot. -/
theorem State.otpTorn_word (s : State) (w d : Nat) :
    ∃ m k used, (s.otpTorn w d).otpWord w = (s.otpWord w).burnt d m k used := ⟨_, _, _, State.otpWord_setOtpWord _ w _⟩

theorem State.otpTorn_word_of_ne (s : State) {w v : Nat} (d : Nat) (h : v ≠ w) : (s.otpTorn w d).otpWord v = s.otpWord v :=
  State.otpWord_setOtpWord_of_ne _ _ h

/-! The code of R418. -/

theorem hamming_lt {l : List Nat} (h : ∀ c ∈ l, c < 2 ^ 7) (x : Nat) : hamming l x < 2 ^ 7 := by
  induction l generalizing x with
  | nil => exact Nat.two_pow_pos 7
  | cons c r ih =>
    have head : (if x % 2 = 1 then c else 0) < 2 ^ 7 := by
      split
      · exact h c List.mem_cons_self
      · exact Nat.two_pow_pos 7
    exact Nat.xor_lt_two_pow head (ih (fun a m => h a (List.mem_cons_of_mem c m)) _)

theorem hamming_otpColumns_lt (x : Nat) : hamming otpColumns x < 2 ^ 7 := hamming_lt (by decide) x

/-- The parity of the low bits does not see the higher ones. -/
theorem oddOnes_add_mul (n x k : Nat) : oddOnes n (x + 2 ^ n * k) = oddOnes n x := by
  induction n generalizing x with
  | zero => rfl
  | succ n ih =>
    have double : x + 2 ^ (n + 1) * k = x + 2 * (2 ^ n * k) := by
      rw [Nat.pow_succ, Nat.mul_comm (2 ^ n) 2, Nat.mul_assoc]
    have bit : (x + 2 ^ (n + 1) * k) % 2 = x % 2 := by rw [double, Nat.add_mul_mod_self_left]
    have rest : (x + 2 ^ (n + 1) * k) / 2 = x / 2 + 2 ^ n * k := by
      rw [double, Nat.add_mul_div_left _ _ (by decide)]
    rw [oddOnes, oddOnes, bit, rest, ih]

theorem oddOnes_succ (n x : Nat) : oddOnes (n + 1) x = (oddOnes n x != decide (x / 2 ^ n % 2 = 1)) := by
  induction n generalizing x with
  | zero =>
    rw [oddOnes, oddOnes, oddOnes, Nat.pow_zero, Nat.div_one]
    exact Bool.xor_comm _ _
  | succ n ih =>
    have down : x / 2 / 2 ^ n = x / 2 ^ (n + 1) := by rw [Nat.div_div_eq_div_mul, Nat.pow_succ, Nat.mul_comm]
    rw [oddOnes, ih, down, oddOnes]
    exact (Bool.xor_assoc _ _ _).symm

/-- Data with their own check bits read as they are. -/
theorem OtpWord.read_of_coded (n : Nat) (l : List Nat) (spare : Nat) : (⟨n, l ++ [otpCode n], spare⟩ : OtpWord).read = (n, false, false) := by
  have low := hamming_otpColumns_lt n
  have code : otpCode n = hamming otpColumns n + 2 ^ 7 * b2n (oddOnes 32 n != oddOnes 7 (hamming otpColumns n)) := rfl
  have syndrome : otpCode n % 128 = hamming otpColumns n := by
    rw [code, show 128 = 2 ^ 7 from rfl, Nat.add_mul_mod_self_left, Nat.mod_eq_of_lt low]
  have top : decide (otpCode n / 2 ^ 7 % 2 = 1) = (oddOnes 32 n != oddOnes 7 (hamming otpColumns n)) := by
    rw [code, Nat.add_mul_div_left _ _ (Nat.two_pow_pos 7), Nat.div_eq_of_lt low]
    cases (oddOnes 32 n != oddOnes 7 (hamming otpColumns n)) <;> rfl
  have parity : oddOnes 8 (otpCode n) = oddOnes 32 n := by
    rw [oddOnes_succ 7, top, code, oddOnes_add_mul]
    cases oddOnes 32 n <;> cases oddOnes 7 (hamming otpColumns n) <;> rfl
  unfold OtpWord.read
  rw [List.getLast?_concat]
  dsimp only
  rw [syndrome, Nat.xor_self, if_pos rfl, parity, bne_self_eq_false]

theorem otpCode_lt (n : Nat) : otpCode n < 2 ^ 8 := by
  have low := hamming_otpColumns_lt n
  have bit : b2n (oddOnes 32 n != oddOnes 7 (hamming otpColumns n)) ≤ 1 := by
    cases (oddOnes 32 n != oddOnes 7 (hamming otpColumns n)) <;> decide
  change hamming otpColumns n + 128 * b2n (oddOnes 32 n != oddOnes 7 (hamming otpColumns n)) < 2 ^ 8
  omega

/-- A full programming of a word whose data read as they are, into a blank slot. -/
theorem OtpWord.burnt_full {x : OtpWord} {d : Nat} (data : x.data < 2 ^ 32) (hd : d < 2 ^ 32) (clean : x.value = x.data) (blank : x.spare = 0) :
    x.burnt d (2 ^ 32 - 1) 255 true = ⟨x.data ||| d, x.checks ++ [otpCode (x.data ||| d)], 0⟩ := by
  have next : x.next d = x.data ||| d := by rw [OtpWord.next, clean]
  have cells : (x.data ||| d) &&& (2 ^ 32 - 1) = x.data ||| d := by
    rw [Nat.and_two_pow_sub_one_eq_mod, Nat.mod_eq_of_lt (Nat.or_lt_two_pow data hd)]
  have checks : otpCode (x.data ||| d) &&& 255 = otpCode (x.data ||| d) := by
    rw [show 255 = 2 ^ 8 - 1 from rfl, Nat.and_two_pow_sub_one_eq_mod, Nat.mod_eq_of_lt (otpCode_lt _)]
  have twice : x.data ||| (x.data ||| d) = x.data ||| d := by rw [← Nat.or_assoc, Nat.or_self]
  unfold OtpWord.burnt
  dsimp only
  rw [if_pos rfl, next, cells, checks, twice, blank, Nat.zero_or]

/-! Reads of the array (R423). -/

section
variable {s : State} {v : Word} (bus : s.injects 4 = false)
include bus

theorem exec_otpRead (open_ : s.writeOk 0x4008 = true) : exec (.otpRead v) s = .next (s.otpReadWrite v.toNat) :=
  congrArg Host.Outcome.next (s.bus_quiet _ _ open_ bus)

theorem exec_otpProgram (open_ : s.writeOk 0x4020 = true) : exec .otpProgram s = .next (s.otpProgWrite 0x0F7E0001 none) :=
  congrArg Host.Outcome.next (s.bus_quiet _ _ open_ bus)

theorem exec_otpAdvance (open_ : s.writeOk 0x4020 = true) : exec .otpAdvance s = .next (s.otpProgWrite 0x0F7E0002 none) :=
  congrArg Host.Outcome.next (s.bus_quiet _ _ open_ bus)

end

section
variable {s : State}

/-- The read of word `x` ends. -/
def State.otpReadEnds (s : State) (x : OtpWord) : State :=
  ((((s.set F.OTP_RD_DATA_DATA x.value).set F.OTP_RD_STAT_SLOT x.checks.length).put F.OTP_RD_STAT_UE x.bad).put F.OTP_RD_STAT_CE x.ce).set
    F.OTP_RD_STAT_BUSY 0

theorem exec_otpReadDone {w : Nat} (e : Fin 3) (reading : s.otp.reading = some w) :
    exec (.otpReadDone e) s = .next ((({ s with otp := { s.otp with reading := none } } : State).otpAge w e).otpReadEnds
      ((({ s with otp := { s.otp with reading := none } } : State).otpAge w e).otpWord w)) := by
  change execOtpReadDone e s = _
  rw [execOtpReadDone, reading]
  rfl

theorem exec_otpReadDone_of_none (e : Fin 3) (none : s.otp.reading = none) : exec (.otpReadDone e) s = .next s := by
  change execOtpReadDone e s = _
  rw [execOtpReadDone, none]

/-! Programmings and the counter (R424 to R428). -/

theorem State.otpProgWrite_busy (v : Nat) (busy : s.flag F.OTP_PROG_STAT_BUSY = true) : s.otpProgWrite v none = s := if_pos busy

/-- The registers' word and data, programmed or refused. -/
theorem State.otpProgWrite_program (free : s.flag F.OTP_PROG_STAT_BUSY = false) :
    s.otpProgWrite 0x0F7E0001 none =
      if s.otpRefusal (s.get F.OTP_PROG_ADDR_WORD) (s.get F.OTP_PROG_DATA_DATA) = 0 then
        ({ s with otp := { s.otp with frame := none, advancing := false } } : State).otpBegin (s.get F.OTP_PROG_ADDR_WORD) (s.get F.OTP_PROG_DATA_DATA)
      else ({ s with otp := { s.otp with frame := none, advancing := false } } : State).otpResult (s.get F.OTP_PROG_ADDR_WORD)
        (s.otpRefusal (s.get F.OTP_PROG_ADDR_WORD) (s.get F.OTP_PROG_DATA_DATA)) 0 :=
  (if_neg (Bool.eq_false_iff.1 free)).trans (if_pos rfl)

/-- The counter's next step, programmed or refused. -/
theorem State.otpProgWrite_advance (free : s.flag F.OTP_PROG_STAT_BUSY = false) :
    s.otpProgWrite 0x0F7E0002 none =
      if s.advanceRefusal = 0 then
        ({ s with otp := { s.otp with frame := none, advancing := true } } : State).otpBegin (0x20 + s.otpCounter) 0xFFFFFFFF
      else ({ s with otp := { s.otp with frame := none, advancing := true } } : State).otpResult (0x20 + s.otpCounter) s.advanceRefusal 0 :=
  (if_neg (Bool.eq_false_iff.1 free)).trans ((if_neg (by decide)).trans (if_pos rfl))

theorem exec_otpProgramDone (ok : Bool) {w d : Nat} (prog : s.otp.prog = some (w, d)) :
    exec (.otpProgramDone ok) s = .next (
      if (if ok = true then s.otpBurn w d else s.otpTorn w d).otpVerified w ((s.otpWord w).next d) = true then
        ((if ok = true then s.otpBurn w d else s.otpTorn w d).otpShadowSet w ((s.otpWord w).next d)).otpEnds w 0 ((s.otpWord w).checks.length + 1)
      else (if ok = true then s.otpBurn w d else s.otpTorn w d).otpEnds w 7 ((s.otpWord w).checks.length + 1)) := by
  change execOtpProgramDone ok s = _
  rw [execOtpProgramDone, prog]

theorem exec_otpProgramDone_of_none (ok : Bool) (none : s.otp.prog = none) : exec (.otpProgramDone ok) s = .next s := by
  change execOtpProgramDone ok s = _
  rw [execOtpProgramDone, none]

section
variable {w c k : Nat}

theorem State.otpEnds_of_stopped (still : s.coreRuns = false) :
    s.otpEnds w c k = { s with otp := { s.otp with prog := none, result := some (c, k, w) } } :=
  if_pos (by rw [still]; rfl)

theorem State.otpEnds_of_running (core : s.coreRuns = true) (mode : s.dev.mode ≠ .boot) :
    s.otpEnds w c k =
      if c = 0 ∧ s.otp.advancing = true ∧ s.otpReport.otpCounter < s.otpReport.image.rollback then
        (s.otpReport.emit 0x10 1 [(0, 1), (k, 1), (w, 2)]).otpStep
      else s.otpReport.otpResult w c k :=
  (if_neg (by rw [core]; decide)).trans (if_neg (Bool.eq_false_iff.1 (State.inMode_of_ne mode)))

end

theorem State.frameDone_get (s : State) (f : Option Nat) (g : FRef) : (s.frameDone f).get g = s.get g := by
  cases f <;> rfl

/-- What the result of an operation shows. -/
theorem State.otpResult_shows (w k : Nat) {c : Nat} (hc : c < 16) :
    (s.otpResult w c k).get F.OTP_PROG_STAT_CAUSE = c ∧ (s.otpResult w c k).get F.OTP_PROG_STAT_BUSY = 0 ∧
      (c ≠ 0 → c ≠ 7 → (s.otpResult w c k).get F.OTP_PROG_STAT_REFUSED = 1) := by
  unfold State.otpResult
  dsimp only
  rw [State.get_setOtp, State.get_setOtp, State.get_setOtp, State.frameDone_get, State.frameDone_get, State.frameDone_get, State.emit_get,
    State.emit_get, State.emit_get]
  refine ⟨?_, ?_, fun some_ other => ?_⟩
  · split
    · rw [State.get_set_of_ne _ _ (by decide), State.get_set]
      exact Nat.mod_eq_of_lt hc
    · rw [State.get_set_of_ne _ _ (by decide), State.get_set_of_ne _ _ (by decide), State.get_set]
      exact Nat.mod_eq_of_lt hc
  · split
    · rw [State.get_set]
      rfl
    · rw [State.get_set_of_ne _ _ (by decide), State.get_set]
      rfl
  · rw [if_neg (by omega), State.get_set]
    rfl

end

end Sys2Proof.Machine

open Sys2Proof Sys2Proof.Machine

/-- Settles O44: each case of the OTP controller's commands by its own lemma above. -/
theorem otpCommands : Obligations.OtpCommands := by
  unfold Obligations.OtpCommands
  refine ⟨?read, fun w s => exec_otpReadDone 0, ?program, ?advance, ?burnt, ?torn, ?ends, ?steps, fun w c k s => State.otpEnds_of_stopped, ?refused,
    ?advanceRefused, ?busy, ?advanceBusy, ?readBusy, ?result, ?aged, fun e s => exec_otpReadDone_of_none e, fun ok s => exec_otpProgramDone_of_none ok⟩
  case read =>
    intro v s open_ free bus
    exact (exec_otpRead bus open_).trans (congrArg Host.Outcome.next (if_neg (Bool.eq_false_iff.1 free)))
  case readBusy =>
    intro v s open_ busy bus
    exact (exec_otpRead bus open_).trans (congrArg Host.Outcome.next (if_pos busy))
  case program =>
    intro s open_ free good bus
    rw [exec_otpProgram bus open_, State.otpProgWrite_program free, if_pos good]
    rfl
  case refused =>
    intro s open_ free bad bus
    rw [exec_otpProgram bus open_, State.otpProgWrite_program free, if_neg bad]
  case advance =>
    intro s open_ free good bus
    rw [exec_otpAdvance bus open_, State.otpProgWrite_advance free, if_pos good]
    rfl
  case advanceRefused =>
    intro s open_ free bad bus
    rw [exec_otpAdvance bus open_, State.otpProgWrite_advance free, if_neg bad]
  case busy =>
    intro s open_ busy bus
    rw [exec_otpProgram bus open_, State.otpProgWrite_busy _ busy]
  case advanceBusy =>
    intro s open_ busy bus
    rw [exec_otpAdvance bus open_, State.otpProgWrite_busy _ busy]
  case burnt =>
    rintro w d n k s prog rfl rfl verified
    rw [exec_otpProgramDone true prog, if_pos rfl, if_pos verified]
  case torn =>
    rintro w d n k s prog rfl rfl
    exact exec_otpProgramDone false prog
  case ends =>
    intro w c k s core mode last
    rw [State.otpEnds_of_running core mode, if_neg ?_]
    rintro ⟨good, advancing, left⟩
    rcases last with h | h | h
    · exact h good
    · exact Bool.eq_false_iff.1 h advancing
    · exact Nat.not_lt.2 h left
  case steps =>
    intro w k s core mode advancing left
    rw [State.otpEnds_of_running core mode, if_pos ⟨rfl, advancing, left⟩]
  case result =>
    intro s w c k low high
    obtain ⟨cause, busy, refused⟩ := State.otpResult_shows (s := s) w k (c := c) (by omega)
    exact ⟨cause, busy, refused (by omega), rfl⟩
  case aged =>
    rintro w e t x s reading rfl rfl
    exact exec_otpReadDone e reading

/-- Settles O45: every programming joins bits to the data, and the code of a full one is that of the joined data. -/
theorem otpBitsOnlySet : Obligations.OtpBitsOnlySet := by
  unfold Obligations.OtpBitsOnlySet
  refine ⟨?slots, ?full, ?kept, ?clear, fun s w d v h => s.otpTorn_word_of_ne d h⟩
  case slots =>
    intro s w d
    refine ⟨s.otpBurn_word w d, ?_, fun v h => s.otpWord_setOtpWord_of_ne _ h⟩
    rw [State.otpBurn_word, OtpWord.burnt_checks, List.length_append, List.length_singleton]
  case full =>
    intro s w d data hd clean blank
    rw [State.otpBurn_word, OtpWord.burnt_full data hd clean blank, OtpWord.value, OtpWord.ce, OtpWord.bad, OtpWord.read_of_coded]
    exact ⟨rfl, rfl, rfl, rfl⟩
  case kept =>
    intro s w d i set
    obtain ⟨m, k, used, word⟩ := s.otpTorn_word w d
    rw [word, OtpWord.burnt_data, Nat.testBit_or, set, Bool.true_or]
  case clear =>
    intro s w d i data value new
    obtain ⟨m, k, used, word⟩ := s.otpTorn_word w d
    rw [word, OtpWord.burnt_data, Nat.testBit_or, data, Nat.testBit_and, OtpWord.next, Nat.testBit_or, value, new]
    rfl
end

section
/-! Challenges, submissions and their records (R431 to R443). -/

namespace Sys2Proof.Machine

/-! Challenges (R431, R432). -/

section
variable {s : State} (bus : s.injects 4 = false)
include bus

theorem exec_challengeRequest (open_ : s.writeOk 0x3C08 = true) : exec .challengeRequest s = .next (s.chalWrite 0x5EC00001) :=
  congrArg Host.Outcome.next (s.bus_quiet _ _ open_ bus)

theorem exec_grantSubmit (open_ : s.writeOk 0x3C20 = true) : exec .grantSubmit s = .next (s.submit false none) :=
  congrArg Host.Outcome.next ((s.bus_quiet _ _ open_ bus).trans (if_pos rfl))

theorem exec_anchorSubmit (open_ : s.writeOk 0x3C20 = true) : exec .anchorSubmit s = .next (s.submit true none) :=
  congrArg Host.Outcome.next ((s.bus_quiet _ _ open_ bus).trans ((if_neg (by decide)).trans (if_pos rfl)))

end

section
variable {s : State}

/-- The challenge that a healthy generator gives. -/
def State.challenged (s : State) : State := (s.evict.drawWords 4).2.nonceAdd s.evict.freeSlot (s.evict.drawWords 4).1

theorem State.chalWrite_healthy (healthy : s.flag F.SEC_STAT_TFAIL = false) : s.chalWrite 0x5EC00001 = s.challenged :=
  (if_pos rfl).trans (if_neg (Bool.eq_false_iff.1 healthy))

theorem State.chalWrite_failed (failed : s.flag F.SEC_STAT_TFAIL = true) : s.chalWrite 0x5EC00001 = s.set F.SEC_CHAL_STAT_REFUSED 1 :=
  (if_pos rfl).trans (if_pos failed)

theorem exec_nonceExpiry {n : Nonce} {r : List Nonce} (oldest : s.sec.nonces = n :: r) :
    exec .nonceExpiry s = .next ((({ s.due (ofTicks (n.at_ + s.get F.SEC_CFG_CHAL_LIFE * 32768)) with
      sec := { (s.due (ofTicks (n.at_ + s.get F.SEC_CFG_CHAL_LIFE * 32768))).sec with nonces := r } } : State)).set F.SEC_CHAL_STAT_OUT r.length) := by
  change execNonceExpiry s = _
  rw [execNonceExpiry, oldest]
  rfl

theorem exec_nonceExpiry_of_none (none : s.sec.nonces = []) : exec .nonceExpiry s = .next s := by
  change execNonceExpiry s = _
  rw [execNonceExpiry, none]

/-! The nonces after a challenge. -/

/-- Drawing words changes nothing but the number of values drawn. -/
theorem State.drawWords_frame (n : Nat) (s : State) : (s.drawWords n).2 = { s with draws := s.draws + n } := by
  induction n generalizing s with
  | zero => rfl
  | succ n ih =>
    change (State.drawWords n { s with draws := s.draws + 1 }).2 = _
    rw [ih, Nat.add_assoc, Nat.add_comm 1 n]

theorem State.drawWords_length (n : Nat) (s : State) : (s.drawWords n).1.length = n := by
  induction n generalizing s with
  | zero => rfl
  | succ n ih => exact congrArg Nat.succ (ih _)

theorem State.drawWords_lt (n : Nat) (s : State) : ∀ x ∈ (s.drawWords n).1, x < 2 ^ 32 := by
  induction n generalizing s with
  | zero => exact fun x h => absurd h List.not_mem_nil
  | succ n ih =>
    intro x h
    rcases List.mem_cons.1 h with rfl | h
    · exact Nat.mod_lt _ (Nat.two_pow_pos 32)
    · exact ih _ x h

theorem State.evict_nonces (s : State) :
    s.evict.sec.nonces = if s.sec.nonces.length < 4 then s.sec.nonces else s.sec.nonces.drop 1 := by
  unfold State.evict
  split <;> rfl

/-- The words of the challenge window. -/
def State.chalWindow (s : State) (w : List Nat) : State := forEach (List.range 4) (fun j t => t.set (F.SEC_CHAL_W_BYTES j) (w.getD j 0)) s

theorem chalWord_lt {j : Nat} (hj : j < 4) : (F.SEC_CHAL_W_BYTES j).key ≠ F.SEC_CHAL_STAT_SLOT.key ∧
    (F.SEC_CHAL_W_BYTES j).key ≠ F.SEC_CHAL_STAT_READY.key ∧ (F.SEC_CHAL_W_BYTES j).key ≠ F.SEC_CHAL_STAT_OUT.key ∧
    (F.SEC_CHAL_W_BYTES j).key ≠ F.SEC_CHAL_STAT_EVICT.key := by
  refine ⟨?_, ?_, ?_, ?_⟩
  · change (0x3C10 + 4 * j) * 32 + 0 ≠ 0x3C0C * 32 + 0
    omega
  · change (0x3C10 + 4 * j) * 32 + 0 ≠ 0x3C0C * 32 + 4
    omega
  · change (0x3C10 + 4 * j) * 32 + 0 ≠ 0x3C0C * 32 + 8
    omega
  · change (0x3C10 + 4 * j) * 32 + 0 ≠ 0x3C0C * 32 + 16
    omega

theorem State.chalWindow_get_of_ne (s : State) (w : List Nat) {g : FRef} (h : ∀ j, j < 4 → g.key ≠ (F.SEC_CHAL_W_BYTES j).key) :
    (s.chalWindow w).get g = s.get g :=
  forEach_induction (P := fun t => t.get g = s.get g) _ _ (fun j m t k => (t.get_set_of_ne _ (h j (List.mem_range.1 m))).trans k) rfl

theorem State.chalWindow_get (s : State) (w : List Nat) {j : Nat} (hj : j < 4) :
    (s.chalWindow w).get (F.SEC_CHAL_W_BYTES j) = w.getD j 0 % 2 ^ 32 := by
  refine forEach_establishes (P := fun t => t.get (F.SEC_CHAL_W_BYTES j) = w.getD j 0 % 2 ^ 32) (List.mem_range.2 hj) (fun t => t.get_set _ _) ?_
  intro i _ t k
  by_cases same : i = j
  · subst same
    exact t.get_set _ _
  · refine (t.get_set_of_ne _ ?_).trans k
    change (0x3C10 + 4 * j) * 32 + 0 ≠ (0x3C10 + 4 * i) * 32 + 0
    omega

theorem State.chalWindow_sec (s : State) (w : List Nat) : (s.chalWindow w).sec = s.sec :=
  forEach_induction (P := fun t => t.sec = s.sec) _ _ (fun _ _ _ k => k) rfl

/-- The nonce as it becomes outstanding, with its count. -/
def State.nonceCounted (s : State) (k : Nat) (w : List Nat) : State :=
  (s.setSec { s.sec with nonces := s.sec.nonces ++ [⟨k, w, s.aoTicks⟩] }).countNonces

theorem State.nonceAdd_eq (s : State) (k : Nat) (w : List Nat) :
    s.nonceAdd k w = (((s.nonceCounted k w).chalWindow w).set F.SEC_CHAL_STAT_SLOT k).set F.SEC_CHAL_STAT_READY 1 := rfl

theorem State.nonceAdd_nonces (s : State) (k : Nat) (w : List Nat) : (s.nonceAdd k w).sec.nonces = s.sec.nonces ++ [⟨k, w, s.aoTicks⟩] := by
  rw [State.nonceAdd_eq, State.set_sec, State.set_sec, State.chalWindow_sec]
  rfl

theorem State.nonceAdd_ready (s : State) (k : Nat) (w : List Nat) : (s.nonceAdd k w).get F.SEC_CHAL_STAT_READY = 1 := by
  rw [State.nonceAdd_eq, State.get_set]
  rfl

theorem State.nonceAdd_out (s : State) (k : Nat) (w : List Nat) :
    (s.nonceAdd k w).get F.SEC_CHAL_STAT_OUT = (s.sec.nonces.length + 1) % 2 ^ 3 := by
  rw [State.nonceAdd_eq, State.get_set_of_ne _ _ (by decide), State.get_set_of_ne _ _ (by decide),
    State.chalWindow_get_of_ne _ _ (fun j hj => (chalWord_lt hj).2.2.1.symm), State.nonceCounted, State.countNonces, State.get_set]
  change (s.sec.nonces ++ [_]).length % 2 ^ 3 = _
  rw [List.length_append, List.length_singleton]

theorem State.nonceAdd_evict (s : State) (k : Nat) (w : List Nat) : (s.nonceAdd k w).get F.SEC_CHAL_STAT_EVICT = s.get F.SEC_CHAL_STAT_EVICT := by
  rw [State.nonceAdd_eq, State.get_set_of_ne _ _ (by decide), State.get_set_of_ne _ _ (by decide),
    State.chalWindow_get_of_ne _ _ (fun j hj => (chalWord_lt hj).2.2.2.symm), State.nonceCounted, State.countNonces,
    State.get_set_of_ne _ _ (by decide)]
  rfl

theorem State.nonceAdd_word (s : State) (k : Nat) (w : List Nat) {j : Nat} (hj : j < 4) :
    (s.nonceAdd k w).get (F.SEC_CHAL_W_BYTES j) = w.getD j 0 % 2 ^ 32 := by
  obtain ⟨slot, ready, -⟩ := chalWord_lt hj
  rw [State.nonceAdd_eq, State.get_set_of_ne _ _ ready, State.get_set_of_ne _ _ slot, State.chalWindow_get _ _ hj]

theorem State.challenged_nonces (s : State) : ∃ k, s.challenged.sec.nonces =
    s.evict.sec.nonces ++ [⟨k, (s.evict.drawWords 4).1, (s.evict.drawWords 4).2.aoTicks⟩] := by
  refine ⟨s.evict.freeSlot, ?_⟩
  rw [State.challenged, State.nonceAdd_nonces, State.drawWords_frame]

/-- Four words below 2^32 are what the window shows of them. -/
theorem words_eq_window {w : List Nat} (length : w.length = 4) (small : ∀ x ∈ w, x < 2 ^ 32) :
    w = (List.range 4).map fun j => w.getD j 0 % 2 ^ 32 := by
  refine List.ext_getElem (by simpa using length) fun i h _ => ?_
  rw [List.getElem_map, List.getElem_range, List.getD_eq_getElem _ _ h, Nat.mod_eq_of_lt (small _ (List.getElem_mem h))]

theorem State.challenged_window (s : State) :
    s.challenged.sec.nonces.getLast?.map Nonce.words = some ((List.range 4).map fun j => s.challenged.get (F.SEC_CHAL_W_BYTES j)) := by
  obtain ⟨k, nonces⟩ := s.challenged_nonces
  rw [nonces, List.getLast?_concat, Option.map_some]
  refine congrArg some ((words_eq_window (State.drawWords_length 4 _) (State.drawWords_lt 4 _)).trans ?_)
  refine List.map_congr_left fun j hj => ?_
  rw [State.challenged, State.nonceAdd_word _ _ _ (List.mem_range.1 hj)]

end

/-! Submissions (R435 to R437). -/

section
variable {s : State} {anchor : Bool}

/-- The buffer's bytes in the verifier, in stage `g`. -/
def State.subOf (s : State) (anchor : Bool) (g : Nat) : Submission :=
  ⟨anchor, (List.range 32).flatMap fun k => leBytes 4 (s.get (F.SEC_BUF_BYTES k)), g, none⟩

/-- The submission `x` in progress. -/
def State.subBegun (s : State) (x : Submission) : State :=
  (({ s with sec := { s.sec with sub := some x } } : State).set F.SEC_RESULT_BUSY 1).put F.SEC_RESULT_KIND x.anchor

theorem State.submit_busy (busy : s.flag F.SEC_RESULT_BUSY = true) : s.submit anchor none = s.incSatF F.SEC_CNT_BUSYW := if_pos busy

theorem State.submit_free (free : s.flag F.SEC_RESULT_BUSY = false) (idle : s.updVerifying = false) :
    s.submit anchor none = s.subBegun (s.subOf anchor 0) := by
  unfold State.submit
  rw [if_neg (Bool.eq_false_iff.1 free), idle]
  rfl

/-- While an update is verified, the free value decides whether the submission starts at once or waits. -/
theorem State.submit_verifying (free : s.flag F.SEC_RESULT_BUSY = false) (verifying : s.updVerifying = true) :
    s.submit anchor none = ({ s with draws := s.draws + 1 } : State).subBegun (s.subOf anchor (if s.draw.1 % 2 = 1 then 3 else 0)) := by
  unfold State.submit
  rw [if_neg (Bool.eq_false_iff.1 free), verifying, if_pos rfl]
  change ((if s.draw.1 % 2 = 1 then _ else _ : State).set F.SEC_RESULT_BUSY 1).put F.SEC_RESULT_KIND anchor = _
  split <;> rfl

end

/-! The verifier's results and records (R436, R437). -/

section
variable {s : State} {x : Submission}

theorem exec_verifyDone (sub : s.sec.sub = some x) (stage : x.stage = 0) (mode : s.dev.mode = .run ∨ s.dev.mode = .black) :
    exec .verifyDone s = .next (
      if s.subChecks x ≠ 0 then s.secResult x (s.subChecks x) s.rtcValid
      else if (if x.window = true then s else s.consume x.bytes).lateChecks x (s.sec.nonces.any fun n => decide (n.words = nonceOf x.bytes)) ≠ 0 then
        (if x.window = true then s else s.consume x.bytes).secResult x
          ((if x.window = true then s else s.consume x.bytes).lateChecks x (s.sec.nonces.any fun n => decide (n.words = nonceOf x.bytes))) s.rtcValid
      else ({ (if x.window = true then s else s.consume x.bytes) with
          sec := { (if x.window = true then s else s.consume x.bytes).sec with sub := some { x with stage := 1 } } } : State).jnlTake
        ⟨.security, 2, (if x.window = true then s else s.consume x.bytes).secBody x, .none⟩) := by
  change execVerifyDone s = _
  rw [execVerifyDone, sub]
  exact congrArg Host.Outcome.next (if_pos ⟨stage, mode.imp State.inMode_of_eq State.inMode_of_eq⟩)

theorem exec_verifyDone_idle
    (idle : (s.dev.mode ≠ .run ∧ s.dev.mode ≠ .black) ∨ s.sec.sub = none ∨ ∃ x, s.sec.sub = some x ∧ x.stage ≠ 0) :
    exec .verifyDone s = .next s := by
  change execVerifyDone s = _
  rw [execVerifyDone]
  split
  · rfl
  · rename_i x sub
    refine congrArg Host.Outcome.next (if_neg ?_)
    rintro ⟨stage, mode⟩
    rcases idle with ⟨run, black⟩ | none | ⟨y, other, late⟩
    · exact mode.elim (fun h => run (of_decide_eq_true h)) (fun h => black (of_decide_eq_true h))
    · rw [none] at sub
      cases sub
    · rw [other] at sub
      cases sub
      exact late stage

theorem exec_submissionCommitDone (sub : s.sec.sub = some x) (stage : x.stage = 2) :
    exec .submissionCommitDone s = .next (
      if x.anchor then ((s.secTake (s.secBody x)).rtcStep (leField x.bytes 52 4)).secResult x 0 s.rtcValid
      else if (s.secTake (s.secBody x)).guardBlocked (leField x.bytes 24 1) then (s.secTake (s.secBody x)).secResult x 0x0A s.rtcValid
      else ((s.secTake (s.secBody x)).guardAction (leField x.bytes 24 1) (leField x.bytes 25 1) (leField x.bytes 28 4)).secResult x 0 s.rtcValid) := by
  change execSubmissionCommitDone s = _
  rw [execSubmissionCommitDone, sub]
  exact congrArg Host.Outcome.next (if_pos stage)

theorem exec_submissionCommitDone_idle (idle : s.sec.sub = none ∨ ∃ x, s.sec.sub = some x ∧ x.stage ≠ 2) :
    exec .submissionCommitDone s = .next s := by
  change execSubmissionCommitDone s = _
  rcases idle with none | ⟨x, sub, stage⟩
  · rw [execSubmissionCommitDone, none]
  · rw [execSubmissionCommitDone, sub]
    exact congrArg Host.Outcome.next (if_neg stage)

theorem exec_trngHealth (core : s.coreRuns = true) (healthy : s.flag F.SEC_STAT_TFAIL = false) :
    exec .trngHealth s = .next ((s.set F.SEC_STAT_TFAIL 1).raise 37 0) :=
  congrArg Host.Outcome.next (if_pos ⟨core, Bool.eq_false_iff.1 healthy⟩)

theorem exec_trngHealth_idle (h : s.coreRuns = false ∨ s.flag F.SEC_STAT_TFAIL = true) : exec .trngHealth s = .next s := by
  refine congrArg Host.Outcome.next (if_neg ?_)
  rintro ⟨core, healthy⟩
  rcases h with h | h
  · exact Bool.eq_false_iff.1 h core
  · exact healthy h

end

end Sys2Proof.Machine

open Sys2Proof Sys2Proof.Machine

/-- Settles O46: each case of the verifier's commands by its own lemma above. -/
theorem verifierCommands : Obligations.VerifierCommands := by
  unfold Obligations.VerifierCommands
  refine ⟨?challenge, ?unhealthy, ?expiry, fun s => exec_nonceExpiry_of_none, ?grant, ?grantVerifying, ?grantBusy, ?anchor, ?anchorBusy, ?early,
    ?accepted, ?late, fun s => exec_verifyDone_idle, ?anchorStored, ?grantStored, ?grantBlocked, fun s => exec_submissionCommitDone_idle,
    fun s => exec_trngHealth, fun s => exec_trngHealth_idle⟩
  case challenge =>
    intro s open_ healthy bus
    rw [exec_challengeRequest bus open_, State.chalWrite_healthy healthy, State.challenged]
  case unhealthy =>
    intro s open_ failed bus
    rw [exec_challengeRequest bus open_, State.chalWrite_failed failed]
  case expiry =>
    rintro n r t s oldest rfl
    exact exec_nonceExpiry oldest
  case grant =>
    intro s open_ free idle bus
    rw [exec_grantSubmit bus open_, State.submit_free free idle]
    rfl
  case grantVerifying =>
    intro s t open_ bus free verifying h
    rw [exec_grantSubmit bus open_, State.submit_verifying free verifying] at h
    obtain rfl := Host.Outcome.next.inj h
    refine ⟨_, rfl, fun even => ⟨if_neg (by omega), rfl⟩, fun odd => if_pos odd⟩
  case grantBusy =>
    intro s open_ busy bus
    rw [exec_grantSubmit bus open_, State.submit_busy busy]
  case anchor =>
    intro s open_ free idle bus
    rw [exec_anchorSubmit bus open_, State.submit_free free idle]
    rfl
  case anchorBusy =>
    intro s open_ busy bus
    rw [exec_anchorSubmit bus open_, State.submit_busy busy]
  case early =>
    intro x s sub stage mode bad
    rw [exec_verifyDone sub stage mode, if_pos bad]
  case accepted =>
    rintro x t k s sub stage mode good rfl rfl late
    rw [exec_verifyDone sub stage mode, if_neg (not_not.2 good), if_neg (not_not.2 late)]
  case late =>
    rintro x t k s sub stage mode good rfl rfl late
    rw [exec_verifyDone sub stage mode, if_neg (not_not.2 good), if_pos late]
  case anchorStored =>
    intro x s sub stage anchor
    rw [exec_submissionCommitDone sub stage, if_pos anchor]
  case grantStored =>
    rintro x t s sub stage grant rfl free
    rw [exec_submissionCommitDone sub stage, if_neg (Bool.eq_false_iff.1 grant), if_neg (Bool.eq_false_iff.1 free)]
  case grantBlocked =>
    rintro x t s sub stage grant rfl blocked
    rw [exec_submissionCommitDone sub stage, if_neg (Bool.eq_false_iff.1 grant), if_pos blocked]

/-- Settles O47: a challenge adds one nonce behind those that an eviction leaves, and a submission filters its own out. -/
theorem noncesServeOnce : Obligations.NoncesServeOnce := by
  unfold Obligations.NoncesServeOnce
  refine ⟨?bound, ?consumed, ?window, ?refused⟩
  case bound =>
    intro s t open_ bus healthy four h
    rw [exec_challengeRequest bus open_, State.chalWrite_healthy healthy] at h
    obtain rfl := Host.Outcome.next.inj h
    obtain ⟨k, nonces⟩ := s.challenged_nonces
    have left : s.evict.sec.nonces.length ≤ 3 := by
      rw [State.evict_nonces]
      split
      · omega
      · rw [List.length_drop]
        omega
    have length : s.challenged.sec.nonces.length = s.evict.sec.nonces.length + 1 := by
      rw [nonces, List.length_append, List.length_singleton]
    refine ⟨by omega, State.nonceAdd_ready _ _ _, ?_, fun full => ?_⟩
    · rw [length, State.challenged, State.nonceAdd_out, State.drawWords_frame]
      exact Nat.mod_eq_of_lt (show s.evict.sec.nonces.length + 1 < 2 ^ 3 by omega)
    · have evicted : s.evict = (s.setSec { s.sec with nonces := s.sec.nonces.drop 1 }).incSatF F.SEC_CHAL_STAT_EVICT :=
        if_neg (by omega)
      have rest : s.evict.sec.nonces = s.sec.nonces.drop 1 := by rw [evicted]; rfl
      constructor
      · rw [nonces, rest]
        refine List.take_left' ?_
        rw [List.length_drop, full]
      · rw [State.challenged, State.nonceAdd_evict, State.drawWords_frame, evicted]
        exact State.get_set _ _ _
  case consumed =>
    intro s b
    have nonces : (s.consume b).sec.nonces = s.sec.nonces.filter fun n => decide (n.words ≠ nonceOf b) := rfl
    rw [nonces]
    exact ⟨fun n hn => of_decide_eq_true (List.mem_filter.1 hn).2, fun n hn other => List.mem_filter.2 ⟨hn, decide_eq_true other⟩⟩
  case window =>
    intro s t open_ bus healthy h
    rw [exec_challengeRequest bus open_, State.chalWrite_healthy healthy] at h
    obtain rfl := Host.Outcome.next.inj h
    exact s.challenged_window
  case refused =>
    intro s open_ failed bus
    rw [exec_challengeRequest bus open_, State.chalWrite_failed failed]
end

section
/-! Downloads into the attached memory: its bytes (R453, R461), and the entry that a failed download has stored already (R459). -/

namespace Sys2Proof.Machine

/-! Erased ranges of a sparse memory. -/

theorem tget_of_not_key {α : Type} (m : SMap α) (k : Nat) (d : α) (h : ∀ e ∈ m, e.1 ≠ k) : tget m k d = d := by
  induction m with
  | nil => rfl
  | cons e r ih =>
    rw [tget, if_neg (h e List.mem_cons_self), ih fun x hx => h x (List.mem_cons_of_mem e hx), ite_self]

/-- In a memory whose keys rise, removing other keys leaves the place that is read. -/
theorem tget_filter_of_kept {α : Type} {m : SMap α} (sorted : m.Pairwise fun a b => a.1 < b.1) (p : Nat × α → Bool) (k : Nat) (d : α)
    (kept : ∀ e ∈ m, e.1 = k → p e = true) : tget (m.filter p) k d = tget m k d := by
  induction m with
  | nil => rfl
  | cons e r ih =>
    obtain ⟨above, tail⟩ := List.pairwise_cons.1 sorted
    have rest := ih tail fun x hx => kept x (List.mem_cons_of_mem e hx)
    by_cases hp : p e = true
    · rw [List.filter_cons_of_pos hp, tget, tget, rest]
    · have other : e.1 ≠ k := fun same => hp (kept e List.mem_cons_self same)
      rw [List.filter_cons_of_neg hp, rest, tget, if_neg other]
      split
      case isTrue below =>
        refine tget_of_not_key _ _ _ fun x hx => ?_
        have := above x hx
        omega
      case isFalse => rfl

section
variable (s : State)

theorem State.updWrite_outside {o k a : Nat}
    (h : a < s.get F.UPD_STAT_SLOT * 0x80000 + o ∨ s.get F.UPD_STAT_SLOT * 0x80000 + o + k ≤ a) :
    tget (s.updWrite o k).nv.flash a flashBlank = tget s.nv.flash a flashBlank := by
  refine tget_writeMem_outside _ _ _ _ (h.imp_right fun above => Nat.le_trans (Nat.add_le_add_left ?_ _) above)
  exact List.length_take_le _ _

theorem State.updErase_inside {k a : Nat} (low : s.get F.UPD_STAT_SLOT * 0x80000 ≤ a)
    (high : a < s.get F.UPD_STAT_SLOT * 0x80000 + k * 0x10000) : tget (s.updErase k).nv.flash a flashBlank = flashBlank := by
  refine tget_of_not_key _ _ _ fun e he same => ?_
  have outside := (List.mem_filter.1 he).2
  rw [same, decide_eq_true ⟨low, high⟩] at outside
  cases outside

theorem State.updErase_outside {k a : Nat} (wf : Memory.wf s.nv)
    (h : a < s.get F.UPD_STAT_SLOT * 0x80000 ∨ s.get F.UPD_STAT_SLOT * 0x80000 + k * 0x10000 ≤ a) :
    tget (s.updErase k).nv.flash a flashBlank = tget s.nv.flash a flashBlank := by
  refine tget_filter_of_kept ((tcanon_iff _ _).1 wf.2).1 _ _ _ fun e _ same => ?_
  rw [same, decide_eq_false (by omega)]
  rfl

end
/-! An erase that ends with the entry of its download's end stored already. -/

/-- A download in ERASING with the erase in progress. -/
def erasing : State :=
  (({ State.reset with dev := { State.reset.dev with mode := .run, stage := .none } } : State).set F.UPD_STAT_PHASE 1).set F.UPD_STAT_BUSY 1

/-- The download of `erasing` after the journal has stored the entry of its abort. -/
def abortedErase : State := { erasing with upd := { erasing.upd with ending := some 0 } }

theorem erasing_updAct_failed : erasing.updAct .failed = abortedErase := by rfl

/-- The end of the erase makes no second entry. -/
theorem abortedErase_makes_no_entry : exec (.updEraseDone true) abortedErase ≠ .next ((abortedErase.updErase 8).updFail 0 0) := by
  intro same
  have queues := congrArg (fun o : Out State => match o with | .next t => t.jnl.queue.length | _ => 0) same
  exact absurd queues (by decide +kernel)

end Sys2Proof.Machine

open Sys2Proof Sys2Proof.Machine

/-- Refutes O48: its clause about an erase that ends a download with a history code other than 7 leaves out code 0, with which the journal has
stored the entry already. In `abortedErase` the erase ends the download without a further entry. -/
theorem not_updateCommands : ¬ Obligations.UpdateCommands := by
  unfold Obligations.UpdateCommands
  rintro ⟨-, -, -, -, -, -, -, -, -, -, -, -, -, -, -, -, -, -, -, -, -, ends, -⟩
  exact abortedErase_makes_no_entry (ends 0 abortedErase (by decide +kernel) (by decide +kernel) rfl rfl (by decide))

/-- Settles O49: a write changes the bytes of its block, an erase filters those of its range away, and neither touches anything else. -/
theorem memoryWritesStayInTheirSlot : Obligations.MemoryWritesStayInTheirSlot := by
  unfold Obligations.MemoryWritesStayInTheirSlot
  refine ⟨fun s o k a h => ⟨s.updWrite_outside h, rfl, rfl⟩, ?erased, fun s a k wf h => ⟨s.updErase_outside wf h, rfl, rfl⟩,
    fun s o k => ⟨rfl, rfl⟩⟩
  intro s a low high
  exact s.updErase_inside low (by omega)
end

section
/-! The charger: what its transitions leave alone, and that a latched fault, a suspend condition and a state at rest stop the charge (R275 to R277). -/

namespace Sys2Proof.Machine

variable {s t : State} {f : FRef}

/-! The registers of the power path through the charger's operations. -/

/-- The loop over the charger's tiles writes the tiles' block alone. -/
theorem State.chargerTiles_alters (s : State) (k : Nat) :
    s.Alters [2] (forEach (s.tilesOf 16) (fun t x => if s.get (F.TIL_STAT_POS t) < k then x.tileOn t else x.tileOff t) s) :=
  forEach_induction (P := fun x => s.Alters [2] x) _ _
    (fun _ m _ a => .ite _ (a.tileOn (State.tilesOf_lt m) (by decide)) (a.tileOff (State.tilesOf_lt m) (by decide))) (.refl s [2])

theorem State.chgTiles_get (pp : f.blk = 7) (count : f.key ≠ F.PP_CHG_STAT_TILES.key) : s.chgTiles.get f = s.get f := by
  unfold State.chgTiles
  extract_lets on l k s1
  have loop : s1.get f = s.get f := (s.chargerTiles_alters k).regs f (by rw [pp]; decide)
  split
  · exact loop
  · exact (State.get_set_of_ne { s1 with chgPtr := 0 } k count).trans loop

theorem State.chgPin_get (s : State) (f : FRef) : s.chgPin.get f = s.get f := by
  unfold State.chgPin
  split <;> rfl

theorem State.chgTo_get (new : Nat) (pp : f.blk = 7) (count : f.key ≠ F.PP_CHG_STAT_TILES.key) (state : f.key ≠ F.PP_CHG_STAT_STATE.key) :
    (s.chgTo new).get f = s.get f := by
  unfold State.chgTo
  extract_lets old was c s1
  split
  · rfl
  · rw [State.emit_get, State.chgPin_get, State.chgTiles_get pp count]
    exact State.get_set_of_ne (s.setChg c) new state

theorem State.chgTo_chgState {new : Nat} (fits : new < 2 ^ F.PP_CHG_STAT_STATE.w) : (s.chgTo new).chgState = new := by
  unfold State.chgTo
  extract_lets old was c s1
  split
  case isTrue same => exact same
  case isFalse =>
    rw [State.chgState, State.emit_get, State.chgPin_get, State.chgTiles_get (by decide) (by decide), State.get_set]
    exact Nat.mod_eq_of_lt fits

theorem State.chgCheck_get (pp : f.blk = 7) (count : f.key ≠ F.PP_CHG_STAT_TILES.key) (state : f.key ≠ F.PP_CHG_STAT_STATE.key) :
    s.chgCheck.get f = s.get f := by
  unfold State.chgCheck
  extract_lets c s1
  split
  · exact State.chgTo_get (s := s1) 3 pp count state
  · rfl

/-! A register of the power path through a raising. -/

/-- `PP_CHG_FAULT`, which no reaction of a colour writes. -/
def FRef.chgFaultBit (f : FRef) : Prop := f.key / 32 = 0x1C5C

theorem FRef.chgFaultBit.blk (h : f.chgFaultBit) : f.blk = 7 := by
  unfold FRef.chgFaultBit at h
  unfold FRef.blk
  omega

theorem FRef.chgFaultBit.ne (h : f.chgFaultBit) {g : FRef} (other : g.key / 32 ≠ 0x1C5C) : f.key ≠ g.key := by
  rintro same
  exact other (same ▸ h)

theorem State.enterBlack_get_chgFault (s : State) (src : Nat) (h : f.chgFaultBit) : (s.enterBlack src).get f = s.get f := by
  have settled : s.blackEntered src |>.chgCheck.Alters [0, 12] (s.enterBlack src) := by
    rw [State.enterBlack_eq]
    exact .evidencePush (.logTokensFill (.blackSettled (.refl _ _) _ (by decide)) (by decide)) (by decide)
  rw [settled.regs f (by rw [h.blk]; decide), State.chgCheck_get h.blk (h.ne (by decide)) (h.ne (by decide)),
    State.blackEntered_get_of_ne s src (by rw [h.blk]; decide) (h.ne (by decide)), State.blackHalted_get s (by rw [h.blk]; decide)]

theorem State.react_get_chgFault (s : State) (src colour : Nat) (h : f.chgFaultBit) : (s.react src colour).get f = s.get f := by
  obtain same | guards | ⟨black, -⟩ := s.react_cases src colour
  · rw [same]
  · rw [guards, (s.guardsEnd_alters 5 colour).regs f (by rw [h.blk]; decide)]
  · rw [black, State.enterBlack_get_chgFault s src h]

/-- A fault's body enters the log: the queue of commits and `LOG_LOST` alone may change. -/
theorem State.logFault_alters (s : State) (src colour detail : Nat) (inj floor : Bool) :
    s.Alters [0, 11] (s.logFault src colour detail inj floor) := by
  have clock : s.Alters [0, 11] s.msSinceRun.2 := by
    unfold State.msSinceRun
    split
    · exact .refl s _
    · exact (State.Alters.refl s _).same rfl rfl
  unfold State.logFault
  generalize s.msSinceRun = x at clock ⊢
  obtain ⟨ms, v⟩ := x
  have joined : s.Alters [0, 11] { v with flt := { v.flt with bodies := v.flt.bodies ++ [v.faultBody src colour detail inj floor ms] } } :=
    clock.same rfl rfl
  dsimp only
  split
  · split
    · exact joined
    · exact joined.jnlPush _ (by decide)
  · exact State.Alters.set clock _ (b := 11) (by decide) rfl

section
variable {src : Nat} (detail : Nat) (inj : Bool) (power : s.dev.stage ≠ .powerDown) (commit : s.dev.stage ≠ .commit)
include power commit

theorem State.raiseOne_stage : (s.raiseOne src detail inj).dev.stage = s.dev.stage := by
  have quiet : ¬ ((s.dev.stage = .powerDown ∨ s.dev.stage = .commit) ∧ s.effColour src = 3) := fun h => h.1.elim power commit
  cases core : s.coreRuns with
  | false => rw [State.raiseOne_of_stopped core quiet]
  | true =>
    rw [State.raiseOne_eq detail inj core quiet]
    split
    · split
      · rw [State.react_stage, State.raiseMarked_dev]
      · rw [State.raiseMarked_dev]
    · rw [State.raisePended_dev, State.react_stage]
      exact congrArg Dev.stage (s.raiseMarked_dev src detail)

theorem State.raiseOne_get_chgFault (h : f.chgFaultBit) : (s.raiseOne src detail inj).get f = s.get f := by
  have quiet : ¬ ((s.dev.stage = .powerDown ∨ s.dev.stage = .commit) ∧ s.effColour src = 3) := fun h => h.1.elim power commit
  have marked : (s.raiseMarked src detail).get f = s.get f := by
    refine State.raiseMarked_get s src detail (h.ne ?_)
    unfold actField
    split <;> decide
  have pended : ((s.raiseMarked src detail).pendSet src).get f = s.get f := by
    refine (State.pendSet_get _ src (h.ne ?_) (h.ne (by decide))).trans marked
    unfold pendField
    split <;> decide
  cases core : s.coreRuns with
  | false => rw [State.raiseOne_of_stopped core quiet]
  | true =>
    rw [State.raiseOne_eq detail inj core quiet]
    split
    · split
      · rw [State.react_get_chgFault _ _ _ h, marked]
      · exact marked
    · unfold State.raisePended
      rw [← State.pendSet]
      dsimp only
      split
      · rw [(State.logFault_alters _ _ _ _ _ _).regs f (by rw [h.blk]; decide), State.emitC_get, State.react_get_chgFault _ _ _ h, pended]
      · rw [State.emitC_get, State.react_get_chgFault _ _ _ h, pended]

theorem State.raiseI_get_chgFault (h : f.chgFaultBit) : (s.raiseI src detail inj).get f = s.get f := by
  have first := s.raiseOne_stage (src := src) detail inj power commit
  unfold State.raiseI
  dsimp only
  split
  · rw [State.injDone, State.get_set_of_ne _ _ (h.ne (by decide)), State.get_set_of_ne _ _ (h.ne (by decide)),
      State.raiseOne_get_chgFault 0 true (by rwa [first]) (by rwa [first]) h, State.raiseOne_get_chgFault detail inj power commit h]
  · exact State.raiseOne_get_chgFault detail inj power commit h

end

/-! What stops the charge. -/

/-- A fault that is latched already, or the latch of a new one with its record and its source. -/
def State.chgLatched (s : State) (f : FRef) (vbat : Nat) : State :=
  if s.flag f then s
  else ((s.set f 1).emitC 7 7 ((s.set f 1).effColour 27) [((s.set f 1).chgFaults, 1), (vbat, 2)]).raise 27 0

theorem State.chgFault_eq (s : State) (f : FRef) (vbat : Nat) :
    s.chgFault f vbat = if chgCharging (s.chgLatched f vbat).chgState then (s.chgLatched f vbat).chgTo 9 else s.chgLatched f vbat := rfl

theorem State.chgLatched_get (vbat : Nat) (h : f.chgFaultBit) (wide : 1 < 2 ^ f.w) (power : s.dev.stage ≠ .powerDown) (commit : s.dev.stage ≠ .commit) :
    (s.chgLatched f vbat).flag f = true := by
  unfold State.chgLatched
  split
  case isTrue already => exact already
  case isFalse =>
    have dev := (s.set f 1).emitC_dev 7 7 ((s.set f 1).effColour 27) [((s.set f 1).chgFaults, 1), (vbat, 2)]
    rw [State.flag, State.raise, State.raiseI_get_chgFault 0 false (by rwa [dev]) (by rwa [dev]) h, State.emitC_get, State.get_set, Nat.mod_eq_of_lt wide]
    rfl

theorem State.chgFault_stops (vbat : Nat) (h : f.chgFaultBit) (wide : 1 < 2 ^ f.w) (power : s.dev.stage ≠ .powerDown) (commit : s.dev.stage ≠ .commit) :
    (s.chgFault f vbat).flag f = true ∧ chgCharging (s.chgFault f vbat).chgState = false := by
  have latched := State.chgLatched_get vbat h wide power commit
  rw [State.chgFault_eq]
  split
  · rw [State.chgTo_chgState (by decide), State.flag, State.chgTo_get 9 h.blk (h.ne (by decide)) (h.ne (by decide))]
    exact ⟨latched, rfl⟩
  case isFalse rest => exact ⟨latched, Bool.eq_false_iff.2 rest⟩

theorem State.chgCheck_stops (s : State) (charging : chgCharging s.chgCheck.chgState = true) : s.chgCheck.suspend = 0 := by
  unfold State.chgCheck at charging ⊢
  extract_lets at charging ⊢
  split at charging
  · rw [State.chgTo_chgState (by decide)] at charging
    cases charging
  case isFalse free =>
    rw [if_neg free]
    by_contra held
    exact free ⟨charging, held⟩

/-- At rest no tile of the charger takes turns. -/
theorem State.chgTiles_rest (rest : chgCharging s.chgState = false) :
    s.chgTiles.get F.PP_CHG_STAT_TILES = 0 ∧ ∀ k ∈ s.tilesOf 16, s.chgTiles.get (F.TIL_STAT_ACTIVE k) = 0 := by
  have loop := s.chargerTiles_alters 0
  have down : ∀ k ∈ s.tilesOf 16,
      State.tileDown (forEach (s.tilesOf 16) (fun t x => if s.get (F.TIL_STAT_POS t) < 0 then x.tileOn t else x.tileOff t) s) k := by
    simp only [Nat.not_lt_zero, if_false]
    exact fun k hk => forEach_establishes (P := fun x => x.tileDown k) hk (fun x => x.tileOff_down k) fun m _ x d => d.tileOff m
  unfold State.chgTiles
  rw [rest]
  simp only [Bool.false_and, Bool.false_eq_true, if_false]
  split
  case isTrue none => exact ⟨(loop.regs _ (by decide)).trans none.symm, fun k hk => (down k hk).2⟩
  case isFalse =>
    refine ⟨State.get_set _ _ 0, fun k hk => Eq.trans (State.get_set_of_ne _ 0 fun same => ?_ : State.get (State.set _ F.PP_CHG_STAT_TILES 0) _ = _) (down k hk).2⟩
    have tile : FRef.blk (F.TIL_STAT_ACTIVE k) = 2 := blk_tileStat (State.tilesOf_lt hk)
    rw [FRef.blk, same] at tile
    exact absurd tile (by decide)

end Sys2Proof.Machine

open Sys2Proof Sys2Proof.Machine

/-- Settles O57: each clause is one of the lemmas above. -/
theorem chargerStopsForItsFaults : Obligations.ChargerStopsForItsFaults := by
  unfold Obligations.ChargerStopsForItsFaults
  refine ⟨?latched, State.chgCheck_stops, fun s => State.chgTiles_rest⟩
  rintro s f vbat (rfl | rfl | rfl | rfl) power commit <;> exact State.chgFault_stops vbat rfl (by decide) power commit
end

section
/-! The counting of the gauge's charge (R289). -/

namespace Sys2Proof.Machine

variable {s : State} {x : Int}

/-- Charge in units of the accumulator that the sum `x` and the carry hold together, toward zero. -/
def State.chargeStep (s : State) (x : Int) : Int := tdiv (x * 625000 + s.gg.carry) (32768 * s.rsh)

theorem State.countCharge_carry : (s.countCharge x).gg.carry = x * 625000 + s.gg.carry - s.chargeStep x * (32768 * s.rsh) := by
  unfold State.countCharge
  dsimp only
  split
  · rfl
  · split <;> rfl

theorem State.countCharge_qc (live : s.flag F.GG_STAT_FROZEN = false) : (s.countCharge x).gg.qc = s.gg.qc + s.chargeStep x := by
  unfold State.countCharge
  dsimp only
  rw [if_neg (Bool.eq_false_iff.1 live)]
  split <;> rfl

theorem State.countCharge_frozen (frozen : s.flag F.GG_STAT_FROZEN = true) :
    (s.countCharge x).gg.qc = s.gg.qc ∧ (s.countCharge x).gg.used = s.gg.used := by
  unfold State.countCharge
  dsimp only
  rw [if_pos frozen]
  exact ⟨rfl, rfl⟩

/-- The carry is what the division by one unit leaves. -/
theorem State.countCharge_carry_eq_tmod : (s.countCharge x).gg.carry = (x * 625000 + s.gg.carry).tmod (32768 * s.rsh) := by
  rw [State.countCharge_carry, Int.tmod_def, Int.mul_comm (32768 * s.rsh)]
  rfl

end Sys2Proof.Machine

open Sys2Proof Sys2Proof.Machine

/-- Settles O59: the charge counted and the carry are quotient and remainder of one division. -/
theorem chargeIsConserved : Obligations.ChargeIsConserved := by
  unfold Obligations.ChargeIsConserved
  refine ⟨fun x s live => ?_, fun x s shunt => ?_, fun x s => State.countCharge_frozen⟩
  · rw [State.countCharge_qc live, State.countCharge_carry, add_sub_cancel_left, Int.add_comm, Int.sub_add_cancel]
  · rw [State.countCharge_carry_eq_tmod, Int.natAbs_tmod]
    exact Nat.mod_lt _ (Int.natAbs_pos.2 (by omega))
end

section
/-! The bounds of a computing slot: its integrators, its comparator and its reference (R168 to R174, R201). -/

namespace Sys2Proof.Machine

/-- A saturation between `0` and `m` lies there. -/
theorem sat_bounds (a : Int) {lo hi : Int} (h : lo ≤ hi) : lo ≤ sat a lo hi ∧ sat a lo hi ≤ hi := by
  unfold sat
  split
  · exact ⟨Int.le_refl _, h⟩
  · split
    · exact ⟨h, Int.le_refl _⟩
    · omega

/-- A saturation between two values of a range lies in the range, in whichever order they stand. -/
theorem sat_within (a : Int) {lo hi m : Int} (l : 0 ≤ lo ∧ lo ≤ m) (h : 0 ≤ hi ∧ hi ≤ m) : 0 ≤ sat a lo hi ∧ sat a lo hi ≤ m := by
  unfold sat
  split
  · exact l
  · split
    · exact h
    · omega

/-- A voltage up to 26000 shows as an integrator within its limit. -/
theorem shl_within {v : Int} (h : 0 ≤ v ∧ v ≤ 26000) : 0 ≤ shl v 15 ∧ shl v 15 ≤ xMax := by
  unfold shl xMax
  omega

theorem State.integrate_within (s : State) (n k win : Nat) (x err : Int) {lo hi : Int} {manual : Bool} (lead : Bool) (auto : k ≠ 0 ∨ manual = false)
    (l : 0 ≤ lo ∧ lo ≤ xMax) (h : 0 ≤ hi ∧ hi ≤ xMax) :
    0 ≤ (s.integrate n k win x err lo hi manual lead).1 ∧ (s.integrate n k win x err lo hi manual lead).1 ≤ xMax := by
  unfold State.integrate
  split
  case isTrue manual =>
    obtain ⟨zero, man⟩ := manual
    exact auto.elim (fun other => absurd zero other) fun automatic => absurd man (Bool.eq_false_iff.1 automatic)
  case isFalse =>
    split
    · exact h
    · dsimp only
      split
      · exact sat_bounds _ (by decide)
      · exact sat_within _ l h

theorem State.dacWrite_le_vceil (s : State) (n : Nat) (prev out : Int) : s.dacWrite n prev out ≤ s.vceil n := min_le_right _ _

theorem State.dacWrite_le_slew (s : State) (n : Nat) (prev out : Int) : s.dacWrite n prev out ≤ prev + 16 * tget s.otp.slew n 255 :=
  (min_le_left _ _).trans (sat_bounds _ (by omega)).2

/-- The reference falls no faster than the slew ceiling, unless the ceiling on the value itself cuts it. -/
theorem State.slew_le_dacWrite (s : State) (n : Nat) (prev out : Int) :
    prev - 16 * tget s.otp.slew n 255 ≤ s.dacWrite n prev out ∨ s.dacWrite n prev out = s.vceil n := by
  have low := (sat_bounds out (lo := prev - 16 * tget s.otp.slew n 255) (hi := prev + 16 * tget s.otp.slew n 255) (by omega)).1
  obtain ⟨same, -⟩ | ⟨same, -⟩ := min_cases (sat out (prev - 16 * tget s.otp.slew n 255) (prev + 16 * tget s.otp.slew n 255)) (s.vceil n : Int)
  · exact .inl (by rwa [State.dacWrite, same])
  · exact .inr same

/-! What of a stack a computing slot bounds. -/

/-- The integrators, the comparator and the reference of a stack. -/
structure LoopView where
  xV : Int
  xC : Int
  xT : Int
  xP : Int
  vcmpLast : Int
  vcmpDac : Int
  dLast : Int

def Stack.loopView (x : Stack) : LoopView := ⟨x.xV, x.xC, x.xT, x.xP, x.vcmpLast, x.vcmpDac, x.dLast⟩

def State.loopView (s : State) (n : Nat) : LoopView := (s.stk n).loopView

section
variable (s : State) (n : Nat)

theorem State.emitX_loopView (m src block code colour : Nat) (p : List (Nat × Nat)) :
    (s.emitX m src block code colour p).loopView n = s.loopView n := by
  obtain ⟨e, r, same⟩ := s.emitX_frame m src block code colour p
  rw [same]
  rfl

theorem State.setStk_loopView (x : Stack) : (s.setStk n x).loopView n = x.loopView := by rw [State.loopView, State.stk_setStk]

theorem State.engFlag_loopView (k : Nat) (b : Bool) : (s.engFlag n k b).loopView n = s.loopView n := by
  unfold State.engFlag
  split <;> rfl

theorem State.limitMade_loopView (t : Nat) : (s.limitMade n t).loopView n = s.loopView n := by
  unfold State.limitMade
  dsimp only
  rw [State.emitX_loopView, State.setStk_loopView]
  rfl

theorem State.takeover_loopView (win : Nat) (ref : Int) : (s.takeover n win ref).loopView n = s.loopView n := by
  have recorded : ∀ (c : Prop) [Decidable c] (t : Nat), (if c then s.limitMade n t else s).loopView n = s.loopView n := by
    intro c _ t
    split
    · exact s.limitMade_loopView n t
    · rfl
  unfold State.takeover
  extract_lets t s1 x
  split
  · exact (s1.setStk_loopView n _).trans (recorded _ _)
  · rw [State.emitX_loopView]
    exact (s1.setStk_loopView n _).trans (recorded _ _)

end

/-- What a computing slot of stack `n` from state `s` holds within bounds. -/
structure SlotBounded (s : State) (n : Nat) (v : LoopView) : Prop where
  voltage : s.flag (F.STK_ENG_CTRL_MODE n) = false → 0 ≤ v.xV ∧ v.xV ≤ xMax
  current : 0 ≤ v.xC ∧ v.xC ≤ xMax
  thermal : 0 ≤ v.xT ∧ v.xT ≤ xMax
  power : 0 ≤ v.xP ∧ v.xP ≤ xMax
  comparator : 0 ≤ v.vcmpLast ∧ v.vcmpLast ≤ 26000 ∧ v.vcmpDac = min v.vcmpLast (s.vceil n : Int)
  reference : v.dLast ≤ s.vceil n ∧ v.dLast ≤ (s.stk n).dLast + 16 * tget s.otp.slew n 255

theorem State.slotLoops_bounded (s : State) (n : Nat) (e i t aoff : Int) : SlotBounded s n ((s.slotLoops n e i t aoff).loopView n) := by
  unfold State.slotLoops
  extract_lets x man er pr rr r win rsel base lo hi g bad ll vcmp nt ff y out dac src x1 before s1 s2 s3 s4 s5
  have lowBase : 0 ≤ base ∧ base ≤ 26000 := sat_bounds _ (by decide)
  have lows : 0 ≤ lo ∧ lo ≤ xMax := shl_within lowBase
  have highs : 0 ≤ hi ∧ hi ≤ xMax := shl_within (by omega)
  have loop : ∀ k, k ≠ 0 ∨ man = false → 0 ≤ (g k).1 ∧ (g k).1 ≤ xMax := fun k auto =>
    s.integrate_within n k win (x.xOf k) (er k).1 (x.ant && x.antLead) auto lows highs
  have view : x1.loopView = ⟨(g 0).1, (g 1).1, (g 2).1, (g 3).1, vcmp, min vcmp (s.vceil n), dac⟩ := rfl
  have clamped : 0 ≤ vcmp ∧ vcmp ≤ 26000 := sat_bounds ll.2 (by decide)
  have values : SlotBounded s n x1.loopView := by
    rw [view]
    exact { voltage := fun auto => loop 0 (.inr auto)
            current := loop 1 (.inl (by decide))
            thermal := loop 2 (.inl (by decide))
            power := loop 3 (.inl (by decide))
            comparator := ⟨clamped.1, clamped.2, rfl⟩
            reference := ⟨s.dacWrite_le_vceil n x.dLast out, s.dacWrite_le_slew n x.dLast out⟩ }
  have first : s1.loopView n = x1.loopView := s.setStk_loopView n x1
  have flags : s4.loopView n = x1.loopView := by
    simp only [s4, s3, s2, State.engFlag_loopView, first]
  have shown : s5.loopView n = x1.loopView := by
    simp only [s5]
    split
    · rw [State.emitX_loopView, flags]
    · exact flags
  split
  · rwa [State.takeover_loopView, shown]
  · rwa [shown]

end Sys2Proof.Machine

open Sys2Proof Sys2Proof.Machine

/-- Settles O53: the bounds of a slot, and those of the value for the reference DAC. -/
theorem engineStaysInBounds : Obligations.EngineStaysInBounds := by
  unfold Obligations.EngineStaysInBounds
  refine ⟨fun s n e i t aoff => ?ceilings, fun s n e i t aoff => (s.slotLoops_bounded n e i t aoff).voltage,
    fun s n e i t aoff => (s.slotLoops_bounded n e i t aoff).comparator,
    fun s n prev out => ⟨s.dacWrite_le_vceil n prev out, s.dacWrite_le_slew n prev out, s.slew_le_dacWrite n prev out⟩,
    fun s n e i t aoff => (s.slotLoops_bounded n e i t aoff).reference⟩
  have bounds := s.slotLoops_bounded n e i t aoff
  exact ⟨bounds.current, bounds.thermal, bounds.power⟩
end

section
/-! A tripped stack: what a raising leaves of it, and that it neither computes nor gives a turn (R131, R158, R163). -/

namespace Sys2Proof.Machine

variable {s t u : State}

/-! What a raising leaves of the stacks. -/

/-- From `s` to `t` every trip stays, and the tiles stay as they are unless BLACK is entered. -/
structure State.TripsKept (s t : State) : Prop where
  tripped : t.coreView.tripped = s.coreView.tripped
  tiles : t.dev.mode = .black ∨ (t.dev.mode = s.dev.mode ∧ ∀ f : FRef, f.blk = 2 → t.get f = s.get f)

theorem State.TripsKept.refl (s : State) : s.TripsKept s := ⟨rfl, .inr ⟨rfl, fun _ _ => rfl⟩⟩

theorem State.TripsKept.trans (h : s.TripsKept t) (k : t.TripsKept u) : s.TripsKept u := by
  refine ⟨k.tripped.trans h.tripped, ?_⟩
  rcases k.tiles with black | ⟨mode, tiles⟩
  · exact .inl black
  · rcases h.tiles with black | ⟨mode', tiles'⟩
    · exact .inl (mode.trans black)
    · exact .inr ⟨mode.trans mode', fun f hf => (tiles f hf).trans (tiles' f hf)⟩

theorem State.Alters.tripsKept {B : List Nat} (h : s.Alters B t) (til : 2 ∉ B) : s.TripsKept t :=
  ⟨congrArg CoreView.tripped h.view, .inr ⟨congrArg CoreView.mode h.view, fun f hf => h.regs f (by rwa [hf])⟩⟩

theorem State.react_tripsKept (s : State) (src colour : Nat) : s.TripsKept (s.react src colour) := by
  obtain same | guards | ⟨black, -⟩ := s.react_cases src colour
  · rw [same]
    exact .refl s
  · rw [guards]
    exact (s.guardsEnd_alters 5 colour).tripsKept (by decide)
  · rw [black]
    exact ⟨(congrArg CoreView.tripped (s.enterBlack_view src)).trans rfl, .inl (congrArg CoreView.mode (s.enterBlack_view src))⟩

theorem State.raiseMarked_alters (s : State) (src detail : Nat) : s.TripsKept (s.raiseMarked src detail) := by
  have act : ∀ f : FRef, f.blk = 2 → f.key ≠ (actField src).key := fun f hf same =>
    absurd ((actField_facts src).1.symm.trans ((congrArg (· / 0x8000) same).symm.trans hf)) (by decide)
  refine ⟨?_, .inr ⟨congrArg Dev.mode (s.raiseMarked_dev src detail), fun f hf => s.raiseMarked_get src detail (act f hf)⟩⟩
  unfold State.raiseMarked
  split <;> rfl

theorem State.pendSet_alters (s : State) (src : Nat) : s.Alters [11] (s.pendSet src) := by
  refine .set ?_ _ (by decide) rfl
  exact .set (.refl s _) _ (by decide) (pendField_facts src).1

theorem State.raisePended_tripsKept (s : State) (src colour detail : Nat) (inj floor : Bool) :
    s.TripsKept (s.raisePended src colour detail inj floor) := by
  have pended : s.TripsKept (s.pendSet src) := (s.pendSet_alters src).tripsKept (by decide)
  have recorded : ∀ p, s.TripsKept (((s.pendSet src).react src colour).emitC 0xB 1 colour p) := fun p =>
    (pended.trans (State.react_tripsKept _ src colour)).trans ((State.Alters.emitC (.refl _ []) _ _ _ _).tripsKept (by decide))
  unfold State.raisePended
  rw [← State.pendSet]
  dsimp only
  split
  · exact (recorded _).trans ((State.logFault_alters _ _ _ _ _ _).tripsKept (by decide))
  · exact recorded _

section
variable {src : Nat} (detail : Nat) (inj : Bool) (power : s.dev.stage ≠ .powerDown) (commit : s.dev.stage ≠ .commit)
include power commit

theorem State.raiseOne_tripsKept : s.TripsKept (s.raiseOne src detail inj) := by
  have quiet : ¬ ((s.dev.stage = .powerDown ∨ s.dev.stage = .commit) ∧ s.effColour src = 3) := fun h => h.1.elim power commit
  have marked := s.raiseMarked_alters src detail
  cases core : s.coreRuns with
  | false =>
    rw [State.raiseOne_of_stopped core quiet]
    exact .refl s
  | true =>
    rw [State.raiseOne_eq detail inj core quiet]
    split
    · split
      · exact marked.trans (State.react_tripsKept _ _ _)
      · exact marked
    · exact marked.trans (State.raisePended_tripsKept _ _ _ _ _ _)

theorem State.raiseI_tripsKept : s.TripsKept (s.raiseI src detail inj) := by
  have first := State.raiseOne_tripsKept (src := src) detail inj power commit
  have stage := s.raiseOne_stage (src := src) detail inj power commit
  have flagged : ∀ v : State, v.TripsKept v.injDone := fun v =>
    (State.Alters.set (.set (.refl v [11]) _ (by decide) rfl) _ (by decide) rfl).tripsKept (by decide)
  unfold State.raiseI
  dsimp only
  split
  · exact (first.trans (State.raiseOne_tripsKept 0 true (by rwa [stage]) (by rwa [stage]))).trans (flagged _)
  · exact first

end

/-! Tiles that take no turn. -/

theorem State.tilesOf_of_get (h : ∀ f : FRef, f.blk = 2 → t.get f = s.get f) (n : Nat) : t.tilesOf n = s.tilesOf n := by
  refine List.filter_congr fun k hk => ?_
  rw [h _ (blk_tileStat (List.mem_range.1 hk))]

/-- No tile of use `n` is in the turn order. -/
def State.turnsRest (s : State) (n : Nat) : Prop := ∀ k ∈ s.tilesOf n, s.get (F.TIL_STAT_ACTIVE k) = 0

theorem State.turnsRest.of_get {n : Nat} (h : s.turnsRest n) (tiles : ∀ f : FRef, f.blk = 2 → t.get f = s.get f) : t.turnsRest n := by
  intro k hk
  rw [State.tilesOf_of_get tiles] at hk
  rw [tiles _ (blk_tileStat (State.tilesOf_lt hk))]
  exact h k hk

theorem State.tilesOff_get_use (s : State) (n k : Nat) : (s.tilesOff n).get (F.TIL_STAT_USE k) = s.get (F.TIL_STAT_USE k) := by
  unfold State.tilesOff
  refine forEach_induction (P := fun x => x.get (F.TIL_STAT_USE k) = s.get (F.TIL_STAT_USE k)) _ _ (fun m _ x same => Eq.trans ?_ same) rfl
  have apart : ∀ b w r, b < 16 → (F.TIL_STAT_USE k).key ≠ (fr (0x0800 + 16 * m) b w r).key := by
    intro b w r hb
    change (0x0800 + 16 * k) * 32 + 16 ≠ (0x0800 + 16 * m) * 32 + b
    omega
  exact (State.get_set_of_ne _ 1 (apart 6 1 1 (by decide))).trans (State.get_set_of_ne x 0 (apart 7 1 0 (by decide)))

theorem State.tilesOff_turnsRest (s : State) (n : Nat) : (s.tilesOff n).turnsRest n := by
  intro k hk
  have mine : k ∈ s.tilesOf n := by
    simp only [State.tilesOf, List.mem_filter, State.tilesOff_get_use] at hk ⊢
    exact hk
  exact (forEach_establishes (P := fun x => x.tileDown k) mine (fun x => x.tileOff_down k) fun m _ x d => d.tileOff m).2

theorem State.turns_of_rest {n : Nat} (h : s.turnsRest n) : s.turns n = false := by
  have none : ((s.tilesOf n).any fun k => s.flag (F.TIL_STAT_ACTIVE k)) = false := by
    rw [List.any_eq_false]
    intro k hk
    rw [State.flag, h k hk]
    decide
  rw [State.turns, none, Bool.and_false, Bool.false_and]

theorem State.turns_of_black {n : Nat} (black : s.dev.mode = .black) : s.turns n = false := by
  simp [State.turns, State.inMode, black]

/-- A barred stack gives no turn. -/
theorem State.turns_of_barred {n : Nat} (stack : n < 16) (barred : (s.stk n).barred = true) : s.turns n = false := by
  rw [State.turns, decide_eq_true stack, barred]
  exact Bool.and_false _

theorem State.slotComputes_of_tripped {n : Nat} (tripped : (s.stk n).tripped = true) : s.slotComputes n = false := by
  rw [State.slotComputes, tripped]
  exact Bool.and_false _

/-! The trip (R158). -/

/-- Stack `n` as its trip turns it off. -/
def State.stackCut (s : State) (n : Nat) : State :=
  ((((((s.stackPgOff n true).dischargeOff n).set (F.STK_STAT_SS n) 0).set (F.STK_STAT_LOCK n) 0).set (F.STK_STAT_OV_TRIP n) 1)).shedRest n

/-- Stack `n` right after its trip, before the record and the source. -/
def State.stackTripped (s : State) (n : Nat) : State := (s.stackCut n).setStk n { (s.stackCut n).stk n with tripped := true }

theorem State.Alters.dischargeOff {z : State} {B : List Nat} (h : z.Alters B s) {n : Nat} (hn : n < 16) (til : 2 ∈ B) (stk : 3 ∈ B) :
    z.Alters B (s.dischargeOff n) := by
  unfold State.dischargeOff
  refine .tilesOff (.setStk (h.set 0 stk (blk_stkStat hn)) n ?_) n til
  rfl

theorem State.stackCut_alters (s : State) {n : Nat} (hn : n < 16) : ((s.stackPgOff n true).dischargeOff n).Alters [3] (s.stackCut n) :=
  .shedRest (.set (.set (.set (.refl _ _) _ (by decide) (blk_stkStat hn)) _ (by decide) (blk_stkStat hn)) _ (by decide) (blk_stkStat hn)) hn (by decide)

theorem State.stackTripped_stage (s : State) {n : Nat} (hn : n < 16) : (s.stackTripped n).dev.stage = s.dev.stage := by
  have cut : s.Alters [2, 3, 5] (s.stackCut n) :=
    (((State.Alters.refl s _).stackPgOff hn true (by decide) (by decide)).dischargeOff hn (by decide) (by decide)).trans
      ((s.stackCut_alters hn).mono (by decide))
  exact congrArg CoreView.stage cut.view

theorem State.stackTripped_tripped (s : State) (n : Nat) : ((s.stackTripped n).stk n).tripped = true := by
  rw [State.stackTripped, State.stk_setStk]

theorem State.stackTripped_rest (s : State) {n : Nat} (hn : n < 16) : (s.stackTripped n).turnsRest n := by
  have off : ((s.stackPgOff n true).dischargeOff n).turnsRest n := State.tilesOff_turnsRest _ n
  exact off.of_get fun f hf => (s.stackCut_alters hn).regs f (by rw [hf]; decide)

theorem State.emitX_dev (s : State) (x src block code colour : Nat) (p : List (Nat × Nat)) : (s.emitX x src block code colour p).dev = s.dev := by
  obtain ⟨e, r, same⟩ := s.emitX_frame x src block code colour p
  rw [same]

theorem State.emitX_tripsKept (s : State) {x : Nat} (hx : x < 16) (src block code colour : Nat) (p : List (Nat × Nat)) :
    s.TripsKept (s.emitX x src block code colour p) := by
  refine ⟨?_, .inr ⟨congrArg Dev.mode (s.emitX_dev x src block code colour p), fun f hf => s.emitX_get hx src block code colour p (by rw [hf]; decide)⟩⟩
  obtain ⟨e, r, same⟩ := s.emitX_frame x src block code colour p
  rw [same]
  rfl

section
variable {n : Fin 16} (run : s.dev.mode = .run) (stage : s.dev.stage = .none) (has : s.tileCount n ≠ 0) (fresh : (s.stk n).tripped = false)
include run has fresh

theorem exec_stkOvTrip : exec (.stkOvTrip n) s = .next
    (((s.stackTripped n).emitX 4 n 3 1 (s.effColour 17) [(n, 1), (s.get (F.STK_STAT_EN n), 1), (s.vov n, 2)]).raise 17 n) :=
  congrArg Host.Outcome.next (if_pos ⟨.inl (State.inMode_of_eq run), has, Bool.eq_false_iff.1 fresh⟩)

include stage in
theorem exec_stkOvTrip_tripsKept (next : exec (.stkOvTrip n) s = .next t) : (s.stackTripped n).TripsKept t := by
  rw [exec_stkOvTrip run has fresh] at next
  have same := Host.Outcome.next.inj next
  subst same
  have dev : (s.stackTripped n).dev.stage = .none := (s.stackTripped_stage n.isLt).trans stage
  refine (State.emitX_tripsKept _ (by decide) _ _ _ _ _).trans (State.raiseI_tripsKept _ _ ?_ ?_) <;> rw [State.emitX_dev, dev] <;> decide

end

/-! The enable of a stack that is held off (R158, R180). -/

/-- Stack `n` as an enable leaves it before its tiles are held: its record, its status and its tiles in the turn order. -/
def State.stackEnabled (s : State) (n vos : Nat) : State :=
  let x := { s.stk n with
    preEnable := true, prePark := false, ssFrom := (vos : Int), ssSlot := 0, rampDown := false, pgIn := 0, pgOut := 0, barred := s.stackHeldOff n }
  let v := ((((s.setStk n x).set (F.STK_STAT_EN n) 1).set (F.STK_STAT_SS n) 1).set (F.STK_STAT_DIS n) 0).set (F.STK_STAT_NACT n) (s.tileCount n)
  (v.set (F.STK_STAT_PTR n) 0).tilesJoin n 0 (s.tileCount n)

theorem State.tilesJoin_stk (s : State) (n a b m : Nat) : (s.tilesJoin n a b).stk m = s.stk m := by
  refine forEach_induction (P := fun x => x.stk m = s.stk m) _ _ (fun k _ x same => Eq.trans ?_ same) rfl
  split <;> rfl

theorem State.stackEnabled_barred (s : State) (n vos : Nat) : ((s.stackEnabled n vos).stk n).barred = s.stackHeldOff n := by
  unfold State.stackEnabled
  dsimp only
  rw [State.tilesJoin_stk]
  exact congrArg Stack.barred (State.stk_setStk s n _)

section
variable {n : Nat} (vos : Nat) (held : s.stackHeldOff n = true) (has : s.tileCount n ≠ 0) (off : s.flag (F.STK_STAT_EN n) = false)
  (power : s.pp.cut = false) (cool : s.flag F.THM_STAT_LATCH = false)
include held has off power cool

theorem State.stackEnable_of_heldOff :
    s.stackEnable n vos = forEach (s.tilesOf n) (fun t x => x.set (F.TIL_STAT_HIZ t) 1) (s.stackEnabled n vos) := by
  have takes : ¬ (s.tileCount n = 0 ∨ s.flag (F.STK_STAT_EN n) = true ∨ s.pp.cut = true ∨ s.flag F.THM_STAT_LATCH = true) := by
    rw [off, power, cool]
    simp [has]
  exact (if_neg takes).trans (if_pos held)

theorem State.stackEnable_barred : ((s.stackEnable n vos).stk n).barred = true := by
  rw [State.stackEnable_of_heldOff vos held has off power cool]
  refine forEach_induction (P := fun x => (x.stk n).barred = true) _ _ (fun _ _ _ same => same) ?_
  rw [State.stackEnabled_barred, held]

theorem State.stackEnable_hiz {k : Nat} (mine : k ∈ s.tilesOf n) : (s.stackEnable n vos).get (F.TIL_STAT_HIZ k) = 1 := by
  rw [State.stackEnable_of_heldOff vos held has off power cool]
  refine forEach_establishes (P := fun x => x.get (F.TIL_STAT_HIZ k) = 1) mine (fun x => State.get_set x _ 1) fun m _ x high => ?_
  by_cases same : m = k
  · rw [same]
    exact State.get_set x _ 1
  · refine (State.get_set_of_ne x 1 ?_).trans high
    change (0x0800 + 16 * k) * 32 + 6 ≠ (0x0800 + 16 * m) * 32 + 6
    omega

end

end Sys2Proof.Machine

open Sys2Proof Sys2Proof.Machine

/-- Settles O51: the trip stays through the source it raises, and its tiles stay out of the turn order or BLACK is entered; an enable of a stack
that is held off bars it. -/
theorem tripsHold : Obligations.TripsHold := by
  unfold Obligations.TripsHold
  refine ⟨fun n s t run stage has fresh next => ?computes, fun n s t run stage has fresh next => ?turns,
    fun n v s held has off power cool => State.turns_of_barred n.isLt (State.stackEnable_barred v held has off power cool),
    fun n v k s held has off power cool mine => State.stackEnable_hiz v held has off power cool mine⟩
  case computes =>
    have kept := exec_stkOvTrip_tripsKept run stage has fresh next
    have tripped : (t.stk n).tripped = true := (congrFun kept.tripped n).trans (s.stackTripped_tripped n)
    exact ⟨tripped, State.slotComputes_of_tripped tripped⟩
  case turns =>
    have kept := exec_stkOvTrip_tripsKept run stage has fresh next
    rcases kept.tiles with black | ⟨-, tiles⟩
    · exact State.turns_of_black black
    · exact State.turns_of_rest ((s.stackTripped_rest n.isLt).of_get tiles)
end

section
/-! The supplies and the causes of a full reset (R29, R33, R54 to R56). -/

namespace Sys2Proof.Machine

variable {s : State}

/-! Always-on good (R55). -/

section
variable (good : s.aoGood = true)
include good

theorem State.onAoGood_of_off (off : s.dev.mode = .off) : s.onAoGood = s.aoBoot := (if_pos good).trans (if_pos (State.inMode_of_eq off))

theorem State.onAoGood_of_waiting (boot : s.dev.mode = .boot) (waiting : s.dev.stage = .waiting) :
    s.onAoGood = if s.dev.resetNLow then { s with dev := { s.dev with strapSeen := s.dev.strapSeen || bitOf s.dev.gpioIn 0 } } else s.aoBoot :=
  (if_pos good).trans ((if_neg (State.not_inMode (by rw [boot]; decide))).trans (if_pos waiting))

end

/-! The loss of VAO good (R56). -/

theorem State.updTear_otp (s : State) : s.updTear.otp = s.otp := by
  unfold State.updTear
  split
  · dsimp only
    split
    · rfl
    · split <;> rfl
  · rfl

theorem State.jnlFlush_otp (s : State) : s.jnlFlush.otp = s.otp := by
  unfold State.jnlFlush
  split <;> rfl

/-- What the loss of VAO good leaves of a machine whose memories stand as in `t`. -/
def State.vaoLost (s t : State) : State :=
  { State.blank with
    pending := s.pending, now := s.now, draws := t.draws, nv := t.nv,
    dev := { Dev.init with pmidGood := s.dev.pmidGood, gpioIn := s.dev.gpioIn, xtalFailed := s.dev.xtalFailed } }

theorem exec_vaoGoodLoss (good : s.dev.vaoGood = true) :
    exec .vaoGoodLoss s = .next (s.vaoLost (match s.otp.prog with
      | some (w, d) => s.jnlFlush.updTear.otpTorn w d
      | none => s.jnlFlush.updTear)) := by
  have prog : s.jnlFlush.updTear.otp.prog = s.otp.prog := by rw [State.updTear_otp, State.jnlFlush_otp]
  rw [← prog]
  exact congrArg Host.Outcome.next (if_pos good)

/-! The other commands. -/

theorem exec_pmidCoreReadyLoss (good : s.dev.pmidGood = true) :
    exec .pmidCoreReadyLoss s = .next (if s.inMode .off ∨ s.inMode .hibernate then { s with dev := { s.dev with pmidGood := false } }
      else ({ s with dev := { s.dev with pmidGood := false } } : State).startReset F.SYS_RESET_CAUSE_PMID_LOSS) :=
  congrArg Host.Outcome.next (if_pos good)

section
variable (open_ : s.writeOk 0x0008 = true) (bus : s.injects 4 = false)
include open_ bus

theorem exec_sysResetImage : exec .sysResetImage s = .next (s.startReset F.SYS_RESET_CAUSE_CMD) :=
  congrArg Host.Outcome.next ((s.bus_quiet _ _ open_ bus).trans (if_pos rfl))

theorem exec_sysResetRecovery : exec .sysResetRecovery s = .next (s.startReset F.SYS_RESET_CAUSE_CMD_RCV) :=
  congrArg Host.Outcome.next ((s.bus_quiet _ _ open_ bus).trans ((if_neg (by decide)).trans (if_pos rfl)))

end

/-- The machine with `RESET_N` high and the strap's level. -/
def State.resetNRisen (s : State) (strap : Bool) : State := { s with dev := { s.dev with gpioIn := putBit s.dev.gpioIn 0 strap, resetNLow := false } }

theorem exec_resetNRelease (strap : Bool) :
    exec (.resetNRelease strap) s = .next (if s.dev.stage = .waiting ∧ s.aoGood = true then (s.resetNRisen strap).enterBoot else s.resetNRisen strap) := rfl

end Sys2Proof.Machine

open Sys2Proof Sys2Proof.Machine

/-- Settles O9: the condition of each command holds or fails by the clause's premises. -/
theorem suppliesAndResets : Obligations.SuppliesAndResets := by
  unfold Obligations.SuppliesAndResets
  refine ⟨?vaoGood, fun _ good off => State.onAoGood_of_off good off, ?aoBoot, ?aoHeld, ?notGood, ?pmidReady, ?vaoLoss, ?pmidLoss, ?pmidLossOff,
    fun _ good => congrArg Host.Outcome.next (if_pos good), fun _ => exec_sysResetImage, fun _ => exec_sysResetRecovery,
    fun _ down => congrArg Host.Outcome.next (if_pos down), fun strap s waiting good => ?release, fun strap s other => ?releaseOther,
    fun strap s _ bad => ?releaseBad, ?vaoLossOtp, fun strap s good => congrArg Host.Outcome.next (if_pos good), ?vaoGoodElse⟩
  case vaoGood =>
    intro strap pack s off lost
    exact congrArg Host.Outcome.next (if_pos ⟨State.inMode_of_eq off, Bool.eq_false_iff.1 lost⟩)
  case vaoGoodElse =>
    intro strap pack s other
    refine congrArg Host.Outcome.next (if_neg ?_)
    rintro ⟨off, lost⟩
    exact other.elim (fun h => State.not_inMode h off) lost
  case aoBoot =>
    intro s good boot waiting high
    rw [State.onAoGood_of_waiting good boot waiting, high]
    exact if_neg Bool.false_ne_true
  case aoHeld =>
    intro s good boot waiting low
    rw [State.onAoGood_of_waiting good boot waiting, low]
    exact if_pos rfl
  case notGood => exact fun s bad => if_neg (Bool.eq_false_iff.1 bad)
  case pmidReady => exact fun strap s lost => congrArg Host.Outcome.next (if_neg (Bool.eq_false_iff.1 lost))
  case vaoLoss =>
    intro s good idle
    rw [exec_vaoGoodLoss good, idle]
    rfl
  case vaoLossOtp =>
    rintro w d t s good going rfl
    rw [exec_vaoGoodLoss good, going]
    rfl
  case pmidLoss =>
    intro s good off hib
    rw [exec_pmidCoreReadyLoss good, if_neg fun h => h.elim (State.not_inMode off) (State.not_inMode hib)]
  case pmidLossOff =>
    intro s good off
    rw [exec_pmidCoreReadyLoss good, if_pos (off.imp State.inMode_of_eq State.inMode_of_eq)]
  case release =>
    rw [exec_resetNRelease, if_pos ⟨waiting, good⟩]
    rfl
  case releaseOther =>
    rw [exec_resetNRelease, if_neg fun h => other h.1]
    rfl
  case releaseBad =>
    rw [exec_resetNRelease, if_neg fun h => Bool.eq_false_iff.1 bad h.2]
    rfl
end

section
/-! Park and hibernate, the wake sources and the seconds count (R16, R17, R22, R90 to R95, R440). -/

namespace Sys2Proof.Machine

variable {s : State}

/-! Wake sources (R90 to R94). -/

/-- Wake source `k` has crossed and its status bit is set. -/
def State.wakeMarked (s : State) (k : Nat) : State := (s.cross 11 k).putBitF F.SYS_WAKE_STATUS_FIRED k true

/-- Source `k` is enabled for HIBERNATE. -/
def State.wakesHib (s : State) (k : Nat) : Bool := decide (k < 7) && s.bitF F.SYS_WAKE_CFG_HIB_EN k

/-- Outside BLACK, where it ignores the pins, a wake source is marked and acts by the device state. -/
theorem State.wakeFire_eq {k : Nat} (r : Bool) (seen : s.dev.mode ≠ .black ∨ 4 < k) :
    s.wakeFire k r =
      if s.dev.stage ≠ .none then s.wakeMarked k
      else match s.dev.mode with
        | .hibernate =>
          if s.wakesHib k then (if s.aoGood ∧ ¬ s.flag F.THM_STAT_LATCH then (s.wakeMarked k).wakeBoot else (s.wakeMarked k).wakeHold k r)
          else s.wakeMarked k
        | .park =>
          if s.hibGoing then (if s.wakesHib k then (s.wakeMarked k).wakeHold k r else s.wakeMarked k)
          else if s.bitF F.SYS_WAKE_CFG_PARK_EN k then ((s.wakeMarked k).wakeHold k r).parkWake else s.wakeMarked k
        | .run =>
          if (s.phase = 6 ∧ s.bitF F.SYS_WAKE_CFG_PARK_EN k) ∨ (s.hibGoing ∧ s.wakesHib k) then (s.wakeMarked k).wakeHold k r else s.wakeMarked k
        | .boot => if s.flag F.THM_STAT_LATCH ∧ s.wakesHib k then (s.wakeMarked k).wakeHold k r else s.wakeMarked k
        | _ => s.wakeMarked k := by
  refine (if_neg ?_).trans rfl
  rintro ⟨black, low⟩
  exact seen.elim (fun h => State.not_inMode h black) fun h => by omega

theorem State.wakesHib_of {k : Nat} (low : k < 7) (enabled : s.bitF F.SYS_WAKE_CFG_HIB_EN k = true) : s.wakesHib k = true := by
  rw [State.wakesHib, decide_eq_true low, enabled]
  rfl

theorem State.wakesHib_of_not {k : Nat} (h : s.bitF F.SYS_WAKE_CFG_HIB_EN k = false ∨ 7 ≤ k) : s.wakesHib k = false := by
  rcases h with off | high
  · rw [State.wakesHib, off, Bool.and_false]
  · rw [State.wakesHib, decide_eq_false (by omega), Bool.false_and]

/-- With no wake latched, a held one is latched. -/
theorem State.wakeHold_of_none {k : Nat} (r : Bool) (free : s.dev.wakeLatch = 0) :
    s.wakeHold k r = { s with dev := { s.dev with wakeLatch := wakeCode k r } } := by
  have none : (if s.hibGoing then s.hibWake else s.dev.wakeLatch) = 0 := by
    split
    · exact if_neg fun h => h.1 free
    · exact free
  rw [State.wakeHold, if_pos none]

theorem State.wakeMarked_dev (s : State) (k : Nat) : (s.wakeMarked k).dev = s.dev := by
  unfold State.wakeMarked State.cross State.crossing
  dsimp only
  split <;> rfl

section
variable {k : Nat} (r : Bool)

theorem State.wakeFire_of_stage (seen : s.dev.mode ≠ .black ∨ 4 < k) (stage : s.dev.stage ≠ .none) : s.wakeFire k r = s.wakeMarked k := by
  rw [State.wakeFire_eq r seen, if_pos stage]

section
variable (stage : s.dev.stage = .none)
include stage

theorem State.wakeFire_of_boot (mode : s.dev.mode = .boot) :
    s.wakeFire k r = if s.flag F.THM_STAT_LATCH ∧ s.wakesHib k then (s.wakeMarked k).wakeHold k r else s.wakeMarked k := by
  rw [State.wakeFire_eq r (.inl (by rw [mode]; decide)), if_neg (not_not.2 stage), mode]

theorem State.wakeFire_of_hibernate (mode : s.dev.mode = .hibernate) :
    s.wakeFire k r =
      if s.wakesHib k then (if s.aoGood ∧ ¬ s.flag F.THM_STAT_LATCH then (s.wakeMarked k).wakeBoot else (s.wakeMarked k).wakeHold k r)
      else s.wakeMarked k := by
  rw [State.wakeFire_eq r (.inl (by rw [mode]; decide)), if_neg (not_not.2 stage), mode]

theorem State.wakeFire_of_park (mode : s.dev.mode = .park) :
    s.wakeFire k r =
      if s.hibGoing then (if s.wakesHib k then (s.wakeMarked k).wakeHold k r else s.wakeMarked k)
      else if s.bitF F.SYS_WAKE_CFG_PARK_EN k then ((s.wakeMarked k).wakeHold k r).parkWake else s.wakeMarked k := by
  rw [State.wakeFire_eq r (.inl (by rw [mode]; decide)), if_neg (not_not.2 stage), mode]

theorem State.wakeFire_of_run (mode : s.dev.mode = .run) :
    s.wakeFire k r = if (s.phase = 6 ∧ s.bitF F.SYS_WAKE_CFG_PARK_EN k) ∨ (s.hibGoing ∧ s.wakesHib k) then (s.wakeMarked k).wakeHold k r
      else s.wakeMarked k := by
  rw [State.wakeFire_eq r (.inl (by rw [mode]; decide)), if_neg (not_not.2 stage), mode]

theorem State.wakeFire_of_still (seen : s.dev.mode ≠ .black ∨ 4 < k) (mode : s.dev.mode = .recovery ∨ s.dev.mode = .black) :
    s.wakeFire k r = s.wakeMarked k := by
  rw [State.wakeFire_eq r seen, if_neg (not_not.2 stage)]
  rcases mode with mode | mode <;> rw [mode]

end
end

/-! The commands. -/

section
variable {k : Fin 8} (retOk strap : Bool) (supply : s.dev.vaoGood = true) (parked : k.val = 7 → s.dev.mode = .park)
  (alarm : k.val = 5 → s.rtcSec = s.get F.SYS_WAKE_ALARM_SEC ∧ s.rtcSec ≠ 0) (accepted : k.val = 6 → s.get F.PP_FE_STAT_STATE ≠ 0)
include supply parked alarm accepted

theorem exec_wakeSource :
    exec (.wakeSource k retOk strap) s = .next ((if s.inMode .hibernate then s.strapTo strap else s).wakeFire k retOk) :=
  congrArg Host.Outcome.next (if_pos ⟨supply, fun h => State.inMode_of_eq (parked h), alarm, accepted⟩)

theorem exec_wakeSource_awake (awake : s.dev.mode ≠ .hibernate) : exec (.wakeSource k retOk strap) s = .next (s.wakeFire k retOk) := by
  rw [exec_wakeSource retOk strap supply parked alarm accepted, if_neg (State.not_inMode awake)]

theorem exec_wakeSource_hibernate (asleep : s.dev.mode = .hibernate) :
    exec (.wakeSource k retOk strap) s = .next ((s.strapTo strap).wakeFire k retOk) := by
  rw [exec_wakeSource retOk strap supply parked alarm accepted, if_pos (State.inMode_of_eq asleep)]

end

/-- The seconds count one further, at its AO tick. -/
def State.secondPassed (s : State) : State := { s.due (ofTicks (s.rtcAt + 32768)) with rtcSec := (s.rtcSec + 1) % 2 ^ 32, rtcAt := s.rtcAt + 32768 }

theorem exec_rtcSecond (retOk strap : Bool) (supply : s.dev.vaoGood = true) :
    exec (.rtcSecond retOk strap) s = .next (
      if (s.rtcSec + 1) % 2 ^ 32 = s.get F.SYS_WAKE_ALARM_SEC ∧ (s.rtcSec + 1) % 2 ^ 32 ≠ 0 then
        (if s.inMode .hibernate then s.secondPassed.strapTo strap else s.secondPassed).wakeFire 5 retOk
      else s.secondPassed) := by
  change execRtcSecond retOk strap s = _
  rw [execRtcSecond, if_pos supply]
  simp only [State.due_rtcSec, State.get, State.inMode, State.due_dev, State.due_regs, State.secondPassed]

section
variable (run : s.dev.mode = .run) (stage : s.dev.stage = .none) (phase : s.phase = 6) (still : s.progRuns = false) (noShut : s.seq.shut = none)
  (noFail : s.seq.failQueue = [])
include run stage phase still noShut noFail

theorem exec_parkEntry :
    exec .parkEntry s = .next (if s.updRuns then s.updStop 8
      else if s.queuesEmpty then (if s.dblAct ∧ ¬ s.adc.dblHeld then s.dblHold else s.parkEnter) else s) :=
  congrArg Host.Outcome.next (if_pos ⟨State.inMode_of_eq run, stage, phase, Bool.eq_false_iff.1 still, noShut, noFail⟩)

theorem exec_parkEntry_empty (idle : s.updRuns = false) (empty : s.queuesEmpty = true) :
    exec .parkEntry s = .next (if s.dblAct ∧ ¬ s.adc.dblHeld then s.dblHold else s.parkEnter) := by
  rw [exec_parkEntry run stage phase still noShut noFail, if_neg (Bool.eq_false_iff.1 idle), if_pos empty]

end

theorem exec_parkEntry_waits (idle : s.updRuns = false) (full : s.queuesEmpty = false) : exec .parkEntry s = .next s := by
  refine congrArg Host.Outcome.next (?_ : (if _ then _ else s) = s)
  rw [if_neg (Bool.eq_false_iff.1 idle), if_neg (Bool.eq_false_iff.1 full), ite_self]

theorem exec_xtalFail (supply : s.dev.vaoGood = true) (runs : s.dev.xtalFailed = false) :
    exec .xtalFail s = .next ({ s with dev := { s.dev with xtalFailed := true } } : State).xtalSet :=
  congrArg Host.Outcome.next (if_pos ⟨supply, Bool.eq_false_iff.1 runs⟩)

end Sys2Proof.Machine

open Sys2Proof Sys2Proof.Machine

/-- Settles O13: a wake source is marked in every state that sees it, and what it does then is the branch of the device state. -/
theorem parkWakesAndSeconds : Obligations.ParkWakesAndSeconds := by
  unfold Obligations.ParkWakesAndSeconds
  refine ⟨?park, ?hibernate, ?gpio, ?enter, ?hold, ?ends, ?runQuiet, ?runHib, ?black, ?wakes, ?exits, ?exit, ?second, ?alarm, ?xtal, ?xtalRun,
    fun s failed => congrArg Host.Outcome.next (if_pos failed), ?awake, ?asleep, ?marked, ?hibMarked, ?hibHeld, ?runHeld, ?parkMarked, ?held, ?alarmHib,
    fun s => exec_parkEntry_waits⟩
  case park => exact fun s open_ bus => congrArg Host.Outcome.next ((s.bus_quiet _ _ open_ bus).trans (if_pos rfl))
  case hibernate =>
    exact fun s open_ bus => congrArg Host.Outcome.next ((s.bus_quiet _ _ open_ bus).trans ((if_neg (by decide)).trans (if_pos rfl)))
  case gpio =>
    intro k s mode code fresh
    exact congrArg Host.Outcome.next
      (if_pos ⟨mode.imp State.inMode_of_eq (Or.imp State.inMode_of_eq State.inMode_of_eq), code, Bool.eq_false_iff.1 fresh⟩)
  case enter =>
    intro s run stage phase still noShut noFail idle empty pair
    rw [exec_parkEntry_empty run stage phase still noShut noFail idle empty, if_neg]
    rintro ⟨active, going⟩
    exact pair.elim (fun h => Bool.eq_false_iff.1 h active) going
  case hold =>
    intro s run stage phase still noShut noFail idle empty active going
    rw [exec_parkEntry_empty run stage phase still noShut noFail idle empty, if_pos ⟨active, Bool.eq_false_iff.1 going⟩]
  case ends =>
    intro s run stage phase still noShut noFail updates
    rw [exec_parkEntry run stage phase still noShut noFail, if_pos updates]
  case awake => exact fun k r strap s supply awake parked alarm accepted => exec_wakeSource_awake r strap supply parked alarm accepted awake
  case asleep => exact fun k r strap s supply asleep parked alarm accepted => exec_wakeSource_hibernate r strap supply parked alarm accepted asleep
  case runQuiet =>
    intro k r strap s supply alarm accepted run notHost stage phase still
    rw [exec_wakeSource_awake r strap supply (fun h => absurd h notHost) alarm accepted (by rw [run]; decide), State.wakeFire_of_run r stage run, if_neg]
    · rfl
    · rintro (⟨h, -⟩ | ⟨h, -⟩)
      · exact phase h
      · exact Bool.eq_false_iff.1 still h
  case runHib =>
    rintro k r strap t s supply alarm accepted run low stage going enabled rfl
    rw [exec_wakeSource_awake r strap supply (fun h => by omega) alarm accepted (by rw [run]; decide), State.wakeFire_of_run r stage run,
      if_pos (.inr ⟨going, State.wakesHib_of low enabled⟩)]
    rfl
  case black =>
    intro k r strap s supply alarm accepted black low
    rw [exec_wakeSource_awake r strap supply (fun h => by omega) alarm accepted (by rw [black]; decide)]
    exact congrArg Host.Outcome.next (if_pos ⟨State.inMode_of_eq black, low⟩)
  case wakes =>
    intro k r strap s supply alarm accepted asleep low stage enabled good cool
    rw [exec_wakeSource_hibernate r strap supply (fun h => by omega) alarm accepted asleep,
      State.wakeFire_of_hibernate (s := s.strapTo strap) r stage asleep, if_pos (State.wakesHib_of (s := s.strapTo strap) low enabled),
      if_pos ⟨good, Bool.eq_false_iff.1 cool⟩]
    rfl
  case exits =>
    rintro k r strap t s supply alarm accepted park stage phase still enabled free rfl
    rw [exec_wakeSource_awake r strap supply (fun _ => park) alarm accepted (by rw [park]; decide), State.wakeFire_of_park r stage park,
      if_neg (Bool.eq_false_iff.1 still), if_pos enabled, State.wakeHold_of_none r (by rw [State.wakeMarked_dev, free])]
    rfl
  case exit =>
    intro s park latched noShut still going stage
    exact if_pos ⟨State.inMode_of_eq park, latched, noShut, Bool.eq_false_iff.1 still, Bool.eq_false_iff.1 going, stage⟩
  case second =>
    intro r strap s supply other
    rw [exec_rtcSecond r strap supply, if_neg fun h => other h.1]
    rfl
  case alarm =>
    intro r strap s supply awake now set
    rw [exec_rtcSecond r strap supply, if_pos ⟨now, now ▸ set⟩, if_neg (State.not_inMode awake)]
    rfl
  case alarmHib =>
    intro r strap s supply asleep now set
    rw [exec_rtcSecond r strap supply, if_pos ⟨now, now ▸ set⟩, if_pos (State.inMode_of_eq asleep)]
    rfl
  case xtal =>
    intro s supply runs other
    rw [exec_xtalFail supply runs, State.xtalSet, State.xtalMark]
    exact congrArg (fun x : State => Host.Outcome.next (x.raise 10 0)) (if_neg (State.not_inMode other))
  case xtalRun =>
    intro s supply runs run
    rw [exec_xtalFail supply runs, State.xtalSet, State.xtalMark]
    exact congrArg (fun x : State => Host.Outcome.next (x.raise 10 0)) (if_pos (State.inMode_of_eq run))
  case marked =>
    intro k r s seen still
    by_cases stage : s.dev.stage = .none
    · rcases still with h | ⟨boot, cool⟩ | mode
      · exact absurd stage h
      · exact (State.wakeFire_of_boot r stage boot).trans (if_neg fun h => Bool.eq_false_iff.1 cool h.1)
      · exact State.wakeFire_of_still r stage seen mode
    · exact State.wakeFire_of_stage r seen stage
  case hibMarked =>
    intro k r s asleep stage off
    exact (State.wakeFire_of_hibernate r stage asleep).trans (if_neg (Bool.eq_false_iff.1 (State.wakesHib_of_not off)))
  case hibHeld =>
    rintro k r s t asleep stage enabled low held free rfl
    rw [State.wakeFire_of_hibernate r stage asleep, if_pos (State.wakesHib_of low enabled), if_neg,
      State.wakeHold_of_none r (by rw [State.wakeMarked_dev, free])]
    · rfl
    · rintro ⟨good, cool⟩
      exact held.elim (fun h => Bool.eq_false_iff.1 h good) cool
  case runHeld =>
    rintro k r s t run stage going free rfl
    rw [State.wakeFire_of_run r stage run, if_pos, State.wakeHold_of_none r (by rw [State.wakeMarked_dev, free])]
    · rfl
    · refine going.imp id ?_
      rintro ⟨phase, after, low, enabled⟩
      refine ⟨?_, State.wakesHib_of low enabled⟩
      rw [State.hibGoing, after, phase]
      simp
  case parkMarked =>
    intro k r s park stage phase still off
    exact (State.wakeFire_of_park r stage park).trans ((if_neg (Bool.eq_false_iff.1 still)).trans (if_neg (Bool.eq_false_iff.1 off)))
  case held =>
    intro k r s stage mode enabled low
    rcases mode with ⟨boot, hot⟩ | ⟨park, going⟩
    · exact (State.wakeFire_of_boot r stage boot).trans (if_pos ⟨hot, State.wakesHib_of low enabled⟩)
    · exact (State.wakeFire_of_park r stage park).trans ((if_pos going).trans (if_pos (State.wakesHib_of low enabled)))
end

section
/-! Where the device state lets a write take effect (R1, R15, R71, R97, R466). -/

namespace Sys2Proof.Machine

variable {s : State} {a : Nat}

theorem State.writeOk_of_run (run : s.dev.mode = .run) (a : Nat) : s.writeOk a = true := by rw [State.writeOk, run]

theorem State.writeOk_of_black (black : s.dev.mode = .black) (a : Nat) : s.writeOk a = decide (a = 0x0008) := by rw [State.writeOk, black]

theorem State.writeOk_of_recovery (recovery : s.dev.mode = .recovery) (a : Nat) : s.writeOk a = recoveryWrite a := by rw [State.writeOk, recovery]

theorem State.writeOk_of_other (other : s.dev.mode = .off ∨ s.dev.mode = .hibernate ∨ s.dev.mode = .boot ∨ s.dev.mode = .park) (a : Nat) :
    s.writeOk a = false := by
  rw [State.writeOk]
  rcases other with mode | mode | mode | mode <;> rw [mode]

theorem mem_of_recoveryWrite (h : recoveryWrite a = true) :
    a ∈ [0x0008, 0x000C, 0x2C68, 0x3080, 0x4000, 0x4008, 0x440C] ∨ (0x4800 ≤ a ∧ a < 0x4C00 ∧ (regFields a).isSome = true) := by
  rw [recoveryWrite, Bool.or_eq_true, Bool.and_eq_true, List.contains_iff_mem, decide_eq_true_iff] at h
  exact h.imp id fun ⟨⟨low, high⟩, register⟩ => ⟨low, high, register⟩

end Sys2Proof.Machine

open Sys2Proof Sys2Proof.Machine

/-- Settles O14: the gate is the device state's, and a write behind it is the host write of one word. -/
theorem writesAndTheirGate : Obligations.WritesAndTheirGate := by
  unfold Obligations.WritesAndTheirGate
  refine ⟨fun a v s open_ aligned => congrArg Host.Outcome.next (if_pos ⟨open_, aligned⟩), fun a v s closed => ?closed,
    fun v s open_ bus => congrArg Host.Outcome.next (s.bus_quiet _ _ open_ bus), fun s a run => State.writeOk_of_run run a,
    fun s a black => State.writeOk_of_black black a, fun s a recovery open_ => ?recovery, fun s a other => State.writeOk_of_other other a⟩
  case closed =>
    refine congrArg Host.Outcome.next (if_neg ?_)
    rintro ⟨open_, aligned⟩
    exact closed.elim (fun h => Bool.eq_false_iff.1 h open_) fun odd => odd aligned
  case recovery =>
    rw [State.writeOk_of_recovery recovery] at open_
    exact mem_of_recoveryWrite open_
end

section
/-! A residue of the power-down of a full reset in the Black colour: its source ends that power-down (R20, R21, R212). -/

namespace Sys2Proof.Machine

/-- Step 3 of a full reset that began in RUN: program 1 checks that domain 0 is off, with too many transitions to pass, and source 21 is configured
Black. -/
def blackResidue : State :=
  let d : Dev := { State.reset.dev with mode := .run, stage := .powerDown }
  let q : Seq := { State.reset.seq with stage := .checking, word := 2 ^ 30 + 2 ^ 21, chat := 100 }
  let s : State := { State.reset with now := 100, dev := d, seq := q }
  ((((s.set F.SEQ_STAT_RUN 1).set F.SEQ_STAT_PROG 1).set F.SEQ_STAT_PHASE 4).set (cfgColourField 21) 3)

/-- The machine after the time of the check, by the clause's words: recorded first, at rest then. -/
def blackResidueTimedOut : State := ((blackResidue.due blackResidue.windowEnd).failRecord blackResidue.operand 6 0).setStage .idle

/-- The sequencer's `since` after a command, where the command answers. -/
def sinceAfter (o : Out State) : Nat :=
  match o with
  | .next t => t.seq.since
  | _ => 0

/-- The sequencer comes to rest before the record, whose source then resets it. -/
theorem exec_checkTimeout_blackResidue :
    exec .checkTimeout blackResidue ≠
      .next ({ blackResidueTimedOut with seq := { blackResidueTimedOut.seq with failAct := blackResidueTimedOut.progRuns } } : State).settled := by
  intro same
  exact absurd (congrArg sinceAfter same) (by decide +kernel)

end Sys2Proof.Machine

open Sys2Proof Sys2Proof.Machine

/-- Refutes O17: its clause about the residue of an off-CHECK brings the sequencer to rest after the record, and the model before it. In `blackResidue` the
record's source is Black and ends the power-down of a full reset, so that the sequencer is in reset and no time stands in it. -/
theorem not_sequencerSteps : ¬ Obligations.SequencerSteps := by
  unfold Obligations.SequencerSteps
  rintro ⟨-, -, -, -, -, -, -, -, -, -, -, -, -, -, -, -, -, -, -, -, -, -, -, -, -, -, -, -, -, -, -, -, -, residue, -⟩
  exact exec_checkTimeout_blackResidue
    (residue _ blackResidue (by decide +kernel) (by decide +kernel) (by decide +kernel) (by decide +kernel) (by decide +kernel) (by decide +kernel) rfl)
end

section
/-! The starts of programs: the mirror entry, the end of TOFF_MIN, and the programs that start requests ask for (R226 to R230). -/

namespace Sys2Proof.Machine

variable {s : State}

/-- The sequencer's OFF_DWELL has ended, at AO tick `e` where it was still to come. -/
def State.dwelt (s : State) (e : Option Nat) : State :=
  match e with
  | some t => { s.due (ofTicks t) with seq := { s.seq with afterOn := false } }
  | none => { s with seq := { s.seq with afterOn := false } }

theorem State.dwelt_get (s : State) (e : Option Nat) (f : FRef) : (s.dwelt e).get f = s.get f := by
  cases e with
  | none => rfl
  | some t => exact State.get_due s (ofTicks t) f

theorem exec_offDwellEnd (run : s.dev.mode = .run) (phase : s.phase = 5) :
    exec .offDwellEnd s = .next (if s.get F.SEQ_STAT_PEND = 0 then ((s.dwelt s.dwellEnd).setPhase 1).progStart 0 s.seq.reason 0
      else ((s.dwelt s.dwellEnd).setPhase 0).settled) := by
  have pend := s.dwelt_get s.dwellEnd F.SEQ_STAT_PEND
  change execOffDwellEnd s = _
  rw [execOffDwellEnd, if_pos ⟨State.inMode_of_eq run, phase⟩, ← pend]
  cases s.dwellEnd with
  | none => rfl
  | some t =>
    dsimp only
    rw [State.due_seq]
    rfl

/-- The lowest of the bits below `n`. -/
theorem find?_range_eq {n k : Nat} {p : Nat → Bool} (low : k < n) (set : p k = true) (below : ∀ j, j < k → p j = false) :
    (List.range n).find? p = some k := by
  refine List.find?_range_eq_some.2 ⟨set, List.mem_range.2 low, fun j hj => ?_⟩
  rw [below j hj]
  rfl

section
variable (run : s.dev.mode = .run) (phase : s.phase = 0 ∨ s.phase = 2) (still : s.progRuns = false) (free : s.get F.SEQ_STAT_PEND = 0)
  (noShut : s.seq.shut = none)
include run phase still free noShut

/-- The lowest start-pending program starts, or loses its bit where it has no words. -/
theorem exec_programStart {k : Nat} (low : k < 4) (set : s.bitF F.SEQ_STAT_START k = true) (below : ∀ j, j < k → s.bitF F.SEQ_STAT_START j = false) :
    exec .programStart s = .next (if s.get (F.SEQ_PROG_LEN (k + 4)) = 0 then s.putBitF F.SEQ_STAT_START k false
      else (s.putBitF F.SEQ_STAT_START k false).progStart (k + 4) 6 0) := by
  change execProgramStart s = _
  rw [execProgramStart, if_pos ⟨State.inMode_of_eq run, phase, Bool.eq_false_iff.1 still, free, noShut⟩, find?_range_eq low set below]

end

theorem exec_programStart_of_busy (busy : s.progRuns = true ∨ s.get F.SEQ_STAT_PEND ≠ 0) : exec .programStart s = .next s := by
  refine congrArg Host.Outcome.next (if_neg ?_)
  rintro ⟨-, -, still, free, -⟩
  exact busy.elim still fun pending => pending free

end Sys2Proof.Machine

open Sys2Proof Sys2Proof.Machine

/-- Settles O18: what starts is decided by the pending request and, for start requests, by the lowest bit and its program's length. -/
theorem programsStart : Obligations.ProgramsStart := by
  unfold Obligations.ProgramsStart
  refine ⟨fun s on phase flat noShut => congrArg Host.Outcome.next (if_pos ⟨on, phase, Bool.eq_false_iff.1 flat, noShut⟩),
    fun t s run phase dwell free => ?dwelt, fun s run phase noDwell pending => ?taken, fun k s run phase still free noShut low set below words => ?starts,
    fun k s run phase still free noShut low set below empty => ?empty, fun t s run phase dwell pending => ?dweltTaken,
    fun s run phase noDwell free => ?noDwell, fun s => exec_programStart_of_busy⟩
  case dwelt =>
    rw [exec_offDwellEnd run phase, if_pos free, dwell]
    rfl
  case taken =>
    rw [exec_offDwellEnd run phase, if_neg pending, noDwell]
    rfl
  case dweltTaken =>
    rw [exec_offDwellEnd run phase, if_neg pending, dwell]
    rfl
  case noDwell =>
    rw [exec_offDwellEnd run phase, if_pos free, noDwell]
    rfl
  case starts => rw [exec_programStart run phase still free noShut low set below, if_neg words]
  case empty => rw [exec_programStart run phase still free noShut low set below, if_pos empty]
end

section
/-! A checker's finding in the engine's microcode halts the engine (R180). -/

namespace Sys2Proof.Machine

/-- The device in RUN, with the engine at work. -/
def engineRuns : State := { State.reset with dev := { State.reset.dev with mode := .run } }

/-- `ENG_STAT.HALT` after a command, where the command answers. -/
def haltAfter (o : Out State) : Bool :=
  match o with
  | .next t => t.flag F.ENG_STAT_HALT
  | _ => false

theorem exec_faultRaise_engineRuns : exec (.faultRaise 7 0) engineRuns ≠ .next (engineRuns.checkerRaise 7 0) := by
  intro same
  exact absurd (congrArg haltAfter same) (by decide +kernel)

end Sys2Proof.Machine

open Sys2Proof Sys2Proof.Machine

/-- Refutes O21: its clause about a checker's raising that an injection may flag excepts sources 12, 13 and 37 but not source 7, whose raising in RUN
halts the engine first. In `engineRuns` the two sides differ in `ENG_STAT.HALT`. -/
theorem not_faultCommands : ¬ Obligations.FaultCommands := by
  unfold Obligations.FaultCommands
  rintro ⟨-, -, -, -, -, -, -, -, -, -, -, -, -, -, -, -, -, -, -, -, -, -, -, -, -, raises, -⟩
  exact exec_faultRaise_engineRuns (raises 7 0 engineRuns (by decide +kernel) (by decide +kernel) (by decide) (by decide) (by decide))
end

section
/-! A host read of a tile's status, which may end a turn's diode emulation (R130). -/

namespace Sys2Proof.Machine

/-- Tile 0 of stack 0 takes turns in diode emulation, and its current may have fallen to zero. -/
def diodeTile : State := ((((State.reset.set (F.TIL_STAT_USE 0) 0).set (F.STK_CFG_DEM 0) 1).set (F.TIL_STAT_ACTIVE 0) 1).set (F.TIL_STAT_HIZ 0) 0)

/-- Where an active tile in diode emulation shows no high impedance yet, a read draws whether its current has fallen to zero. -/
theorem State.diodeSee_draws {s : State} {t : Nat} (active : s.flag (F.TIL_STAT_ACTIVE t) = true) (low : s.flag (F.TIL_STAT_HIZ t) = false)
    (free : s.forcedContinuous (s.get (F.TIL_STAT_USE t)) = false) : (s.diodeSee t).draws = s.draws + 1 := by
  unfold State.diodeSee
  rw [if_pos ⟨active, Bool.eq_false_iff.1 low, Bool.eq_false_iff.1 free⟩]
  dsimp only
  split <;> rfl

theorem diodeTile_readWord : (diodeTile.readWord 0x0800).2 = diodeTile.diodeSee 0 := by
  have quiet : diodeTile.readChecks 0x0800 = diodeTile := by
    rw [State.readChecks, if_neg (by decide), if_neg (by decide)]
    exact State.injCheck_quiet _ _ _ (by decide +kernel)
  rw [State.readWord, quiet, State.readAt, if_neg (by decide), if_pos (by decide)]

theorem diodeTile_fetchWords : (diodeTile.fetchWords [0x0800]).2.draws = diodeTile.draws + 1 := by
  change (diodeTile.readWord 0x0800).2.draws = _
  rw [diodeTile_readWord, State.diodeSee_draws (by decide +kernel) (by decide +kernel) (by decide +kernel)]

end Sys2Proof.Machine

open Sys2Proof Sys2Proof.Machine

/-- Refutes O29: its clause about what a READ leaves does not except `TILn_STAT`. The read of tile 0's status in `diodeTile` draws a free value, and may
make the tile high-impedance. -/
theorem not_hostFrames : ¬ Obligations.HostFrames := by
  unfold Obligations.HostFrames
  rintro ⟨-, -, -, -, -, -, -, -, -, -, -, -, -, -, -, -, -, -, -, -, -, -, -, -, -, -, -, -, -, reads⟩
  have same := congrArg (fun x => x.2.draws) (reads diodeTile [0x0800] (by decide +kernel) (by decide))
  rw [diodeTile_fetchWords] at same
  exact Nat.succ_ne_self _ same
end

section
/-! A count of missed heartbeats beyond its three (R413). -/

namespace Sys2Proof.Machine

/-- RUN with the master lost, its heartbeats watched, and a count of missed windows that no write leaves in its field of 2 bits. -/
def missesBeyond : State :=
  let s : State := { State.reset with dev := { State.reset.dev with mode := .run } }
  let t := (s.set F.SEQ_CFG_SAT_MODE 1).set F.TWB_SLV_STAT_LOST 1
  { t with regs := tset t.regs F.TWB_SLV_STAT_MISS.key F.TWB_SLV_STAT_MISS.reset 5 }

/-- `TWB_SLV_STAT.MISS` after a command, where the command answers. -/
def missAfter (o : Out State) : Nat :=
  match o with
  | .next t => t.get F.TWB_SLV_STAT_MISS
  | _ => 0

/-- The count does not saturate from above: it is stored again, cut to the field's width. -/
theorem exec_masterWindowEnd_missesBeyond : missAfter (exec .masterWindowEnd missesBeyond) = 1 := by decide +kernel

end Sys2Proof.Machine

open Sys2Proof Sys2Proof.Machine

/-- Refutes O35: its clause about the third missed window holds for each count from 2 on, and in a state whose count stands beyond 3 the window's end does
not leave 3. `missesBeyond` is such a state; the statement ranges over all states, also over those that no run reaches. -/
theorem not_targetPort : ¬ Obligations.TargetPort := by
  unfold Obligations.TargetPort
  rintro ⟨-, -, -, -, -, -, -, -, -, -, -, -, -, -, -, -, -, -, -, -, -, -, -, -, -, -, -, -, -, -, -, third, -⟩
  have same := congrArg missAfter (third missesBeyond _ (by decide +kernel) (by decide +kernel) (by decide +kernel) rfl)
  rw [exec_masterWindowEnd_missesBeyond] at same
  exact absurd same (by decide +kernel)
end

section
/-! A register of the two-wire block through a raising, which may enter BLACK or end a power-down (R344 to R349, R21). -/

namespace Sys2Proof.Machine

variable {s t : State}

/-! BOOT begins (R61). -/

theorem State.Alters.put {z : State} {B : List Nat} (h : z.Alters B s) {f : FRef} (b : Bool) {k : Nat} (hk : k ∈ B) (hf : f.blk = k) :
    z.Alters B (s.put f b) := h.set _ hk hf

theorem State.Alters.thmLimit {z : State} {B : List Nat} (h : z.Alters B s) (thm : 10 ∈ B) : z.Alters B s.thmLimit :=
  ((h.set _ thm rfl).set _ thm rfl).set _ thm rfl

theorem blk_ceiling {n : Nat} (hn : n < 16) : FRef.blk (F.STK_CEIL_OTP n) = 3 := by
  change ((0x0C28 + 64 * n) * 32 + 16) / 0x8000 = 3
  omega

theorem blk_fuse {k : Nat} (hk : k < 8) : FRef.blk (fr 0x300C (3 * k) 3 0) = 12 := by
  change (0x300C * 32 + 3 * k) / 0x8000 = 12
  omega

theorem blk_floor {k : Nat} (hk : k < 41) : FRef.blk (fr (0x2C40 + 4 * (k / 16)) (2 * (k % 16)) 2 0) = 11 := by
  change ((0x2C40 + 4 * (k / 16)) * 32 + 2 * (k % 16)) / 0x8000 = 11
  omega

/-- The blocks whose registers hold copies of the OTP (R422). -/
theorem State.otpShadow_alters (s : State) : s.Alters [0, 3, 7, 10, 11, 12, 16] s.otpShadow := by
  unfold State.otpShadow
  extract_lets src s1 al s2 s3 c s4 t wm tm sm s5 s6 w s7 s8 s9
  have k1 : s.Alters [0, 3, 7, 10, 11, 12, 16] s1 := (State.Alters.refl s _).same rfl rfl
  have k2 : s.Alters [0, 3, 7, 10, 11, 12, 16] s2 := ((k1.set _ (b := 0) (by decide) rfl).set _ (b := 0) (by decide) rfl).put _ (k := 0) (by decide) rfl
  have k3 : s.Alters [0, 3, 7, 10, 11, 12, 16] s3 :=
    forEach_induction _ _ (fun n m _ k => k.set _ (b := 3) (by decide) (blk_ceiling (List.mem_range.1 m))) k2
  have k4 : s.Alters [0, 3, 7, 10, 11, 12, 16] s4 := ((k3.set _ (b := 7) (by decide) rfl).set _ (b := 7) (by decide) rfl).put _ (k := 7) (by decide) rfl
  have k5 : s.Alters [0, 3, 7, 10, 11, 12, 16] s5 :=
    (((k4.set _ (b := 10) (by decide) rfl).set _ (b := 10) (by decide) rfl).set _ (b := 10) (by decide) rfl).put _ (k := 10) (by decide) rfl
  have k7 : s.Alters [0, 3, 7, 10, 11, 12, 16] s7 :=
    forEach_induction _ _ (fun n m _ k => k.set _ (b := 12) (by decide) (blk_fuse (List.mem_range.1 m))) (k5.thmLimit (by decide))
  have k8 : s.Alters [0, 3, 7, 10, 11, 12, 16] s8 := (k7.set _ (b := 12) (by decide) rfl).put _ (k := 12) (by decide) rfl
  have k9 : s.Alters [0, 3, 7, 10, 11, 12, 16] s9 :=
    forEach_induction _ _ (fun n m _ k => k.set _ (b := 11) (by decide) (blk_floor (List.mem_range.1 m))) k8
  exact (((k9.set _ (b := 16) (by decide) rfl).put _ (k := 16) (by decide) rfl).put _ (k := 16) (by decide) rfl).put _ (k := 16) (by decide) rfl

theorem State.enterBoot_get (s : State) {f : FRef} (h : f.blk ∉ [0, 3, 7, 10, 11, 12, 16]) : s.enterBoot.get f = s.get f := by
  have owed : ∀ v : State, v.Alters [] v.otpOwed := by
    intro v
    unfold State.otpOwed
    split
    · refine State.Alters.emit ?_ _ _ _
      exact (State.Alters.refl v _).same rfl rfl
    · exact .refl v _
  unfold State.enterBoot
  dsimp only
  rw [(owed _).regs f (by simp), (State.otpShadow_alters _).regs f h]
  refine State.get_set_of_ne _ _ fun same => h ?_
  rw [FRef.blk, same]
  decide

/-! A satellite's state (R410). -/

/-- No satellite that `j` numbers is READY. -/
def State.notReady (s : State) (j : Nat) : Prop := s.get (F.TWB_SAT_STAT_STATE j) ≠ 3

theorem blk_satState {j : Nat} (hj : j < 8) : FRef.blk (F.TWB_SAT_STAT_STATE j) = 14 := by
  change ((0x3840 + 4 * j) * 32 + 0) / 0x8000 = 14
  omega

theorem State.notReady.alters {B : List Nat} {j : Nat} (h : s.notReady j) (hj : j < 8) (k : s.Alters B t) (twb : 14 ∉ B) : t.notReady j := by
  rw [State.notReady, k.regs _ (by rwa [blk_satState hj])]
  exact h

section
variable {j : Nat} (hj : j < 8)
include hj

theorem State.resetFinish_notReady (s : State) : s.resetFinish.notReady j := by
  have blk := blk_satState hj
  have kept : (F.TWB_SAT_STAT_STATE j).key ∉ keptKeys := by
    intro mem
    simp only [keptKeys, List.mem_append, List.mem_map, List.mem_range, List.mem_singleton] at mem
    rcases mem with ⟨b, low, same⟩ | same
    · change 12 * 32 + b = (0x3840 + 4 * j) * 32 + 0 at same
      omega
    · change (0x3840 + 4 * j) * 32 + 0 = 0x2824 * 32 + 10 at same
      omega
  have reset : ∀ v : State, v.resetDomains.notReady j := fun v => by
    rw [State.notReady, State.resetDomains_get_of_not_kept v kept]
    exact (by decide : (0 : Nat) ≠ 3)
  have held : ∀ (v : State) (d : Dev), v.notReady j → ({ v with dev := d } : State).notReady j := fun _ _ h => h
  unfold State.resetFinish
  dsimp only
  split
  · exact held _ _ (reset _)
  · refine fun ready => ?_
    rw [State.enterBoot_get _ (by rw [blk]; decide)] at ready
    exact reset _ ready

theorem State.enterBlack_notReady (h : s.notReady j) (src : Nat) : (s.enterBlack src).notReady j := by
  have blk := blk_satState hj
  have away : ∀ g : FRef, g.blk ≠ 14 → (F.TWB_SAT_STAT_STATE j).key ≠ g.key := fun g other same => other (by rw [FRef.blk, ← same]; exact blk)
  have busy : (F.TWB_SAT_STAT_STATE j).key ≠ F.TWB_CTL_STAT_BUSY.key := by
    change (0x3840 + 4 * j) * 32 + 0 ≠ 0x381C * 32 + 1
    omega
  rw [State.notReady, (s.enterBlack_alters src).regs _ (by rw [blk]; decide), State.blackEntered, State.coreWdgRestart_get,
    State.get_set_of_ne _ _ busy, State.get_set_of_ne _ _ (away _ (by decide)), State.get_set_of_ne _ _ (away _ (by decide)), State.blackMode_get,
    State.blackHalted_get s (by rw [blk]; decide)]
  exact h

theorem State.react_notReady (h : s.notReady j) (src colour : Nat) : (s.react src colour).notReady j := by
  obtain same | guards | ⟨black, -⟩ := s.react_cases src colour
  · rwa [same]
  · rw [guards]
    exact h.alters hj (s.guardsEnd_alters 5 colour) (by decide)
  · rw [black]
    exact State.enterBlack_notReady hj h src

theorem State.raiseMarked_notReady (h : s.notReady j) (src detail : Nat) : (s.raiseMarked src detail).notReady j := by
  have other : (F.TWB_SAT_STAT_STATE j).key ≠ (actField src).key := fun same =>
    absurd ((actField_facts src).1.symm.trans ((congrArg (· / 0x8000) same).symm.trans (blk_satState hj))) (by decide)
  rw [State.notReady, State.raiseMarked_get s src detail other]
  exact h

theorem State.raiseOne_notReady (h : s.notReady j) (src detail : Nat) (inj : Bool) : (s.raiseOne src detail inj).notReady j := by
  by_cases ends : (s.dev.stage = .powerDown ∨ s.dev.stage = .commit) ∧ s.effColour src = 3
  · rw [State.raiseOne, if_pos ends]
    exact State.resetFinish_notReady hj s
  have marked := State.raiseMarked_notReady hj h src detail
  cases core : s.coreRuns with
  | false => rwa [State.raiseOne_of_stopped core ends]
  | true =>
    rw [State.raiseOne_eq detail inj core ends]
    split
    · split
      · exact State.react_notReady hj marked _ _
      · exact marked
    · have pended := State.react_notReady hj (marked.alters hj (State.pendSet_alters _ src) (by decide)) src (s.effColour src)
      unfold State.raisePended
      rw [← State.pendSet]
      dsimp only
      have recorded := fun p => pended.alters hj (State.Alters.emitC (.refl _ []) 0xB 1 (s.effColour src) p) (by decide)
      split
      · exact (recorded _).alters hj (State.logFault_alters _ _ _ _ _ _) (by decide)
      · exact recorded _

theorem State.injDone_notReady (h : s.notReady j) : s.injDone.notReady j :=
  h.alters hj (State.Alters.set (.set (.refl s [11]) _ (by decide) rfl) _ (by decide) rfl) (by decide)

theorem State.raiseI_notReady (h : s.notReady j) (src detail : Nat) (inj : Bool) : (s.raiseI src detail inj).notReady j := by
  have first := State.raiseOne_notReady hj h src detail inj
  unfold State.raiseI
  dsimp only
  split
  · exact State.injDone_notReady hj (State.raiseOne_notReady hj first 8 0 true)
  · exact first

theorem State.injCheck_notReady (h : s.notReady j) (src a : Nat) : (s.injCheck src a).notReady j := by
  have flagged := State.raiseI_notReady hj h src a true
  unfold State.injCheck State.checkerRaise
  split
  · dsimp only
    split
    · exact State.injDone_notReady hj flagged
    · exact flagged
  · exact h

theorem State.twcPush_notReady (h : s.notReady j) (t : Tx) : (s.twcPush t).notReady j := by
  refine State.injCheck_notReady hj ?_ 8 0
  split
  · exact h.alters (B := []) hj ((State.Alters.refl s []).same rfl rfl) (by decide)
  · refine h.alters (B := [0]) hj (State.Alters.set (b := 0) ?_ _ (by decide) rfl) (by decide)
    exact (State.Alters.refl s [0]).same rfl rfl

end

/-! The controller's commands. -/

/-- Where one number of `l` acts and every other one leaves what it finds, the loop is that one action. -/
theorem forEach_only {l : List Nat} {f : Nat → State → State} {k : Nat} (once : l.Nodup) (mem : k ∈ l) (before : ∀ j ∈ l, j ≠ k → f j s = s)
    (after : ∀ j ∈ l, j ≠ k → f j (f k s) = f k s) : forEach l f s = f k s := by
  have rest : ∀ m : List Nat, (∀ j ∈ m, f j (f k s) = f k s) → forEach m f (f k s) = f k s := by
    intro m
    induction m with
    | nil => exact fun _ => rfl
    | cons j m ih =>
      intro all
      change forEach m f (f j (f k s)) = _
      rw [all j List.mem_cons_self]
      exact ih fun i hi => all i (List.mem_cons_of_mem _ hi)
  induction l with
  | nil => cases mem
  | cons j m ih =>
    obtain ⟨fresh, once⟩ := List.nodup_cons.1 once
    change forEach m f (f j s) = _
    by_cases here : j = k
    · subst here
      exact rest m fun i hi => after i (List.mem_cons_of_mem _ hi) fun same => fresh (same ▸ hi)
    · rw [before j List.mem_cons_self here]
      exact ih once ((List.mem_cons.1 mem).resolve_left (Ne.symm here)) (fun i hi => before i (List.mem_cons_of_mem _ hi))
        (fun i hi => after i (List.mem_cons_of_mem _ hi))

/-- The controller is free to start a transaction (R400, R407). -/
theorem exec_twcTransaction {x : Tx} {r : List Tx} (q : s.twc.queue = x :: r) (run : s.dev.mode = .run) (idle : s.flag F.TWB_CTL_STAT_BUSY = false)
    (quiet : s.quietHolds F.FRM_QUIET_CFG_TWC_HOLD = false) (b : Bool) (p : Nat) (f c : Bool) (arb : Fin 4) :
    exec (.twcTransaction b p f c arb) s = .next (
      if s.txUnowned x then s.twcFinish x 7 []
      else if (b || s.twc.recover) && !f then
        if p < 9 then s else (((s.set F.TWB_CTL_STAT_BUSY 1).set F.TWB_CTL_STAT_HUNG 1).emit 0xE 4 [(9, 1), (b2n c, 1)]).twcFinish x 4 []
      else
        let u := ({ s.set F.TWB_CTL_STAT_BUSY 1 with twc := { s.twc with recover := false, wire := x.bytes } } : State).addSatF F.TWB_CTL_STAT_ARB arb
        if arb.val = 3 then u.twcFinish x 3 [] else u) := by
  change execTwcTransaction b p f c arb s = _
  rw [execTwcTransaction, q, State.inMode_of_eq run, idle, quiet]
  rfl

theorem exec_twcTransactionEnd {x : Tx} {r : List Tx} (q : s.twc.queue = x :: r) (run : s.dev.mode = .run) (busy : s.flag F.TWB_CTL_STAT_BUSY = true)
    (bus : s.twc.retryWait = false) {c : Fin 8} (ends : busEnds c = true) (d : List Byte) :
    exec (.twcTransactionEnd c d) s = .next (
      if (c.val = 1 ∨ c.val = 2) ∧ s.twc.repeats < s.get F.TWB_CTL_CFG_RETRY then
        { s with twc := { s.twc with retryWait := true, retryAt := s.now + 250 * engPerUs } }
      else s.twcFinish x (if c.val = 0 ∧ ¬ x.pecOk d then 6 else c) (if c.val = 0 then padTo x.rlen d else d)) := by
  change execTwcTransactionEnd c d s = _
  rw [execTwcTransactionEnd, q, State.inMode_of_eq run, busy, bus, ends]
  rfl

/-- The state in which a repeat starts (R407). -/
def State.repeated (s : State) : State :=
  ({ s.due s.twc.retryAt with
    twc := { (s.due s.twc.retryAt).twc with retryWait := false, repeats := (s.due s.twc.retryAt).twc.repeats + 1 } } : State).incSatF F.TWB_CTL_STAT_RETRIES

theorem exec_twcRetry {x : Tx} {r : List Tx} (q : s.twc.queue = x :: r) (run : s.dev.mode = .run) (waits : s.twc.retryWait = true) (arb : Fin 4) :
    exec (.twcRetry arb) s = .next (
      if (s.due s.twc.retryAt).quietHolds F.FRM_QUIET_CFG_TWC_HOLD then s.due s.twc.retryAt
      else if arb.val = 3 then (s.repeated.addSatF F.TWB_CTL_STAT_ARB arb).twcFinish x 3 [] else s.repeated.addSatF F.TWB_CTL_STAT_ARB arb) := by
  change execTwcRetry arb s = _
  rw [execTwcRetry, q, State.inMode_of_eq run, waits]
  rfl

/-! The heartbeats (R412). -/

/-- The time of the next round of heartbeats is taken. -/
def State.beatsDue (s : State) : State :=
  { s.due (s.twc.beatAt + 100 * engPerMs) with
    twc := { (s.due (s.twc.beatAt + 100 * engPerMs)).twc with beatAt := s.twc.beatAt + 100 * engPerMs } }

/-- A round's turn of satellite `k`. -/
def State.beat (k : Nat) (x : State) : State :=
  match x.satCfg k with
  | some (a, _, _) =>
    if x.get (F.TWB_SAT_STAT_STATE k) = 3 then
      ({ x with twc := { x.twc with beats := tset x.twc.beats k 0 ((tget x.twc.beats k 0 + 1) % 256) } } : State).twcPush
        ⟨.heartbeat k, a, [0x20, byte ((tget x.twc.beats k 0 + 1) % 256), 0], true, 0, none⟩
    else x
  | none => x

theorem exec_heartbeatTimer (run : s.dev.mode = .run) (owned : s.ownedBy 7 0 5 = true) :
    exec .heartbeatTimer s = .next (forEach (List.range 8) State.beat s.beatsDue) := by
  change execHeartbeatTimer s = _
  rw [execHeartbeatTimer, State.inMode_of_eq run, owned]
  rfl

theorem State.beat_notReady {k : Nat} (h : s.notReady k) : s.beat k = s := by
  unfold State.beat
  split
  · exact if_neg h
  · rfl

theorem State.beat_ready {k a d : Nat} {p : List Byte} (cfg : s.satCfg k = some (a, d, p)) (ready : s.get (F.TWB_SAT_STAT_STATE k) = 3) :
    s.beat k = ({ s with twc := { s.twc with beats := tset s.twc.beats k 0 ((tget s.twc.beats k 0 + 1) % 256) } } : State).twcPush
      ⟨.heartbeat k, a, [0x20, byte ((tget s.twc.beats k 0 + 1) % 256), 0], true, 0, none⟩ := by
  rw [State.beat, cfg]
  exact if_pos ready

theorem State.beat_others {j k : Nat} (hj : j < 8) (h : s.notReady j) : (s.beat k).notReady j := by
  have counted : ∀ c : Twc, ({ s with twc := c } : State).notReady j := fun _ => h
  unfold State.beat
  split
  · split
    · exact State.twcPush_notReady hj (counted _) _
    · exact h
  · exact h

theorem State.beatsDue_get (s : State) (f : FRef) : s.beatsDue.get f = s.get f := State.get_due s _ f

/-! The end of a host transaction (R408). -/

/-- The words of the buffer come after every other register of the controller. -/
theorem State.hxStore_get (s : State) (l : List Byte) {f : FRef} (low : f.key < 0x3890 * 32) : (s.hxStore l).get f = s.get f :=
  forEach_induction (P := fun x : State => x.get f = s.get f) _ _ (fun j _ x same =>
    (State.get_set_of_ne _ _ (fun (at_ : f.key = (0x3890 + 4 * j) * 32 + 0) => by omega)).trans same) rfl

/-- A transaction that ends returns its credit. -/
def State.twcFreed (s : State) (cause : Nat) : State :=
  (({ s with twc := { s.twc with
    queue := s.twc.queue.drop 1, repeats := 0, retryWait := false,
    recover := if cause = 7 then s.twc.recover else decide (cause = 3 ∨ cause = 4 ∨ cause = 5) } } : State).set F.TWB_CTL_STAT_BUSY 0).twcPump

theorem State.twcPump_get (s : State) (f : FRef) : s.twcPump.get f = s.get f := by
  unfold State.twcPump
  dsimp only
  split <;> rfl

theorem State.twcFreed_busy (s : State) (cause : Nat) : (s.twcFreed cause).get F.TWB_CTL_STAT_BUSY = 0 := by
  rw [State.twcFreed, State.twcPump_get]
  exact State.get_set _ _ _

theorem State.twcFinish_host {x : Tx} {cause : Nat} (host : x.kind = .host) (failed : 0 < cause) (d : List Byte) :
    s.twcFinish x cause d = ((s.twcFreed cause).set F.TWB_CTL_STAT_CAUSE cause).hxEnd x cause d := by
  unfold State.twcFinish
  rw [host]
  dsimp only
  rw [if_neg (Nat.pos_iff_ne_zero.1 failed)]
  rfl

theorem State.hxEnd_get_kept (s : State) (x : Tx) (cause : Nat) (d : List Byte) {f : FRef} (low : f.key < 0x3880 * 32) :
    (s.hxEnd x cause d).get f = s.get f := by
  have away : ∀ g : FRef, 0x3880 * 32 ≤ g.key → f.key ≠ g.key := by omega
  rw [State.hxEnd, State.frameDone_get, State.get_set_of_ne _ _ (away _ (by decide)), State.get_set_of_ne _ _ (away _ (by decide)),
    State.get_set_of_ne _ _ (away _ (by decide)), State.hxStore_get _ _ (by omega)]

end Sys2Proof.Machine

open Sys2Proof Sys2Proof.Machine

/-- Settles O37: a READY satellite's heartbeat leaves the others not READY, whatever its credit check raises. -/
theorem controllerCommands : Obligations.ControllerCommands := by
  unfold Obligations.ControllerCommands
  refine ⟨?_, ?_, ?_, ?_, ?_, ?_, ?_, ?_, ?_, ?_, ?_, ?_, ?_, ?_, ?_, ?_, ?_, ?_, ?_⟩
  · intro t r p b c s q run idle quiet owned fresh
    rw [exec_twcTransaction q run idle quiet, owned, fresh]
    rfl
  · intro t r d s q run busy bus pec
    rw [exec_twcTransactionEnd q run busy bus (by decide), if_neg (by simp), if_neg (by simp [pec]), if_pos (by decide)]
    rfl
  · intro t r d s q run busy bus pec
    rw [exec_twcTransactionEnd q run busy bus (by decide), if_neg (by simp), if_pos (by simp [pec]), if_pos (by decide)]
  · intro t r d s q run busy bus left
    rw [exec_twcTransactionEnd q run busy bus (by decide), if_pos ⟨Or.inl rfl, left⟩]
  · intro t r arb s q run waits quiet last
    rw [exec_twcRetry q run waits, quiet, if_neg (by decide), if_neg last]
    rfl
  · intro v s open_ owner word bus
    refine congrArg Host.Outcome.next ((s.bus_quiet _ _ open_ bus).trans ?_)
    rw [owner, State.unlessBad, word]
    rfl
  · intro s run owned none_
    rw [exec_heartbeatTimer run owned]
    refine congrArg Host.Outcome.next (forEach_induction (P := fun x => x = s.beatsDue) _ _ (fun j m x same => ?_) rfl)
    subst same
    exact State.beat_notReady fun ready => none_ j (List.mem_range.1 m) ((s.beatsDue_get _).symm.trans ready)
  · intro k a d p s run owned hk ready cfg only
    rw [exec_heartbeatTimer run owned]
    have beat := State.beat_ready (s := s.beatsDue) (k := k) (by rwa [State.satCfg, State.beatsDue, State.due_image]) ((s.beatsDue_get _).trans ready)
    have others : ∀ j ∈ List.range 8, j ≠ k → s.beatsDue.notReady j := fun j m other at_ =>
      only j (List.mem_range.1 m) other ((s.beatsDue_get _).symm.trans at_)
    have turn := forEach_only List.nodup_range (List.mem_range.2 hk) (fun j m other => State.beat_notReady (others j m other))
      (fun j m other => State.beat_notReady (State.beat_others (k := k) (List.mem_range.1 m) (others j m other)))
    rw [turn, beat]
    simp only [State.beatsDue, State.due_twc]
  · intro t r s q run waits quiet
    rw [exec_twcRetry q run waits, quiet, if_neg (by decide), if_pos (by decide)]
    rfl
  · intro t r b p f c arb s q run idle quiet owned
    rw [exec_twcTransaction q run idle quiet, owned]
    rfl
  · intro t r b p c arb s q run idle quiet owned recover nine
    have due : ((b || s.twc.recover) && !false) = true := by simpa [or_comm] using recover
    rw [exec_twcTransaction q run idle quiet, owned, if_neg (by decide), if_pos due, if_neg (by omega)]
  · intro t r b p c arb s q run idle quiet owned recover nine
    have due : ((b || s.twc.recover) && !false) = true := by simpa [or_comm] using recover
    rw [exec_twcTransaction q run idle quiet, owned, if_neg (by decide), if_pos due, if_pos nine]
  · intro t r b p c arb s q run idle quiet owned last
    rw [exec_twcTransaction q run idle quiet, owned, if_neg (by decide), if_neg (by simp)]
    exact congrArg Host.Outcome.next (if_neg last)
  · intro t r b p c s q run idle quiet owned
    rw [exec_twcTransaction q run idle quiet, owned, if_neg (by decide), if_neg (by simp)]
    rfl
  · intro b p f c arb s held
    change execTwcTransaction b p f c arb s = _
    unfold execTwcTransaction
    split
    · rfl
    · rename_i x r q
      refine congrArg Host.Outcome.next (if_neg ?_)
      simp only [Bool.and_eq_true, Bool.not_eq_true', q, reduceCtorEq, false_or] at held ⊢
      rintro ⟨⟨run, idle⟩, quiet⟩
      rcases held with other | busy | quieted
      · exact absurd run (by rw [State.inMode_of_ne other]; decide)
      · exact absurd (busy.symm.trans idle) (by decide)
      · exact absurd (quieted.symm.trans quiet) (by decide)
  · intro t r d c s q run busy bus ends failed left
    rw [exec_twcTransactionEnd q run busy bus ends, if_neg (by omega), if_neg (fun both => failed both.1), if_neg failed]
  · intro d c s other
    have never : busEnds c = false := by
      unfold busEnds
      rcases other with h | h | h | h <;> rw [h] <;> rfl
    change execTwcTransactionEnd c d s = _
    unfold execTwcTransactionEnd
    split
    · rfl
    · rw [never]
      exact congrArg Host.Outcome.next (if_neg (by simp))
  · intro t r arb s q run waits quiet
    rw [exec_twcRetry q run waits, quiet]
    rfl
  · intro s t c d _ host failed small
    have whole : c % 2 ^ 4 = c := Nat.mod_eq_of_lt (by omega)
    rw [State.twcFinish_host host failed]
    refine ⟨?_, ?_, ?_, ?_, ?_⟩
    · rw [State.hxEnd, State.frameDone_get, State.get_set]
      exact whole
    · rw [State.hxEnd, State.frameDone_get, State.get_set_of_ne _ _ (by decide), State.get_set_of_ne _ _ (by decide), State.get_set]
      rfl
    · rw [State.hxEnd, State.frameDone_get, State.get_set_of_ne _ _ (by decide), State.get_set]
      rfl
    · rw [State.hxEnd_get_kept _ _ _ _ (by decide), State.get_set]
      exact whole
    · rw [State.hxEnd_get_kept _ _ _ _ (by decide), State.get_set_of_ne _ _ (by decide)]
      exact s.twcFreed_busy c

end

section
/-! The commands of stacks and tiles (R139 to R159). -/

namespace Sys2Proof.Machine

variable {s : State}

/-! The turn order (R140). -/

theorem turnTaker_ready {p held off : Nat} {r : List Nat} (ready : bitOf held p = false) : turnTaker (p :: r) held off = some p := by
  rw [turnTaker, ready]
  rfl

theorem turnTaker_next {p q held off : Nat} {r : List Nat} (kept : bitOf held p = true)
    (next : r.find? (fun q => !bitOf held q && !bitOf off q) = some q) : turnTaker (p :: r) held off = some q := by
  rw [turnTaker, kept, next]
  rfl

theorem turnTaker_waits {p held off : Nat} {r : List Nat} (kept : bitOf held p = true)
    (none_ : r.find? (fun q => !bitOf held q && !bitOf off q) = none) : turnTaker (p :: r) held off = r.find? fun q => !bitOf held q := by
  rw [turnTaker, kept, none_]
  rfl

end Sys2Proof.Machine

open Sys2Proof Sys2Proof.Machine

/-- Settles O50: each command's branch, by the conditions under which it runs. -/
theorem stackCommands : Obligations.StackCommands := by
  unfold Obligations.StackCommands
  refine ⟨?_, ?_, ?_, ?_, ?_, ?_, ?_, ?_, ?_, ?_, ?_, ?_, ?_, ?_, ?_, ?_, ?_, ?_, ?_, ?_, ?_, ?_, ?_, ?_⟩
  · exact fun p held off r ready => turnTaker_ready ready
  · exact fun p q held off r kept => ⟨turnTaker_next kept, turnTaker_waits kept⟩
  · intro u vpmid held off zero nlim p k o a b s turns order takes at_ ha hb
    subst order ha hb
    refine congrArg Host.Outcome.next ((if_pos turns).trans ?_)
    dsimp only
    rw [takes]
    dsimp only
    rw [at_]
  · intro u vpmid held off zero nlim o s turns order none_
    subst order
    refine congrArg Host.Outcome.next ((if_pos turns).trans ?_)
    dsimp only
    generalize turnTaker _ held.toNat off.toNat = taker at none_ ⊢
    subst none_
    rfl
  · intro n vpmid held off t s armed ht
    subst ht
    exact congrArg Host.Outcome.next (if_pos armed)
  · exact fun n s locked => congrArg Host.Outcome.next (if_pos locked)
  · intro n t s run rolls ht
    subst ht
    exact congrArg Host.Outcome.next (if_pos ⟨rolls, State.inMode_of_eq run⟩)
  · exact fun n s armed idle dwell => congrArg Host.Outcome.next (if_pos ⟨armed, idle, dwell⟩)
  · exact fun n s armed idle dwell => congrArg Host.Outcome.next (if_pos ⟨armed, idle, dwell⟩)
  · intro n a k t s due cond gate ha at_ ht
    subst ha ht
    refine congrArg Host.Outcome.next ((if_pos ⟨due, cond, gate⟩).trans ?_)
    dsimp only
    rw [at_]
  · intro n a k s due cond gate ha at_
    subst ha
    refine congrArg Host.Outcome.next ((if_pos ⟨due, cond, gate⟩).trans ?_)
    dsimp only
    rw [at_]
  · exact fun n s ramps preset_ target whole =>
      congrArg Host.Outcome.next (if_pos ⟨ramps, Bool.eq_false_iff.1 preset_, target, Bool.eq_false_iff.1 whole⟩)
  · exact fun n s run on ramps good whole slots => congrArg Host.Outcome.next
      (if_pos ⟨State.inMode_of_eq run, on, Bool.eq_false_iff.1 ramps, Bool.eq_false_iff.1 good, Bool.eq_false_iff.1 whole, slots⟩)
  · exact fun n s run slots => congrArg Host.Outcome.next (if_pos ⟨State.inMode_of_eq run, slots⟩)
  · exact fun n s park => congrArg Host.Outcome.next (if_pos (State.inMode_of_eq park))
  · exact fun n s discharges => congrArg Host.Outcome.next (if_pos discharges)
  · exact fun n vout s discharges => congrArg Host.Outcome.next (if_pos discharges)
  · intro n t s mode tiles whole ht
    subst ht
    have on : s.inMode .run = true ∨ s.inMode .park = true ∨ s.inMode .black = true := mode.imp State.inMode_of_eq (Or.imp State.inMode_of_eq State.inMode_of_eq)
    exact congrArg Host.Outcome.next (if_pos ⟨on, tiles, Bool.eq_false_iff.1 whole⟩)
  · intro n s tripped off last
    refine congrArg Host.Outcome.next ((if_pos ⟨tripped, off⟩).trans ?_)
    exact if_neg (Bool.eq_false_iff.1 last)
  · intro n s tripped off others
    refine congrArg Host.Outcome.next ((if_pos ⟨tripped, off⟩).trans ?_)
    exact if_pos others
  · intro t vbat s held fresh stack
    refine congrArg Host.Outcome.next ((if_pos ⟨held, Bool.eq_false_iff.1 fresh⟩).trans ?_)
    exact if_neg stack
  · intro t vbat s held fresh charger
    refine congrArg Host.Outcome.next ((if_pos ⟨held, Bool.eq_false_iff.1 fresh⟩).trans ((if_pos charger).trans ?_))
    rw [charger]
  · intro imean iout vout vpmid a b s run ha hb
    subst ha hb
    exact congrArg Host.Outcome.next (if_pos (State.inMode_of_eq run))
  · intro imean iout vout vpmid s black
    exact congrArg Host.Outcome.next ((if_neg (by rw [State.inMode_of_ne (by rw [black]; decide)]; decide)).trans (if_pos (State.inMode_of_eq black)))

end

section
/-! The engine, its mailboxes and the set-point sources (R160 to R203). -/

namespace Sys2Proof.Machine

variable {s : State}

theorem State.takeover_counted {n k : Nat} (r : Int) (opened : (s.stk n).limOpen = true) (within : s.now ≤ (s.stk n).limAt + engPerMs) :
    s.takeover n k r = s.setStk n { s.stk n with
      limCount := incSat (s.stk n).limCount 65535, limLoop := if (s.stk n).limCount = 0 then k else (s.stk n).limLoop,
      limRef := if (s.stk n).limCount = 0 then r else (s.stk n).limRef } := by
  have current : ¬ ((s.stk n).limOpen = true ∧ (s.stk n).limCount ≠ 0 ∧ (s.stk n).limAt + engPerMs < s.now) := fun late =>
    absurd late.2.2 (Nat.not_lt.2 within)
  unfold State.takeover
  dsimp only
  rw [if_neg current, if_pos ⟨opened, within⟩]

theorem State.takeover_recorded {n k : Nat} (r : Int)
    (first : (s.stk n).limOpen = false ∨ ((s.stk n).limCount = 0 ∧ (s.stk n).limAt + engPerMs < s.now)) :
    s.takeover n k r = (s.setStk n { s.stk n with limOpen := true, limCount := 0, limAt := s.now }).emitX 3 n 4 1 0
      [(n, 1), (k, 1), (1, 2), (unsigned r 16, 2)] := by
  unfold State.takeover
  dsimp only
  have uncounted : ¬ ((s.stk n).limOpen = true ∧ (s.stk n).limCount ≠ 0 ∧ (s.stk n).limAt + engPerMs < s.now) := fun late =>
    first.elim (fun closed => Bool.eq_false_iff.1 closed late.1) fun none_ => late.2.1 none_.1
  have fresh : ¬ ((s.stk n).limOpen = true ∧ s.now ≤ (s.stk n).limAt + engPerMs) := fun counts =>
    first.elim (fun closed => Bool.eq_false_iff.1 closed counts.1) fun late => absurd late.2 (by omega)
  rw [if_neg uncounted, if_neg fresh]

theorem State.stagedApply_unfired {n : Nat} (c : Bool) (h : (s.stk n).fired = false) : s.stagedApply n c = s :=
  if_neg (Bool.eq_false_iff.1 h)

theorem State.stagedApply_empty {n : Nat} (c : Bool) (h : (s.stk n).fired = true) (none_ : (s.stk n).staged = none) :
    s.stagedApply n c = s.setStk n { s.stk n with fired := false } := by
  unfold State.stagedApply
  dsimp only
  rw [if_pos h, none_]

theorem State.stagedApply_computes {n v : Nat} (h : (s.stk n).fired = true) (some_ : (s.stk n).staged = some v) :
    s.stagedApply n true = (s.setStk n { s.stk n with fired := false, staged := none }).vsetTake n v true := by
  unfold State.stagedApply
  dsimp only
  rw [if_pos h, some_]
  exact if_pos rfl

end Sys2Proof.Machine

open Sys2Proof Sys2Proof.Machine

/-- Settles O52: each command's branch, by the conditions under which it runs. -/
theorem engineCommands : Obligations.EngineCommands := by
  unfold Obligations.EngineCommands
  refine ⟨?_, ?_, ?_, ?_, ?_, ?_, ?_, ?_, ?_, ?_, ?_, ?_, ?_, ?_, ?_, ?_, ?_, ?_⟩
  · intro n e i k z a b c d s run hz tiles ha hb hc computes hd still
    subst hz ha hb hc hd
    refine congrArg Host.Outcome.next ((if_pos (State.inMode_of_eq run)).trans ((if_neg tiles).trans ?_))
    dsimp only
    rw [if_pos computes, if_pos still]
  · intro n e i k z a b c d f g s run hz tiles ha hb hc hd rests hf hg
    subst hz ha hb hc hd hf hg
    refine congrArg Host.Outcome.next ((if_pos (State.inMode_of_eq run)).trans ((if_neg tiles).trans ?_))
    dsimp only
    rw [if_neg (Bool.eq_false_iff.1 rests)]
    rfl
  · exact fun n e i k s run none_ => congrArg Host.Outcome.next ((if_pos (State.inMode_of_eq run)).trans (if_pos none_))
  · intro n w l s tiles some_ hl bus
    subst hl
    refine congrArg Host.Outcome.next ((if_neg ?_).trans (State.onBus_quiet _ _ bus))
    exact fun none_ => none_.elim tiles some_
  · intro n s none_
    refine congrArg Host.Outcome.next (if_neg fun due => ?_)
    exact none_.elim (Bool.eq_false_iff.1 · due.1) due.2
  · exact fun s n k r opened within => State.takeover_counted r opened within
  · exact fun s n k r first => State.takeover_recorded r first
  · intro n t s opened counted ht
    subst ht
    exact congrArg Host.Outcome.next (if_pos ⟨opened, counted⟩)
  · exact fun s mode => congrArg Host.Outcome.next (if_pos (mode.imp State.inMode_of_eq State.inMode_of_eq))
  · exact fun m code s run owned => congrArg Host.Outcome.next (if_pos ⟨State.inMode_of_eq run, owned⟩)
  · exact fun k p h s run => congrArg Host.Outcome.next (if_pos (State.inMode_of_eq run))
  · intro n t s tracks lost held loss ht
    subst ht
    have due : s.lossDue n = true := by rw [State.lossDue, held, decide_eq_true loss]; rfl
    exact congrArg Host.Outcome.next (if_pos ⟨tracks, lost, due⟩)
  · intro n t s tracks valid held returns run ht
    subst ht
    have due : s.returnDue n = true := by rw [State.returnDue, held, returns, decide_eq_true run]; rfl
    exact congrArg Host.Outcome.next (if_pos ⟨tracks, valid, due⟩)
  · exact fun n s moves last => congrArg Host.Outcome.next (if_pos ⟨moves, last⟩)
  · exact fun s n v c stage => if_pos stage
  · exact fun s n c h => State.stagedApply_unfired c h
  · exact fun s n c h none_ => State.stagedApply_empty c h none_
  · exact fun s n v h some_ => State.stagedApply_computes h some_

end

section
/-! Regulators, load switches and guarded drivers (R242 to R257). -/

namespace Sys2Proof.Machine

variable {s : State}

/-! The bits of a mask that a loop sets. -/

theorem bitOf_setBit_eq (x j i : Nat) : bitOf (setBit x j) i = (bitOf x i || decide (j = i)) := by
  rw [bitOf_eq_testBit, bitOf_eq_testBit, setBit, Nat.testBit_or, Nat.testBit_two_pow]

theorem bitOf_foldl_setBit (p : Nat → Bool) (i : Nat) (l : List Nat) (m : Nat) :
    bitOf (l.foldl (fun m k => if p k then setBit m k else m) m) i = (bitOf m i || (decide (i ∈ l) && p i)) := by
  induction l generalizing m with
  | nil => simp
  | cons k l ih =>
    rw [List.foldl_cons, ih]
    by_cases same : k = i
    · subst same
      cases h : p k <;> simp [bitOf_setBit_eq]
    · have other : ¬ i = k := fun eq => same eq.symm
      cases h : p k <;> simp [bitOf_setBit_eq, same, other]

theorem bitOf_zero (i : Nat) : bitOf 0 i = false := by
  rw [bitOf_eq_testBit, Nat.zero_testBit]

theorem State.unclaimed_bit (s : State) {k : Nat} (hk : k < 14) : bitOf s.unclaimed k = (s.claim 8 (16 + k)).isNone := by
  rw [State.unclaimed, bitOf_foldl_setBit, bitOf_zero, decide_eq_true (List.mem_range.2 hk)]
  rfl

/-! Discharges by the device state (R251, R252). -/

theorem State.dischargeForced_hibernate (h : s.dev.mode = .hibernate) : s.dischargeForced = false := by
  unfold State.dischargeForced
  rw [State.inMode_of_ne (by rw [h]; decide), State.inMode_of_ne (by rw [h]; decide), State.inMode_of_ne (by rw [h]; decide)]
  rfl

/-- A discharge as R251 and R252 give it, by the output's setting and its two bits of the setup image. -/
theorem discharge_awake (dis unclaimed : Bool) (kept : Bool) (h : s.inMode .hibernate = false) :
    (!false && (s.dischargeForced || (s.inMode .hibernate && kept) || ((s.inMode .run || s.inMode .park) && (dis || unclaimed)))) =
      (s.dischargeForced || ((s.inMode .run || s.inMode .park) && (dis || unclaimed))) := by
  rw [h, Bool.false_and, Bool.or_false]
  rfl

theorem discharge_asleep (dis unclaimed : Bool) (kept : Bool) (h : s.dev.mode = .hibernate) :
    (!false && (s.dischargeForced || (s.inMode .hibernate && kept) || ((s.inMode .run || s.inMode .park) && (dis || unclaimed)))) = kept := by
  rw [State.dischargeForced_hibernate h, State.inMode_of_eq h, State.inMode_of_ne (by rw [h]; decide), State.inMode_of_ne (by rw [h]; decide)]
  cases kept <;> rfl

/-! Releases (R255). -/

theorem State.releaseWrite_other {v : Word} (first : v ≠ 0x6A7D0000) (second : v ≠ 0x6A7D0001) : s.releaseWrite v.toNat = s := by
  have away0 : v.toNat ≠ 0x6A7D0000 := fun same => first (BitVec.eq_of_toNat_eq same)
  have away1 : v.toNat ≠ 0x6A7D0001 := fun same => second (BitVec.eq_of_toNat_eq same)
  rw [State.releaseWrite, if_neg away0, if_neg away1]

end Sys2Proof.Machine

open Sys2Proof Sys2Proof.Machine

/-- Settles O54: each command's branch, and the discharges by device state. -/
theorem outputCommands : Obligations.OutputCommands := by
  unfold Obligations.OutputCommands
  refine ⟨?_, ?_, ?_, ?_, ?_, ?_, ?_, ?_, ?_, ?_, ?_, ?_, ?_, ?_, ?_, ?_, ?_, ?_, ?_, ?_, ?_, ?_, ?_, ?_, ?_, ?_⟩
  · exact fun n s on ramps => congrArg Host.Outcome.next (if_pos ⟨on, ramps⟩)
  · exact fun n s on ramped whole => congrArg Host.Outcome.next (if_pos ⟨on, Bool.eq_false_iff.1 ramped, Bool.eq_false_iff.1 whole⟩)
  · exact fun n s tripped => congrArg Host.Outcome.next (if_neg fun up => up.2.2 tripped)
  · exact fun n s => rfl
  · exact fun n s on whole => congrArg Host.Outcome.next (if_pos ⟨on, Bool.eq_false_iff.1 whole⟩)
  · intro n k t s limited on whole ht
    subst ht
    change execLdoOcpTrip n s = _
    rw [execLdoOcpTrip, limited]
    exact congrArg Host.Outcome.next (if_pos ⟨on, Bool.eq_false_iff.1 whole⟩)
  · exact fun n s on ramps => congrArg Host.Outcome.next (if_pos ⟨on, ramps⟩)
  · exact fun n s on ramped whole => congrArg Host.Outcome.next (if_pos ⟨on, Bool.eq_false_iff.1 ramped, Bool.eq_false_iff.1 whole⟩)
  · exact fun n s tripped => congrArg Host.Outcome.next (if_neg fun up => up.2.2 tripped)
  · exact fun n s => rfl
  · exact fun n s on whole => congrArg Host.Outcome.next (if_pos ⟨on, Bool.eq_false_iff.1 whole⟩)
  · intro n k t s limited on whole ht
    subst ht
    change execLswOcpTrip n s = _
    rw [execLswOcpTrip, limited]
    exact congrArg Host.Outcome.next (if_pos ⟨on, Bool.eq_false_iff.1 whole⟩)
  · exact fun n s on => congrArg Host.Outcome.next (if_pos on)
  · exact fun n s on whole => congrArg Host.Outcome.next (if_pos ⟨on, Bool.eq_false_iff.1 whole⟩)
  · intro s n off
    by_cases asleep : s.dev.mode = .hibernate
    · exact Or.inr asleep
    · rw [State.ldoDischarge, off]
      exact Or.inl (discharge_awake _ _ _ (State.inMode_of_ne asleep))
  · intro s n off
    by_cases asleep : s.dev.mode = .hibernate
    · exact Or.inr asleep
    · rw [State.lswDischarge, off]
      exact Or.inl (discharge_awake _ _ _ (State.inMode_of_ne asleep))
  · intro s n asleep off
    rw [State.ldoDischarge, off]
    exact discharge_asleep _ _ _ asleep
  · intro s n asleep off
    rw [State.lswDischarge, off]
    exact discharge_asleep _ _ _ asleep
  · exact fun s k => s.unclaimed_bit k.isLt
  · exact fun k s => rfl
  · exact fun k s => rfl
  · exact fun n s on => congrArg Host.Outcome.next (if_pos on)
  · exact fun s open_ bus => congrArg Host.Outcome.next ((s.bus_quiet _ _ open_ bus).trans (if_pos rfl))
  · exact fun s open_ bus => congrArg Host.Outcome.next ((s.bus_quiet _ _ open_ bus).trans ((if_neg (by decide)).trans (if_pos rfl)))
  · exact fun v s open_ first second bus => congrArg Host.Outcome.next ((s.bus_quiet _ _ open_ bus).trans (State.releaseWrite_other first second))
  · intro n b vsrc t s core level ht
    subst ht
    have shows : if b.val = 2 then ¬ s.flag (F.OUT_G_STAT_ON n) = true else s.flag (F.OUT_G_STAT_ON n) = true := by
      by_cases stuck : b.val = 2
      · rw [if_pos stuck] at level ⊢
        exact Bool.eq_false_iff.1 level
      · rwa [if_neg stuck] at level ⊢
    exact congrArg Host.Outcome.next (if_pos ⟨core, shows⟩)

end

section
/-! The front end, the supply of PMID, the pack and the charger (R259 to R284). -/

namespace Sys2Proof.Machine

variable {s : State}

/-- The cause that comes first among the three is the lowest (R261). -/
theorem find?_lowest_cause {p : Nat → Bool} {k : Nat} (range : k = 1 ∨ k = 2 ∨ k = 3) (at_ : p k = true) (lowest : ∀ j, 1 ≤ j → j < k → p j = false) :
    [1, 2, 3].find? p = some k := by
  rcases range with rfl | rfl | rfl
  · simp [at_]
  · simp [at_, lowest 1]
  · simp [at_, lowest 1, lowest 2]

/-! The suspend conditions (R275). -/

theorem State.chgCheck_suspends (charges : chgCharging s.chgState = true) (held : s.suspend ≠ 0) :
    s.chgCheck = (s.setChg { s.pp.chg with clearAt := none }).chgTo 3 := by
  unfold State.chgCheck
  dsimp only
  rw [if_neg held]
  exact if_pos ⟨charges, held⟩

theorem State.chgCheck_counts {k : Nat} (clear : s.suspend = 0) (since : s.pp.chg.clearAt = some k) : s.chgCheck = s := by
  have same : s.setChg { s.pp.chg with clearAt := some k } = s := by rw [← since]; rfl
  unfold State.chgCheck
  dsimp only
  rw [if_pos clear, since]
  exact (if_neg fun held => held.2 clear).trans same

theorem State.chgCheck_starts (clear : s.suspend = 0) (none_ : s.pp.chg.clearAt = none) :
    s.chgCheck = s.setChg { s.pp.chg with clearAt := some s.now } := by
  unfold State.chgCheck
  dsimp only
  rw [if_pos clear, none_]
  exact if_neg fun held => held.2 clear

theorem exec_chgResume_suspended {vbat k : Nat} (susp : s.chgCheck.chgState = 3) (since : s.chgCheck.pp.chg.clearAt = some k) :
    exec (.chgResume vbat) s = .next ((s.chgCheck.due (k + 100 * engPerMs)).chgTo (s.chgCheck.entryE vbat)) := by
  change execChgResume vbat s = _
  unfold execChgResume
  dsimp only
  rw [since]
  exact congrArg Host.Outcome.next (if_pos susp)

theorem exec_chgResume_else {vbat : Nat} (h : s.chgCheck.chgState ≠ 3 ∨ s.chgCheck.pp.chg.clearAt = none) :
    exec (.chgResume vbat) s = .next s.chgCheck := by
  change execChgResume vbat s = _
  unfold execChgResume
  dsimp only
  split
  · rename_i k since
    exact congrArg Host.Outcome.next (if_neg (h.resolve_right (by rw [since]; exact Option.some_ne_none k)))
  · rfl

end Sys2Proof.Machine

open Sys2Proof Sys2Proof.Machine

/-- Settles O55: each command's branch, by the conditions under which it runs. -/
theorem powerPathCommands : Obligations.PowerPathCommands := by
  unfold Obligations.PowerPathCommands
  refine ⟨?_, ?_, ?_, ?_, ?_, ?_, ?_, ?_, ?_, ?_, ?_, ?_, ?_, ?_, ?_, ?_, ?_, ?_, ?_, ?_, ?_⟩
  · intro causes vin k s good up range at_ lowest
    change execVinLoss causes vin s = _
    rw [execVinLoss, find?_lowest_cause range at_ lowest]
    exact congrArg Host.Outcome.next (if_pos ⟨good, up⟩)
  · intro vin rise retOk strap a b c s good qual enough below ha hb hc
    subst ha hb hc
    have fits : s.vinFits vin = true := by
      simp only [State.vinFits, Bool.and_eq_true, Bool.or_eq_true, decide_eq_true_eq]
      exact ⟨enough, below⟩
    exact congrArg Host.Outcome.next (if_pos ⟨good, qual, fits⟩)
  · exact fun s start => congrArg Host.Outcome.next (if_pos start)
  · exact fun vin s start => congrArg Host.Outcome.next (if_pos start)
  · exact fun s works => congrArg Host.Outcome.next (if_pos works)
  · exact fun s clamps => congrArg Host.Outcome.next (if_pos clamps)
  · exact fun vin s clamps => congrArg Host.Outcome.next (if_pos clamps)
  · intro t s up unstable ht
    subst ht
    exact congrArg Host.Outcome.next (if_pos ⟨up, unstable⟩)
  · exact fun s path => congrArg Host.Outcome.next (if_pos path)
  · exact fun s => rfl
  · exact fun low s good => congrArg Host.Outcome.next (if_pos good)
  · exact fun v s mode => congrArg Host.Outcome.next (if_pos (mode.imp State.inMode_of_eq State.inMode_of_eq))
  · intro v t s good ht
    have open_ : s.ppOn = true := good
    change execPmidUv v s = _
    rw [execPmidUv, if_pos open_]
    dsimp only
    rw [← ht]
  · exact fun s good => congrArg Host.Outcome.next (if_pos good)
  · intro t s good awake absent ht
    subst ht
    exact congrArg Host.Outcome.next ((if_pos ⟨good, State.not_inMode awake, Bool.eq_false_iff.1 absent⟩).trans (if_pos rfl))
  · intro t s good awake absent ht
    subst ht
    exact congrArg Host.Outcome.next ((if_pos ⟨good, State.not_inMode awake, Bool.eq_false_iff.1 absent⟩).trans (if_neg Bool.false_ne_true))
  · intro id vbat a b c s good awake qual absent ha hb hc
    subst ha hb hc
    exact congrArg Host.Outcome.next (if_pos ⟨good, qual, Bool.eq_false_iff.1 absent, State.not_inMode awake⟩)
  · intro vbat a b s rests ha hb
    subst ha hb
    exact congrArg Host.Outcome.next (if_pos rests)
  · exact fun sign s good present awake cc cv => congrArg Host.Outcome.next (if_pos ⟨good, present, State.not_inMode awake, cc, cv⟩)
  · intro ntcOpen idOpen a b s park ha hb present sign first
    subst ha hb
    exact congrArg Host.Outcome.next ((if_pos (State.inMode_of_eq park)).trans (if_pos ⟨present, sign, first⟩))
  · intro ntcOpen idOpen a b s park ha hb none_
    subst ha hb
    refine congrArg Host.Outcome.next ((if_pos (State.inMode_of_eq park)).trans (if_neg fun removal => ?_))
    obtain ⟨present, sign, first⟩ := removal
    rcases none_ with absent | ⟨ntc, id⟩ | later
    · exact Bool.eq_false_iff.1 absent present
    · exact sign.elim (Bool.eq_false_iff.1 ntc) (Bool.eq_false_iff.1 id)
    · exact later first

/-- Settles O56: each row's branch, after the check of the suspend conditions. -/
theorem chargerCommands : Obligations.ChargerCommands := by
  unfold Obligations.ChargerCommands
  refine ⟨?_, ?_, ?_, ?_, ?_, ?_, ?_, ?_, ?_, ?_, ?_, ?_, ?_, ?_, ?_, ?_, ?_, ?_, ?_, ?_, ?_, ?_, ?_, ?_⟩
  · exact fun v vbat s open_ bus => congrArg Host.Outcome.next (s.bus_quiet _ _ open_ bus)
  · exact fun v vbat s enc ok => if_pos ⟨enc, Bool.eq_false_iff.1 ok⟩
  · intro v vbat s bad
    refine if_neg fun good => ?_
    exact bad.elim (Bool.eq_false_iff.1 · good.1) good.2
  · exact fun v vbat s open_ bus => congrArg Host.Outcome.next (s.bus_quiet _ _ open_ bus)
  · exact fun headroom s good => congrArg Host.Outcome.next (if_pos good)
  · exact fun s charges held => State.chgCheck_suspends charges held
  · exact fun s k clear since => State.chgCheck_counts clear since
  · exact fun s clear none_ => State.chgCheck_starts clear none_
  · intro vbat k t s ht susp since
    subst ht
    exact exec_chgResume_suspended susp since
  · intro vbat t s ht else_
    subst ht
    exact exec_chgResume_else else_
  · intro t s ht state
    subst ht
    exact congrArg Host.Outcome.next (if_pos state)
  · intro t s ht state
    subst ht
    exact congrArg Host.Outcome.next (if_neg state)
  · intro t s ht state
    subst ht
    exact congrArg Host.Outcome.next (if_pos state)
  · intro t s probe ht state
    subst ht
    exact congrArg Host.Outcome.next ((if_neg (Bool.eq_false_iff.1 probe)).trans (if_pos state))
  · intro t s probe ht state
    subst ht
    exact congrArg Host.Outcome.next ((if_neg (Bool.eq_false_iff.1 probe)).trans (if_pos state))
  · intro t s probe ht state
    subst ht
    exact congrArg Host.Outcome.next ((if_neg (Bool.eq_false_iff.1 probe)).trans (if_pos state))
  · intro t s ht state
    subst ht
    exact congrArg Host.Outcome.next (if_pos state)
  · exact fun vbat s state => congrArg Host.Outcome.next (if_pos state)
  · exact fun vbat s state => congrArg Host.Outcome.next (if_pos state)
  · exact fun vbat s state => congrArg Host.Outcome.next (if_pos state)
  · exact fun vbat s present fresh => congrArg Host.Outcome.next (if_pos ⟨present, Bool.eq_false_iff.1 fresh⟩)
  · exact fun s probe => congrArg Host.Outcome.next (if_pos probe)
  · intro i k s charges two free probe hi hk other
    subst hi hk
    exact congrArg Host.Outcome.next (if_pos ⟨charges, two, other, free, Bool.eq_false_iff.1 probe⟩)
  · intro a b s state ha hb
    subst ha hb
    exact congrArg Host.Outcome.next (if_pos state)

end

section
/-! The windows, the updates and the captures of the fuel gauge (R286 to R306). -/

namespace Sys2Proof.Machine

variable {s : State}

/-! A window (R287, R288, R290). -/

/-- What a window adds to the sums; `sec` and `wins` are what it leaves of the second. -/
def Gauge.windowed (g : Gauge) (i : Int) (v : Nat) (sec : Int) (wins : Nat) : Gauge :=
  { g with
    sumI := g.sumI + sat i (-131071) 131071, sumV := g.sumV + (min v 65535 : Nat), wins := g.wins + 1,
    recent := (sat i (-131071) 131071, min v 65535) :: g.recent.take 3, secI := sec, secWins := wins,
    capture := g.capture.map fun c => c.window (sat i (-131071) 131071) (min v 65535), sinceChange := incSat g.sinceChange 5 }

theorem exec_gaugeWindow_within {i : Int} {v : Nat} (runs : s.gaugeRuns = true) (within : s.gg.secWins + 1 < 32768) :
    exec (.gaugeWindow i v) s = .next (
      let t := s.setGg (s.gg.windowed i v (s.gg.secI + sat i (-131071) 131071) (s.gg.secWins + 1))
      if 131071 < i.natAbs then t.set F.GG_STAT_ISAT 1 else t) := by
  have part : decide (32768 ≤ s.gg.secWins + 1) = false := decide_eq_false (by omega)
  change execGaugeWindow i v s = _
  rw [execGaugeWindow, if_pos runs]
  dsimp only
  rw [part]
  simp only [Bool.false_eq_true, if_false, decide_eq_true_eq]
  rfl

theorem exec_gaugeWindow_second {i : Int} {v : Nat} (runs : s.gaugeRuns = true) (full : 32768 ≤ s.gg.secWins + 1) :
    exec (.gaugeWindow i v) s = .next (
      let t := s.setGg (s.gg.windowed i v 0 0)
      let u := if 131071 < i.natAbs then t.set F.GG_STAT_ISAT 1 else t
      if ((s.gg.secI + sat i (-131071) 131071).natAbs : Int) * 625 < 20 * 32768 * s.rsh ∧ ¬ s.flag F.GG_STAT_FROZEN then u.incSatF F.GG_RELAX_SEC
      else u.set F.GG_RELAX_SEC 0) := by
  change execGaugeWindow i v s = _
  rw [execGaugeWindow, if_pos runs]
  dsimp only
  rw [decide_eq_true full]
  simp only [if_true, decide_eq_true_eq]
  rfl

theorem State.gaugeRuns_of_park (h : s.dev.mode = .park) : s.gaugeRuns = true := by
  rw [State.gaugeRuns, State.inMode_of_eq h, Bool.or_true, Bool.true_or]

/-! A capture (R294, R295). -/

theorem exec_captureComplete {c : Capture} (some_ : s.gg.capture = some c) (skip : c.skip = 0) (left : c.left = 0) :
    exec .captureComplete s = .next (
      let t := s.setGg { s.gg with capture := none }
      if c.ended then t.captureDone c.probe 5 none
      else if c.changed then t.captureDone c.probe 6 none
      else if ((c.postI - c.preI).natAbs : Int) * 625 < (s.get F.GG_IMP_CFG_CAP_MIN_DI : Int) * 4 * s.rsh then t.captureDone c.probe 2 none
      else
        let r := tdiv ((c.postV - c.preV) * s.rsh * 25) (c.postI - c.preI)
        if r < 1 ∨ 50000 < r then t.captureDone c.probe 3 (some r)
        else
          let x := tdiv (r * 1024) s.tempFactor
          let old : Int := s.get (bandField s.band)
          let u := if s.bitF F.GG_LEARN_LMASK s.band then t.putNat (bandField s.band) (old + rshr (x - old) (s.get F.GG_IMP_CFG_RLRN))
            else (t.putNat (bandField s.band) x).putBitF F.GG_LEARN_LMASK s.band true
          (u.setGg { u.gg with accepted := true }).captureDone c.probe 0 (some r)) := by
  change execCaptureComplete s = _
  rw [execCaptureComplete, some_]
  exact congrArg Host.Outcome.next (if_pos ⟨skip, left⟩)

theorem exec_captureTrigger_run (run : s.dev.mode = .run) (live : s.mapsLive = true) (seg : s.segAt s.seg = 1) :
    exec (.captureTrigger false) s = .next (s.fireOn 2 0 fun x => x.captureTrigger false) :=
  congrArg Host.Outcome.next ((if_pos (State.inMode_of_eq run)).trans ((if_neg Bool.false_ne_true).trans (if_pos ⟨live, seg⟩)))

/-! The start (R305, R306). -/

/-- The state in which the start decision is made. -/
def State.gaugeDecides (s : State) : State :=
  (s.setGg { s.gg with startDue := false, removedAt := none, startAnchor := none }).set F.GG_STAT_FROZEN 0

/-- The values are of the pack that is still in place: the removal, or the record `b`, is less than half an hour old (R305, R306). -/
def State.gaugeFresh (s : State) (b : List Byte) : Bool :=
  s.rtcValid && (if s.flag F.GG_STAT_FROZEN then (match s.gg.removedAt with
      | some t => decide (s.rtcSec < t + 1800)
      | none => false) else decide (leField b 14 4 ≠ 0) && decide (s.rtcSec < leField b 14 4 + 1800))

theorem State.gaugeFresh_of_invalid {b : List Byte} (h : s.rtcValid = false) : s.gaugeFresh b = false := by
  rw [State.gaugeFresh, h, Bool.false_and]

theorem State.gaugeFresh_of_record {b : List Byte} (valid : s.rtcValid = true) (thawed : s.flag F.GG_STAT_FROZEN = false) :
    s.gaugeFresh b = (decide (leField b 14 4 ≠ 0) && decide (s.rtcSec < leField b 14 4 + 1800)) := by
  rw [State.gaugeFresh, valid, Bool.true_and, if_neg (Bool.eq_false_iff.1 thawed)]

theorem State.gaugeFresh_of_removal {b : List Byte} {k : Nat} (valid : s.rtcValid = true) (frozen : s.flag F.GG_STAT_FROZEN = true)
    (removed : s.gg.removedAt = some k) : s.gaugeFresh b = decide (s.rtcSec < k + 1800) := by
  rw [State.gaugeFresh, valid, Bool.true_and, if_pos frozen, removed]

theorem State.gaugeFresh_of_old_removal {b : List Byte} (valid : s.rtcValid = true) (frozen : s.flag F.GG_STAT_FROZEN = true)
    (old : ∀ k, s.gg.removedAt = some k → k + 1800 ≤ s.rtcSec) : s.gaugeFresh b = false := by
  cases removed : s.gg.removedAt with
  | none => rw [State.gaugeFresh, valid, Bool.true_and, if_pos frozen, removed]
  | some k => rw [State.gaugeFresh_of_removal valid frozen removed, decide_eq_false (by have := old k removed; omega)]

theorem exec_gaugeStart_relearn (due : s.gg.startDue = true) (unknown : s.newestBody 1 = none ∨ s.gg.idMatch = false) :
    exec .gaugeStart s = .next s.gaugeDecides.gaugeRelearn := by
  refine congrArg Host.Outcome.next ((if_pos due).trans ?_)
  dsimp only
  split
  · rename_i body known
    rcases unknown with none_ | other
    · exact absurd (none_.symm.trans body) (by simp)
    · exact absurd (other.symm.trans known) (by decide)
  · rfl

section
variable {b : List Byte} (due : s.gg.startDue = true) (body : s.newestBody 1 = some b) (known : s.gg.idMatch = true)
include due body known

theorem exec_gaugeStart_anchor (old : s.gaugeFresh b = false) :
    exec .gaugeStart s = .next (
      let t := s.gaugeDecides.gaugeRestore b
      (t.setGg { t.gg with startAnchor := some (0, !s.rtcValid) }).set F.GG_STAT_AVALID 0) := by
  refine congrArg Host.Outcome.next ((if_pos due).trans ?_)
  dsimp only
  split
  · rename_i at_ _
    cases body.symm.trans at_
    exact if_neg (Bool.eq_false_iff.1 old)
  · rename_i other
    exact absurd known (other _ body)

theorem exec_gaugeStart_fresh (fresh : s.gaugeFresh b = true) :
    exec .gaugeStart s = .next (
      let t := s.gaugeDecides.gaugeRestore b
      let u := t.setGg (if s.flag F.GG_STAT_FROZEN then t.gg else { t.gg with
        qc := signed (leField b 8 6) 48, aqc := signed (leField b 18 6) 48, asoc := leField b 24 2 })
      let w := if s.flag F.GG_STAT_FROZEN then u else u.put F.GG_STAT_AVALID (bitOf (leField b 6 1) 1)
      let x := if s.flag F.GG_STAT_VALID then w else w.setGg { w.gg with socR := w.socTarget w.ruse, tPrev := w.socTarget w.ruse }
      (((x.emit 8 4 [(1, 1), (1, 1), (s.get F.PP_PACK_STAT_ID, 2)]).gaugeCommit 3).set F.GG_STAT_VALID 1).showSoc) := by
  refine congrArg Host.Outcome.next ((if_pos due).trans ?_)
  dsimp only
  split
  · rename_i at_ _
    cases body.symm.trans at_
    exact if_pos fresh
  · rename_i other
    exact absurd known (other _ body)

end

end Sys2Proof.Machine

open Sys2Proof Sys2Proof.Machine

/-- Settles O58: each command's branch; a window by whether it ends the second, the start by whether the values are fresh. -/
theorem gaugeCommands : Obligations.GaugeCommands := by
  unfold Obligations.GaugeCommands
  refine ⟨?_, ?_, ?_, ?_, ?_, ?_, ?_, ?_, ?_, ?_, ?_, ?_, ?_, ?_, ?_, ?_, ?_, ?_, ?_, ?_, ?_, ?_⟩
  · intro i v t s runs ht within
    rw [exec_gaugeWindow_within runs within, ht]
    rfl
  · intro i v q t s runs hq ht full small
    rw [exec_gaugeWindow_second runs full, hq, ht]
    dsimp only
    rw [if_neg (Nat.not_lt.2 small)]
    rfl
  · intro i v q t s runs hq ht full wide
    rw [exec_gaugeWindow_second runs full, hq, ht]
    dsimp only
    rw [if_pos wide]
    rfl
  · intro a b n s runs handed
    refine congrArg Host.Outcome.next ((if_pos runs).trans ?_)
    rw [handed]
  · intro s runs handed awake
    refine congrArg Host.Outcome.next ((if_pos runs).trans ?_)
    rw [handed, State.inMode_of_ne awake]
    rfl
  · intro s park handed
    refine congrArg Host.Outcome.next ((if_pos (State.gaugeRuns_of_park park)).trans ?_)
    rw [handed, State.inMode_of_eq park]
    rfl
  · intro i v f p t s runs snap ht
    change execGaugeSnapshot i v s = _
    rw [execGaugeSnapshot, snap]
    exact congrArg Host.Outcome.next ((if_pos runs).trans (by rw [ht]))
  · intro t s run live seg crossed
    rw [exec_captureTrigger_run run live seg, State.fireOn, crossed]
    rfl
  · intro t s run live seg merged
    rw [exec_captureTrigger_run run live seg, State.fireOn, merged]
    rfl
  · exact fun s run trig => congrArg Host.Outcome.next ((if_pos (State.inMode_of_eq run)).trans ((if_pos rfl).trans (if_pos trig)))
  · intro c t s some_ skip left ht ended
    subst ht
    rw [exec_captureComplete some_ skip left]
    exact congrArg Host.Outcome.next (if_pos ended)
  · intro c t s some_ skip left ht ended changed
    subst ht
    rw [exec_captureComplete some_ skip left]
    exact congrArg Host.Outcome.next ((if_neg (Bool.eq_false_iff.1 ended)).trans (if_pos changed))
  · intro c t s some_ skip left ht ended changed small
    subst ht
    rw [exec_captureComplete some_ skip left]
    exact congrArg Host.Outcome.next ((if_neg (Bool.eq_false_iff.1 ended)).trans ((if_neg (Bool.eq_false_iff.1 changed)).trans (if_pos small)))
  · intro c t r s some_ skip left ht ended changed enough hr range
    subst ht hr
    rw [exec_captureComplete some_ skip left]
    exact congrArg Host.Outcome.next
      ((if_neg (Bool.eq_false_iff.1 ended)).trans ((if_neg (Bool.eq_false_iff.1 changed)).trans ((if_neg enough).trans (if_pos range))))
  · intro c t u r x s some_ skip left ht ended changed enough hr range hx hu
    subst ht hr hx hu
    rw [exec_captureComplete some_ skip left]
    exact congrArg Host.Outcome.next
      ((if_neg (Bool.eq_false_iff.1 ended)).trans ((if_neg (Bool.eq_false_iff.1 changed)).trans ((if_neg enough).trans (if_neg range))))
  · exact fun s runs => congrArg Host.Outcome.next (if_pos runs)
  · exact fun s due unknown => exec_gaugeStart_relearn due unknown
  · intro b t s due body known invalid ht
    subst ht
    rw [exec_gaugeStart_anchor due body known (State.gaugeFresh_of_invalid invalid), invalid]
    rfl
  · intro b t u w v s due body known valid thawed recent ht hu hw hv
    have fresh : s.gaugeFresh b = true := by
      rw [State.gaugeFresh_of_record valid thawed, decide_eq_true recent.1, decide_eq_true recent.2, Bool.and_true]
    have restored : s.gaugeDecides.gaugeRestore b = t := ht.symm
    rw [exec_gaugeStart_fresh due body known fresh]
    dsimp only at hu hw ⊢
    rw [restored, if_neg (Bool.eq_false_iff.1 thawed), if_neg (Bool.eq_false_iff.1 thawed), ← hu, ← hw, ← hv]
  · intro b k t w v s due body known valid frozen removed recent ht hw hv
    have fresh : s.gaugeFresh b = true := by rw [State.gaugeFresh_of_removal valid frozen removed, decide_eq_true recent]
    have restored : s.gaugeDecides.gaugeRestore b = t := ht.symm
    have held : t.setGg t.gg = t := rfl
    rw [exec_gaugeStart_fresh due body known fresh]
    dsimp only at hw ⊢
    rw [restored, if_pos frozen, if_pos frozen, held, ← hw, ← hv]
  · intro b t s due body known valid thawed old ht
    subst ht
    have stale : s.gaugeFresh b = false := by
      rw [State.gaugeFresh_of_record valid thawed]
      rcases old with never | late
      · rw [decide_eq_false (not_not.2 never), Bool.false_and]
      · rw [decide_eq_false (Nat.not_lt.2 late), Bool.and_false]
    rw [exec_gaugeStart_anchor due body known stale, valid]
    rfl
  · intro b t s due body known valid frozen old ht
    subst ht
    rw [exec_gaugeStart_anchor due body known (State.gaugeFresh_of_old_removal valid frozen old), valid]
    rfl

end
